-- ==== Sys2Proof/Word.lean ====
section
/-!
DEFINITION. The word types of the FN9620 model and their plainest arithmetic.
-/
namespace Sys2Proof

/-- One byte. -/
abbrev Byte := BitVec 8

/-- A 64-bit register or scalar word (R7: all CSRs are 64 bits wide). -/
abbrev Word := BitVec 64

/-- A 32-bit word. -/
abbrev Half := BitVec 32

/-- One 64-byte line of stack memory, byte 0 least significant. -/
abbrev Line := BitVec 512

end Sys2Proof
end

