-- ==== Sys2Proof/Commands.lean ====
section
/-!
DEFINITION. The operands that commands carry from outside: register accesses, packets, messages and readings.
-/
namespace Sys2Proof

/-- The width of a CSR access from the host or the debug port (R7). -/
inductive AccessWidth where
  | whole | low | high
  deriving DecidableEq, Repr

/-- What a RoCEv2 packet asks or brings (R410, R412): a SEND, an RDMA READ, an RDMA WRITE, an acknowledgement, or the SEND
by which a line member reports that it has finished reading this device's SRC (R423), or that by which a member in doubt asks its
leader (R428). -/
inductive PktOp where
  | send
  | read (addr : BitVec 64) (len : BitVec 32)
  | write (addr : BitVec 64) (data : List Byte)
  | ack
  | finished (group : Fin 16) (tag : Fin 4) (rank : Fin 64)
  | ask (group : Fin 16) (btick : BitVec 48)
  deriving DecidableEq, Repr

/-- A RoCEv2 packet as it arrives (R409, R410, R412): its source address, the local queue pair number, its PSN, what it
carries, and its congestion mark. -/
structure Packet where
  src : BitVec 32
  qpn : BitVec 24
  psn : BitVec 24
  op : PktOp
  ce : Bool
  deriving DecidableEq, Repr

/-- A member's publication of its side of a collective phase, under its key (R423). -/
structure Publication where
  group : Fin 16
  tag : Fin 4
  btick : BitVec 48
  rank : Fin 64
  deriving DecidableEq, Repr

/-- A 64 KiB piece of a member's SRC that arrives (R423). -/
structure Piece where
  group : Fin 16
  tag : Fin 4
  rank : Fin 64
  index : Nat
  data : List Byte
  deriving DecidableEq, Repr

/-- A message forwarded over Ethernet (R429, R430): the device it comes from, that device's mailbox (64 for a doorbell
notice), the mailbox it is for, LEN, and its words. -/
structure FwdMsg where
  dev : Fin 64
  src : Nat
  mailbox : Fin 64
  len : Nat
  words : List Word
  deriving DecidableEq, Repr

/-- The reply to a forwarded message (R430): the outcome of R375 by its RESULT code, or 7 for DOWN. -/
structure FwdReply where
  dev : Fin 64
  src : Nat
  result : Fin 8
  deriving DecidableEq, Repr

/-- A forwarded DMA descriptor (R431): its name at the gateway and its words. -/
structure FwdDma where
  id : Nat
  words : List Word
  deriving DecidableEq, Repr

/-- The end of a forwarded DMA descriptor (R431): the outcome of device DEV's check, and after a pass the outcome of the
transfer; the bytes read for DIR 1. -/
structure FwdDmaReply where
  ch : Fin 4
  status : Fin 8
  data : List Byte
  deriving DecidableEq, Repr

/-- What the assay die measured since the last mark (R458, R459, R462): energy in nJ, duration in ns, a clipped sample, the
inlet out of range, a failed self-check. -/
structure MeterReading where
  nj : Nat
  dur : Nat
  range : Bool
  tempOut : Bool
  fault : Bool
  deriving DecidableEq, Repr

/-- What the header of a staged image says, and whether its signature verifies (R476, R485). -/
structure ImageHead where
  comp : BitVec 32
  version : BitVec 32
  good : Bool
  deriving DecidableEq, Repr

/-- One housekeeping reading (R440): channel and raw value. -/
structure HkReading where
  channel : Fin 256
  value : BitVec 16
  deriving DecidableEq, Repr

end Sys2Proof
end

