-- ==== Sys2Proof/Syntax.lean ====
section
/-!
DEFINITION. The commands: one constructor per row of the opcode table (operations and events), with its operands.
A core's instruction names the core; the word it runs is the one the core fetches at its program counter.
-/
namespace Sys2Proof

/-- One command: a row of the table of operations and events. -/
inductive Instr where
  /-- BASE_TICK_BOUNDARY (R30): TICK_COUNT reaches a multiple of PERIOD_US × 1,000 by counting, which marks a base tick boundary and advances BTICK_NUM. -/
  | baseTickBoundary
  /-- OPP_CLOCK_SWITCH (R436): Once the raised voltage is reached, at most 40 µs after the boundary, the clock switches to the higher frequency without pause. -/
  | oppClockSwitch (d : Fin 2)
  /-- EVE_BEGIN (R35): The eve of a window begins W − E µs after the window opens, and the step controller stops issuing new work for the partition. -/
  | eveBegin (p : Fin 16)
  /-- STEP_TICK (R36): At a partition's step boundary the step controller samples every engine for busy work and then either commits the step or abandons it. -/
  | stepTick (p : Fin 16)
  /-- DIE1_READY_REPORT (R40): The die 1 step controller's ready report for a cross-die partition reaches the die 0 step controller, or is discarded if it arrives late. -/
  | die1ReadyReport (p : Fin 16)
  /-- XDIE_TIMEOUT (R40): No die 1 ready report has arrived 2 µs after the tick, and the step is abandoned with cause XDIE_TIMEOUT. -/
  | xdieTimeout (p : Fin 16)
  /-- COMMIT (R37): The commit sequencer exchanges the sequence-table copies, writes the staged ring records and producer indices, and flips GEN, all atomically. -/
  | commit (p : Fin 16)
  /-- ABANDONMENT_COMPLETE (R42): All engines have stopped after an abandonment, the working state is discarded, and OVERRUN_REC is written. -/
  | abandonmentComplete (p : Fin 16)
  /-- ADMISSION (R60): During the current window the step controller admits work for the next window within the finish limit, the eve, the energy share and the page reservations. -/
  | admission (p : Fin 16)
  /-- SUBMIT (R329): A SUBMIT request is checked and either creates a PREFILL entry in the working copy or posts REJECT. -/
  | submit (p : Fin 16)
  /-- CANCEL (R347): A CANCEL request with a matching REQ_ID ends its sequence at the commit, freeing its slots and images, or else posts REJECT STALE. -/
  | cancel (p : Fin 16)
  /-- BAD_REQUEST (R329): A request entry with an illegal OPC or a non-zero unused field is consumed without effect, sets REQ_BAD and posts REJECT BAD_FIELD. -/
  | badRequest (p : Fin 16)
  /-- SWAP_OUT (R340): During the step the swap engine writes a victim slot's pages and granule records to the host swap pool. -/
  | swapOut (p : Fin 16)
  /-- RESTORE (R341): During the step the swap engine reads a pool image back into newly reserved slots and compares the recorded CRCs. -/
  | restore (p : Fin 16)
  /-- TICK_PERIOD_WRITE (R31): A TICK_PERIOD write takes effect at once, or at the next leap tick, or is refused with PERIOD_BAD. -/
  | tickPeriodWrite (v : Word)
  /-- TICK_COUNT_WRITE (R32): A TICK_COUNT write takes effect when no partition is running or at a leap tick start, and is otherwise refused with COUNT_REFUSED. -/
  | tickCountWrite (v : Word)
  /-- PTP_MESSAGE (R416): A PTP message arrives on the slave sublink, and the discipline loop slews or steps TICK_COUNT and updates TICK_SYNC. -/
  | ptpMessage (port : Fin 4) (offset : Int)
  /-- PTP_LOSS (R56): PTP messages stop arriving and TICK_SYNC passes to HOLDOVER. -/
  | ptpLoss
  /-- HOLDOVER_EXPIRY (R56): Holdover lasts 2 s, after which TICK_SYNC becomes FREE and SYNC_LOST is set. -/
  | holdoverExpiry
  /-- PTP_SYNC_SEND (R417): A master sends a two-step Sync on each master port every 2^−SYNC_LOG2 s. -/
  | ptpSyncSend (port : Fin 4)
  /-- LEAP_AT_WRITE (R50): A write of LEAP_AT is ignored while a leap tick is SCHEDULED or ACTIVE. -/
  | leapAtWrite (v : Word)
  /-- LEAP_ARM (R50): ARM schedules a leap tick at LEAP_AT, or is refused with LEAP_LATE, LEAP_BUSY or LEAP_DEFER. -/
  | leapArm (v : Word)
  /-- LEAP_CANCEL (R51): CANCEL drops a scheduled leap tick that carries no device claim, and is otherwise ignored with CANCEL_REFUSED. -/
  | leapCancel (v : Word)
  /-- LEAP_CLAIM_DEADLINE (R53): If the host has armed nothing by CLAIM_AT − Lmax − 1, the device schedules the leap at CLAIM_AT itself. -/
  | leapClaimDeadline
  /-- LEAP_TICK_BEGIN (R52): The leap tick begins at base tick LEAP_AT, and deferred period, count and step changes take effect. -/
  | leapTickBegin
  /-- LEAP_TICK_END (R52): The leap tick ends once TICK_COUNT has advanced LEN base ticks, or it extends under R54, and the held partitions resume. -/
  | leapTickEnd
  /-- STEP_CFG_WRITE (R63): A STEP_CFG write is clamped per field, or refused whole with CFG_REFUSED. -/
  | stepCfgWrite (p : Fin 16) (v : Word)
  /-- START (R58): START installs the requested almanac and puts an IDLE partition into RUNNING from its next boundary. -/
  | start (p : Fin 16)
  /-- STOP (R47): STOP puts the partition in STOPPED after the current step commits or abandons. -/
  | stop (p : Fin 16)
  /-- QUIESCE (R47): QUIESCE stops the partition and then makes it QUIESCED with all engines idle. -/
  | quiesce (p : Fin 16)
  /-- RESUME (R45): RESUME clears RETRY_COUNT and RETRY_EXHAUSTED, and runs a stopped or quiesced partition from its last committed step. -/
  | resume (p : Fin 16)
  /-- BLOCK_START (R66): An issuable BLOCK item starts on its core with the PC set, the registers cleared and the block arguments loaded. -/
  | blockStart (c : Fin 12)
  /-- BLOCK_END (R67): A block ends once END has retired and all its engine work and acknowledgements are complete, and its item counts as complete. -/
  | blockEnd (c : Fin 12)
  /-- FTQ_DRAIN (R80): A finished tile held in the finished-tile queue is written to its destination slots once the scoreboard allows. -/
  | ftqDrain (c : Fin 12)
  /-- STORE_QUEUE_DRAIN (R109): A queued store or TDST is performed at its point of coherence in program order. -/
  | storeQueueDrain (c : Fin 12)
  /-- RC_INV (R86): A write of one to CORE_CTRL.RC_INV invalidates the core's read cache. -/
  | rcInv (c : Fin 12)
  /-- TRF_CLEAR (R74): A write of one to CORE_CTRL.TRF_CLEAR clears the TRF in 3,072 cycles while the core is UNASSIGNED or IDLE. -/
  | trfClear (c : Fin 12)
  /-- CLR_CNT (R75): A write of one to CORE_CTRL.CLR_CNT clears ECC_STAT.TRF_CE. -/
  | clrCnt (c : Fin 12)
  /-- ADD (R99): RD receives RS1 + RS2. -/
  | axAdd (c : Fin 12)
  /-- SUB (R99): RD receives RS1 − RS2. -/
  | axSub (c : Fin 12)
  /-- AND (R99): RD receives RS1 AND RS2. -/
  | axAnd (c : Fin 12)
  /-- OR (R99): RD receives RS1 OR RS2. -/
  | axOr (c : Fin 12)
  /-- XOR (R99): RD receives RS1 XOR RS2. -/
  | axXor (c : Fin 12)
  /-- SLL (R99): RD receives RS1 shifted left. -/
  | axSll (c : Fin 12)
  /-- SRL (R99): RD receives RS1 shifted right with zero fill. -/
  | axSrl (c : Fin 12)
  /-- SRA (R99): RD receives RS1 shifted right with sign fill. -/
  | axSra (c : Fin 12)
  /-- SLT (R99): RD receives 1 if RS1 < RS2 signed, otherwise 0. -/
  | axSlt (c : Fin 12)
  /-- SLTU (R99): RD receives 1 if RS1 < RS2 unsigned, otherwise 0. -/
  | axSltu (c : Fin 12)
  /-- MUL (R99): RD receives the low 64 bits of the product. -/
  | axMul (c : Fin 12)
  /-- MULH (R99): RD receives the high 64 bits of the signed product. -/
  | axMulh (c : Fin 12)
  /-- MULHU (R99): RD receives the high 64 bits of the unsigned product. -/
  | axMulhu (c : Fin 12)
  /-- DIV (R100): Signed division rounded toward zero, with the defined results for division by zero and overflow. -/
  | axDiv (c : Fin 12)
  /-- DIVU (R99): Unsigned division. -/
  | axDivu (c : Fin 12)
  /-- REM (R100): Signed remainder with the sign of RS1. -/
  | axRem (c : Fin 12)
  /-- REMU (R99): Unsigned remainder. -/
  | axRemu (c : Fin 12)
  /-- MIN (R99): RD receives the signed minimum. -/
  | axMin (c : Fin 12)
  /-- MAX (R99): RD receives the signed maximum. -/
  | axMax (c : Fin 12)
  /-- MINU (R99): RD receives the unsigned minimum. -/
  | axMinu (c : Fin 12)
  /-- MAXU (R99): RD receives the unsigned maximum. -/
  | axMaxu (c : Fin 12)
  /-- CLZ (R99): RD receives the count of leading zero bits of RS1. -/
  | axClz (c : Fin 12)
  /-- POPC (R99): RD receives the count of set bits of RS1. -/
  | axPopc (c : Fin 12)
  /-- SEL (R99): RD receives RS2 if RS1 ≠ 0, otherwise RS3. -/
  | axSel (c : Fin 12)
  /-- ADDI (R101): RD receives RS1 plus the sign-extended immediate. -/
  | axAddi (c : Fin 12)
  /-- ANDI (R101): RD receives RS1 AND the immediate. -/
  | axAndi (c : Fin 12)
  /-- ORI (R101): RD receives RS1 OR the immediate. -/
  | axOri (c : Fin 12)
  /-- XORI (R101): RD receives RS1 XOR the immediate. -/
  | axXori (c : Fin 12)
  /-- SLLI (R101): RD receives RS1 shifted left by the immediate. -/
  | axSlli (c : Fin 12)
  /-- SRLI (R101): RD receives RS1 shifted right with zero fill by the immediate. -/
  | axSrli (c : Fin 12)
  /-- SRAI (R101): RD receives RS1 shifted right with sign fill by the immediate. -/
  | axSrai (c : Fin 12)
  /-- SLTI (R101): RD receives 1 if RS1 < IMM signed, otherwise 0. -/
  | axSlti (c : Fin 12)
  /-- SLTIU (R101): RD receives 1 if RS1 < IMM unsigned, otherwise 0. -/
  | axSltiu (c : Fin 12)
  /-- LI (R101): RD receives IMM48 sign-extended. -/
  | axLi (c : Fin 12)
  /-- LIH (R101): RD bits [63:48] receive IMM48 [15:0], and its low bits are kept. -/
  | axLih (c : Fin 12)
  /-- FADD (R102): FP32 addition. -/
  | axFadd (c : Fin 12)
  /-- FSUB (R102): FP32 subtraction. -/
  | axFsub (c : Fin 12)
  /-- FMUL (R102): FP32 multiplication. -/
  | axFmul (c : Fin 12)
  /-- FDIV (R102): FP32 division. -/
  | axFdiv (c : Fin 12)
  /-- FMA (R102): FP32 fused multiply-add, rounded once. -/
  | axFma (c : Fin 12)
  /-- FSQRT (R102): FP32 square root. -/
  | axFsqrt (c : Fin 12)
  /-- FCMP (R102): FP32 comparison under CC, writing 1 or 0. -/
  | axFcmp (c : Fin 12)
  /-- FCVT (R103): Conversion between FP32 and INT64 selected by CC. -/
  | axFcvt (c : Fin 12)
  /-- RDS (R104): RD receives the special register selected by CC. -/
  | axRds (c : Fin 12)
  /-- WRS (R104): VROW or SR_SEED receives RS1. -/
  | axWrs (c : Fin 12)
  /-- SETVL (R104): VL receives min(RS1, 262,144), and RD receives the value written. -/
  | axSetvl (c : Fin 12)
  /-- SETVLI (R104): VL receives the clamped immediate, and RD receives the value written. -/
  | axSetvli (c : Fin 12)
  /-- LD (R107): A zero-extended plain, volatile or acquire load after the checks of R106. -/
  | axLd (c : Fin 12)
  /-- LDS (R107): A sign-extended plain, volatile or acquire load. -/
  | axLds (c : Fin 12)
  /-- ST (R109): A plain or release store enters the store queue, opening the granule it touches. -/
  | axSt (c : Fin 12)
  /-- AMOADD (R110): An atomic add at the point of coherence, returning the old value. -/
  | axAmoadd (c : Fin 12)
  /-- AMOSWAP (R110): An atomic swap at the point of coherence. -/
  | axAmoswap (c : Fin 12)
  /-- AMOCAS (R110): An atomic compare-and-swap at the point of coherence. -/
  | axAmocas (c : Fin 12)
  /-- BEQ (R111): Branches if RS1 = RS2. -/
  | axBeq (c : Fin 12)
  /-- BNE (R111): Branches if RS1 ≠ RS2. -/
  | axBne (c : Fin 12)
  /-- BLT (R111): Branches if RS1 < RS2 signed. -/
  | axBlt (c : Fin 12)
  /-- BGE (R111): Branches if RS1 ≥ RS2 signed. -/
  | axBge (c : Fin 12)
  /-- BLTU (R111): Branches if RS1 < RS2 unsigned. -/
  | axBltu (c : Fin 12)
  /-- BGEU (R111): Branches if RS1 ≥ RS2 unsigned. -/
  | axBgeu (c : Fin 12)
  /-- JAL (R111): Jumps PC-relative and links the return address into RD. -/
  | axJal (c : Fin 12)
  /-- JALR (R111): Jumps through a register and links the return address into RD. -/
  | axJalr (c : Fin 12)
  /-- CSRR (R112): A core reads a 64-bit CSR after the alignment, grant and domain checks. -/
  | axCsrr (c : Fin 12)
  /-- CSRW (R112): A core writes a 64-bit CSR after the alignment, grant and domain checks. -/
  | axCsrw (c : Fin 12)
  /-- FENCE (R115): A FULL, STORE or LOAD fence stalls the scalar unit until its ordering condition holds. -/
  | axFence (c : Fin 12)
  /-- CINV (R118): Invalidates the core's read cache, with no ordering of its own. -/
  | axCinv (c : Fin 12)
  /-- SIG (R120): A release followed by adding n to a semaphore with saturation. -/
  | axSig (c : Fin 12)
  /-- WAIT (R120): Blocks in the semaphore's queue until the count is satisfied, then subtracts n and performs an acquire. -/
  | axWait (c : Fin 12)
  /-- TRYW (R120): Takes n from the semaphore if possible and acquires, otherwise returns 0. -/
  | axTryw (c : Fin 12)
  /-- SEMRD (R120): RD receives the semaphore counter. -/
  | axSemrd (c : Fin 12)
  /-- NOP (R123): Does nothing. -/
  | axNop (c : Fin 12)
  /-- END (R67): Retires the block's end. -/
  | axEnd (c : Fin 12)
  /-- TWAIT (R124): Holds in tick-wait once every earlier scalar access is performed. -/
  | axTwait (c : Fin 12)
  /-- POST (R125): Copies a record into the partition's commit staging for an output ring. -/
  | axPost (c : Fin 12)
  /-- RDWIN (R127): RD receives a window time selected by SEL. -/
  | axRdwin (c : Fin 12)
  /-- MMA (R135): Accumulates KL reduction steps into an MXU bank and, with FIN, drains the tile to the TRF. -/
  | axMma (c : Fin 12)
  /-- VADD (R138): D = A + B. -/
  | axVadd (c : Fin 12)
  /-- VSUB (R138): D = A − B. -/
  | axVsub (c : Fin 12)
  /-- VMUL (R138): D = A × B. -/
  | axVmul (c : Fin 12)
  /-- VMAC (R138): D = A × B + D, rounded once. -/
  | axVmac (c : Fin 12)
  /-- VMAX (R178): Element-wise maximum. -/
  | axVmax (c : Fin 12)
  /-- VMIN (R178): Element-wise minimum. -/
  | axVmin (c : Fin 12)
  /-- VCVT (R138): Converts A to DFMT, optionally with stochastic rounding. -/
  | axVcvt (c : Fin 12)
  /-- VEXP (R179): D = exp(A − B), correctly rounded. -/
  | axVexp (c : Fin 12)
  /-- VLOG (R179): D = natural logarithm of A. -/
  | axVlog (c : Fin 12)
  /-- VRCP (R179): D = 1 / A. -/
  | axVrcp (c : Fin 12)
  /-- VRSQ (R179): D = 1 / square root of A. -/
  | axVrsq (c : Fin 12)
  /-- VRSUM (R139): Pairwise sum of each row. -/
  | axVrsum (c : Fin 12)
  /-- VRMAX (R139): Maximum of each row. -/
  | axVrmax (c : Fin 12)
  /-- VRSSQ (R139): Pairwise sum of squares of each row. -/
  | axVrssq (c : Fin 12)
  /-- VSPLAT (R138): Writes the FP32 value of RS to every element. -/
  | axVsplat (c : Fin 12)
  /-- VMXQ (R140): MX quantization of A with E8M0 scales written at SB. -/
  | axVmxq (c : Fin 12)
  /-- VMXD (R140): MX dequantization of A using the scales at SB. -/
  | axVmxd (c : Fin 12)
  /-- VMLE (R180): Masks elements above the diagonal offset RS to −infinity. -/
  | axVmle (c : Fin 12)
  /-- VMGE (R180): Masks elements below the diagonal offset RS to −infinity. -/
  | axVmge (c : Fin 12)
  /-- TDLD (R143): Loads 64 bytes into a descriptor register and creates it. -/
  | axTdld (c : Fin 12)
  /-- TDSET (R143): Replaces one word of a descriptor register and re-creates it. -/
  | axTdset (c : Fin 12)
  /-- TDMOV (R143): Copies one descriptor register into another. -/
  | axTdmov (c : Fin 12)
  /-- TDINV (R143): Clears a descriptor register's VALID bit. -/
  | axTdinv (c : Fin 12)
  /-- TDST (R143): Stores a descriptor register's 64 bytes to memory. -/
  | axTdst (c : Fin 12)
  /-- XLD (R146): Transfers the elements of TDA into the TRF, verifying checksums. -/
  | axXld (c : Fin 12)
  /-- XST (R146): Transfers a TRF image into TDA, sealing the granules it writes in full. -/
  | axXst (c : Fin 12)
  /-- XMOV (R147): Layout-change copy from TDA to TDB. -/
  | axXmov (c : Fin 12)
  /-- XGATH (R149): Indexed row gather from TDA into the TRF. -/
  | axXgath (c : Fin 12)
  /-- XGATM (R149): Indexed row gather from TDA into TDC. -/
  | axXgatm (c : Fin 12)
  /-- XSCAT (R150): Indexed row scatter in STORE or ADD mode from the TRF into TDA. -/
  | axXscat (c : Fin 12)
  /-- XPF (R146): Prefetches the lines of TDA into the read cache. -/
  | axXpf (c : Fin 12)
  /-- CPH (R154): Hands a collective phase to the die's collective engine when it leaves the XE queue. -/
  | axCph (c : Fin 12)
  /-- CSYNC (R155): Waits for the local completion of the tagged phases, then performs an acquire. -/
  | axCsync (c : Fin 12)
  /-- PCW (R156): Writes a 128-bit pan command word into the TRF. -/
  | axPcw (c : Fin 12)
  /-- PISSUE (R157): Issues a pan batch of command words and payload through the PIP. -/
  | axPissue (c : Fin 12)
  /-- PSYNC (R158): Waits for the tagged pan batches to complete, then performs an acquire. -/
  | axPsync (c : Fin 12)
  /-- PTEST (R159): Returns the mask of tags that no incomplete batch holds. -/
  | axPtest (c : Fin 12)
  /-- PAYLOAD_DELIVERY (R230): A batch's payload is delivered into a stack's payload store once enough blocks are free, and then its words. -/
  | payloadDelivery (c : Fin 12) (t : Fin 20)
  /-- PAN_BATCH_START (R232): A pan starts its next batch in order of first-word arrival, clearing its operand buffer marks and accumulator. -/
  | panBatchStart (t : Fin 20) (u : Fin 32)
  /-- PAN_LOAD (R236): Pan LOAD fills the operand buffer from the banks or the payload. -/
  | panLoad (t : Fin 20) (u : Fin 32)
  /-- PAN_STORE (R237): Pan STORE writes the accumulator or operand buffer through DA with conversion. -/
  | panStore (t : Fin 20) (u : Fin 32)
  /-- PAN_COPY (R238): Pan COPY copies DA to DC within the stack. -/
  | panCopy (t : Fin 20) (u : Fin 32)
  /-- PAN_GEMV (R239): Pan GEMV computes a small-batch matrix product into the accumulator. -/
  | panGemv (t : Fin 20) (u : Fin 32)
  /-- PAN_PATTN (R241): Pan PATTN computes partial attention over the listed cache pages. -/
  | panPattn (t : Fin 20) (u : Fin 32)
  /-- PAN_GATHER (R243): Pan GATHER performs an indexed row gather. -/
  | panGather (t : Fin 20) (u : Fin 32)
  /-- PAN_SCADD (R244): Pan SCADD performs an indexed row scatter-add. -/
  | panScadd (t : Fin 20) (u : Fin 32)
  /-- PAN_ELEM (R245): Pan ELEM applies an element-wise function selected by FUNC. -/
  | panElem (t : Fin 20) (u : Fin 32)
  /-- PAN_STAT (R247): Pan STAT writes row statistics into the accumulator. -/
  | panStat (t : Fin 20) (u : Fin 32)
  /-- PAN_SEAL (R248): Pan SEAL recomputes and seals the checksums of the granules it covers. -/
  | panSeal (t : Fin 20) (u : Fin 32)
  /-- PAN_FENCE (R249): Pan FENCE holds later commands until earlier writes are performed. -/
  | panFence (t : Fin 20) (u : Fin 32)
  /-- PAN_SYNC (R250): Pan SYNC writes a status record and optionally signals a semaphore. -/
  | panSync (t : Fin 20) (u : Fin 32)
  /-- MICRO_OP_BOUNDARY (R254): At a pan micro-operation boundary the pan handles abandonment, holds, waiting host reads and refresh, then runs its next micro-operation. -/
  | microOpBoundary (t : Fin 20) (u : Fin 32)
  /-- PAN_COMPLETION_REPORT (R257): A pan's completion report for a batch reaches the issuing core, completing the batch and any PSYNC waiting on it. -/
  | panCompletionReport (t : Fin 20) (u : Fin 32)
  /-- REFRESH_DUE (R212): A pseudo-channel's refresh falls due and issues at once, waits for a boundary, or is postponed. -/
  | refreshDue (t : Fin 20) (u : Fin 32)
  /-- NEIGHBOUR_ROW_REFRESH (R214): A row's activation count reaches the threshold, and the rows above and below are refreshed. -/
  | neighbourRowRefresh (t : Fin 20) (u : Fin 32) (bank : Fin 32)
  /-- STACK_REQUEST_ISSUE (R217): A waiting request issues to its bank once its sluice LEVEL and the stack bucket are positive, and LEVEL is charged. -/
  | stackRequestIssue (t : Fin 20) (u : Fin 32) (n : Nat)
  /-- SLUICE_RATE_WRITE (R220): A sluice RATE write is accepted or refused against PWR_CAP and the line budget. -/
  | sluiceRateWrite (t : Fin 20) (sl : Fin 17) (v : Word)
  /-- RAKE_ISSUE (R299): The rake issues one granule when the pseudo-channel's queue is empty and the stack bucket is positive, or forcibly at DEBT_MAX. -/
  | rakeIssue (t : Fin 20)
  /-- RAKE_RESTART (R298): RAKE_CTRL.RESTART sets the rake's next position to the stack's first line. -/
  | rakeRestart (t : Fin 20)
  /-- MIRROR_REPAIR (R293): After every mapping partition is stopped, the device copies the verified replica over the poisoned granule and resumes the stopped partitions. -/
  | mirrorRepair (e : Fin 16)
  /-- ERR_VERIFY (R286): GO tests one granule's CRC and sets RESULT within 5 µs. -/
  | errVerify (v : Word)
  /-- ERR_REPAIR (R294): GO reseals a host-repaired granule and optionally resumes the partitions stopped for it. -/
  | errRepair (v : Word)
  /-- ERR_LOG_CONSUME (R295): A write of CONS consumes error records, and a value outside PROD − 64 to PROD is ignored. -/
  | errLogConsume (v : Word)
  /-- FLIP_ARM_DATA (R296): ARM_DATA arms the data flip mask for the next matching line write. -/
  | flipArmData (t : Fin 20) (v : Word)
  /-- FLIP_ARM_CSUM (R296): ARM_CSUM arms the checksum flip mask for the next checksum stored. -/
  | flipArmCsum (t : Fin 20) (v : Word)
  /-- BULK_CLEAR_DONE (R390): The bulk clear ends, the stacks become accessible and Memory_Active is set. -/
  | bulkClearDone
  /-- INSTALL (R326): SV_CTRL.INSTALL checks the geometry and sequence table and installs it, or refuses it. -/
  | install (p : Fin 16)
  /-- RELOAD_DIR (R330): SV_CTRL.RELOAD_DIR rereads the output ring directory at the next step boundary. -/
  | reloadDir (p : Fin 16)
  /-- PT_CORES_WRITE (R356): A PT_CORES write reassigns cores, or is refused with BUSY or CORE_TAKEN. -/
  | ptCoresWrite (p : Fin 16) (v : Word)
  /-- PT_SB_WRITE (R359): A PT_SB write sets the shared buffer allocations, or is refused for overlap or range. -/
  | ptSbWrite (p : Fin 16) (v : Word)
  /-- REGION_LOCATION_WRITE (R360): A write of REG_LOC or REG_MIR is accepted only in state EMPTY, and is otherwise refused with REGION_BUSY. -/
  | regionLocationWrite (r : Fin 32) (mir : Bool) (v : Word)
  /-- REGION_LOAD (R360): LOAD moves a region from EMPTY to LOADING if its location is valid. -/
  | regionLoad (r : Fin 32)
  /-- REGION_SEAL (R361): SEAL moves a LOADING region to SEALING and starts sealing it on the stack's pans. -/
  | regionSeal (r : Fin 32)
  /-- REGION_SEAL_DONE (R361): Region sealing ends, leaving the region READY, or LOADING with MISMATCH set. -/
  | regionSealDone (r : Fin 32)
  /-- REGION_RELEASE (R360): RELEASE returns an unmapped region to EMPTY, ending any seal in progress. -/
  | regionRelease (r : Fin 32)
  /-- SEM_SIG (R371): A host or step-controller write of SEM_SIG adds N to a partition semaphore. -/
  | semSig (p : Fin 16) (v : Word)
  /-- MAILBOX_DATA_WRITE (R374): A write to a mailbox data word takes ownership, or is dropped and counted in DROPS. -/
  | mailboxDataWrite (who : BitVec 16) (m : Fin 64) (k : Fin 16) (v : Word)
  /-- MAILBOX_GO (R375): The owner's GO is checked for LEN, drain and FULL, and the message is delivered. -/
  | mailboxGo (who : BitVec 16) (m : Fin 64) (v : Word)
  /-- MAILBOX_ABORT (R374): ABORT by the owner or the host ends ownership of a mailbox. -/
  | mailboxAbort (who : BitVec 16) (m : Fin 64)
  /-- MAILBOX_TAKE (R377): A read of R_CTRL returns the message fields and clears FULL and ownership. -/
  | mailboxTake (who : BitVec 16) (m : Fin 64)
  /-- DB_RING (R379): A DB_RING write sets doorbell bits and signals each unmasked bit that becomes set. -/
  | dbRing (who : BitVec 16) (r : Fin 22) (v : Word)
  /-- DB_PEND_CLEAR (R379): A W1C write clears pending doorbell bits in arrival order with rings. -/
  | dbPendClear (who : BitVec 16) (r : Fin 22) (v : Word)
  /-- DB_MASK_WRITE (R379): A DB_MASK write that unmasks a pending bit signals it. -/
  | dbMaskWrite (who : BitVec 16) (r : Fin 22) (v : Word)
  /-- MSIX_UNMASK (R404): Unmasking a vector sends one message for every signal that fell while it was masked. -/
  | msixUnmask (vec : Fin 64)
  /-- CXL_MEM_READ (R392): A host CXL.mem read is served at the stack controller with the outcome its target gives. -/
  | cxlMemRead (addr : BitVec 64) (caching : Bool)
  /-- CXL_MEM_WRITE (R392): A host CXL.mem write is performed, opening its granule, or is dropped and counted. -/
  | cxlMemWrite (addr : BitVec 64) (caching : Bool) (data : Line) (mask : BitVec 64)
  /-- CXL_MEM_POISON_WRITE (R393): A CXL.mem write carrying the poison indication writes the poison pattern into its line. -/
  | cxlMemPoisonWrite (addr : BitVec 64)
  /-- HDM_DECODER_COMMIT (R391): A commit of an HDM decoder is accepted or sets Error Not Committed. -/
  | hdmDecoderCommit (n : Fin 4) (base : BitVec 64) (size : BitVec 64) (skip : BitVec 64) (iw : BitVec 4)
  /-- BIAS_TO_DEVICE (R397): BIAS_CMD with TO 0 changes a range of pages to device bias one at a time. -/
  | biasToDevice (v : Word)
  /-- BIAS_TO_HOST (R397): BIAS_CMD with TO 1 changes a range of pages to host bias. -/
  | biasToHost (v : Word)
  /-- BIAS_COMMAND_DONE (R397): A bias command finishes, BUSY clears and the event vector is sent. -/
  | biasCommandDone
  /-- HOST_SNOOP (R399): The device answers a host snoop with RspIHitI. -/
  | hostSnoop (addr : BitVec 64)
  /-- HDMA_TAIL_WRITE (R400): A write of CH_TAIL posts host DMA descriptors to a channel. -/
  | hdmaTailWrite (ch : Fin 4) (v : Word)
  /-- HDMA_DESCRIPTOR (R401): The channel checks a host DMA descriptor and moves its lines in ascending order. -/
  | hdmaDescriptor (ch : Fin 4)
  /-- HDMA_DESCRIPTOR_DONE (R401): Once every byte is performed, STATUS, DONE_64 and the head index are written and the vector is sent. -/
  | hdmaDescriptorDone (ch : Fin 4)
  /-- HDMA_CHANNEL_STOP (R402): Clearing CH_CFG.EN stops the channel at its next 4 KiB boundary with STATUS 6. -/
  | hdmaChannelStop (ch : Fin 4)
  /-- CXL_RESET (R386): A CXL Reset performs a warm reset of the module. -/
  | cxlReset
  /-- ROCE_PACKET_RECEIVE (R412): A RoCEv2 packet is accepted and served, or dropped or NAKed by source, queue pair and footprint. -/
  | rocePacketReceive (port : Fin 4) (pkt : Packet)
  /-- ARP_REQUEST (R409): An ARP request for the sublink's own address is answered. -/
  | arpRequest (port : Fin 4) (ip : BitVec 32)
  /-- CNP_RECEIVE (R414): A received CNP cuts the queue pair's current rate and raises alpha. -/
  | cnpReceive (port : Fin 4) (qp : Nat)
  /-- CC_TIMER (R414): The rate-increase timer decays alpha and recovers the queue pair's rate. -/
  | ccTimer (qp : Nat)
  /-- ACK_TIMEOUT (R413): No acknowledgement within ACK_TIMEOUT_US causes a go-back-N retransmission, or ERROR after RETRY attempts. -/
  | ackTimeout (qp : Nat)
  /-- SEQUENCE_NAK (R413): A sequence-error NAK causes a go-back-N retransmission from its PSN. -/
  | sequenceNak (qp : Nat) (psn : BitVec 24)
  /-- QP_RESET_NOTICE (R413): A reset notice for an errored queue pair arrives on the management queue pair. -/
  | qpResetNotice (dev : Fin 64) (qp : Nat)
  /-- QP_RESTART (R413): An errored queue pair restarts at PSN 0, at the step boundary or 1 ms later. -/
  | qpRestart (qp : Nat)
  /-- LINK_UP (R411): A sublink comes up, and the management queue pairs are established when a die 0 link is up. -/
  | linkUp (port : Fin 4) (lane : Fin 4)
  /-- LINK_DOWN (R423): A sublink goes down, LINK_DOWN is set and pieces in flight on it are reissued on another up link. -/
  | linkDown (port : Fin 4) (lane : Fin 4)
  /-- GROUP_ENABLE (R419): A write of GRP_CFG.EN = 1 enables the group, or is refused with TABLE_BAD. -/
  | groupEnable (g : Fin 16) (v : Word)
  /-- COLL_PHASE_START (R423): The collective engine starts a handed-off phase when a slot of 8 is free, creates its descriptors and publishes its SRC footprint. -/
  | collPhaseStart (d : Fin 2)
  /-- PUBLICATION_RECEIVE (R423): A line member's publication arrives, and the engine starts its RDMA reads of that member's SRC. -/
  | publicationReceive (d : Fin 2) (pub : Publication)
  /-- RDMA_PIECE_DONE (R423): A 64 KiB piece arrives and is written to DST or added into SCRATCH. -/
  | rdmaPieceDone (d : Fin 2) (piece : Piece)
  /-- COLL_PHASE_LOCAL_COMPLETE (R278): The phase's DST writes are performed and every member has finished reading, completing the local part. -/
  | collPhaseLocalComplete (d : Fin 2) (n : Nat)
  /-- COLL_TIMEOUT (R425): A publication still missing COLL_TIMEOUT_US after the phase started fails it with PEER_LOST. -/
  | collTimeout (d : Fin 2) (n : Nat)
  /-- COLL_ABORT_RECEIVE (R425): A peer's abort of a phase arrives, and the phase fails with REMOTE. -/
  | collAbortReceive (d : Fin 2) (g : Fin 16) (tag : Fin 4) (peer : Fin 64)
  /-- VOTE_READY (R427): A member's READY or ABANDON reaches the leader, which decides and logs COMMIT or ABANDON. -/
  | voteReady (g : Fin 16) (rank : Fin 64) (btick : BitVec 48) (ready : Bool)
  /-- VOTE_DEADLINE (R41): 15 µs after the tick without every READY, the leader decides ABANDON. -/
  | voteDeadline (g : Fin 16)
  /-- VOTE_DECISION (R427): The leader's decision reaches a member, which commits or abandons with GROUP_VOTE. -/
  | voteDecision (g : Fin 16) (btick : BitVec 48) (commit : Bool)
  /-- VOTE_INDOUBT (R428): A member with no decision 20 µs after the tick becomes in doubt, holds its partition and rings DB0. -/
  | voteIndoubt (g : Fin 16)
  /-- VOTE_REQUERY (R428): An in-doubt member asks the leader again every 20 µs. -/
  | voteRequery (g : Fin 16)
  /-- GRP_RESOLVE (R428): GRP_RESOLVE.GO ends an in-doubt step with the outcome the host writes. -/
  | grpResolve (g : Fin 16) (v : Word)
  /-- FORWARDED_MESSAGE (R430): A forwarded mailbox SEND arrives, is delivered stamped class 6, and is answered with its outcome. -/
  | forwardedMessage (msg : FwdMsg)
  /-- FORWARD_REPLY (R430): The reply to a forwarded message sets the sender's RESULT. -/
  | forwardReply (reply : FwdReply)
  /-- FORWARDED_DMA_REQUEST (R431): A tethered device checks a forwarded host DMA descriptor and replies. -/
  | forwardedDmaRequest (req : FwdDma)
  /-- FORWARDED_DMA_REPLY (R431): After a passing check the gateway moves the data by RDMA and writes STATUS after the last acknowledgement. -/
  | forwardedDmaReply (reply : FwdDmaReply)
  /-- HOUSEKEEPING_ROUND (R440): Every 8 ms the sequencer scans the 256 housekeeping channels and marks implausible readings invalid. -/
  | housekeepingRound (readings : List HkReading)
  /-- FAST_POWER_CHECK (R442): Every 10 µs the 1 ms average input power is compared with FAST_W. -/
  | fastPowerCheck (mw : Nat)
  /-- THERM_RESUME (R447): THERM_CTRL.RESUME ends thermal hold when temperatures allow, and is otherwise refused. -/
  | thermResume
  /-- ANALOG_TRIP (R448): The 120 °C comparator removes all die and stack rails within 1 ms and records THERM_TRIP. -/
  | analogTrip (d : Fin 2)
  /-- RECKONING_REQUEST (R451): AGE_CTRL.REQUEST asks the device to claim a reckoning leap tick. -/
  | reckoningRequest
  /-- RECKONING_HOURS_DUE (R451): The powered-hours count reaches INTERVAL_H since the last reckoning, and a reckoning leap is claimed. -/
  | reckoningHoursDue
  /-- HOURS_CHECKPOINT (R451): Every 24 powered hours the firmware writes a checkpoint of AGE_STAT.HOURS to flash. -/
  | hoursCheckpoint
  /-- TICK_MARK (R459): The assay die receives a tick mark, timestamps it and closes the previous tick's integration. -/
  | tickMark (r : MeterReading)
  /-- ASSAY_GAP (R460): No mark arrives for two periods, and the assay die integrates into a gap. -/
  | assayGap
  /-- WEIGHT_MESSAGE (R461): A die's activity weight message for the previous tick reaches the assay die. -/
  | weightMessage (d : Fin 2) (w : List Nat)
  /-- ASSAY_FIGURES (R463): A tick's account figures reach the step controllers and enter the energy counters at the next commit. -/
  | assayFigures
  /-- ASSAY_RING_CONFIG (R467): Command 0x0A01 configures the host record and tick rings. -/
  | assayRingConfig
  /-- ASSAY_FIRMWARE_INSTALL (R468): An assay firmware image is installed, the seal counter increments and a seal entry is appended. -/
  | assayFirmwareInstall (digest : BitVec 256) (ver : BitVec 16)
  /-- CALIBRATION_CHANGE (R468): A calibration or metrology change increments the seal counter and appends a seal entry. -/
  | calibrationChange (digest : BitVec 256) (cal : BitVec 32) (idle : BitVec 25) (ticks : BitVec 16)
  /-- ASSAY_DEBUG_ATTACH (R470): The assay chain leaves bypass only once its seal entry is programmed. -/
  | assayDebugAttach
  /-- ISLAND_POWER_RETURN (R468): The assay island returns after loss of standby power and appends an ISLAND_POWER entry. -/
  | islandPowerReturn
  /-- ASSAY_WATCHDOG (R472): A stalled assay firmware is reset after 10 ms, and the assay die is absent meanwhile. -/
  | assayWatchdog
  /-- QUOTE (R484): QUOTE writes a signed quote of the selected MREGs and the nonce to the quote buffer. -/
  | quote
  /-- EXTEND (R482): EXTEND extends MREG14 with a host digest. -/
  | extend
  /-- STAGE (R485): STAGE verifies an image and programs it into the inactive slot. -/
  | stage (head : ImageHead)
  /-- ACTIVATE (R486): ACTIVATE claims a leap tick in which the component will restart. -/
  | activate
  /-- CSR_READ (R483): The security core reads a CSR with host access and returns its value. -/
  | csrRead
  /-- CSR_WRITE (R483): The security core writes a CSR with host access. -/
  | csrWrite
  /-- COMPONENT_RESTART (R486): In its leap tick the activated component drains, sends zero weights, resets and starts its new image. -/
  | componentRestart (comp : Fin 6)
  /-- COMPONENT_DRAIN_DONE (R486): The component's drain ends and DB6 rings. -/
  | componentDrainDone (comp : Fin 6)
  /-- NEW_IMAGE_RUNNING (R486): The new image reports running, and MREG12 is extended. -/
  | newImageRunning (comp : Fin 6)
  /-- NEW_IMAGE_TIMEOUT (R486): A new image not running after 10 ms is reset, and the previous slot runs with RESULT REVERTED. -/
  | newImageTimeout (comp : Fin 6)
  /-- DEBUG_ATTACH (R487): Chain 0 attaches, setting ATTACHED, counting the attach and extending MREG15. -/
  | debugAttach
  /-- ENTER (R489): ENTER requests D1, D2 or Standby, and is accepted when the device is idle, otherwise BUSY. -/
  | enter
  /-- RESET (R489): RESET performs a die 0, die 1 or warm reset. -/
  | reset
  /-- PMCSR_D0_WRITE (R492): The host writes PowerState D0 and exit from D1 or D2 starts. -/
  | pmcsrD0Write
  /-- WAKE_AT_REACHED (R492): BTICK_NUM reaches a non-zero WAKE_AT and exit from dormancy starts. -/
  | wakeAtReached
  /-- DORMANCY_EXIT_DONE (R493): Exit completes with the firmware running, the stacks and PHYs up and the dormancy notice withdrawn, or a cold reset in its place. -/
  | dormancyExitDone
  /-- WATCHDOG_EXPIRY (R490): A control processor's 10 ms watchdog fires and resets its die or the module. -/
  | watchdogExpiry (d : Fin 2) (w : Fin 3)
  /-- DIE_RESET (R495): A die enters reset, its stacks enter self-refresh and its partitions end. -/
  | dieReset (d : Fin 2)
  /-- DIE_RESET_DONE (R495): A reset die returns to operation with its components reloaded. -/
  | dieResetDone (d : Fin 2)
  /-- WARM_RESET (R494): Both dies reset with the stacks held in self-refresh. -/
  | warmReset
  /-- COLD_RESET (R488): PERST# with +12 V present resets everything except the assay die. -/
  | coldReset
  /-- STANDBY_POWER_LOSS (R494): +12 V is removed and every state except flash is lost. -/
  | standbyPowerLoss
  /-- TEST_REPAIR (R504): TEST_REP.GO remaps one row to a spare in the live table, optionally copying it. -/
  | testRepair (t : Fin 20) (v : Word)
  /-- TEST_BIST (R507): TEST_BIST.GO starts a memory self-test of the selected pseudo-channels of an unowned stack. -/
  | testBist (t : Fin 20) (v : Word)
  /-- BIST_DONE (R507): The self-test ends, clears the touched lines and reports pass or fail. -/
  | bistDone (t : Fin 20) (fails : List Nat)
  /-- TEST_TRAIN_RETRY (R505): TEST_TRAIN.RETRY retries every stack that gave up at the next leap tick. -/
  | testTrainRetry (v : Word)
  /-- TEST_MARGIN (R506): TEST_MARGIN.GO margins a stack PHY at the next leap tick. -/
  | testMargin (t : Fin 20) (v : Word)
  /-- IDL_MARGIN (R506): TEST_IDL.MARGIN margins the inter-die link at the next leap tick. -/
  | idlMargin (d : Fin 2) (v : Word)
  /-- IDL_LOOPBACK (R506): TEST_IDL.LOOP enables near-end loopback with PRBS31 on the inter-die link. -/
  | idlLoopback (d : Fin 2) (v : Word)
  /-- STACK_LOOPBACK (R506): TEST_SLOOP.LOOP enables stack PHY loopback when the stack is unowned. -/
  | stackLoopback (t : Fin 20) (v : Word)
  /-- ETH_LOOPBACK (R506): TEST_ETH selects PMA local or remote loopback and PRBS while the port is disabled. -/
  | ethLoopback (port : Fin 4) (v : Word)
  /-- REGISTER_WRITE (R5): A write to a register with no row of its own acts as its Access code gives, with lock and reserved-bit rules. -/
  | registerWrite (off : BitVec 28) (v : Word) (width : AccessWidth)
  /-- READ_CLEAR_READ (R5): A read of an RC counter returns its value and clears it as one act. -/
  | readClearRead (off : BitVec 28) (width : AccessWidth)
  /-- ASSAY_DIE_RETURN (R472): The assay die finishes booting after a watchdog reset and returns, resuming SEQ without a seal entry. -/
  | assayDieReturn
  /-- SEAL_ENTRY_PROGRAMMED (R470): A pending seal-log entry is programmed once an assay-die sensor is back within 5–85 °C, clearing PENDING and making the held event effective. -/
  | sealEntryProgrammed
  /-- STAGE_DONE (R485): Programming of a staged image into the inactive slot ends at about 2 MB/s, and the STAGE reply is sent. -/
  | stageDone
  /-- DORMANCY_ENTRY_DONE (R491): The entry sequence reaches its end state, with the dies clock-stopped or power-gated or the stack rails removed, within 5 or 20 ms. -/
  | dormancyEntryDone
  /-- UNDEFINED_OPCODE (R96): A block reaches an instruction word whose OP is undefined, such as zeroed memory, and the core faults with ILLEGAL_OP. -/
  | undefinedOpcode (c : Fin 12)
  /-- PC_RANGE_FETCH (R67): A sequential fetch or a branch target outside BODY to BODY + BODY_LEN − 1 faults with PC_RANGE on the fetch. -/
  | pcRangeFetch (c : Fin 12)
  /-- ILLEGAL_PAN_COMMAND (R258): A pan reaches a command word with an illegal OPC and fails the batch with CMD_ILLEGAL. -/
  | illegalPanCommand (t : Fin 20) (u : Fin 32)
  /-- DEBUG_HALT (R487): The holder halts or steps a compute-die processor through chain 0, and a core enters CORE_STATUS DEBUG_HALT. -/
  | debugHalt (c : Fin 12)
  /-- DEBUG_DETACH (R487): Chain 0 returns to bypass and SEC_DBG.ACTIVE clears. -/
  | debugDetach
  /-- DROPPED_FRAME (R409): A sublink receives a frame that is neither RoCEv2 to its address, PTP nor ARP, drops it and counts it in PORT_ERR_CNT.DROP. -/
  | droppedFrame (port : Fin 4) (why : Nat)
  deriving DecidableEq, Repr

end Sys2Proof
end

