-- ==== Sys2Proof/Decode.lean ====
section
/-!
DEFINITION. The command a word spells by the opcode table's bits. The table lists operations and events and gives
none of its rows any bits, so no word spells a command.
-/
namespace Sys2Proof

/-- The command an nbits-wide word spells: the table gives no row bits, so none. -/
def decodeTableWord (_nbits _w : Nat) : Option Instr := none

end Sys2Proof
end

