-- ==== Sys2Proof/Machine/Bits.lean ====
section
/-!
DEFINITION. Bit fields of natural numbers, signed readings, byte order and sparse maps in one canonical form.
The spec writes bit ranges [high:low] (Scope and Conventions); `bits v hi lo` is that reading.
-/
namespace Sys2Proof.Machine

/-- Bits [hi:lo] of a number. -/
def bits (v hi lo : Nat) : Nat := (v >>> lo) % 2 ^ (hi + 1 - lo)

/-- Bit i of a number, as a truth value. -/
def bit (v i : Nat) : Bool := (v >>> i) % 2 == 1

/-- A number with bits [hi:lo] replaced by the low bits of x. -/
def setBits (v hi lo x : Nat) : Nat :=
  let w := hi + 1 - lo
  (v - ((v >>> lo) % 2 ^ w) <<< lo) + (x % 2 ^ w) <<< lo

/-- 1 for true, 0 for false. -/
def b2n (b : Bool) : Nat := if b then 1 else 0

/-- The signed reading of the low w bits. -/
def toSigned (w v : Nat) : Int :=
  let u := v % 2 ^ w
  if u < 2 ^ (w - 1) then (u : Int) else (u : Int) - (2 ^ w : Nat)

/-- The w-bit two's complement image of an integer. -/
def ofSigned (w : Nat) (x : Int) : Nat := (x % ((2 ^ w : Nat) : Int)).toNat

/-- A value held at a maximum. -/
def satAdd (max a b : Nat) : Nat := if a + b > max then max else a + b

/-- The largest of the two bounds' clamp. -/
def clamp (lo hi x : Nat) : Nat := if x < lo then lo else if x > hi then hi else x

/-- Ceiling of a quotient. -/
def ceilDiv (a b : Nat) : Nat := if b = 0 then 0 else (a + b - 1) / b

/-- n bytes of a number, least significant first (the device is little-endian). -/
def bytesOf : Nat → Nat → List Byte
  | 0, _ => []
  | n + 1, v => BitVec.ofNat 8 v :: bytesOf n (v / 256)

/-- The number a list of bytes spells, least significant first. -/
def ofBytes : List Byte → Nat
  | [] => 0
  | b :: bs => b.toNat + 256 * ofBytes bs

/-- Consecutive numbers. -/
def upFrom (start : Nat) : Nat → List Nat
  | 0 => []
  | n + 1 => start :: upFrom (start + 1) n

/-- The indices of the set bits of v among 0 to n − 1. -/
def setBitsOf (v n : Nat) : List Nat := (upFrom 0 n).filter (bit v)

/-- A list split into pieces of n. -/
def chunksAux {α : Type} (n : Nat) : Nat → List α → List (List α)
  | 0, _ => []
  | fuel + 1, l => if l.isEmpty then [] else l.take n :: chunksAux n fuel (l.drop n)

/-- A list split into consecutive pieces of n elements (n positive). -/
def chunks {α : Type} (n : Nat) (l : List α) : List (List α) := chunksAux n l.length l

/-- A sparse map: key and value pairs, keys strictly rising. -/
abbrev SMap (α : Type) := List (Nat × α)

/-- The value listed at a key. -/
def smFind {α : Type} : SMap α → Nat → Option α
  | [], _ => none
  | (k, v) :: m, q => if k = q then some v else smFind m q

/-- The value at a key, an unlisted key reading as d. -/
def smGet {α : Type} (d : α) (m : SMap α) (q : Nat) : α := (smFind m q).getD d

/-- The map with a key's entry removed. -/
def smErase {α : Type} : SMap α → Nat → SMap α
  | [], _ => []
  | (k, v) :: m, q => if k = q then m else if q < k then (k, v) :: m else (k, v) :: smErase m q

/-- The map with a key's entry set. -/
def smInsert {α : Type} : SMap α → Nat → α → SMap α
  | [], q, x => [(q, x)]
  | (k, v) :: m, q, x =>
    if k = q then (q, x) :: m else if q < k then (q, x) :: (k, v) :: m else (k, v) :: smInsert m q x

/-- The map with a key's value set, in canonical form: no entry holds the value an unlisted key reads as. -/
def smPut {α : Type} [DecidableEq α] (d : α) (m : SMap α) (q : Nat) (x : α) : SMap α :=
  if x = d then smErase m q else smInsert m q x

/-- Keys strictly rising, all above a bound. -/
def smSortedFrom {α : Type} : Option Nat → SMap α → Bool
  | _, [] => true
  | b, (k, _) :: m => (match b with | none => true | some b => decide (b < k)) && smSortedFrom (some k) m

/-- The canonical form of a sparse map whose unlisted keys read as d. -/
def smWf {α : Type} [DecidableEq α] (d : α) (m : SMap α) : Bool :=
  smSortedFrom none m && m.all (fun e => decide (e.2 ≠ d))

/-- The entries with keys in [lo, lo + n). -/
def smRange {α : Type} (m : SMap α) (lo n : Nat) : SMap α := m.filter (fun e => decide (lo ≤ e.1) && decide (e.1 < lo + n))

/-- The map without the entries with keys in [lo, lo + n). -/
def smDrop {α : Type} (m : SMap α) (lo n : Nat) : SMap α := m.filter (fun e => !(decide (lo ≤ e.1) && decide (e.1 < lo + n)))

/-- A set of numbers as a strictly rising list. -/
def setInsert : List Nat → Nat → List Nat
  | [], q => [q]
  | k :: m, q => if k = q then k :: m else if q < k then q :: k :: m else k :: setInsert m q

/-- A set without one number. -/
def setErase : List Nat → Nat → List Nat
  | [], _ => []
  | k :: m, q => if k = q then setErase m q else k :: setErase m q

/-- The element at an index of a list, with a value beyond its end. -/
def nth {α : Type} (d : α) (l : List α) (i : Nat) : α := (l[i]?).getD d

/-- The list with one element replaced. -/
def setNth {α : Type} (l : List α) (i : Nat) (x : α) : List α := l.set i x

/-- Sum of a list. -/
def sumList : List Nat → Nat := List.foldl (· + ·) 0

/-- Largest element of a list, 0 when empty. -/
def maxList : List Nat → Nat := List.foldl Nat.max 0

end Sys2Proof.Machine
end

