-- ==== Sys2Proof/Machine/Flags.lean ====
section
/-!
DEFINITION. The sticky flags of FP_FLAGS (Axver Cores and Their Engines), as bits of a number joined by OR.
-/
namespace Sys2Proof.Machine

/-- No flag. -/
def flNone : Nat := 0
/-- Invalid operation. -/
def flNV : Nat := 1
/-- Division by zero. -/
def flDZ : Nat := 2
/-- Overflow. -/
def flOF : Nat := 4
/-- Underflow. -/
def flUF : Nat := 8
/-- Inexact. -/
def flNX : Nat := 16
/-- A conversion to FP8 or below saturated. -/
def flSAT : Nat := 32

/-- Two sets of flags joined. -/
def flJoin (a b : Nat) : Nat := a ||| b

/-- A flag set or clear by a condition. -/
def flIf (c : Bool) (f : Nat) : Nat := if c then f else 0

end Sys2Proof.Machine
end

