-- ==== Sys2Proof/Machine/Float.lean ====
section
/-!
DEFINITION. Number formats and arithmetic (R164–R181): exact values, rounding, conversions, scales, the elementary
functions, and the order of accumulation.
-/
namespace Sys2Proof.Machine

/-- An exact value: not a number, an infinity, or (−1)^neg × mant × 2^exp. -/
inductive FV where
  | nan
  | inf (neg : Bool)
  | fin (neg : Bool) (mant : Nat) (exp : Int)
  deriving DecidableEq, Repr

/-- Width in bits of an element of a format code (R131). -/
def fmtBits : Nat → Nat
  | 0 => 32 | 1 => 16 | 2 => 16 | 3 => 8 | 4 => 8 | 5 => 6 | 6 => 4 | _ => 8

/-- Significand bits with the hidden bit, of a floating-point format code (R164). -/
def fmtPrec : Nat → Nat
  | 0 => 24 | 1 => 8 | 2 => 11 | 3 => 4 | 4 => 3 | 5 => 3 | 6 => 2 | _ => 8

/-- Exponent of the smallest subnormal of a format code (R164). -/
def fmtEmin : Nat → Int
  | 0 => -149 | 1 => -133 | 2 => -24 | 3 => -9 | 4 => -16 | 5 => -4 | 6 => -1 | _ => 0

/-- Magnitude code of the largest finite value of a format code (R164). -/
def fmtMaxCode : Nat → Nat
  | 0 => 0x7F7FFFFF | 1 => 0x7F7F | 2 => 0x7BFF | 3 => 0x7E | 4 => 0x7B | 5 => 0x1F | 6 => 0x7 | _ => 0x7F

/-- Whether a format has an infinity (R164). -/
def fmtHasInf (f : Nat) : Bool := f == 0 || f == 1 || f == 2 || f == 4

/-- Whether a format has NaN codes (R164). -/
def fmtHasNan (f : Nat) : Bool := f ≤ 4

/-- The default NaN of a format (R171); zero where the format has none. -/
def fmtNan : Nat → Nat
  | 0 => 0x7FC00000 | 1 => 0x7FC0 | 2 => 0x7E00 | 3 => 0x7F | 4 => 0x7E | _ => 0

/-- The exact value of a code of a format (R164, R169). -/
def decodeFmt (f code : Nat) : FV :=
  if f = 7 then
    let v := toSigned 8 code
    .fin (decide (v < 0)) v.natAbs 0
  else
    let w := fmtBits f
    let p := fmtPrec f
    let neg := bit code (w - 1)
    let mag := code % 2 ^ (w - 1)
    if fmtHasInf f && mag == fmtMaxCode f + 1 then .inf neg
    else if fmtHasNan f && decide (fmtMaxCode f < mag) then .nan
    else
      let e := mag >>> (p - 1)
      let frac := mag % 2 ^ (p - 1)
      if e = 0 then .fin neg frac (fmtEmin f) else .fin neg (frac + 2 ^ (p - 1)) (fmtEmin f + (e - 1 : Nat))

/-- The integer nearest m × 2^d, ties to even, and whether it differs from it. -/
def roundShift (m : Nat) (d : Int) : Nat × Bool :=
  if 0 ≤ d then (m <<< d.toNat, false)
  else
    let k := (-d).toNat
    let q := m >>> k
    let r := m % 2 ^ k
    let half := 2 ^ (k - 1)
    let up := decide (half < r) || (r == half && q % 2 == 1)
    (if up then q + 1 else q, decide (r ≠ 0))

/-- A magnitude m × 2^e rounded to a format: its code before any overflow rule, and whether it is inexact. -/
def roundMag (f m : Nat) (e : Int) : Nat × Bool :=
  if m = 0 then (0, false)
  else
    let p := fmtPrec f
    let top : Int := (Nat.log2 m : Int) + e
    let q0 := top - ((p : Int) - 1)
    let q := if q0 < fmtEmin f then fmtEmin f else q0
    let (k, nx) := roundShift m (e - q)
    ((q - fmtEmin f).toNat * 2 ^ (p - 1) + k, nx)

/-- A code with its sign. -/
def withSign (f : Nat) (neg : Bool) (mag : Nat) : Nat := if neg then mag + 2 ^ (fmtBits f - 1) else mag

/-- Narrowing of a finite magnitude code that is known (R170): overflow, saturation and the tiny rule of R172. -/
def finishMag (f : Nat) (neg : Bool) (code : Nat) (nx : Bool) : Nat × Nat :=
  if fmtMaxCode f < code then
    if f ≤ 2 then (withSign f neg (fmtMaxCode f + 1), flJoin flOF flNX)
    else (withSign f neg (fmtMaxCode f), flJoin flSAT flNX)
  else
    let tiny := decide (code < 2 ^ (fmtPrec f - 1))
    (withSign f neg code, flJoin (flIf nx flNX) (flIf (nx && tiny) flUF))

/-- Narrowing to INT8 by round to nearest even with saturation (R170); a non-zero value that rounds to zero is tiny (R172). -/
def narrowInt8 (neg : Bool) (k : Nat) (nx : Bool) : Nat × Nat :=
  let lim := if neg then 128 else 127
  if lim < k then (ofSigned 8 (if neg then -128 else 127), flJoin flSAT flNX)
  else (ofSigned 8 (if neg then -(k : Int) else k), flJoin (flIf nx flNX) (flIf (nx && k == 0) flUF))

/-- Narrowing of an exact value to a format with round to nearest even: the code and the flags (R170–R172). -/
def narrow (f : Nat) : FV → Nat × Nat
  | .nan => if f = 7 then (0, flNV) else if fmtHasNan f then (fmtNan f, 0) else (0, flNV)
  | .inf neg =>
    if f = 7 then (ofSigned 8 (if neg then -128 else 127), flSAT)
    else if fmtHasInf f then (withSign f neg (fmtMaxCode f + 1), 0)
    else (withSign f neg (fmtMaxCode f), flSAT)
  | .fin neg m e =>
    if f = 7 then
      let (k, nx) := roundShift m e
      narrowInt8 neg k nx
    else
      let (c, nx) := roundMag f m e
      finishMag f neg c nx

/-- Stochastic rounding of a magnitude m × 2^e with draw r: the code before any overflow rule, and inexactness (R174). -/
def roundMagSR (f m : Nat) (e : Int) (r : Nat) : Nat × Bool :=
  if m = 0 then (0, false)
  else
    let p := fmtPrec f
    let top : Int := (Nat.log2 m : Int) + e
    let q0 := top - ((p : Int) - 1)
    let q := if q0 < fmtEmin f then fmtEmin f else q0
    let d := e - q
    if 0 ≤ d then ((q - fmtEmin f).toNat * 2 ^ (p - 1) + m <<< d.toNat, false)
    else
      let k := (-d).toNat
      let lo := m >>> k
      let fr := m % 2 ^ k
      let t := (fr * 65536) >>> k
      let up := decide (65536 ≤ t + r)
      ((q - fmtEmin f).toNat * 2 ^ (p - 1) + (if up then lo + 1 else lo), decide (fr ≠ 0))

/-- Narrowing with SR set (R174): the sign, saturation, NaN and flag rules of R170 apply. -/
def narrowSR (f r : Nat) : FV → Nat × Nat
  | .fin neg m e =>
    let (c, nx) := roundMagSR f m e r
    finishMag f neg c nx
  | v => narrow f v

/-- One advance of the stochastic-rounding generator (R173). -/
def srAdvance (s : Word) : Word := s * 0x5851F42D4C957F2D#64 + 0x14057B7EF767814F#64

/-- The draw of a generator state: bits [63:48] (R173). -/
def srDraw (s : Word) : Nat := s.toNat >>> 48

/-- The generator after n draws. -/
def srAdvanceN : Nat → Word → Word
  | 0, s => s
  | n + 1, s => srAdvanceN n (srAdvance s)

/-- Negation of an exact value. -/
def fvNeg : FV → FV
  | .nan => .nan
  | .inf n => .inf (!n)
  | .fin n m e => .fin (!n) m e

/-- Whether a value is a zero. -/
def fvIsZero : FV → Bool
  | .fin _ m _ => m == 0
  | _ => false

/-- Signed mantissa of a finite value at exponent e0 (e0 not above its exponent). -/
def fvAt (e0 : Int) (neg : Bool) (m : Nat) (e : Int) : Int :=
  let k := m <<< (e - e0).toNat
  if neg then -(k : Int) else k

/-- The exact sum, with the sign of a zero sum as round to nearest even gives it, and NV for opposite infinities. -/
def fvAdd : FV → FV → FV × Nat
  | .nan, _ => (.nan, 0)
  | _, .nan => (.nan, 0)
  | .inf a, .inf b => if a = b then (.inf a, 0) else (.nan, flNV)
  | .inf a, .fin _ _ _ => (.inf a, 0)
  | .fin _ _ _, .inf b => (.inf b, 0)
  | .fin na ma ea, .fin nb mb eb =>
    let e0 := if ea ≤ eb then ea else eb
    let x := fvAt e0 na ma ea + fvAt e0 nb mb eb
    if x = 0 then (.fin (na && nb) 0 0, 0) else (.fin (decide (x < 0)) x.natAbs e0, 0)

/-- The exact product, with NV for infinity times zero. -/
def fvMul : FV → FV → FV × Nat
  | .nan, _ => (.nan, 0)
  | _, .nan => (.nan, 0)
  | .inf a, .inf b => (.inf (a != b), 0)
  | .inf a, .fin b m _ => if m = 0 then (.nan, flNV) else (.inf (a != b), 0)
  | .fin a m _, .inf b => if m = 0 then (.nan, flNV) else (.inf (a != b), 0)
  | .fin na ma ea, .fin nb mb eb => (.fin (na != nb) (ma * mb) (ea + eb), 0)

/-- A value scaled by a power of two. -/
def fvScale (v : FV) (k : Int) : FV :=
  match v with
  | .fin n m e => .fin n m (e + k)
  | v => v

/-- Bits of quotient kept before the sticky bit. -/
def fvGuard : Nat := 80

/-- The quotient, with a last bit that stands for any remainder; DZ and NV as IEEE 754 gives. -/
def fvDiv : FV → FV → FV × Nat
  | .nan, _ => (.nan, 0)
  | _, .nan => (.nan, 0)
  | .inf _, .inf _ => (.nan, flNV)
  | .inf a, .fin b _ _ => (.inf (a != b), 0)
  | .fin a _ _, .inf b => (.fin (a != b) 0 0, 0)
  | .fin na ma ea, .fin nb mb eb =>
    if mb = 0 then (if ma = 0 then (.nan, flNV) else (.inf (na != nb), flDZ))
    else if ma = 0 then (.fin (na != nb) 0 0, 0)
    else
      let k := fvGuard + Nat.log2 mb
      let q := (ma <<< k) / mb
      let r := (ma <<< k) % mb
      (.fin (na != nb) (2 * q + b2n (r ≠ 0)) (ea - eb - k - 1), 0)

/-- One digit of a binary integer square root. -/
def isqrtAux : Nat → Nat → Nat → Nat
  | 0, _, r => r
  | i + 1, n, r =>
    let c := r + 2 ^ i
    isqrtAux i n (if c * c ≤ n then c else r)

/-- The integer square root. -/
def isqrt (n : Nat) : Nat := isqrtAux (Nat.log2 n / 2 + 1) n 0

/-- The square root, with a last bit that stands for any remainder (R102). -/
def fvSqrt : FV → FV × Nat
  | .nan => (.nan, 0)
  | .inf n => if n then (.nan, flNV) else (.inf false, 0)
  | .fin n m e =>
    if m = 0 then (.fin n 0 0, 0)
    else if n then (.nan, flNV)
    else
      let (m, e) := if e % 2 = 0 then (m, e) else (2 * m, e - 1)
      let k := fvGuard
      let x := m <<< (2 * k)
      let r := isqrt x
      (.fin false (2 * r + b2n (r * r ≠ x)) (e / 2 - k - 1), 0)

/-- An operation's exact result rounded to FP32: code and flags. -/
def to32 (r : FV × Nat) : Nat × Nat :=
  let (c, fl) := narrow 0 r.1
  (c, flJoin r.2 fl)

/-- The exact value of an FP32 code. -/
def of32 (c : Nat) : FV := decodeFmt 0 c

/-- FP32 addition. -/
def f32Add (a b : Nat) : Nat × Nat := to32 (fvAdd (of32 a) (of32 b))
/-- FP32 subtraction. -/
def f32Sub (a b : Nat) : Nat × Nat := to32 (fvAdd (of32 a) (fvNeg (of32 b)))
/-- FP32 multiplication. -/
def f32Mul (a b : Nat) : Nat × Nat := to32 (fvMul (of32 a) (of32 b))
/-- FP32 division. -/
def f32Div (a b : Nat) : Nat × Nat := to32 (fvDiv (of32 a) (of32 b))
/-- a × b + c as an exact value. Infinity times zero sets NV also where c is NaN (DESIGN CHOICE: IEEE 754 and R102 leave it
open; log 17). -/
def fvFma (a b c : FV) : FV × Nat :=
  let (p, f1) := fvMul a b
  let (r, f2) := fvAdd p c
  (r, flJoin f1 f2)
/-- FP32 fused multiply-add, rounded once. -/
def f32Fma (a b c : Nat) : Nat × Nat := to32 (fvFma (of32 a) (of32 b) (of32 c))
/-- FP32 square root. -/
def f32Sqrt (a : Nat) : Nat × Nat := to32 (fvSqrt (of32 a))

/-- Whether one value is below another; false when either is NaN. -/
def fvLt : FV → FV → Bool
  | .nan, _ => false
  | _, .nan => false
  | .inf a, .inf b => a && !b
  | .inf a, .fin _ _ _ => a
  | .fin _ _ _, .inf b => !b
  | .fin na ma ea, .fin nb mb eb =>
    let e0 := if ea ≤ eb then ea else eb
    decide (fvAt e0 na ma ea < fvAt e0 nb mb eb)

/-- Whether two values are equal as numbers; false when either is NaN. -/
def fvEq : FV → FV → Bool
  | .nan, _ => false
  | _, .nan => false
  | .inf a, .inf b => a == b
  | .inf _, .fin _ _ _ => false
  | .fin _ _ _, .inf _ => false
  | .fin na ma ea, .fin nb mb eb =>
    let e0 := if ea ≤ eb then ea else eb
    decide (fvAt e0 na ma ea = fvAt e0 nb mb eb)

/-- Whether a value is NaN. -/
def fvIsNan : FV → Bool
  | .nan => true
  | _ => false

/-- Whether a value is negative in sign. -/
def fvSign : FV → Bool
  | .nan => false
  | .inf n => n
  | .fin n _ _ => n

/-- The larger value, NaN if either is NaN, +0 above −0 (R178). -/
def fvMax (a b : FV) : FV :=
  if fvIsNan a || fvIsNan b then .nan
  else if fvIsZero a && fvIsZero b then (if fvSign a then b else a)
  else if fvLt a b then b else a

/-- The smaller value, NaN if either is NaN, −0 below +0 (R178). -/
def fvMin (a b : FV) : FV :=
  if fvIsNan a || fvIsNan b then .nan
  else if fvIsZero a && fvIsZero b then (if fvSign a then a else b)
  else if fvLt b a then b else a

/-- Fixed-point fraction bits of the elementary functions. -/
def elemBits : Nat := 256

/-- 1 / (2j + 1) terms of the inverse hyperbolic tangent of num/den, in units of 2^−256. -/
def atanhTerms : Nat → Nat → Nat → Nat → Nat → Nat
  | 0, _, _, _, acc => acc
  | n + 1, j, pow, x2, acc =>
    let pow' := (pow * x2) >>> elemBits
    atanhTerms n (j + 1) pow' x2 (acc + pow' / (2 * j + 1))

/-- The inverse hyperbolic tangent of num/den (at most 1/3) in units of 2^−256. -/
def atanhFix (num den : Nat) : Nat :=
  let x := (num <<< elemBits) / den
  atanhTerms 90 1 x ((x * x) >>> elemBits) x

/-- ln 2 in units of 2^−256. -/
def ln2Fix : Nat := 2 * atanhFix 1 3

/-- Terms of the exponential series of r (units of 2^−256). -/
def expTerms : Nat → Nat → Nat → Nat → Nat → Nat
  | 0, _, _, _, acc => acc
  | n + 1, j, t, r, acc =>
    let t' := ((t * r) >>> elemBits) / j
    expTerms n (j + 1) t' r (acc + t')

/-- The exponential of a finite non-zero value, as a value whose last bit stands for the rest; exact for zero. -/
def fvExpFin (neg : Bool) (m : Nat) (e : Int) : FV :=
  if m = 0 then .fin false 1 0
  else
    let top : Int := (Nat.log2 m : Int) + e
    if 8 ≤ top then (if neg then .fin false 1 (-400) else .fin false 1 400)
    else if top < -40 then
      (if neg then .fin false (2 ^ 80 - 1) (-80) else .fin false (2 ^ 80 + 1) (-80))
    else
      let x : Nat := if 0 ≤ e + elemBits then m <<< (e + elemBits).toNat else m >>> (-(e + elemBits)).toNat
      let l := ln2Fix
      if neg then
        let k := x / l + 1
        let r := k * l - x
        .fin false (2 * expTerms 70 1 (2 ^ elemBits) r (2 ^ elemBits) + 1) (-(elemBits : Int) - 1 - k)
      else
        let k := x / l
        let r := x - k * l
        .fin false (2 * expTerms 70 1 (2 ^ elemBits) r (2 ^ elemBits) + 1) (-(elemBits : Int) - 1 + k)

/-- The exponential (R179). -/
def fvExp : FV → FV × Nat
  | .nan => (.nan, 0)
  | .inf n => (if n then .fin false 0 0 else .inf false, 0)
  | .fin n m e => (fvExpFin n m e, 0)

/-- The natural logarithm of a positive value, its last bit standing for the rest; exact for one. -/
def fvLogPos (m : Nat) (e : Int) : FV :=
  let b := Nat.log2 m
  -- m = 2^b × (1 + f); choose the binade so that the reduced value lies in [3/4, 3/2)
  let (den, k) : Nat × Int := if 2 * m < 3 * 2 ^ b then (2 ^ b, (b : Int) + e) else (2 ^ (b + 1), (b : Int) + 1 + e)
  let above := decide (den ≤ m)
  let num := if above then m - den else den - m
  let a := 2 * atanhFix num (m + den)
  let part : Int := if above then a else -(a : Int)
  let v : Int := part + k * (ln2Fix : Int)
  if num = 0 && decide (k = 0) then .fin false 0 0
  else .fin (decide (v < 0)) (2 * v.natAbs + 1) (-(elemBits : Int) - 1)

/-- The natural logarithm (R179). -/
def fvLog : FV → FV × Nat
  | .nan => (.nan, 0)
  | .inf n => if n then (.nan, flNV) else (.inf false, 0)
  | .fin n m e => if m = 0 then (.inf true, flDZ) else if n then (.nan, flNV) else (fvLogPos m e, 0)

/-- The reciprocal (R179). -/
def fvRcp (v : FV) : FV × Nat := fvDiv (.fin false 1 0) v

/-- The reciprocal square root (R179). -/
def fvRsq : FV → FV × Nat
  | .nan => (.nan, 0)
  | .inf n => if n then (.nan, flNV) else (.fin false 0 0, 0)
  | .fin n m e =>
    if m = 0 then (.inf n, flDZ)
    else if n then (.nan, flNV)
    else
      let (m, e) := if e % 2 = 0 then (m, e) else (2 * m, e - 1)
      let k := fvGuard + Nat.log2 m
      let x := 2 ^ (2 * k)
      let r := isqrt (x / m)
      (.fin false (2 * r + b2n (r * r * m ≠ x)) (-(e / 2) - k - 1), 0)

/-- exp(A − B), with A − B computed in FP32 and equal negative infinities taken as −infinity (R179). -/
def f32ExpDiff (a b : Nat) : FV × Nat :=
  match of32 a, of32 b with
  | .inf true, .inf true => (.fin false 0 0, 0)
  | va, vb =>
    let d := fvAdd va (fvNeg vb)
    match of32 (narrow 0 d.1).1 with
    | .nan => (.nan, d.2)
    | v => fvExp v

/-- The value of an MX scale byte: 2^(b − 127), NaN for 0xFF (R166). -/
def scaleVal (b : Nat) : FV := if b = 255 then .nan else .fin false 1 ((b : Int) - 127)

/-- A value multiplied by an MX scale (R167). -/
def fvScaled (v : FV) (b : Nat) : FV := if b = 255 then .nan else fvScale v ((b : Int) - 127)

/-- The exponent of the largest magnitude's power of two for a scaled format (R168). -/
def fmtEmax : Nat → Int
  | 3 => 8 | 4 => 15 | 5 => 4 | _ => 2

/-- The larger of two finite magnitudes given as mantissa and exponent. -/
def magMax (a b : Nat × Int) : Nat × Int :=
  let e0 := if a.2 ≤ b.2 then a.2 else b.2
  if a.1 <<< (a.2 - e0).toNat < b.1 <<< (b.2 - e0).toNat then b else a

/-- The scale byte of a block of values, none where the block holds a NaN or an infinity (R168). -/
def mxScale (f : Nat) (vs : List FV) : Option Nat :=
  if vs.any (fun v => match v with | .fin _ _ _ => false | _ => true) then none
  else
    let am := vs.foldl (fun acc v => match v with | .fin _ m e => magMax acc (m, e) | _ => acc) ((0, 0) : Nat × Int)
    if am.1 = 0 then some 0
    else
      let l : Int := (Nat.log2 am.1 : Int) + am.2
      let b := l - fmtEmax f + 127
      some (if b < 0 then 0 else b.toNat)

/-- Quantization of one block: the scale byte, the element codes and the flags; draws are the block's draws when SR is
set, empty otherwise (R168, R174). -/
def mxQuant (f : Nat) (vs : List FV) (draws : List Nat) : Nat × List Nat × Nat :=
  match mxScale f vs with
  | none => (255, vs.map (fun _ => 0), flNV)
  | some b =>
    let one := fun (v : FV) (d : Option Nat) =>
      let w := fvScale v (127 - (b : Int))
      match d with
      | some r => narrowSR f r w
      | none => narrow f w
    let rs := (vs.zip (upFrom 0 vs.length)).map (fun (v, i) => one v draws[i]?)
    (b, rs.map Prod.fst, rs.foldl (fun a r => flJoin a r.2) 0)

/-- Pairwise level of a row sum (R139). -/
def pairLevel : List Nat → List Nat × Nat
  | [] => ([], 0)
  | [a] => ([a], 0)
  | a :: b :: l =>
    let (r, fl) := f32Add a b
    let (rest, fl') := pairLevel l
    (r :: rest, flJoin fl fl')

/-- Levels until one value remains. -/
def pairSumAux : Nat → List Nat → Nat → Nat × Nat
  | 0, l, fl => (l.headD 0, fl)
  | n + 1, l, fl =>
    match l with
    | [] => (0, fl)
    | [a] => (a, fl)
    | _ =>
      let (l', fl') := pairLevel l
      pairSumAux n l' (flJoin fl fl')

/-- The fixed pairwise FP32 sum of a row (R139). -/
def pairSum (l : List Nat) : Nat × Nat := pairSumAux l.length l 0

/-- The exact sum of products, and whether it is invalid. -/
def exactDot : List (FV × FV) → FV
  | l => l.foldl (fun acc ab => (fvAdd acc (fvMul ab.1 ab.2).1).1) (.fin true 0 0)

/-- One group of 32 steps added to an FP32 accumulator (R175): exact products and sum, scaled, one rounding. -/
def groupAcc (acc : Nat) (prods : List (FV × FV)) (bl br : Nat) : Nat :=
  let sum := exactDot prods
  let sc : FV := if bl = 255 || br = 255 then .nan else fvScale sum ((bl : Int) + (br : Int) - 254)
  (to32 (fvAdd (of32 acc) sc)).1

/-- Steps added one by one as fused multiply-adds (R175, an FP32 operand). -/
def stepAcc (acc : Nat) (prods : List (FV × FV)) : Nat :=
  prods.foldl (fun a ab => (to32 (fvFma ab.1 ab.2 (of32 a))).1) acc

/-- FP32 to a 64-bit integer, round to nearest even (R103): a value beyond the target's range, and so every negative one in the
unsigned form, gives the nearest integer with NV. -/
def f32ToInt (signed : Bool) (c : Nat) : Nat × Nat :=
  let lo : Int := if signed then -(2 ^ 63 : Nat) else 0
  let hi : Int := if signed then (2 ^ 63 : Nat) - 1 else (2 ^ 64 : Nat) - 1
  match of32 c with
  | .nan => (0, flNV)
  | .inf n => (ofSigned 64 (if n then lo else hi), flNV)
  | .fin n m e =>
    let (k, nx) := roundShift m e
    let v : Int := if n then -(k : Int) else k
    if v < lo || (n && m != 0 && lo == 0) then (ofSigned 64 lo, flNV)
    else if hi < v then (ofSigned 64 hi, flNV)
    else (ofSigned 64 v, flIf nx flNX)

/-- A 64-bit integer to FP32 (R103). -/
def intToF32 (signed : Bool) (w : Nat) : Nat × Nat :=
  let v : Int := if signed then toSigned 64 w else (w : Int)
  narrow 0 (.fin (decide (v < 0)) v.natAbs 0)

end Sys2Proof.Machine
end

