-- ==== Sys2Proof/Machine/Hash.lean ====
section
/-!
DEFINITION. CRC-32C (R281) and SHAKE256 (R509, R482).
-/
namespace Sys2Proof.Machine

/-- One bit of the reflected CRC-32C division. -/
def crcBit (c : Nat) : Nat := if c % 2 = 1 then (c / 2) ^^^ 0x82F63B78 else c / 2

/-- One byte into the CRC register. -/
def crcByte (c b : Nat) : Nat := crcBit (crcBit (crcBit (crcBit (crcBit (crcBit (crcBit (crcBit (c ^^^ b))))))))

/-- CRC-32C of a list of bytes: reflected, initial value and final XOR all ones (R281). -/
def crc32c (l : List Byte) : Nat := (l.foldl (fun c b => crcByte c b.toNat) 0xFFFFFFFF) ^^^ 0xFFFFFFFF

/-- Round constants of Keccak-f[1600]. -/
def keccakRC : List Nat :=
  [0x0000000000000001, 0x0000000000008082, 0x800000000000808A, 0x8000000080008000, 0x000000000000808B,
   0x0000000080000001, 0x8000000080008081, 0x8000000000008009, 0x000000000000008A, 0x0000000000000088,
   0x0000000080008009, 0x000000008000000A] ++
  [0x000000008000808B, 0x800000000000008B, 0x8000000000008089, 0x8000000000008003, 0x8000000000008002,
   0x8000000000000080, 0x000000000000800A, 0x800000008000000A, 0x8000000080008081, 0x8000000000008080,
   0x0000000080000001, 0x8000000080008008]

/-- Rotation offsets, lane x + 5y. -/
def keccakRot : List Nat :=
  [0, 1, 62, 28, 27, 36, 44, 6, 55, 20, 3, 10, 43] ++ [25, 39, 41, 45, 15, 21, 8, 18, 2, 61, 56, 14]

/-- A 64-bit rotation left. -/
def rotl64 (v n : Nat) : Nat := ((v <<< n) % 2 ^ 64) ||| (v >>> (64 - n))

/-- One round of Keccak-f[1600] on 25 lanes. -/
def keccakRound (rc : Nat) (a : List Nat) : List Nat :=
  let g := fun (l : List Nat) (i : Nat) => nth 0 l i
  let c := (upFrom 0 5).map (fun x => g a x ^^^ g a (x + 5) ^^^ g a (x + 10) ^^^ g a (x + 15) ^^^ g a (x + 20))
  let d := (upFrom 0 5).map (fun x => g c ((x + 4) % 5) ^^^ rotl64 (g c ((x + 1) % 5)) 1)
  let t := (upFrom 0 25).map (fun i => g a i ^^^ g d (i % 5))
  -- B[y, 2x + 3y] = rot(A[x, y]); lane i of B comes from the lane that moves there
  let b := (upFrom 0 25).map (fun i =>
    let x' := i % 5
    let y' := i / 5
    -- x' = y, y' = 2x + 3y mod 5, so x = 3 (y' − 3 x') mod 5
    let y := x'
    let x := (3 * (y' + 15 - 3 * y)) % 5
    rotl64 (g t (x + 5 * y)) (g keccakRot (x + 5 * y)))
  (upFrom 0 25).map (fun i =>
    let x := i % 5
    let y := i / 5
    let v := g b i ^^^ ((2 ^ 64 - 1 - g b ((x + 1) % 5 + 5 * y)) &&& g b ((x + 2) % 5 + 5 * y))
    if i = 0 then v ^^^ rc else v)

/-- Keccak-f[1600]. -/
def keccakF (a : List Nat) : List Nat := keccakRC.foldl (fun a rc => keccakRound rc a) a

/-- Lanes with one 136-byte block absorbed. -/
def keccakAbsorb (a : List Nat) (block : List Byte) : List Nat :=
  let lanes := (chunks 8 block).map ofBytes
  keccakF ((upFrom 0 25).map (fun i => nth 0 a i ^^^ nth 0 lanes i))

/-- A message padded for SHAKE256 to whole 136-byte blocks. -/
def shakePad (l : List Byte) : List Byte :=
  let n := l.length % 136
  if n = 135 then l ++ [0x9F#8]
  else l ++ [0x1F#8] ++ List.replicate (134 - n) 0#8 ++ [0x80#8]

/-- The first n bytes (at most 136) of SHAKE256 of a message. -/
def shake256 (l : List Byte) (n : Nat) : List Byte :=
  let a := (chunks 136 (shakePad l)).foldl keccakAbsorb (List.replicate 25 0)
  (((upFrom 0 17).map (fun i => bytesOf 8 (nth 0 a i))).flatten).take n

/-- A stochastic-rounding seed from its concatenated items (R509). -/
def seedOf (l : List Byte) : Nat := ofBytes (shake256 l 8)

end Sys2Proof.Machine
end

