-- ==== Sys2Proof/Config.lean ====
section
/-!
DEFINITION. What the spec leaves to the implementation, and the free values: constants with no body, applied to a
counter of State (a fresh value each time) or to operands. Nothing in Lean can evaluate one.
-/
namespace Sys2Proof

/-- A value the spec does not state, numbered by the free-value counter of State. -/
opaque Config.freeNat : Nat → Nat

/-- A choice the spec does not fix, numbered by the free-value counter of State. -/
opaque Config.freeBit : Nat → Bool

/-- The content a read delivers where the spec fixes none (an error across three or more symbols, R288). -/
opaque Config.freeLine : Nat → Line

/-- What a counter that the spec neither lets wrap nor saturate holds past its width: of its window offset and the exact sum. -/
opaque Config.counterPast : Nat → Nat → Nat

/-- Which of two colliding rows of a STORE scatter stays (R150): of the step, core, instruction, rows and place, so that a retried
step gives the same row again (R184). -/
opaque Config.laterRow : List Nat → List (Nat × Nat) → Bool

/-- Which of the free slots or pool images an admission takes (R313, R339): of the step and partition, and of the place in its
admission, so that a retried step takes the same again (R184). -/
opaque Config.slotChoice : Nat → Nat → Nat

/-- What the transfer descriptor of an XFER item encodes (R59): of its bytes and their number, the transfer as the low bits of an
instruction word, and the descriptors of its operands. The spec gives the descriptor no layout. -/
opaque Config.xferOf : Nat → Nat → Nat × List (BitVec 512)

/-- How many 16 KiB slots at the end of a PAN item's body are its payload: of its bytes and their number. The spec gives the body
no layout beyond its command words. -/
opaque Config.panPayload : Nat → Nat → Nat

/-- The payload bytes of a SEND whose size the spec does not state, by the kind of its message (R415). -/
opaque Config.sendBytes : Nat → Nat

/-- The bytes of an ML-DSA signature over a body (R465, R469, R484): the key is secret, so the value is free. -/
opaque Config.signature : List Byte → List Byte

end Sys2Proof
end

