-- ==== Sys2Proof/Machine/Regs.lean ====
section
/-!
DEFINITION. The register tables of every chapter, as data: for each register its window offset, its array strides,
its home die, its snapshot mark, its lock bit and its fields (bits, access code, reset value, Kept across entry).
The tables are those of the spec's chapters; the codes are those of Scope and Conventions (R4, R5, R9, R10).
-/
namespace Sys2Proof.Machine

/-- The access codes of R5. -/
inductive Access where
  | rw | ro | wo | w1c | w1s | rc | rwl
  deriving DecidableEq, Repr

/-- The Kept across entries that occur in the register tables (R9, R10), named by their last event:
none is a dash; d12q is "D1, D2 (quiesced)"; each later one lists every event up to its name. -/
inductive Kept where
  | none | d1 | d12 | d12q | die | warm | cold | standby
  deriving DecidableEq, Repr

/-- Where a register is homed: die 0, or the die that owns the stack, core, die sub-block or port of its first index. -/
inductive Home where
  | die0 | stack | core | die | port
  deriving DecidableEq, Repr

/-- One row of a register table. -/
structure Field where
  hi : Nat
  lo : Nat
  access : Access
  reset : Nat
  kept : Kept
  deriving DecidableEq, Repr

/-- One register, or an array of like registers: dims gives the count and stride of each array index. -/
structure Reg where
  base : Nat
  dims : List (Nat × Nat)
  home : Home
  snapshot : Bool
  /-- The lock bit of its RWL fields: offset, stride of the first index, bit number. -/
  lock : Option (Nat × Nat × Nat)
  fields : List Field
  deriving DecidableEq, Repr

/-- One field of a register. -/
structure Fld where
  reg : Reg
  hi : Nat
  lo : Nat
  deriving DecidableEq, Repr


/-! Registers of the chapter The Step Tick and the Almanac. -/

def Reg.TICK_COUNT : Reg := ⟨0x0, [], .die0, true, .none,
  [⟨63, 0, .rw, 0, .warm⟩]⟩
def Fld.TICK_COUNT.COUNT : Fld := ⟨Reg.TICK_COUNT, 63, 0⟩
def Reg.BTICK_NUM : Reg := ⟨0x8, [], .die0, true, .none,
  [⟨47, 0, .ro, 0, .warm⟩]⟩
def Fld.BTICK_NUM.NUM : Fld := ⟨Reg.BTICK_NUM, 47, 0⟩
def Reg.TICK_PERIOD : Reg := ⟨0x10, [], .die0, false, .none,
  [⟨16, 0, .rw, 500, .warm⟩]⟩
def Fld.TICK_PERIOD.PERIOD_US : Fld := ⟨Reg.TICK_PERIOD, 16, 0⟩
def Reg.TICK_DISC : Reg := ⟨0x18, [], .die0, false, .none,
  [⟨0, 0, .rw, 0, .warm⟩, ⟨3, 2, .rw, 0, .warm⟩, ⟨15, 8, .rw, 100, .warm⟩, ⟨47, 16, .rw, 1000, .warm⟩]⟩
def Fld.TICK_DISC.DISC_EN : Fld := ⟨Reg.TICK_DISC, 0, 0⟩
def Fld.TICK_DISC.PORT : Fld := ⟨Reg.TICK_DISC, 3, 2⟩
def Fld.TICK_DISC.SLEW_MAX_PPM : Fld := ⟨Reg.TICK_DISC, 15, 8⟩
def Fld.TICK_DISC.STEP_THRESH_US : Fld := ⟨Reg.TICK_DISC, 47, 16⟩
def Reg.TICK_SYNC : Reg := ⟨0x20, [], .die0, false, .none,
  [⟨1, 0, .ro, 0, .d12⟩, ⟨63, 32, .ro, 0, .d12⟩]⟩
def Fld.TICK_SYNC.STATE : Fld := ⟨Reg.TICK_SYNC, 1, 0⟩
def Fld.TICK_SYNC.OFFSET_NS : Fld := ⟨Reg.TICK_SYNC, 63, 32⟩
def Reg.LEAP_AT : Reg := ⟨0x28, [], .die0, false, .none,
  [⟨47, 0, .rw, 0, .d12⟩]⟩
def Fld.LEAP_AT.AT : Fld := ⟨Reg.LEAP_AT, 47, 0⟩
def Reg.LEAP_CTRL : Reg := ⟨0x30, [], .die0, false, .none,
  [⟨6, 0, .rw, 1, .d12⟩, ⟨8, 8, .w1s, 0, .d12⟩, ⟨9, 9, .wo, 0, .none⟩, ⟨11, 10, .ro, 0, .d12⟩, ⟨31, 16, .rw, 8192, .d12⟩]⟩
def Fld.LEAP_CTRL.LEN : Fld := ⟨Reg.LEAP_CTRL, 6, 0⟩
def Fld.LEAP_CTRL.ARM : Fld := ⟨Reg.LEAP_CTRL, 8, 8⟩
def Fld.LEAP_CTRL.CANCEL : Fld := ⟨Reg.LEAP_CTRL, 9, 9⟩
def Fld.LEAP_CTRL.STATE : Fld := ⟨Reg.LEAP_CTRL, 11, 10⟩
def Fld.LEAP_CTRL.DEFER_MAX : Fld := ⟨Reg.LEAP_CTRL, 31, 16⟩
def Reg.LEAP_CLAIM : Reg := ⟨0x38, [], .die0, false, .none,
  [⟨47, 0, .ro, 0, .d12⟩, ⟨54, 48, .ro, 0, .d12⟩, ⟨59, 56, .ro, 0, .d12⟩, ⟨63, 63, .ro, 0, .d12⟩]⟩
def Fld.LEAP_CLAIM.CLAIM_AT : Fld := ⟨Reg.LEAP_CLAIM, 47, 0⟩
def Fld.LEAP_CLAIM.CLAIM_LEN : Fld := ⟨Reg.LEAP_CLAIM, 54, 48⟩
def Fld.LEAP_CLAIM.REASON : Fld := ⟨Reg.LEAP_CLAIM, 59, 56⟩
def Fld.LEAP_CLAIM.PENDING : Fld := ⟨Reg.LEAP_CLAIM, 63, 63⟩
def Reg.TICK_ERR : Reg := ⟨0x40, [], .die0, false, .none,
  [⟨0, 0, .w1c, 0, .warm⟩, ⟨1, 1, .w1c, 0, .warm⟩, ⟨2, 2, .w1c, 0, .warm⟩, ⟨3, 3, .w1c, 0, .warm⟩, ⟨4, 4, .w1c, 0, .warm⟩, ⟨5, 5, .w1c, 0, .warm⟩, ⟨6, 6, .w1c, 0, .warm⟩, ⟨7, 7, .w1c, 0, .warm⟩]⟩
def Fld.TICK_ERR.PERIOD_BAD : Fld := ⟨Reg.TICK_ERR, 0, 0⟩
def Fld.TICK_ERR.COUNT_REFUSED : Fld := ⟨Reg.TICK_ERR, 1, 1⟩
def Fld.TICK_ERR.LEAP_LATE : Fld := ⟨Reg.TICK_ERR, 2, 2⟩
def Fld.TICK_ERR.LEAP_BUSY : Fld := ⟨Reg.TICK_ERR, 3, 3⟩
def Fld.TICK_ERR.LEAP_DEFER : Fld := ⟨Reg.TICK_ERR, 4, 4⟩
def Fld.TICK_ERR.LEAP_EXTENDED : Fld := ⟨Reg.TICK_ERR, 5, 5⟩
def Fld.TICK_ERR.SYNC_LOST : Fld := ⟨Reg.TICK_ERR, 6, 6⟩
def Fld.TICK_ERR.CANCEL_REFUSED : Fld := ⟨Reg.TICK_ERR, 7, 7⟩
def Reg.STEP_CFG : Reg := ⟨0x1000, [(16, 0x100)], .die0, false, .none,
  [⟨9, 0, .rw, 0, .d12q⟩, ⟨25, 16, .rw, 0, .d12q⟩, ⟨41, 32, .rw, 40, .d12q⟩, ⟨51, 48, .rw, 3, .d12q⟩, ⟨63, 56, .rw, 32, .d12q⟩]⟩
def Fld.STEP_CFG.LEN_M1 : Fld := ⟨Reg.STEP_CFG, 9, 0⟩
def Fld.STEP_CFG.PHASE : Fld := ⟨Reg.STEP_CFG, 25, 16⟩
def Fld.STEP_CFG.EVE_PM : Fld := ⟨Reg.STEP_CFG, 41, 32⟩
def Fld.STEP_CFG.RETRY_LIMIT : Fld := ⟨Reg.STEP_CFG, 51, 48⟩
def Fld.STEP_CFG.RETRY_TRIM : Fld := ⟨Reg.STEP_CFG, 63, 56⟩
def Reg.STEP_CTRL : Reg := ⟨0x1008, [(16, 0x100)], .die0, false, .none,
  [⟨0, 0, .wo, 0, .none⟩, ⟨1, 1, .wo, 0, .none⟩, ⟨2, 2, .wo, 0, .none⟩, ⟨3, 3, .wo, 0, .none⟩]⟩
def Fld.STEP_CTRL.START : Fld := ⟨Reg.STEP_CTRL, 0, 0⟩
def Fld.STEP_CTRL.STOP : Fld := ⟨Reg.STEP_CTRL, 1, 1⟩
def Fld.STEP_CTRL.QUIESCE : Fld := ⟨Reg.STEP_CTRL, 2, 2⟩
def Fld.STEP_CTRL.RESUME : Fld := ⟨Reg.STEP_CTRL, 3, 3⟩
def Reg.STEP_STATE : Reg := ⟨0x1010, [(16, 0x100)], .die0, false, .none,
  [⟨2, 0, .ro, 0, .d12q⟩, ⟨7, 4, .ro, 0, .d12q⟩, ⟨11, 8, .ro, 0, .d12q⟩, ⟨14, 12, .ro, 0, .d12q⟩, ⟨16, 16, .ro, 0, .d12q⟩, ⟨20, 20, .ro, 0, .d12q⟩]⟩
def Fld.STEP_STATE.STATE : Fld := ⟨Reg.STEP_STATE, 2, 0⟩
def Fld.STEP_STATE.RETRY_COUNT : Fld := ⟨Reg.STEP_STATE, 7, 4⟩
def Fld.STEP_STATE.LAST_CAUSE : Fld := ⟨Reg.STEP_STATE, 11, 8⟩
def Fld.STEP_STATE.OPP : Fld := ⟨Reg.STEP_STATE, 14, 12⟩
def Fld.STEP_STATE.RETRY_EXHAUSTED : Fld := ⟨Reg.STEP_STATE, 16, 16⟩
def Fld.STEP_STATE.GEN : Fld := ⟨Reg.STEP_STATE, 20, 20⟩
def Reg.ALM_NEXT : Reg := ⟨0x1018, [(16, 0x100)], .die0, false, .none,
  [⟨41, 6, .rw, 0, .d12q⟩, ⟨57, 48, .rw, 0, .d12q⟩, ⟨63, 63, .rw, 0, .d12q⟩]⟩
def Fld.ALM_NEXT.BASE : Fld := ⟨Reg.ALM_NEXT, 41, 6⟩
def Fld.ALM_NEXT.FIRST : Fld := ⟨Reg.ALM_NEXT, 57, 48⟩
def Fld.ALM_NEXT.VALID : Fld := ⟨Reg.ALM_NEXT, 63, 63⟩
def Reg.ALM_CUR : Reg := ⟨0x1020, [(16, 0x100)], .die0, false, .none,
  [⟨41, 6, .ro, 0, .d12q⟩, ⟨57, 48, .ro, 0, .d12q⟩]⟩
def Fld.ALM_CUR.BASE : Fld := ⟨Reg.ALM_CUR, 41, 6⟩
def Fld.ALM_CUR.ENTRY : Fld := ⟨Reg.ALM_CUR, 57, 48⟩
def Reg.COMMIT_NUM : Reg := ⟨0x1028, [(16, 0x100)], .die0, true, .none,
  [⟨63, 0, .ro, 0, .d12q⟩]⟩
def Fld.COMMIT_NUM.COMMITS : Fld := ⟨Reg.COMMIT_NUM, 63, 0⟩
def Reg.RESTART_NUM : Reg := ⟨0x1030, [(16, 0x100)], .die0, true, .none,
  [⟨31, 0, .ro, 0, .d12q⟩, ⟨63, 32, .ro, 0, .d12q⟩]⟩
def Fld.RESTART_NUM.OVERRUNS : Fld := ⟨Reg.RESTART_NUM, 31, 0⟩
def Fld.RESTART_NUM.FAULTS : Fld := ⟨Reg.RESTART_NUM, 63, 32⟩
def Reg.OVERRUN_REC : Reg := ⟨0x1038, [(16, 0x100)], .die0, false, .none,
  [⟨47, 0, .ro, 0, .warm⟩, ⟨51, 48, .ro, 0, .warm⟩, ⟨59, 52, .ro, 0, .warm⟩, ⟨63, 60, .ro, 0, .warm⟩]⟩
def Fld.OVERRUN_REC.BTICK : Fld := ⟨Reg.OVERRUN_REC, 47, 0⟩
def Fld.OVERRUN_REC.CLASS : Fld := ⟨Reg.OVERRUN_REC, 51, 48⟩
def Fld.OVERRUN_REC.UNIT : Fld := ⟨Reg.OVERRUN_REC, 59, 52⟩
def Fld.OVERRUN_REC.CAUSE : Fld := ⟨Reg.OVERRUN_REC, 63, 60⟩
def Reg.ADMIT_REC : Reg := ⟨0x1040, [(16, 0x100)], .die0, false, .none,
  [⟨15, 0, .ro, 0, .d12q⟩, ⟨31, 16, .ro, 0, .d12q⟩, ⟨47, 32, .ro, 0, .d12q⟩]⟩
def Fld.ADMIT_REC.TOKENS : Fld := ⟨Reg.ADMIT_REC, 15, 0⟩
def Fld.ADMIT_REC.SEQS : Fld := ⟨Reg.ADMIT_REC, 31, 16⟩
def Fld.ADMIT_REC.FILL : Fld := ⟨Reg.ADMIT_REC, 47, 32⟩
def Reg.STEP_ERR : Reg := ⟨0x1048, [(16, 0x100)], .die0, false, .none,
  [⟨0, 0, .w1c, 0, .warm⟩, ⟨1, 1, .w1c, 0, .warm⟩, ⟨2, 2, .w1c, 0, .warm⟩, ⟨3, 3, .w1c, 0, .warm⟩, ⟨4, 4, .w1c, 0, .warm⟩, ⟨5, 5, .w1c, 0, .warm⟩, ⟨6, 6, .w1c, 0, .warm⟩, ⟨7, 7, .w1c, 0, .warm⟩]⟩
def Fld.STEP_ERR.OVERRUN : Fld := ⟨Reg.STEP_ERR, 0, 0⟩
def Fld.STEP_ERR.EVE_STALL : Fld := ⟨Reg.STEP_ERR, 1, 1⟩
def Fld.STEP_ERR.FAULT : Fld := ⟨Reg.STEP_ERR, 2, 2⟩
def Fld.STEP_ERR.RETRY_EXHAUSTED : Fld := ⟨Reg.STEP_ERR, 3, 3⟩
def Fld.STEP_ERR.ALM_BAD : Fld := ⟨Reg.STEP_ERR, 4, 4⟩
def Fld.STEP_ERR.CFG_REFUSED : Fld := ⟨Reg.STEP_ERR, 5, 5⟩
def Fld.STEP_ERR.XDIE_TIMEOUT : Fld := ⟨Reg.STEP_ERR, 6, 6⟩
def Fld.STEP_ERR.GROUP_VOTE : Fld := ⟨Reg.STEP_ERR, 7, 7⟩

/-! Registers of the chapter Axver Cores and Their Engines. -/

def Reg.CORE_STATUS : Reg := ⟨0x2000000, [(12, 0x10000)], .core, false, .none,
  [⟨2, 0, .ro, 0, .none⟩, ⟨7, 4, .ro, 0, .d12q⟩, ⟨8, 8, .ro, 0, .d12q⟩, ⟨19, 16, .ro, 0, .none⟩, ⟨29, 24, .ro, 0, .none⟩, ⟨37, 32, .ro, 0, .none⟩, ⟨44, 40, .ro, 0, .none⟩, ⟨51, 48, .ro, 0, .none⟩]⟩
def Fld.CORE_STATUS.STATE : Fld := ⟨Reg.CORE_STATUS, 2, 0⟩
def Fld.CORE_STATUS.PART : Fld := ⟨Reg.CORE_STATUS, 7, 4⟩
def Fld.CORE_STATUS.ASSIGNED : Fld := ⟨Reg.CORE_STATUS, 8, 8⟩
def Fld.CORE_STATUS.MXU_Q : Fld := ⟨Reg.CORE_STATUS, 19, 16⟩
def Fld.CORE_STATUS.VE_Q : Fld := ⟨Reg.CORE_STATUS, 29, 24⟩
def Fld.CORE_STATUS.XE_Q : Fld := ⟨Reg.CORE_STATUS, 37, 32⟩
def Fld.CORE_STATUS.PIP_Q : Fld := ⟨Reg.CORE_STATUS, 44, 40⟩
def Fld.CORE_STATUS.FTQ_USED : Fld := ⟨Reg.CORE_STATUS, 51, 48⟩
def Reg.CORE_PC : Reg := ⟨0x2000008, [(12, 0x10000)], .core, false, .none,
  [⟨41, 0, .ro, 0, .none⟩, ⟨57, 48, .ro, 0, .none⟩]⟩
def Fld.CORE_PC.PC : Fld := ⟨Reg.CORE_PC, 41, 0⟩
def Fld.CORE_PC.ITEM : Fld := ⟨Reg.CORE_PC, 57, 48⟩
def Reg.CORE_CFG : Reg := ⟨0x2000010, [(12, 0x10000)], .core, false, some (0x2000018, 0x10000, 0),
  [⟨7, 0, .rwl, 0, .d12q⟩, ⟨11, 8, .rwl, 0, .d12q⟩, ⟨16, 16, .rwl, 1, .d12q⟩]⟩
def Fld.CORE_CFG.FTQ_BASE : Fld := ⟨Reg.CORE_CFG, 7, 0⟩
def Fld.CORE_CFG.FTQ_DEPTH : Fld := ⟨Reg.CORE_CFG, 11, 8⟩
def Fld.CORE_CFG.RC_EN : Fld := ⟨Reg.CORE_CFG, 16, 16⟩
def Reg.CORE_LOCK : Reg := ⟨0x2000018, [(12, 0x10000)], .core, false, .none,
  [⟨0, 0, .w1s, 0, .d12q⟩]⟩
def Fld.CORE_LOCK.LOCK : Fld := ⟨Reg.CORE_LOCK, 0, 0⟩
def Reg.CORE_CTRL : Reg := ⟨0x2000020, [(12, 0x10000)], .core, false, .none,
  [⟨0, 0, .wo, 0, .none⟩, ⟨1, 1, .wo, 0, .none⟩, ⟨2, 2, .wo, 0, .none⟩]⟩
def Fld.CORE_CTRL.RC_INV : Fld := ⟨Reg.CORE_CTRL, 0, 0⟩
def Fld.CORE_CTRL.TRF_CLEAR : Fld := ⟨Reg.CORE_CTRL, 1, 1⟩
def Fld.CORE_CTRL.CLR_CNT : Fld := ⟨Reg.CORE_CTRL, 2, 2⟩
def Reg.FAULT_REC : Reg := ⟨0x2000028, [(12, 0x10000)], .core, false, .none,
  [⟨0, 0, .w1c, 0, .warm⟩, ⟨1, 1, .w1c, 0, .warm⟩, ⟨6, 4, .ro, 0, .warm⟩, ⟨15, 8, .ro, 0, .warm⟩, ⟨20, 16, .ro, 0, .warm⟩, ⟨63, 32, .ro, 0, .warm⟩]⟩
def Fld.FAULT_REC.VALID : Fld := ⟨Reg.FAULT_REC, 0, 0⟩
def Fld.FAULT_REC.MORE : Fld := ⟨Reg.FAULT_REC, 1, 1⟩
def Fld.FAULT_REC.ENGINE : Fld := ⟨Reg.FAULT_REC, 6, 4⟩
def Fld.FAULT_REC.CODE : Fld := ⟨Reg.FAULT_REC, 15, 8⟩
def Fld.FAULT_REC.UNIT : Fld := ⟨Reg.FAULT_REC, 20, 16⟩
def Fld.FAULT_REC.BTICK_LO : Fld := ⟨Reg.FAULT_REC, 63, 32⟩
def Reg.FAULT_PC : Reg := ⟨0x2000030, [(12, 0x10000)], .core, false, .none,
  [⟨41, 0, .ro, 0, .warm⟩]⟩
def Fld.FAULT_PC.PC : Fld := ⟨Reg.FAULT_PC, 41, 0⟩
def Reg.FAULT_ADDR : Reg := ⟨0x2000038, [(12, 0x10000)], .core, false, .none,
  [⟨41, 0, .ro, 0, .warm⟩]⟩
def Fld.FAULT_ADDR.ADDR : Fld := ⟨Reg.FAULT_ADDR, 41, 0⟩
def Reg.FP_FLAGS : Reg := ⟨0x2000040, [(12, 0x10000)], .core, false, .none,
  [⟨0, 0, .w1c, 0, .d12q⟩, ⟨1, 1, .w1c, 0, .d12q⟩, ⟨2, 2, .w1c, 0, .d12q⟩, ⟨3, 3, .w1c, 0, .d12q⟩, ⟨4, 4, .w1c, 0, .d12q⟩, ⟨5, 5, .w1c, 0, .d12q⟩]⟩
def Fld.FP_FLAGS.NV : Fld := ⟨Reg.FP_FLAGS, 0, 0⟩
def Fld.FP_FLAGS.DZ : Fld := ⟨Reg.FP_FLAGS, 1, 1⟩
def Fld.FP_FLAGS.OF : Fld := ⟨Reg.FP_FLAGS, 2, 2⟩
def Fld.FP_FLAGS.UF : Fld := ⟨Reg.FP_FLAGS, 3, 3⟩
def Fld.FP_FLAGS.NX : Fld := ⟨Reg.FP_FLAGS, 4, 4⟩
def Fld.FP_FLAGS.SAT : Fld := ⟨Reg.FP_FLAGS, 5, 5⟩
def Reg.IDX_OOB : Reg := ⟨0x2000048, [(12, 0x10000)], .core, false, .none,
  [⟨0, 0, .w1c, 0, .d12q⟩]⟩
def Fld.IDX_OOB.FLAG : Fld := ⟨Reg.IDX_OOB, 0, 0⟩
def Reg.IDX_OOB_CNT : Reg := ⟨0x2000050, [(12, 0x10000)], .core, false, .none,
  [⟨31, 0, .rc, 0, .d12q⟩]⟩
def Fld.IDX_OOB_CNT.COUNT : Fld := ⟨Reg.IDX_OOB_CNT, 31, 0⟩
def Reg.CYCLES : Reg := ⟨0x2000058, [(12, 0x10000)], .core, true, .none,
  [⟨63, 0, .ro, 0, .d12q⟩]⟩
def Fld.CYCLES.COUNT : Fld := ⟨Reg.CYCLES, 63, 0⟩
def Reg.BLK_LAST : Reg := ⟨0x2000060, [(12, 0x10000)], .core, false, .none,
  [⟨31, 0, .ro, 0, .d12q⟩, ⟨41, 32, .ro, 0, .d12q⟩, ⟨48, 48, .ro, 0, .d12q⟩]⟩
def Fld.BLK_LAST.CYC : Fld := ⟨Reg.BLK_LAST, 31, 0⟩
def Fld.BLK_LAST.ITEM : Fld := ⟨Reg.BLK_LAST, 41, 32⟩
def Fld.BLK_LAST.OVER : Fld := ⟨Reg.BLK_LAST, 48, 48⟩
def Reg.BLK_OVER_CNT : Reg := ⟨0x2000068, [(12, 0x10000)], .core, false, .none,
  [⟨31, 0, .rc, 0, .d12q⟩]⟩
def Fld.BLK_OVER_CNT.COUNT : Fld := ⟨Reg.BLK_OVER_CNT, 31, 0⟩
def Reg.RC_HITS : Reg := ⟨0x2000070, [(12, 0x10000)], .core, true, .none,
  [⟨63, 0, .ro, 0, .d12q⟩]⟩
def Fld.RC_HITS.HITS : Fld := ⟨Reg.RC_HITS, 63, 0⟩
def Reg.RC_MISSES : Reg := ⟨0x2000078, [(12, 0x10000)], .core, true, .none,
  [⟨63, 0, .ro, 0, .d12q⟩]⟩
def Fld.RC_MISSES.MISSES : Fld := ⟨Reg.RC_MISSES, 63, 0⟩
def Reg.ECC_STAT : Reg := ⟨0x2000080, [(12, 0x10000)], .core, false, .none,
  [⟨15, 0, .ro, 0, .warm⟩, ⟨16, 16, .w1c, 0, .warm⟩, ⟨31, 24, .ro, 0, .warm⟩, ⟨32, 32, .ro, 0, .warm⟩]⟩
def Fld.ECC_STAT.TRF_CE : Fld := ⟨Reg.ECC_STAT, 15, 0⟩
def Fld.ECC_STAT.TRF_UE : Fld := ⟨Reg.ECC_STAT, 16, 16⟩
def Fld.ECC_STAT.UE_SLOT_LO : Fld := ⟨Reg.ECC_STAT, 31, 24⟩
def Fld.ECC_STAT.UE_SLOT_HI : Fld := ⟨Reg.ECC_STAT, 32, 32⟩

/-! Registers of the chapter Stack Memory and Sluices. -/

def Reg.STK_STATUS : Reg := ⟨0x1000000, [(20, 0x10000)], .stack, false, .none,
  [⟨2, 0, .ro, 0, .none⟩, ⟨4, 4, .ro, 0, .none⟩, ⟨15, 8, .ro, 0, .none⟩, ⟨19, 16, .ro, 0, .none⟩]⟩
def Fld.STK_STATUS.STATE : Fld := ⟨Reg.STK_STATUS, 2, 0⟩
def Fld.STK_STATUS.HOT : Fld := ⟨Reg.STK_STATUS, 4, 4⟩
def Fld.STK_STATUS.TEMP_MAX : Fld := ⟨Reg.STK_STATUS, 15, 8⟩
def Fld.STK_STATUS.OWED_MAX : Fld := ⟨Reg.STK_STATUS, 19, 16⟩
def Reg.STK_CFG : Reg := ⟨0x1000008, [(20, 0x10000)], .stack, false, some (0x1000018, 0x10000, 0),
  [⟨8, 0, .rwl, 390, .d12⟩, ⟨19, 16, .rwl, 8, .d12⟩, ⟨31, 24, .rwl, 85, .d12⟩, ⟨39, 32, .rwl, 83, .d12⟩, ⟨55, 48, .rwl, 64, .d12⟩]⟩
def Fld.STK_CFG.TREFI_10NS : Fld := ⟨Reg.STK_CFG, 8, 0⟩
def Fld.STK_CFG.REF_POSTPONE_MAX : Fld := ⟨Reg.STK_CFG, 19, 16⟩
def Fld.STK_CFG.HOT_ON_C : Fld := ⟨Reg.STK_CFG, 31, 24⟩
def Fld.STK_CFG.HOT_OFF_C : Fld := ⟨Reg.STK_CFG, 39, 32⟩
def Fld.STK_CFG.ACT_THRESH_64 : Fld := ⟨Reg.STK_CFG, 55, 48⟩
def Reg.STK_PWR : Reg := ⟨0x1000010, [(20, 0x10000)], .stack, false, some (0x1000018, 0x10000, 0),
  [⟨10, 0, .rwl, 1024, .d12⟩]⟩
def Fld.STK_PWR.PWR_CAP : Fld := ⟨Reg.STK_PWR, 10, 0⟩
def Reg.STK_LOCK : Reg := ⟨0x1000018, [(20, 0x10000)], .stack, false, .none,
  [⟨0, 0, .w1s, 0, .d12⟩]⟩
def Fld.STK_LOCK.LOCK : Fld := ⟨Reg.STK_LOCK, 0, 0⟩
def Reg.STK_TEMP : Reg := ⟨0x1000020, [(20, 0x10000)], .stack, false, .none,
  [⟨7, 0, .ro, 0, .none⟩, ⟨15, 8, .ro, 0, .none⟩, ⟨23, 16, .ro, 0, .none⟩, ⟨31, 24, .ro, 0, .none⟩]⟩
def Fld.STK_TEMP.T0 : Fld := ⟨Reg.STK_TEMP, 7, 0⟩
def Fld.STK_TEMP.T1 : Fld := ⟨Reg.STK_TEMP, 15, 8⟩
def Fld.STK_TEMP.T2 : Fld := ⟨Reg.STK_TEMP, 23, 16⟩
def Fld.STK_TEMP.T3 : Fld := ⟨Reg.STK_TEMP, 31, 24⟩
def Reg.STK_REF_CNT : Reg := ⟨0x1000030, [(20, 0x10000)], .stack, true, .none,
  [⟨31, 0, .ro, 0, .d12⟩, ⟨63, 32, .ro, 0, .d12⟩]⟩
def Fld.STK_REF_CNT.POSTPONED : Fld := ⟨Reg.STK_REF_CNT, 31, 0⟩
def Fld.STK_REF_CNT.FORCED : Fld := ⟨Reg.STK_REF_CNT, 63, 32⟩
def Reg.STK_NRR_CNT : Reg := ⟨0x1000038, [(20, 0x10000)], .stack, true, .none,
  [⟨31, 0, .ro, 0, .d12⟩, ⟨63, 32, .ro, 0, .d12⟩]⟩
def Fld.STK_NRR_CNT.NRR : Fld := ⟨Reg.STK_NRR_CNT, 31, 0⟩
def Fld.STK_NRR_CNT.CONFLICTS : Fld := ⟨Reg.STK_NRR_CNT, 63, 32⟩
def Reg.STK_EXT_RD : Reg := ⟨0x1000040, [(20, 0x10000)], .stack, true, .none,
  [⟨63, 0, .ro, 0, .d12⟩]⟩
def Fld.STK_EXT_RD.BYTES : Fld := ⟨Reg.STK_EXT_RD, 63, 0⟩
def Reg.STK_EXT_WR : Reg := ⟨0x1000048, [(20, 0x10000)], .stack, true, .none,
  [⟨63, 0, .ro, 0, .d12⟩]⟩
def Fld.STK_EXT_WR.BYTES : Fld := ⟨Reg.STK_EXT_WR, 63, 0⟩
def Reg.STK_INT : Reg := ⟨0x1000050, [(20, 0x10000)], .stack, true, .none,
  [⟨63, 0, .ro, 0, .d12⟩]⟩
def Fld.STK_INT.BYTES : Fld := ⟨Reg.STK_INT, 63, 0⟩
def Reg.STK_TURNS : Reg := ⟨0x1000058, [(20, 0x10000)], .stack, true, .none,
  [⟨63, 0, .ro, 0, .d12⟩]⟩
def Fld.STK_TURNS.SWITCHES : Fld := ⟨Reg.STK_TURNS, 63, 0⟩
def Reg.SL_LINE : Reg := ⟨0x300000, [], .die0, false, some (0x300008, 0x0, 0),
  [⟨13, 0, .rwl, 11520, .d12⟩, ⟨45, 32, .ro, 640, .d12⟩]⟩
def Fld.SL_LINE.BUDGET : Fld := ⟨Reg.SL_LINE, 13, 0⟩
def Fld.SL_LINE.USED : Fld := ⟨Reg.SL_LINE, 45, 32⟩
def Reg.SL_LOCK : Reg := ⟨0x300008, [], .die0, false, .none,
  [⟨0, 0, .w1s, 0, .d12⟩]⟩
def Fld.SL_LOCK.LOCK : Fld := ⟨Reg.SL_LOCK, 0, 0⟩
def Reg.SL_ERR : Reg := ⟨0x300010, [], .die0, false, .none,
  [⟨0, 0, .w1c, 0, .warm⟩, ⟨1, 1, .w1c, 0, .warm⟩]⟩
def Fld.SL_ERR.OVER_LINE : Fld := ⟨Reg.SL_ERR, 0, 0⟩
def Fld.SL_ERR.OVER_CAP : Fld := ⟨Reg.SL_ERR, 1, 1⟩
def Reg.SL_CFG : Reg := ⟨0x301000, [(20, 0x1000), (17, 0x40)], .stack, false, .none,
  [⟨13, 0, .rw, 0, .d12q⟩, ⟨25, 16, .rw, 16, .d12q⟩, ⟨47, 32, .rw, 65535, .d12q⟩]⟩
def Fld.SL_CFG.RATE : Fld := ⟨Reg.SL_CFG, 13, 0⟩
def Fld.SL_CFG.DEPTH_UJ : Fld := ⟨Reg.SL_CFG, 25, 16⟩
def Fld.SL_CFG.REF_DEFER : Fld := ⟨Reg.SL_CFG, 47, 32⟩
def Reg.SL_LEVEL : Reg := ⟨0x301008, [(20, 0x1000), (17, 0x40)], .stack, false, .none,
  [⟨31, 0, .ro, 0, .none⟩, ⟨47, 32, .ro, 0, .none⟩]⟩
def Fld.SL_LEVEL.LEVEL : Fld := ⟨Reg.SL_LEVEL, 31, 0⟩
def Fld.SL_LEVEL.DEFER_LEFT : Fld := ⟨Reg.SL_LEVEL, 47, 32⟩
def Reg.SL_EXT : Reg := ⟨0x301010, [(20, 0x1000), (17, 0x40)], .stack, true, .none,
  [⟨63, 0, .ro, 0, .d12q⟩]⟩
def Fld.SL_EXT.BYTES : Fld := ⟨Reg.SL_EXT, 63, 0⟩
def Reg.SL_INT : Reg := ⟨0x301018, [(20, 0x1000), (17, 0x40)], .stack, true, .none,
  [⟨63, 0, .ro, 0, .d12q⟩]⟩
def Fld.SL_INT.BYTES : Fld := ⟨Reg.SL_INT, 63, 0⟩
def Reg.SL_STALL : Reg := ⟨0x301020, [(20, 0x1000), (17, 0x40)], .stack, true, .none,
  [⟨63, 0, .ro, 0, .d12q⟩]⟩
def Fld.SL_STALL.NS : Fld := ⟨Reg.SL_STALL, 63, 0⟩
def Reg.SL_SCALE : Reg := ⟨0x301800, [(20, 0x1000)], .stack, false, .none,
  [⟨8, 0, .ro, 256, .d12⟩]⟩
def Fld.SL_SCALE.SCALE : Fld := ⟨Reg.SL_SCALE, 8, 0⟩
def Reg.SL_HOSTW : Reg := ⟨0x301808, [(20, 0x1000)], .stack, false, .none,
  [⟨9, 0, .rw, 100, .d12⟩]⟩
def Fld.SL_HOSTW.HOST_WEIGHT : Fld := ⟨Reg.SL_HOSTW, 9, 0⟩

/-! Registers of the chapter Tile Checksums, ECC and the Rake. -/

def Reg.STK_ECC_CNT : Reg := ⟨0x1008000, [(20, 0x10000)], .stack, false, .none,
  [⟨31, 0, .rc, 0, .warm⟩, ⟨47, 32, .rc, 0, .warm⟩]⟩
def Fld.STK_ECC_CNT.CE : Fld := ⟨Reg.STK_ECC_CNT, 31, 0⟩
def Fld.STK_ECC_CNT.UE : Fld := ⟨Reg.STK_ECC_CNT, 47, 32⟩
def Reg.STK_ECC_THR : Reg := ⟨0x1008008, [(20, 0x10000)], .stack, false, .none,
  [⟨31, 0, .rw, 1024, .warm⟩, ⟨32, 32, .w1c, 0, .warm⟩]⟩
def Fld.STK_ECC_THR.THRESH : Fld := ⟨Reg.STK_ECC_THR, 31, 0⟩
def Fld.STK_ECC_THR.CROSSED : Fld := ⟨Reg.STK_ECC_THR, 32, 32⟩
def Reg.STK_CE_LOST : Reg := ⟨0x1008010, [(20, 0x10000)], .stack, false, .none,
  [⟨31, 0, .rc, 0, .warm⟩]⟩
def Fld.STK_CE_LOST.COUNT : Fld := ⟨Reg.STK_CE_LOST, 31, 0⟩
def Reg.STK_CE_W0 : Reg := ⟨0x1008100, [(20, 0x10000), (16, 0x10)], .stack, false, .none,
  [⟨0, 0, .w1c, 0, .warm⟩, ⟨41, 6, .ro, 0, .warm⟩]⟩
def Fld.STK_CE_W0.VALID : Fld := ⟨Reg.STK_CE_W0, 0, 0⟩
def Fld.STK_CE_W0.LINE : Fld := ⟨Reg.STK_CE_W0, 41, 6⟩
def Reg.STK_CE_W1 : Reg := ⟨0x1008108, [(20, 0x10000), (16, 0x10)], .stack, false, .none,
  [⟨5, 0, .ro, 0, .warm⟩, ⟨31, 16, .ro, 0, .warm⟩, ⟨63, 32, .ro, 0, .warm⟩]⟩
def Fld.STK_CE_W1.SYM : Fld := ⟨Reg.STK_CE_W1, 5, 0⟩
def Fld.STK_CE_W1.REPEAT : Fld := ⟨Reg.STK_CE_W1, 31, 16⟩
def Fld.STK_CE_W1.BTICK_LO : Fld := ⟨Reg.STK_CE_W1, 63, 32⟩
def Reg.STK_FLIP_DATA : Reg := ⟨0x1008200, [(20, 0x10000), (8, 0x8)], .stack, false, .none,
  [⟨63, 0, .rw, 0, .d12⟩]⟩
def Fld.STK_FLIP_DATA.MASK : Fld := ⟨Reg.STK_FLIP_DATA, 63, 0⟩
def Reg.STK_FLIP_META : Reg := ⟨0x1008240, [(20, 0x10000)], .stack, false, .none,
  [⟨2, 0, .rw, 0, .d12⟩]⟩
def Fld.STK_FLIP_META.MASK : Fld := ⟨Reg.STK_FLIP_META, 2, 0⟩
def Reg.STK_FLIP_CSUM : Reg := ⟨0x1008248, [(20, 0x10000)], .stack, false, .none,
  [⟨31, 0, .rw, 0, .d12⟩]⟩
def Fld.STK_FLIP_CSUM.MASK : Fld := ⟨Reg.STK_FLIP_CSUM, 31, 0⟩
def Reg.STK_FLIP_CTRL : Reg := ⟨0x1008250, [(20, 0x10000)], .stack, false, .none,
  [⟨0, 0, .w1s, 0, .none⟩, ⟨1, 1, .w1s, 0, .none⟩, ⟨2, 2, .rw, 0, .d12⟩, ⟨7, 4, .rw, 0, .d12⟩, ⟨11, 8, .rw, 0, .d12⟩, ⟨12, 12, .rw, 0, .d12⟩]⟩
def Fld.STK_FLIP_CTRL.ARM_DATA : Fld := ⟨Reg.STK_FLIP_CTRL, 0, 0⟩
def Fld.STK_FLIP_CTRL.ARM_CSUM : Fld := ⟨Reg.STK_FLIP_CTRL, 1, 1⟩
def Fld.STK_FLIP_CTRL.POINT : Fld := ⟨Reg.STK_FLIP_CTRL, 2, 2⟩
def Fld.STK_FLIP_CTRL.SRC : Fld := ⟨Reg.STK_FLIP_CTRL, 7, 4⟩
def Fld.STK_FLIP_CTRL.PART : Fld := ⟨Reg.STK_FLIP_CTRL, 11, 8⟩
def Fld.STK_FLIP_CTRL.PART_EN : Fld := ⟨Reg.STK_FLIP_CTRL, 12, 12⟩
def Reg.STK_FLIP_CNT : Reg := ⟨0x1008258, [(20, 0x10000)], .stack, false, .none,
  [⟨31, 0, .ro, 0, .warm⟩]⟩
def Fld.STK_FLIP_CNT.FIRED : Fld := ⟨Reg.STK_FLIP_CNT, 31, 0⟩
def Reg.ERR_LOG_PI : Reg := ⟨0x400000, [], .die0, false, .none,
  [⟨31, 0, .ro, 0, .warm⟩]⟩
def Fld.ERR_LOG_PI.PROD : Fld := ⟨Reg.ERR_LOG_PI, 31, 0⟩
def Reg.ERR_LOG_CI : Reg := ⟨0x400008, [], .die0, false, .none,
  [⟨31, 0, .rw, 0, .warm⟩]⟩
def Fld.ERR_LOG_CI.CONS : Fld := ⟨Reg.ERR_LOG_CI, 31, 0⟩
def Reg.ERR_STATUS : Reg := ⟨0x400010, [], .die0, false, .none,
  [⟨0, 0, .w1c, 0, .warm⟩, ⟨1, 1, .w1c, 0, .warm⟩, ⟨63, 32, .ro, 0, .warm⟩]⟩
def Fld.ERR_STATUS.OVERFLOW : Fld := ⟨Reg.ERR_STATUS, 0, 0⟩
def Fld.ERR_STATUS.POISON_FULL : Fld := ⟨Reg.ERR_STATUS, 1, 1⟩
def Fld.ERR_STATUS.LOST : Fld := ⟨Reg.ERR_STATUS, 63, 32⟩
def Reg.ERR_VERIFY : Reg := ⟨0x400018, [], .die0, false, .none,
  [⟨41, 12, .rw, 0, .warm⟩, ⟨58, 56, .ro, 0, .warm⟩, ⟨63, 63, .w1s, 0, .warm⟩]⟩
def Fld.ERR_VERIFY.GRANULE : Fld := ⟨Reg.ERR_VERIFY, 41, 12⟩
def Fld.ERR_VERIFY.RESULT : Fld := ⟨Reg.ERR_VERIFY, 58, 56⟩
def Fld.ERR_VERIFY.GO : Fld := ⟨Reg.ERR_VERIFY, 63, 63⟩
def Reg.ERR_VERIFY_CRC : Reg := ⟨0x400020, [], .die0, false, .none,
  [⟨31, 0, .ro, 0, .warm⟩, ⟨63, 32, .ro, 0, .warm⟩]⟩
def Fld.ERR_VERIFY_CRC.STORED : Fld := ⟨Reg.ERR_VERIFY_CRC, 31, 0⟩
def Fld.ERR_VERIFY_CRC.COMPUTED : Fld := ⟨Reg.ERR_VERIFY_CRC, 63, 32⟩
def Reg.ERR_REPAIR : Reg := ⟨0x400028, [], .die0, false, .none,
  [⟨41, 12, .rw, 0, .warm⟩, ⟨43, 43, .rw, 0, .warm⟩, ⟨44, 44, .rw, 0, .warm⟩, ⟨58, 56, .ro, 0, .warm⟩, ⟨63, 63, .w1s, 0, .warm⟩]⟩
def Fld.ERR_REPAIR.GRANULE : Fld := ⟨Reg.ERR_REPAIR, 41, 12⟩
def Fld.ERR_REPAIR.RESUME : Fld := ⟨Reg.ERR_REPAIR, 43, 43⟩
def Fld.ERR_REPAIR.EXPECT_EN : Fld := ⟨Reg.ERR_REPAIR, 44, 44⟩
def Fld.ERR_REPAIR.RESULT : Fld := ⟨Reg.ERR_REPAIR, 58, 56⟩
def Fld.ERR_REPAIR.GO : Fld := ⟨Reg.ERR_REPAIR, 63, 63⟩
def Reg.ERR_REPAIR_CRC : Reg := ⟨0x400030, [], .die0, false, .none,
  [⟨31, 0, .rw, 0, .warm⟩]⟩
def Fld.ERR_REPAIR_CRC.EXPECT : Fld := ⟨Reg.ERR_REPAIR_CRC, 31, 0⟩
def Reg.ERR_POISON : Reg := ⟨0x400800, [(16, 0x8)], .die0, false, .none,
  [⟨0, 0, .ro, 0, .warm⟩, ⟨41, 12, .ro, 0, .warm⟩, ⟨61, 60, .ro, 0, .warm⟩]⟩
def Fld.ERR_POISON.VALID : Fld := ⟨Reg.ERR_POISON, 0, 0⟩
def Fld.ERR_POISON.GRANULE : Fld := ⟨Reg.ERR_POISON, 41, 12⟩
def Fld.ERR_POISON.PATH : Fld := ⟨Reg.ERR_POISON, 61, 60⟩
def Reg.ERR_LOG : Reg := ⟨0x401000, [(64, 0x20), (4, 0x8)], .die0, false, .none,
  [⟨63, 0, .ro, 0, .warm⟩]⟩
def Fld.ERR_LOG.WORD : Fld := ⟨Reg.ERR_LOG, 63, 0⟩
def Reg.RAKE_CFG : Reg := ⟨0x501000, [(20, 0x100)], .stack, false, some (0x501020, 0x100, 63),
  [⟨15, 0, .rwl, 16, .d12⟩, ⟨16, 16, .rwl, 0, .d12⟩, ⟨47, 32, .rwl, 1024, .d12⟩, ⟨63, 56, .rwl, 4, .d12⟩]⟩
def Fld.RAKE_CFG.LINES_PER_TICK : Fld := ⟨Reg.RAKE_CFG, 15, 0⟩
def Fld.RAKE_CFG.DEEP : Fld := ⟨Reg.RAKE_CFG, 16, 16⟩
def Fld.RAKE_CFG.DEBT_MAX : Fld := ⟨Reg.RAKE_CFG, 47, 32⟩
def Fld.RAKE_CFG.FORCE_PER_STEP : Fld := ⟨Reg.RAKE_CFG, 63, 56⟩
def Reg.RAKE_POS : Reg := ⟨0x501008, [(20, 0x100)], .stack, false, .none,
  [⟨41, 6, .ro, 0, .warm⟩]⟩
def Fld.RAKE_POS.NEXT : Fld := ⟨Reg.RAKE_POS, 41, 6⟩
def Reg.RAKE_WALKS : Reg := ⟨0x501010, [(20, 0x100)], .stack, false, .none,
  [⟨31, 0, .ro, 0, .warm⟩]⟩
def Fld.RAKE_WALKS.WALKS : Fld := ⟨Reg.RAKE_WALKS, 31, 0⟩
def Reg.RAKE_CNT : Reg := ⟨0x501018, [(20, 0x100)], .stack, false, .none,
  [⟨31, 0, .ro, 0, .warm⟩, ⟨47, 32, .ro, 0, .warm⟩, ⟨63, 48, .ro, 0, .warm⟩]⟩
def Fld.RAKE_CNT.CORRECTED : Fld := ⟨Reg.RAKE_CNT, 31, 0⟩
def Fld.RAKE_CNT.UE : Fld := ⟨Reg.RAKE_CNT, 47, 32⟩
def Fld.RAKE_CNT.CSUM_BAD : Fld := ⟨Reg.RAKE_CNT, 63, 48⟩
def Reg.RAKE_CTRL : Reg := ⟨0x501020, [(20, 0x100)], .stack, false, .none,
  [⟨0, 0, .wo, 0, .none⟩, ⟨1, 1, .rw, 1, .d12⟩, ⟨2, 2, .rw, 0, .d12⟩, ⟨63, 63, .w1s, 0, .d12⟩]⟩
def Fld.RAKE_CTRL.RESTART : Fld := ⟨Reg.RAKE_CTRL, 0, 0⟩
def Fld.RAKE_CTRL.BURST_EN : Fld := ⟨Reg.RAKE_CTRL, 1, 1⟩
def Fld.RAKE_CTRL.PAUSE : Fld := ⟨Reg.RAKE_CTRL, 2, 2⟩
def Fld.RAKE_CTRL.LOCK : Fld := ⟨Reg.RAKE_CTRL, 63, 63⟩
def Reg.RAKE_DEBT : Reg := ⟨0x501028, [(20, 0x100)], .stack, false, .none,
  [⟨31, 0, .ro, 0, .d12⟩]⟩
def Fld.RAKE_DEBT.GRANULES : Fld := ⟨Reg.RAKE_DEBT, 31, 0⟩

/-! Registers of the chapter Serving Loop on the Device. -/

def Reg.SV_CFG : Reg := ⟨0x3001000, [(16, 0x100)], .die0, false, .none,
  [⟨7, 0, .rw, 24, .d12q⟩, ⟨20, 8, .rw, 512, .d12q⟩, ⟨31, 24, .rw, 64, .d12q⟩, ⟨47, 32, .rw, 256, .d12q⟩, ⟨63, 48, .rw, 32, .d12q⟩]⟩
def Fld.SV_CFG.XOVER : Fld := ⟨Reg.SV_CFG, 7, 0⟩
def Fld.SV_CFG.CHUNK : Fld := ⟨Reg.SV_CFG, 20, 8⟩
def Fld.SV_CFG.REQ_PER_STEP : Fld := ⟨Reg.SV_CFG, 31, 24⟩
def Fld.SV_CFG.STARVE_STEPS : Fld := ⟨Reg.SV_CFG, 47, 32⟩
def Fld.SV_CFG.SWAP_MIB : Fld := ⟨Reg.SV_CFG, 63, 48⟩
def Reg.SV_SPEC : Reg := ⟨0x3001008, [(16, 0x100)], .die0, false, .none,
  [⟨8, 0, .rw, 96, .d12q⟩, ⟨19, 12, .rw, 16, .d12q⟩, ⟨27, 20, .rw, 64, .d12q⟩, ⟨47, 32, .rw, 250, .d12q⟩]⟩
def Fld.SV_SPEC.THRESH : Fld := ⟨Reg.SV_SPEC, 8, 0⟩
def Fld.SV_SPEC.LOW : Fld := ⟨Reg.SV_SPEC, 19, 12⟩
def Fld.SV_SPEC.PROBE : Fld := ⟨Reg.SV_SPEC, 27, 20⟩
def Fld.SV_SPEC.EXP_MARGIN : Fld := ⟨Reg.SV_SPEC, 47, 32⟩
def Reg.SV_TABLE : Reg := ⟨0x3001010, [(16, 0x100)], .die0, false, .none,
  [⟨41, 12, .rw, 0, .d12q⟩, ⟨52, 48, .rw, 6, .d12q⟩]⟩
def Fld.SV_TABLE.BASE : Fld := ⟨Reg.SV_TABLE, 41, 12⟩
def Fld.SV_TABLE.CAP_LOG2 : Fld := ⟨Reg.SV_TABLE, 52, 48⟩
def Reg.SV_GEOM : Reg := ⟨0x3001018, [(16, 0x100)], .die0, false, .none,
  [⟨41, 6, .rw, 0, .d12q⟩, ⟨48, 48, .rw, 0, .d12q⟩]⟩
def Fld.SV_GEOM.BASE : Fld := ⟨Reg.SV_GEOM, 41, 6⟩
def Fld.SV_GEOM.TWO : Fld := ⟨Reg.SV_GEOM, 48, 48⟩
def Reg.SV_REQ : Reg := ⟨0x3001020, [(16, 0x100)], .die0, false, .none,
  [⟨63, 6, .rw, 0, .d12q⟩]⟩
def Fld.SV_REQ.HOST : Fld := ⟨Reg.SV_REQ, 63, 6⟩
def Reg.SV_REQCFG : Reg := ⟨0x3001028, [(16, 0x100)], .die0, false, .none,
  [⟨3, 0, .rw, 4, .d12q⟩]⟩
def Fld.SV_REQCFG.SIZE_LOG2 : Fld := ⟨Reg.SV_REQCFG, 3, 0⟩
def Reg.SV_OUTDIR : Reg := ⟨0x3001030, [(16, 0x100)], .die0, false, .none,
  [⟨63, 5, .rw, 0, .d12q⟩]⟩
def Fld.SV_OUTDIR.HOST : Fld := ⟨Reg.SV_OUTDIR, 63, 5⟩
def Reg.SV_SWAP0 : Reg := ⟨0x3001038, [(16, 0x100)], .die0, false, .none,
  [⟨63, 12, .rw, 0, .d12q⟩]⟩
def Fld.SV_SWAP0.HOST : Fld := ⟨Reg.SV_SWAP0, 63, 12⟩
def Reg.SV_SWAP1 : Reg := ⟨0x3001040, [(16, 0x100)], .die0, false, .none,
  [⟨63, 12, .rw, 0, .d12q⟩]⟩
def Fld.SV_SWAP1.HOST : Fld := ⟨Reg.SV_SWAP1, 63, 12⟩
def Reg.SV_SWAPCAP : Reg := ⟨0x3001048, [(16, 0x100)], .die0, false, .none,
  [⟨23, 0, .rw, 0, .d12q⟩, ⟨55, 32, .rw, 0, .d12q⟩]⟩
def Fld.SV_SWAPCAP.CAP0 : Fld := ⟨Reg.SV_SWAPCAP, 23, 0⟩
def Fld.SV_SWAPCAP.CAP1 : Fld := ⟨Reg.SV_SWAPCAP, 55, 32⟩
def Reg.SV_STEPREC : Reg := ⟨0x3001050, [(16, 0x100)], .die0, false, .none,
  [⟨41, 6, .rw, 0, .d12q⟩]⟩
def Fld.SV_STEPREC.DPA : Fld := ⟨Reg.SV_STEPREC, 41, 6⟩
def Reg.SV_EXPG : Reg := ⟨0x3001058, [(16, 0x100)], .die0, false, .none,
  [⟨41, 3, .rw, 0, .d12q⟩, ⟨63, 48, .rw, 0, .d12q⟩]⟩
def Fld.SV_EXPG.BASE : Fld := ⟨Reg.SV_EXPG, 41, 3⟩
def Fld.SV_EXPG.NGROUP : Fld := ⟨Reg.SV_EXPG, 63, 48⟩
def Reg.SV_EXPN : Reg := ⟨0x3001060, [(16, 0x100)], .die0, false, .none,
  [⟨16, 0, .rw, 0, .d12q⟩]⟩
def Fld.SV_EXPN.NCOUNT : Fld := ⟨Reg.SV_EXPN, 16, 0⟩
def Reg.SV_VAR : Reg := ⟨0x3001068, [(16, 0x100)], .die0, false, .none,
  [⟨41, 4, .rw, 0, .d12q⟩, ⟨56, 48, .rw, 0, .d12q⟩]⟩
def Fld.SV_VAR.BASE : Fld := ⟨Reg.SV_VAR, 41, 4⟩
def Fld.SV_VAR.NVAR : Fld := ⟨Reg.SV_VAR, 56, 48⟩
def Reg.SV_PLACE : Reg := ⟨0x3001070, [(16, 0x100)], .die0, false, .none,
  [⟨4, 0, .rw, 3, .d12q⟩]⟩
def Fld.SV_PLACE.SPREAD_M1 : Fld := ⟨Reg.SV_PLACE, 4, 0⟩
def Reg.SV_CTRL : Reg := ⟨0x3001078, [(16, 0x100)], .die0, false, .none,
  [⟨0, 0, .wo, 0, .none⟩, ⟨1, 1, .wo, 0, .none⟩]⟩
def Fld.SV_CTRL.INSTALL : Fld := ⟨Reg.SV_CTRL, 0, 0⟩
def Fld.SV_CTRL.RELOAD_DIR : Fld := ⟨Reg.SV_CTRL, 1, 1⟩
def Reg.SV_STAT : Reg := ⟨0x3001080, [(16, 0x100)], .die0, false, .none,
  [⟨0, 0, .ro, 0, .d12q⟩, ⟨1, 1, .ro, 0, .d12q⟩, ⟨24, 8, .ro, 0, .d12q⟩, ⟨48, 32, .ro, 0, .d12q⟩]⟩
def Fld.SV_STAT.INSTALLED : Fld := ⟨Reg.SV_STAT, 0, 0⟩
def Fld.SV_STAT.COPY : Fld := ⟨Reg.SV_STAT, 1, 1⟩
def Fld.SV_STAT.LIVE : Fld := ⟨Reg.SV_STAT, 24, 8⟩
def Fld.SV_STAT.SWAPPED : Fld := ⟨Reg.SV_STAT, 48, 32⟩
def Reg.SV_HEAD : Reg := ⟨0x3001088, [(16, 0x100)], .die0, false, .none,
  [⟨63, 0, .ro, 0, .d12q⟩]⟩
def Fld.SV_HEAD.HEAD : Fld := ⟨Reg.SV_HEAD, 63, 0⟩
def Reg.SV_CNT_TOK : Reg := ⟨0x3001090, [(16, 0x100)], .die0, true, .none,
  [⟨63, 0, .ro, 0, .d12q⟩]⟩
def Fld.SV_CNT_TOK.TOKENS : Fld := ⟨Reg.SV_CNT_TOK, 63, 0⟩
def Reg.SV_CNT_DEF : Reg := ⟨0x3001098, [(16, 0x100)], .die0, true, .none,
  [⟨31, 0, .ro, 0, .d12q⟩, ⟨63, 32, .ro, 0, .d12q⟩]⟩
def Fld.SV_CNT_DEF.DEFERRED : Fld := ⟨Reg.SV_CNT_DEF, 31, 0⟩
def Fld.SV_CNT_DEF.SWAPPED_OUT : Fld := ⟨Reg.SV_CNT_DEF, 63, 32⟩
def Reg.SV_CNT_SWAP : Reg := ⟨0x30010a0, [(16, 0x100)], .die0, true, .none,
  [⟨63, 0, .ro, 0, .d12q⟩]⟩
def Fld.SV_CNT_SWAP.BYTES : Fld := ⟨Reg.SV_CNT_SWAP, 63, 0⟩
def Reg.SERVE_ERR : Reg := ⟨0x30010a8, [(16, 0x100)], .die0, false, .none,
  [⟨0, 0, .w1c, 0, .warm⟩, ⟨1, 1, .w1c, 0, .warm⟩, ⟨2, 2, .w1c, 0, .warm⟩, ⟨3, 3, .w1c, 0, .warm⟩, ⟨4, 4, .w1c, 0, .warm⟩, ⟨5, 5, .w1c, 0, .warm⟩, ⟨6, 6, .w1c, 0, .warm⟩, ⟨7, 7, .w1c, 0, .warm⟩, ⟨8, 8, .w1c, 0, .warm⟩]⟩
def Fld.SERVE_ERR.GEOM_BAD : Fld := ⟨Reg.SERVE_ERR, 0, 0⟩
def Fld.SERVE_ERR.TABLE_BAD : Fld := ⟨Reg.SERVE_ERR, 1, 1⟩
def Fld.SERVE_ERR.REQ_BAD : Fld := ⟨Reg.SERVE_ERR, 2, 2⟩
def Fld.SERVE_ERR.RING_OVF : Fld := ⟨Reg.SERVE_ERR, 3, 3⟩
def Fld.SERVE_ERR.POST_RSVD : Fld := ⟨Reg.SERVE_ERR, 4, 4⟩
def Fld.SERVE_ERR.SWAP_BAD : Fld := ⟨Reg.SERVE_ERR, 5, 5⟩
def Fld.SERVE_ERR.POOL_FULL : Fld := ⟨Reg.SERVE_ERR, 6, 6⟩
def Fld.SERVE_ERR.RESULT_BAD : Fld := ⟨Reg.SERVE_ERR, 7, 7⟩
def Fld.SERVE_ERR.GROUP_BAD : Fld := ⟨Reg.SERVE_ERR, 8, 8⟩

/-! Registers of the chapter Partitions, Shares and Accounting. -/

def Reg.PART_ERR : Reg := ⟨0x200000, [], .die0, false, .none,
  [⟨0, 0, .w1c, 0, .warm⟩, ⟨1, 1, .w1c, 0, .warm⟩, ⟨2, 2, .w1c, 0, .warm⟩, ⟨3, 3, .w1c, 0, .warm⟩, ⟨4, 4, .w1c, 0, .warm⟩, ⟨5, 5, .w1c, 0, .warm⟩, ⟨6, 6, .w1c, 0, .warm⟩, ⟨7, 7, .w1c, 0, .warm⟩, ⟨11, 8, .ro, 0, .warm⟩]⟩
def Fld.PART_ERR.BUSY : Fld := ⟨Reg.PART_ERR, 0, 0⟩
def Fld.PART_ERR.OVERLAP : Fld := ⟨Reg.PART_ERR, 1, 1⟩
def Fld.PART_ERR.REGION_BAD : Fld := ⟨Reg.PART_ERR, 2, 2⟩
def Fld.PART_ERR.REGION_BUSY : Fld := ⟨Reg.PART_ERR, 3, 3⟩
def Fld.PART_ERR.SB_OVERLAP : Fld := ⟨Reg.PART_ERR, 4, 4⟩
def Fld.PART_ERR.CORE_TAKEN : Fld := ⟨Reg.PART_ERR, 5, 5⟩
def Fld.PART_ERR.SB_RANGE : Fld := ⟨Reg.PART_ERR, 6, 6⟩
def Fld.PART_ERR.RANGE_BAD : Fld := ⟨Reg.PART_ERR, 7, 7⟩
def Fld.PART_ERR.PART : Fld := ⟨Reg.PART_ERR, 11, 8⟩
def Reg.PART_IDLW : Reg := ⟨0x200008, [], .die0, false, .none,
  [⟨9, 0, .rw, 100, .d12⟩]⟩
def Fld.PART_IDLW.WEIGHT : Fld := ⟨Reg.PART_IDLW, 9, 0⟩
def Reg.REG_LOC : Reg := ⟨0x200800, [(32, 0x20)], .die0, false, .none,
  [⟨4, 0, .rw, 0, .d12⟩, ⟨31, 16, .rw, 0, .d12⟩, ⟨47, 32, .rw, 0, .d12⟩, ⟨48, 48, .rw, 0, .d12⟩]⟩
def Fld.REG_LOC.STACK : Fld := ⟨Reg.REG_LOC, 4, 0⟩
def Fld.REG_LOC.FIRST : Fld := ⟨Reg.REG_LOC, 31, 16⟩
def Fld.REG_LOC.COUNT : Fld := ⟨Reg.REG_LOC, 47, 32⟩
def Fld.REG_LOC.MIRROR : Fld := ⟨Reg.REG_LOC, 48, 48⟩
def Reg.REG_MIR : Reg := ⟨0x200808, [(32, 0x20)], .die0, false, .none,
  [⟨4, 0, .rw, 0, .d12⟩, ⟨31, 16, .rw, 0, .d12⟩]⟩
def Fld.REG_MIR.MSTACK : Fld := ⟨Reg.REG_MIR, 4, 0⟩
def Fld.REG_MIR.MFIRST : Fld := ⟨Reg.REG_MIR, 31, 16⟩
def Reg.REG_CTRL : Reg := ⟨0x200810, [(32, 0x20)], .die0, false, .none,
  [⟨0, 0, .wo, 0, .none⟩, ⟨1, 1, .wo, 0, .none⟩, ⟨2, 2, .wo, 0, .none⟩]⟩
def Fld.REG_CTRL.LOAD : Fld := ⟨Reg.REG_CTRL, 0, 0⟩
def Fld.REG_CTRL.SEAL : Fld := ⟨Reg.REG_CTRL, 1, 1⟩
def Fld.REG_CTRL.RELEASE : Fld := ⟨Reg.REG_CTRL, 2, 2⟩
def Reg.REG_STAT : Reg := ⟨0x200818, [(32, 0x20)], .die0, false, .none,
  [⟨1, 0, .ro, 0, .d12⟩, ⟨2, 2, .ro, 0, .d12⟩, ⟨63, 32, .ro, 0, .d12⟩]⟩
def Fld.REG_STAT.STATE : Fld := ⟨Reg.REG_STAT, 1, 0⟩
def Fld.REG_STAT.MISMATCH : Fld := ⟨Reg.REG_STAT, 2, 2⟩
def Fld.REG_STAT.GRANULE : Fld := ⟨Reg.REG_STAT, 63, 32⟩
def Reg.PT_CORES : Reg := ⟨0x210000, [(16, 0x1000)], .die0, false, .none,
  [⟨11, 0, .rw, 0, .d12q⟩]⟩
def Fld.PT_CORES.CORES : Fld := ⟨Reg.PT_CORES, 11, 0⟩
def Reg.PT_SB : Reg := ⟨0x210008, [(16, 0x1000)], .die0, false, .none,
  [⟨7, 0, .rw, 0, .d12q⟩, ⟨15, 8, .rw, 0, .d12q⟩, ⟨23, 16, .rw, 0, .d12q⟩, ⟨31, 24, .rw, 0, .d12q⟩]⟩
def Fld.PT_SB.SB0_BASE : Fld := ⟨Reg.PT_SB, 7, 0⟩
def Fld.PT_SB.SB0_SIZE : Fld := ⟨Reg.PT_SB, 15, 8⟩
def Fld.PT_SB.SB1_BASE : Fld := ⟨Reg.PT_SB, 23, 16⟩
def Fld.PT_SB.SB1_SIZE : Fld := ⟨Reg.PT_SB, 31, 24⟩
def Reg.PT_REGIONS : Reg := ⟨0x210010, [(16, 0x1000)], .die0, false, .none,
  [⟨31, 0, .rw, 0, .d12q⟩]⟩
def Fld.PT_REGIONS.MAP : Fld := ⟨Reg.PT_REGIONS, 31, 0⟩
def Reg.PT_SHARE : Reg := ⟨0x210018, [(16, 0x1000)], .die0, false, .none,
  [⟨9, 0, .rw, 100, .d12q⟩, ⟨21, 12, .rw, 100, .d12q⟩, ⟨33, 24, .rw, 100, .d12q⟩, ⟨45, 36, .rw, 100, .d12q⟩, ⟨57, 48, .rw, 100, .d12q⟩]⟩
def Fld.PT_SHARE.PWR : Fld := ⟨Reg.PT_SHARE, 9, 0⟩
def Fld.PT_SHARE.BW : Fld := ⟨Reg.PT_SHARE, 21, 12⟩
def Fld.PT_SHARE.IDL : Fld := ⟨Reg.PT_SHARE, 33, 24⟩
def Fld.PT_SHARE.CXL : Fld := ⟨Reg.PT_SHARE, 45, 36⟩
def Fld.PT_SHARE.ETH : Fld := ⟨Reg.PT_SHARE, 57, 48⟩
def Reg.PT_ACCT : Reg := ⟨0x210020, [(16, 0x1000)], .die0, false, .none,
  [⟨15, 0, .rw, 1, .d12q⟩, ⟨16, 16, .rw, 0, .d12q⟩]⟩
def Fld.PT_ACCT.EVERY : Fld := ⟨Reg.PT_ACCT, 15, 0⟩
def Fld.PT_ACCT.EN : Fld := ⟨Reg.PT_ACCT, 16, 16⟩
def Reg.PT_STAT : Reg := ⟨0x210028, [(16, 0x1000)], .die0, false, .none,
  [⟨0, 0, .ro, 0, .d12q⟩, ⟨8, 8, .ro, 1, .d12q⟩]⟩
def Fld.PT_STAT.PENDING : Fld := ⟨Reg.PT_STAT, 0, 0⟩
def Fld.PT_STAT.ENERGY_VALID : Fld := ⟨Reg.PT_STAT, 8, 8⟩
def Reg.SEM_SIG : Reg := ⟨0x210030, [(16, 0x1000)], .die0, false, .none,
  [⟨5, 0, .wo, 0, .none⟩, ⟨63, 32, .wo, 0, .none⟩]⟩
def Fld.SEM_SIG.SEM : Fld := ⟨Reg.SEM_SIG, 5, 0⟩
def Fld.SEM_SIG.N : Fld := ⟨Reg.SEM_SIG, 63, 32⟩
def Reg.PT_RANGE : Reg := ⟨0x210200, [(16, 0x1000), (64, 0x8)], .die0, false, .none,
  [⟨4, 0, .rw, 0, .d12q⟩, ⟨31, 16, .rw, 0, .d12q⟩, ⟨47, 32, .rw, 0, .d12q⟩]⟩
def Fld.PT_RANGE.STACK : Fld := ⟨Reg.PT_RANGE, 4, 0⟩
def Fld.PT_RANGE.FIRST : Fld := ⟨Reg.PT_RANGE, 31, 16⟩
def Fld.PT_RANGE.COUNT : Fld := ⟨Reg.PT_RANGE, 47, 32⟩
def Reg.SEM_VAL : Reg := ⟨0x210400, [(16, 0x1000), (64, 0x8)], .die0, false, .none,
  [⟨31, 0, .ro, 0, .none⟩]⟩
def Fld.SEM_VAL.COUNT : Fld := ⟨Reg.SEM_VAL, 31, 0⟩
def Reg.ACC : Reg := ⟨0x210600, [(16, 0x1000), (12, 0x8)], .die0, true, .none,
  [⟨63, 0, .ro, 0, .d12q⟩]⟩
def Fld.ACC.VAL : Fld := ⟨Reg.ACC, 63, 0⟩

/-! Registers of the chapter Mailboxes and Doorbells. -/

def Reg.MBX_ERR : Reg := ⟨0x100000, [], .die0, false, .none,
  [⟨0, 0, .w1c, 0, .warm⟩, ⟨1, 1, .w1c, 0, .warm⟩]⟩
def Fld.MBX_ERR.DOWN_REFUSED : Fld := ⟨Reg.MBX_ERR, 0, 0⟩
def Fld.MBX_ERR.OWNER_ABORT : Fld := ⟨Reg.MBX_ERR, 1, 1⟩
def Reg.MBX_LOCK : Reg := ⟨0x100008, [], .die0, false, .none,
  [⟨0, 0, .w1s, 0, .d12⟩]⟩
def Fld.MBX_LOCK.LOCK : Fld := ⟨Reg.MBX_LOCK, 0, 0⟩
def Reg.MBX_DROP : Reg := ⟨0x100010, [], .die0, false, .none,
  [⟨31, 0, .ro, 0, .warm⟩]⟩
def Fld.MBX_DROP.ABORTED : Fld := ⟨Reg.MBX_DROP, 31, 0⟩
def Reg.DB_PEND : Reg := ⟨0x100100, [(22, 0x20)], .die0, false, .none,
  [⟨31, 0, .w1c, 0, .d1⟩]⟩
def Fld.DB_PEND.PEND : Fld := ⟨Reg.DB_PEND, 31, 0⟩
def Reg.DB_RING : Reg := ⟨0x100108, [(22, 0x20)], .die0, false, .none,
  [⟨31, 0, .wo, 0, .none⟩]⟩
def Fld.DB_RING.RING : Fld := ⟨Reg.DB_RING, 31, 0⟩
def Reg.DB_MASK : Reg := ⟨0x100110, [(22, 0x20)], .die0, false, .none,
  [⟨31, 0, .rw, 0, .d12⟩]⟩
def Fld.DB_MASK.MASK : Fld := ⟨Reg.DB_MASK, 31, 0⟩
def Reg.DB_CFG : Reg := ⟨0x100118, [(22, 0x20)], .die0, false, .none,
  [⟨5, 0, .rw, 0, .d12⟩, ⟨13, 8, .rw, 0, .d12⟩, ⟨21, 16, .rw, 0, .d12⟩, ⟨29, 24, .rw, 0, .d12⟩, ⟨32, 32, .rw, 0, .d12⟩, ⟨63, 63, .ro, 0, .d1⟩]⟩
def Fld.DB_CFG.VEC0 : Fld := ⟨Reg.DB_CFG, 5, 0⟩
def Fld.DB_CFG.VEC1 : Fld := ⟨Reg.DB_CFG, 13, 8⟩
def Fld.DB_CFG.VEC2 : Fld := ⟨Reg.DB_CFG, 21, 16⟩
def Fld.DB_CFG.VEC3 : Fld := ⟨Reg.DB_CFG, 29, 24⟩
def Fld.DB_CFG.VEC_EN : Fld := ⟨Reg.DB_CFG, 32, 32⟩
def Fld.DB_CFG.SUM : Fld := ⟨Reg.DB_CFG, 63, 63⟩
def Reg.MB_DATA : Reg := ⟨0x110000, [(64, 0x200), (16, 0x8)], .die0, false, .none,
  [⟨63, 0, .rw, 0, .d1⟩]⟩
def Fld.MB_DATA.DATA : Fld := ⟨Reg.MB_DATA, 63, 0⟩
def Reg.S_CTRL : Reg := ⟨0x110080, [(64, 0x200)], .die0, false, .none,
  [⟨4, 0, .rw, 0, .d1⟩, ⟨8, 8, .wo, 0, .none⟩, ⟨9, 9, .wo, 0, .none⟩]⟩
def Fld.S_CTRL.LEN : Fld := ⟨Reg.S_CTRL, 4, 0⟩
def Fld.S_CTRL.GO : Fld := ⟨Reg.S_CTRL, 8, 8⟩
def Fld.S_CTRL.ABORT : Fld := ⟨Reg.S_CTRL, 9, 9⟩
def Reg.S_STAT : Reg := ⟨0x110088, [(64, 0x200)], .die0, false, .none,
  [⟨2, 0, .ro, 0, .d1⟩, ⟨31, 16, .ro, 0, .d1⟩, ⟨47, 32, .ro, 0, .d1⟩, ⟨48, 48, .ro, 0, .d1⟩]⟩
def Fld.S_STAT.RESULT : Fld := ⟨Reg.S_STAT, 2, 0⟩
def Fld.S_STAT.OWNER : Fld := ⟨Reg.S_STAT, 31, 16⟩
def Fld.S_STAT.DROPS : Fld := ⟨Reg.S_STAT, 47, 32⟩
def Fld.S_STAT.OWNED : Fld := ⟨Reg.S_STAT, 48, 48⟩
def Reg.MB_RDATA : Reg := ⟨0x110100, [(64, 0x200), (16, 0x8)], .die0, false, .none,
  [⟨63, 0, .ro, 0, .d1⟩]⟩
def Fld.MB_RDATA.DATA : Fld := ⟨Reg.MB_RDATA, 63, 0⟩
def Reg.R_PEEK : Reg := ⟨0x110180, [(64, 0x200)], .die0, false, .none,
  [⟨0, 0, .ro, 0, .d1⟩, ⟨12, 8, .ro, 0, .d1⟩, ⟨31, 16, .ro, 0, .d1⟩]⟩
def Fld.R_PEEK.FULL : Fld := ⟨Reg.R_PEEK, 0, 0⟩
def Fld.R_PEEK.LEN : Fld := ⟨Reg.R_PEEK, 12, 8⟩
def Fld.R_PEEK.SENDER : Fld := ⟨Reg.R_PEEK, 31, 16⟩
def Reg.R_CTRL : Reg := ⟨0x110188, [(64, 0x200)], .die0, false, .none,
  [⟨0, 0, .rc, 0, .d1⟩, ⟨12, 8, .ro, 0, .d1⟩, ⟨31, 16, .ro, 0, .d1⟩]⟩
def Fld.R_CTRL.FULL : Fld := ⟨Reg.R_CTRL, 0, 0⟩
def Fld.R_CTRL.LEN : Fld := ⟨Reg.R_CTRL, 12, 8⟩
def Fld.R_CTRL.SENDER : Fld := ⟨Reg.R_CTRL, 31, 16⟩
def Reg.MB_CFG : Reg := ⟨0x110190, [(64, 0x200)], .die0, false, some (0x100008, 0x0, 0),
  [⟨4, 0, .rwl, 0, .d12⟩, ⟨12, 8, .rwl, 0, .d12⟩, ⟨19, 16, .rwl, 0, .d12⟩, ⟨20, 20, .rwl, 0, .d12⟩, ⟨29, 24, .rwl, 0, .d12⟩]⟩
def Fld.MB_CFG.RCV : Fld := ⟨Reg.MB_CFG, 4, 0⟩
def Fld.MB_CFG.DB : Fld := ⟨Reg.MB_CFG, 12, 8⟩
def Fld.MB_CFG.SRC_P : Fld := ⟨Reg.MB_CFG, 19, 16⟩
def Fld.MB_CFG.SRC_EN : Fld := ⟨Reg.MB_CFG, 20, 20⟩
def Fld.MB_CFG.DEV : Fld := ⟨Reg.MB_CFG, 29, 24⟩

/-! Registers of the chapter The CXL Host Link. -/

def Reg.CXLC_LINK : Reg := ⟨0xb00000, [], .die0, false, .none,
  [⟨0, 0, .ro, 0, .die⟩, ⟨1, 1, .ro, 0, .die⟩, ⟨6, 2, .ro, 0, .die⟩, ⟨9, 8, .ro, 0, .die⟩]⟩
def Fld.CXLC_LINK.UP : Fld := ⟨Reg.CXLC_LINK, 0, 0⟩
def Fld.CXLC_LINK.CXL : Fld := ⟨Reg.CXLC_LINK, 1, 1⟩
def Fld.CXLC_LINK.WIDTH : Fld := ⟨Reg.CXLC_LINK, 6, 2⟩
def Fld.CXLC_LINK.SPEED : Fld := ⟨Reg.CXLC_LINK, 9, 8⟩
def Reg.CXLC_CFG : Reg := ⟨0xb00008, [], .die0, false, .none,
  [⟨9, 0, .rw, 100, .die⟩, ⟨21, 16, .rw, 0, .die⟩]⟩
def Fld.CXLC_CFG.HDMA_W : Fld := ⟨Reg.CXLC_CFG, 9, 0⟩
def Fld.CXLC_CFG.EVT_VEC : Fld := ⟨Reg.CXLC_CFG, 21, 16⟩
def Reg.CXLC_ERR : Reg := ⟨0xb00010, [], .die0, false, .none,
  [⟨0, 0, .w1c, 0, .warm⟩, ⟨1, 1, .w1c, 0, .warm⟩]⟩
def Fld.CXLC_ERR.BIAS_BAD : Fld := ⟨Reg.CXLC_ERR, 0, 0⟩
def Fld.CXLC_ERR.DROPPED : Fld := ⟨Reg.CXLC_ERR, 1, 1⟩
def Reg.CXLC_DROP : Reg := ⟨0xb00018, [], .die0, false, .none,
  [⟨15, 0, .rc, 0, .warm⟩, ⟨31, 16, .rc, 0, .warm⟩, ⟨47, 32, .rc, 0, .warm⟩, ⟨63, 48, .rc, 0, .warm⟩]⟩
def Fld.CXLC_DROP.NOT_ACTIVE : Fld := ⟨Reg.CXLC_DROP, 15, 0⟩
def Fld.CXLC_DROP.DOWN : Fld := ⟨Reg.CXLC_DROP, 31, 16⟩
def Fld.CXLC_DROP.UNMAPPED : Fld := ⟨Reg.CXLC_DROP, 47, 32⟩
def Fld.CXLC_DROP.REGION : Fld := ⟨Reg.CXLC_DROP, 63, 48⟩
def Reg.CXLC_BYTES_IN : Reg := ⟨0xb00020, [], .die0, true, .none,
  [⟨63, 0, .ro, 0, .d12⟩]⟩
def Fld.CXLC_BYTES_IN.BYTES : Fld := ⟨Reg.CXLC_BYTES_IN, 63, 0⟩
def Reg.CXLC_BYTES_OUT : Reg := ⟨0xb00028, [], .die0, true, .none,
  [⟨63, 0, .ro, 0, .d12⟩]⟩
def Fld.CXLC_BYTES_OUT.BYTES : Fld := ⟨Reg.CXLC_BYTES_OUT, 63, 0⟩
def Reg.CXLC_CNT : Reg := ⟨0xb00030, [], .die0, false, .none,
  [⟨31, 0, .rc, 0, .warm⟩, ⟨63, 32, .rc, 0, .die⟩]⟩
def Fld.CXLC_CNT.POISON_RD : Fld := ⟨Reg.CXLC_CNT, 31, 0⟩
def Fld.CXLC_CNT.FLIPS_H : Fld := ⟨Reg.CXLC_CNT, 63, 32⟩
def Reg.BIAS_CMD : Reg := ⟨0xb00040, [], .die0, false, .none,
  [⟨19, 0, .rw, 0, .die⟩, ⟨39, 20, .rw, 0, .die⟩, ⟨40, 40, .rw, 0, .die⟩, ⟨63, 63, .w1s, 0, .none⟩]⟩
def Fld.BIAS_CMD.FIRST : Fld := ⟨Reg.BIAS_CMD, 19, 0⟩
def Fld.BIAS_CMD.COUNT : Fld := ⟨Reg.BIAS_CMD, 39, 20⟩
def Fld.BIAS_CMD.TO : Fld := ⟨Reg.BIAS_CMD, 40, 40⟩
def Fld.BIAS_CMD.GO : Fld := ⟨Reg.BIAS_CMD, 63, 63⟩
def Reg.BIAS_STAT : Reg := ⟨0xb00048, [], .die0, false, .none,
  [⟨0, 0, .ro, 0, .none⟩, ⟨31, 12, .ro, 0, .die⟩, ⟨63, 32, .ro, 0, .die⟩]⟩
def Fld.BIAS_STAT.BUSY : Fld := ⟨Reg.BIAS_STAT, 0, 0⟩
def Fld.BIAS_STAT.DONE : Fld := ⟨Reg.BIAS_STAT, 31, 12⟩
def Fld.BIAS_STAT.REFLIP : Fld := ⟨Reg.BIAS_STAT, 63, 32⟩
def Reg.BIAS_QUERY : Reg := ⟨0xb00050, [], .die0, false, .none,
  [⟨19, 0, .rw, 0, .die⟩, ⟨63, 63, .ro, 0, .die⟩]⟩
def Fld.BIAS_QUERY.PAGE : Fld := ⟨Reg.BIAS_QUERY, 19, 0⟩
def Fld.BIAS_QUERY.HOST : Fld := ⟨Reg.BIAS_QUERY, 63, 63⟩
def Reg.CH_BASE : Reg := ⟨0xb01000, [(4, 0x40)], .die0, false, .none,
  [⟨63, 8, .rw, 0, .d1⟩]⟩
def Fld.CH_BASE.HOST : Fld := ⟨Reg.CH_BASE, 63, 8⟩
def Reg.CH_CFG : Reg := ⟨0xb01008, [(4, 0x40)], .die0, false, .none,
  [⟨3, 0, .rw, 4, .d1⟩, ⟨13, 8, .rw, 0, .d1⟩, ⟨16, 16, .rw, 0, .d1⟩]⟩
def Fld.CH_CFG.SIZE_LOG2 : Fld := ⟨Reg.CH_CFG, 3, 0⟩
def Fld.CH_CFG.VEC : Fld := ⟨Reg.CH_CFG, 13, 8⟩
def Fld.CH_CFG.EN : Fld := ⟨Reg.CH_CFG, 16, 16⟩
def Reg.CH_TAIL : Reg := ⟨0xb01010, [(4, 0x40)], .die0, false, .none,
  [⟨31, 0, .rw, 0, .d1⟩]⟩
def Fld.CH_TAIL.TAIL : Fld := ⟨Reg.CH_TAIL, 31, 0⟩
def Reg.CH_HEAD : Reg := ⟨0xb01018, [(4, 0x40)], .die0, false, .none,
  [⟨31, 0, .ro, 0, .d1⟩]⟩
def Fld.CH_HEAD.HEAD : Fld := ⟨Reg.CH_HEAD, 31, 0⟩
def Reg.CH_STAT : Reg := ⟨0xb01020, [(4, 0x40)], .die0, false, .none,
  [⟨0, 0, .ro, 0, .d1⟩, ⟨15, 8, .ro, 0, .d1⟩]⟩
def Fld.CH_STAT.BUSY : Fld := ⟨Reg.CH_STAT, 0, 0⟩
def Fld.CH_STAT.LAST_ERR : Fld := ⟨Reg.CH_STAT, 15, 8⟩

/-! Registers of the chapter Ethernet, Collectives and Tethered Devices. -/

def Reg.ETH_DEV : Reg := ⟨0xc00000, [], .die0, false, some (0xc00008, 0x0, 0),
  [⟨1, 0, .rwl, 0, .warm⟩, ⟨13, 8, .rwl, 0, .warm⟩]⟩
def Fld.ETH_DEV.MODE : Fld := ⟨Reg.ETH_DEV, 1, 0⟩
def Fld.ETH_DEV.DEV_NUM : Fld := ⟨Reg.ETH_DEV, 13, 8⟩
def Reg.ETH_LOCK : Reg := ⟨0xc00008, [], .die0, false, .none,
  [⟨0, 0, .w1s, 0, .warm⟩]⟩
def Fld.ETH_LOCK.LOCK : Fld := ⟨Reg.ETH_LOCK, 0, 0⟩
def Reg.ETH_ERR : Reg := ⟨0xc00010, [], .die0, false, .none,
  [⟨0, 0, .w1c, 0, .warm⟩, ⟨1, 1, .w1c, 0, .warm⟩, ⟨2, 2, .w1c, 0, .warm⟩, ⟨3, 3, .w1c, 0, .warm⟩, ⟨4, 4, .w1c, 0, .warm⟩]⟩
def Fld.ETH_ERR.LINK_DOWN : Fld := ⟨Reg.ETH_ERR, 0, 0⟩
def Fld.ETH_ERR.QP_ERROR : Fld := ⟨Reg.ETH_ERR, 1, 1⟩
def Fld.ETH_ERR.FWD_FAIL : Fld := ⟨Reg.ETH_ERR, 2, 2⟩
def Fld.ETH_ERR.VOTE_INDOUBT : Fld := ⟨Reg.ETH_ERR, 3, 3⟩
def Fld.ETH_ERR.TABLE_BAD : Fld := ⟨Reg.ETH_ERR, 4, 4⟩
def Reg.ETH_CFG : Reg := ⟨0xc00018, [], .die0, false, .none,
  [⟨5, 0, .rw, 26, .d12⟩, ⟨8, 8, .rw, 1, .d12⟩, ⟨25, 16, .rw, 100, .d12⟩]⟩
def Fld.ETH_CFG.DSCP : Fld := ⟨Reg.ETH_CFG, 5, 0⟩
def Fld.ETH_CFG.ECN_EN : Fld := ⟨Reg.ETH_CFG, 8, 8⟩
def Fld.ETH_CFG.FWD_W : Fld := ⟨Reg.ETH_CFG, 25, 16⟩
def Reg.ETH_CC : Reg := ⟨0xc00020, [], .die0, false, .none,
  [⟨7, 0, .rw, 4, .d12⟩, ⟨23, 8, .rw, 40, .d12⟩, ⟨39, 32, .rw, 55, .d12⟩, ⟨47, 40, .rw, 4, .d12⟩]⟩
def Fld.ETH_CC.G_1024 : Fld := ⟨Reg.ETH_CC, 7, 0⟩
def Fld.ETH_CC.AI_10MBPS : Fld := ⟨Reg.ETH_CC, 23, 8⟩
def Fld.ETH_CC.TIMER_US : Fld := ⟨Reg.ETH_CC, 39, 32⟩
def Fld.ETH_CC.CNP_GAP_US : Fld := ⟨Reg.ETH_CC, 47, 40⟩
def Reg.ETH_TMO : Reg := ⟨0xc00028, [], .die0, false, .none,
  [⟨15, 0, .rw, 64, .d12⟩, ⟨18, 16, .rw, 7, .d12⟩, ⟨47, 32, .rw, 200, .d12⟩]⟩
def Fld.ETH_TMO.ACK_TIMEOUT_US : Fld := ⟨Reg.ETH_TMO, 15, 0⟩
def Fld.ETH_TMO.RETRY : Fld := ⟨Reg.ETH_TMO, 18, 16⟩
def Fld.ETH_TMO.COLL_TIMEOUT_US : Fld := ⟨Reg.ETH_TMO, 47, 32⟩
def Reg.PTP_CFG : Reg := ⟨0xc00030, [], .die0, false, .none,
  [⟨7, 0, .rw, 0, .d12⟩, ⟨8, 8, .rw, 0, .d12⟩, ⟨9, 9, .rw, 0, .d12⟩, ⟨18, 16, .rw, 3, .d12⟩, ⟨27, 24, .rw, 0, .d12⟩]⟩
def Fld.PTP_CFG.DOMAIN : Fld := ⟨Reg.PTP_CFG, 7, 0⟩
def Fld.PTP_CFG.ROLE : Fld := ⟨Reg.PTP_CFG, 8, 8⟩
def Fld.PTP_CFG.TRANSPORT : Fld := ⟨Reg.PTP_CFG, 9, 9⟩
def Fld.PTP_CFG.SYNC_LOG2 : Fld := ⟨Reg.PTP_CFG, 18, 16⟩
def Fld.PTP_CFG.MASTER_PORTS : Fld := ⟨Reg.PTP_CFG, 27, 24⟩
def Reg.ETH_DT0 : Reg := ⟨0xc00400, [(64, 0x10)], .die0, false, some (0xc00008, 0x0, 0),
  [⟨31, 0, .rwl, 0, .warm⟩, ⟨63, 32, .rwl, 0, .warm⟩]⟩
def Fld.ETH_DT0.ADDR0 : Fld := ⟨Reg.ETH_DT0, 31, 0⟩
def Fld.ETH_DT0.ADDR1 : Fld := ⟨Reg.ETH_DT0, 63, 32⟩
def Reg.ETH_DT1 : Reg := ⟨0xc00408, [(64, 0x10)], .die0, false, some (0xc00008, 0x0, 0),
  [⟨31, 0, .rwl, 0, .warm⟩, ⟨63, 32, .rwl, 0, .warm⟩]⟩
def Fld.ETH_DT1.ADDR2 : Fld := ⟨Reg.ETH_DT1, 31, 0⟩
def Fld.ETH_DT1.ADDR3 : Fld := ⟨Reg.ETH_DT1, 63, 32⟩
def Reg.GRP_CFG : Reg := ⟨0xc01000, [(16, 0x100)], .die0, false, .none,
  [⟨6, 0, .rw, 0, .d12q⟩, ⟨13, 8, .rw, 0, .d12q⟩, ⟨19, 16, .rw, 0, .d12q⟩, ⟨31, 31, .rw, 0, .d12q⟩]⟩
def Fld.GRP_CFG.MEMBERS : Fld := ⟨Reg.GRP_CFG, 6, 0⟩
def Fld.GRP_CFG.RANK : Fld := ⟨Reg.GRP_CFG, 13, 8⟩
def Fld.GRP_CFG.PART : Fld := ⟨Reg.GRP_CFG, 19, 16⟩
def Fld.GRP_CFG.EN : Fld := ⟨Reg.GRP_CFG, 31, 31⟩
def Reg.GRP_MAP : Reg := ⟨0xc01008, [(16, 0x100), (8, 0x8)], .die0, false, .none,
  [⟨63, 0, .rw, 0, .d12q⟩]⟩
def Fld.GRP_MAP.WORD : Fld := ⟨Reg.GRP_MAP, 63, 0⟩
def Reg.GRP_RESOLVE : Reg := ⟨0xc01048, [(16, 0x100)], .die0, false, .none,
  [⟨47, 0, .rw, 0, .none⟩, ⟨48, 48, .rw, 0, .none⟩, ⟨63, 63, .wo, 0, .none⟩]⟩
def Fld.GRP_RESOLVE.BTICK : Fld := ⟨Reg.GRP_RESOLVE, 47, 0⟩
def Fld.GRP_RESOLVE.COMMIT : Fld := ⟨Reg.GRP_RESOLVE, 48, 48⟩
def Fld.GRP_RESOLVE.GO : Fld := ⟨Reg.GRP_RESOLVE, 63, 63⟩
def Reg.GRP_LOG : Reg := ⟨0xc01080, [(16, 0x100), (16, 0x8)], .die0, false, .none,
  [⟨47, 0, .ro, 0, .d12q⟩, ⟨49, 48, .ro, 0, .d12q⟩]⟩
def Fld.GRP_LOG.BTICK : Fld := ⟨Reg.GRP_LOG, 47, 0⟩
def Fld.GRP_LOG.OUTCOME : Fld := ⟨Reg.GRP_LOG, 49, 48⟩
def Reg.PORT_CFG : Reg := ⟨0xc10000, [(4, 0x10000)], .port, false, .none,
  [⟨1, 0, .rw, 0, .d12⟩, ⟨4, 4, .rw, 0, .d12⟩, ⟨8, 8, .rw, 0, .d12⟩, ⟨11, 9, .rw, 0, .d12⟩, ⟨27, 16, .rw, 0, .d12⟩, ⟨30, 28, .rw, 0, .d12⟩]⟩
def Fld.PORT_CFG.BREAKOUT : Fld := ⟨Reg.PORT_CFG, 1, 0⟩
def Fld.PORT_CFG.EN : Fld := ⟨Reg.PORT_CFG, 4, 4⟩
def Fld.PORT_CFG.PFC_EN : Fld := ⟨Reg.PORT_CFG, 8, 8⟩
def Fld.PORT_CFG.PFC_PRIO : Fld := ⟨Reg.PORT_CFG, 11, 9⟩
def Fld.PORT_CFG.VLAN : Fld := ⟨Reg.PORT_CFG, 27, 16⟩
def Fld.PORT_CFG.PCP : Fld := ⟨Reg.PORT_CFG, 30, 28⟩
def Reg.PORT_STAT : Reg := ⟨0xc10008, [(4, 0x10000)], .port, false, .none,
  [⟨3, 0, .ro, 0, .none⟩, ⟨7, 4, .ro, 0, .none⟩]⟩
def Fld.PORT_STAT.UP : Fld := ⟨Reg.PORT_STAT, 3, 0⟩
def Fld.PORT_STAT.TRAINING : Fld := ⟨Reg.PORT_STAT, 7, 4⟩
def Reg.PORT_MAC : Reg := ⟨0xc10010, [(4, 0x10000)], .port, false, .none,
  [⟨47, 0, .rw, 0, .d12⟩]⟩
def Fld.PORT_MAC.MAC : Fld := ⟨Reg.PORT_MAC, 47, 0⟩
def Reg.PORT_IP : Reg := ⟨0xc10018, [(4, 0x10000)], .port, false, .none,
  [⟨31, 0, .rw, 0, .d12⟩]⟩
def Fld.PORT_IP.IP : Fld := ⟨Reg.PORT_IP, 31, 0⟩
def Reg.PORT_NH : Reg := ⟨0xc10020, [(4, 0x10000)], .port, false, .none,
  [⟨47, 0, .rw, 0, .d12⟩]⟩
def Fld.PORT_NH.MAC : Fld := ⟨Reg.PORT_NH, 47, 0⟩
def Reg.PORT_TX : Reg := ⟨0xc10028, [(4, 0x10000)], .port, true, .none,
  [⟨63, 0, .ro, 0, .d12⟩]⟩
def Fld.PORT_TX.BYTES : Fld := ⟨Reg.PORT_TX, 63, 0⟩
def Reg.PORT_RX : Reg := ⟨0xc10030, [(4, 0x10000)], .port, true, .none,
  [⟨63, 0, .ro, 0, .d12⟩]⟩
def Fld.PORT_RX.BYTES : Fld := ⟨Reg.PORT_RX, 63, 0⟩
def Reg.PORT_EVT : Reg := ⟨0xc10038, [(4, 0x10000)], .port, true, .none,
  [⟨31, 0, .ro, 0, .warm⟩, ⟨63, 32, .ro, 0, .warm⟩]⟩
def Fld.PORT_EVT.CNP_SENT : Fld := ⟨Reg.PORT_EVT, 31, 0⟩
def Fld.PORT_EVT.CNP_RCVD : Fld := ⟨Reg.PORT_EVT, 63, 32⟩
def Reg.PORT_ERR_CNT : Reg := ⟨0xc10040, [(4, 0x10000)], .port, true, .none,
  [⟨31, 0, .ro, 0, .d12⟩, ⟨63, 32, .ro, 0, .d12⟩]⟩
def Fld.PORT_ERR_CNT.RETX : Fld := ⟨Reg.PORT_ERR_CNT, 31, 0⟩
def Fld.PORT_ERR_CNT.DROP : Fld := ⟨Reg.PORT_ERR_CNT, 63, 32⟩
def Reg.COLL_STAT : Reg := ⟨0xc80000, [(2, 0x10000)], .die, false, .none,
  [⟨3, 0, .ro, 0, .none⟩, ⟨12, 8, .ro, 0, .none⟩]⟩
def Fld.COLL_STAT.ACTIVE : Fld := ⟨Reg.COLL_STAT, 3, 0⟩
def Fld.COLL_STAT.QUEUED : Fld := ⟨Reg.COLL_STAT, 12, 8⟩
def Reg.COLL_REC : Reg := ⟨0xc80008, [(2, 0x10000)], .die, false, .none,
  [⟨0, 0, .w1c, 0, .warm⟩, ⟨3, 1, .ro, 0, .warm⟩, ⟨7, 4, .ro, 0, .warm⟩, ⟨9, 8, .ro, 0, .warm⟩, ⟨15, 10, .ro, 0, .warm⟩, ⟨19, 16, .ro, 0, .warm⟩]⟩
def Fld.COLL_REC.VALID : Fld := ⟨Reg.COLL_REC, 0, 0⟩
def Fld.COLL_REC.CODE : Fld := ⟨Reg.COLL_REC, 3, 1⟩
def Fld.COLL_REC.GROUP : Fld := ⟨Reg.COLL_REC, 7, 4⟩
def Fld.COLL_REC.TAG : Fld := ⟨Reg.COLL_REC, 9, 8⟩
def Fld.COLL_REC.PEER : Fld := ⟨Reg.COLL_REC, 15, 10⟩
def Fld.COLL_REC.PART : Fld := ⟨Reg.COLL_REC, 19, 16⟩
def Reg.COLL_CNT : Reg := ⟨0xc80010, [(2, 0x10000)], .die, true, .none,
  [⟨31, 0, .ro, 0, .d12⟩, ⟨63, 32, .ro, 0, .d12⟩]⟩
def Fld.COLL_CNT.PHASES : Fld := ⟨Reg.COLL_CNT, 31, 0⟩
def Fld.COLL_CNT.FAULTS : Fld := ⟨Reg.COLL_CNT, 63, 32⟩

/-! Registers of the chapter Power, Operating Points and Thermal Control. -/

def Reg.PWR_CFG : Reg := ⟨0x600000, [], .die0, false, some (0x600008, 0x0, 0),
  [⟨9, 0, .rwl, 450, .d12⟩, ⟨25, 16, .rwl, 110, .d12⟩, ⟨41, 32, .rwl, 500, .d12⟩, ⟨55, 48, .rwl, 64, .d12⟩]⟩
def Fld.PWR_CFG.CAP_W : Fld := ⟨Reg.PWR_CFG, 9, 0⟩
def Fld.PWR_CFG.RESERVE_W : Fld := ⟨Reg.PWR_CFG, 25, 16⟩
def Fld.PWR_CFG.FAST_W : Fld := ⟨Reg.PWR_CFG, 41, 32⟩
def Fld.PWR_CFG.AVG_TICKS : Fld := ⟨Reg.PWR_CFG, 55, 48⟩
def Reg.PWR_LOCK : Reg := ⟨0x600008, [], .die0, false, .none,
  [⟨0, 0, .w1s, 0, .d12⟩]⟩
def Fld.PWR_LOCK.LOCK : Fld := ⟨Reg.PWR_LOCK, 0, 0⟩
def Reg.PWR_BUDGET : Reg := ⟨0x600010, [], .die0, false, .none,
  [⟨9, 0, .ro, 340, .none⟩, ⟨25, 16, .ro, 0, .none⟩, ⟨63, 32, .ro, 0, .none⟩]⟩
def Fld.PWR_BUDGET.B_W : Fld := ⟨Reg.PWR_BUDGET, 9, 0⟩
def Fld.PWR_BUDGET.AVG_CUT : Fld := ⟨Reg.PWR_BUDGET, 25, 16⟩
def Fld.PWR_BUDGET.MEAS_MW : Fld := ⟨Reg.PWR_BUDGET, 63, 32⟩
def Reg.PWR_EVT : Reg := ⟨0x600018, [], .die0, false, .none,
  [⟨0, 0, .w1c, 0, .warm⟩, ⟨1, 1, .w1c, 0, .warm⟩, ⟨2, 2, .w1c, 0, .warm⟩, ⟨3, 3, .w1c, 0, .warm⟩, ⟨4, 4, .w1c, 0, .warm⟩, ⟨5, 5, .w1c, 0, .warm⟩]⟩
def Fld.PWR_EVT.EMERG0 : Fld := ⟨Reg.PWR_EVT, 0, 0⟩
def Fld.PWR_EVT.EMERG1 : Fld := ⟨Reg.PWR_EVT, 1, 1⟩
def Fld.PWR_EVT.FAST_LIMIT : Fld := ⟨Reg.PWR_EVT, 2, 2⟩
def Fld.PWR_EVT.AVG_LIMIT : Fld := ⟨Reg.PWR_EVT, 3, 3⟩
def Fld.PWR_EVT.ASSAY_ABSENT : Fld := ⟨Reg.PWR_EVT, 4, 4⟩
def Fld.PWR_EVT.VT_BAD : Fld := ⟨Reg.PWR_EVT, 5, 5⟩
def Reg.PWR_DIE : Reg := ⟨0x601000, [(2, 0x1000)], .die, false, .none,
  [⟨2, 0, .ro, 0, .none⟩, ⟨6, 4, .ro, 7, .none⟩, ⟨8, 8, .ro, 0, .none⟩, ⟨63, 16, .ro, 0, .none⟩]⟩
def Fld.PWR_DIE.OPP : Fld := ⟨Reg.PWR_DIE, 2, 0⟩
def Fld.PWR_DIE.TARGET : Fld := ⟨Reg.PWR_DIE, 6, 4⟩
def Fld.PWR_DIE.EMERG : Fld := ⟨Reg.PWR_DIE, 8, 8⟩
def Fld.PWR_DIE.PLAN_END : Fld := ⟨Reg.PWR_DIE, 63, 16⟩
def Reg.OPP_NEXT : Reg := ⟨0x601008, [(2, 0x1000)], .die, false, .none,
  [⟨47, 0, .ro, 0, .none⟩, ⟨50, 48, .ro, 0, .none⟩]⟩
def Fld.OPP_NEXT.AT : Fld := ⟨Reg.OPP_NEXT, 47, 0⟩
def Fld.OPP_NEXT.OPP : Fld := ⟨Reg.OPP_NEXT, 50, 48⟩
def Reg.OPP_LIM : Reg := ⟨0x601010, [(2, 0x1000)], .die, false, some (0x600008, 0x0, 0),
  [⟨2, 0, .rwl, 0, .d12⟩, ⟨6, 4, .rwl, 7, .d12⟩]⟩
def Fld.OPP_LIM.FLOOR : Fld := ⟨Reg.OPP_LIM, 2, 0⟩
def Fld.OPP_LIM.CEIL : Fld := ⟨Reg.OPP_LIM, 6, 4⟩
def Reg.PWR_TEL : Reg := ⟨0x601018, [(2, 0x1000)], .die, false, .none,
  [⟨31, 0, .ro, 0, .none⟩, ⟨63, 32, .ro, 0, .none⟩]⟩
def Fld.PWR_TEL.CORE_MW : Fld := ⟨Reg.PWR_TEL, 31, 0⟩
def Fld.PWR_TEL.ALL_MW : Fld := ⟨Reg.PWR_TEL, 63, 32⟩
def Reg.PWR_VT : Reg := ⟨0x601040, [(2, 0x1000), (8, 0x8)], .die, false, .none,
  [⟨10, 0, .ro, 0, .warm⟩, ⟨27, 16, .ro, 0, .warm⟩, ⟨43, 32, .ro, 0, .warm⟩, ⟨48, 48, .ro, 0, .warm⟩]⟩
def Fld.PWR_VT.FREQ_MHZ : Fld := ⟨Reg.PWR_VT, 10, 0⟩
def Fld.PWR_VT.V_MV : Fld := ⟨Reg.PWR_VT, 27, 16⟩
def Fld.PWR_VT.VTEST_MV : Fld := ⟨Reg.PWR_VT, 43, 32⟩
def Fld.PWR_VT.DERATED : Fld := ⟨Reg.PWR_VT, 48, 48⟩
def Reg.THERM_CFG : Reg := ⟨0x700000, [], .die0, false, some (0x700010, 0x0, 0),
  [⟨7, 0, .rwl, 95, .d12⟩, ⟨15, 8, .rwl, 103, .d12⟩, ⟨23, 16, .rwl, 110, .d12⟩, ⟨31, 24, .rwl, 88, .d12⟩, ⟨39, 32, .rwl, 92, .d12⟩, ⟨47, 40, .rwl, 95, .d12⟩, ⟨51, 48, .rwl, 5, .d12⟩, ⟨55, 52, .rwl, 4, .d12⟩, ⟨63, 56, .rwl, 32, .d12⟩]⟩
def Fld.THERM_CFG.DIE_THR_C : Fld := ⟨Reg.THERM_CFG, 7, 0⟩
def Fld.THERM_CFG.DIE_EMERG_C : Fld := ⟨Reg.THERM_CFG, 15, 8⟩
def Fld.THERM_CFG.DIE_OFF_C : Fld := ⟨Reg.THERM_CFG, 23, 16⟩
def Fld.THERM_CFG.STK_THR_C : Fld := ⟨Reg.THERM_CFG, 31, 24⟩
def Fld.THERM_CFG.STK_EMERG_C : Fld := ⟨Reg.THERM_CFG, 39, 32⟩
def Fld.THERM_CFG.STK_OFF_C : Fld := ⟨Reg.THERM_CFG, 47, 40⟩
def Fld.THERM_CFG.HYST_C : Fld := ⟨Reg.THERM_CFG, 51, 48⟩
def Fld.THERM_CFG.RECOVER : Fld := ⟨Reg.THERM_CFG, 55, 52⟩
def Fld.THERM_CFG.GRACE_MS : Fld := ⟨Reg.THERM_CFG, 63, 56⟩
def Reg.THERM_SCALE : Reg := ⟨0x700008, [], .die0, false, some (0x700010, 0x0, 0),
  [⟨8, 0, .rwl, 128, .d12⟩]⟩
def Fld.THERM_SCALE.SCALE_MIN : Fld := ⟨Reg.THERM_SCALE, 8, 0⟩
def Reg.THERM_LOCK : Reg := ⟨0x700010, [], .die0, false, .none,
  [⟨0, 0, .w1s, 0, .d12⟩]⟩
def Fld.THERM_LOCK.LOCK : Fld := ⟨Reg.THERM_LOCK, 0, 0⟩
def Reg.THERM_STAT : Reg := ⟨0x700018, [], .die0, false, .none,
  [⟨7, 0, .ro, 0, .none⟩, ⟨15, 8, .ro, 0, .none⟩, ⟨23, 16, .ro, 0, .none⟩, ⟨28, 24, .ro, 0, .none⟩, ⟨31, 31, .ro, 0, .none⟩]⟩
def Fld.THERM_STAT.DIE0_C : Fld := ⟨Reg.THERM_STAT, 7, 0⟩
def Fld.THERM_STAT.DIE1_C : Fld := ⟨Reg.THERM_STAT, 15, 8⟩
def Fld.THERM_STAT.STK_C : Fld := ⟨Reg.THERM_STAT, 23, 16⟩
def Fld.THERM_STAT.STK_ID : Fld := ⟨Reg.THERM_STAT, 28, 24⟩
def Fld.THERM_STAT.HOLD : Fld := ⟨Reg.THERM_STAT, 31, 31⟩
def Reg.THERM_EVT : Reg := ⟨0x700020, [], .die0, false, .none,
  [⟨0, 0, .w1c, 0, .warm⟩, ⟨1, 1, .w1c, 0, .warm⟩, ⟨2, 2, .w1c, 0, .warm⟩, ⟨3, 3, .w1c, 0, .warm⟩, ⟨4, 4, .w1c, 0, .warm⟩, ⟨5, 5, .w1c, 0, .warm⟩, ⟨6, 6, .w1c, 0, .warm⟩]⟩
def Fld.THERM_EVT.THROTTLE_DIE : Fld := ⟨Reg.THERM_EVT, 0, 0⟩
def Fld.THERM_EVT.THROTTLE_STK : Fld := ⟨Reg.THERM_EVT, 1, 1⟩
def Fld.THERM_EVT.EMERG : Fld := ⟨Reg.THERM_EVT, 2, 2⟩
def Fld.THERM_EVT.SHUTDOWN : Fld := ⟨Reg.THERM_EVT, 3, 3⟩
def Fld.THERM_EVT.SENSOR_BAD : Fld := ⟨Reg.THERM_EVT, 4, 4⟩
def Fld.THERM_EVT.INLET_HIGH : Fld := ⟨Reg.THERM_EVT, 5, 5⟩
def Fld.THERM_EVT.RESUME_REFUSED : Fld := ⟨Reg.THERM_EVT, 6, 6⟩
def Reg.THERM_CTRL : Reg := ⟨0x700028, [], .die0, false, .none,
  [⟨0, 0, .wo, 0, .none⟩]⟩
def Fld.THERM_CTRL.RESUME : Fld := ⟨Reg.THERM_CTRL, 0, 0⟩
def Reg.THERM_SHUT : Reg := ⟨0x700030, [], .die0, false, .none,
  [⟨1, 0, .ro, 0, .warm⟩, ⟨15, 8, .ro, 0, .warm⟩, ⟨23, 16, .ro, 0, .warm⟩, ⟨63, 32, .ro, 0, .warm⟩]⟩
def Fld.THERM_SHUT.CAUSE : Fld := ⟨Reg.THERM_SHUT, 1, 0⟩
def Fld.THERM_SHUT.CHANNEL : Fld := ⟨Reg.THERM_SHUT, 15, 8⟩
def Fld.THERM_SHUT.TEMP_C : Fld := ⟨Reg.THERM_SHUT, 23, 16⟩
def Fld.THERM_SHUT.BTICK_LO : Fld := ⟨Reg.THERM_SHUT, 63, 32⟩
def Reg.THERM_TRIP : Reg := ⟨0x700038, [], .die0, false, .none,
  [⟨0, 0, .w1c, 0, .cold⟩, ⟨1, 1, .ro, 0, .cold⟩]⟩
def Fld.THERM_TRIP.VALID : Fld := ⟨Reg.THERM_TRIP, 0, 0⟩
def Fld.THERM_TRIP.DIE : Fld := ⟨Reg.THERM_TRIP, 1, 1⟩
def Reg.HK_CH : Reg := ⟨0x701000, [(256, 0x8)], .die0, false, .none,
  [⟨15, 0, .ro, 0, .none⟩, ⟨16, 16, .ro, 0, .none⟩, ⟨63, 32, .ro, 0, .none⟩]⟩
def Fld.HK_CH.VALUE : Fld := ⟨Reg.HK_CH, 15, 0⟩
def Fld.HK_CH.VALID : Fld := ⟨Reg.HK_CH, 16, 16⟩
def Fld.HK_CH.ROUND : Fld := ⟨Reg.HK_CH, 63, 32⟩

/-! Registers of the chapter Ageing Monitors and Margin Reckoning. -/

def Reg.AGE_CFG : Reg := ⟨0x800000, [], .die0, false, some (0x800008, 0x0, 0),
  [⟨15, 0, .rwl, 168, .d12⟩, ⟨31, 16, .rwl, 3000, .d12⟩, ⟨39, 32, .rwl, 4, .d12⟩, ⟨47, 40, .rwl, 8, .d12⟩]⟩
def Fld.AGE_CFG.INTERVAL_H : Fld := ⟨Reg.AGE_CFG, 15, 0⟩
def Fld.AGE_CFG.DRIFT_PPM : Fld := ⟨Reg.AGE_CFG, 31, 16⟩
def Fld.AGE_CFG.WEAK_REPEAT : Fld := ⟨Reg.AGE_CFG, 39, 32⟩
def Fld.AGE_CFG.WEAK_TREFI : Fld := ⟨Reg.AGE_CFG, 47, 40⟩
def Reg.AGE_LOCK : Reg := ⟨0x800008, [], .die0, false, .none,
  [⟨0, 0, .w1s, 0, .d12⟩]⟩
def Fld.AGE_LOCK.LOCK : Fld := ⟨Reg.AGE_LOCK, 0, 0⟩
def Reg.AGE_CTRL : Reg := ⟨0x800010, [], .die0, false, .none,
  [⟨0, 0, .wo, 0, .none⟩]⟩
def Fld.AGE_CTRL.REQUEST : Fld := ⟨Reg.AGE_CTRL, 0, 0⟩
def Reg.AGE_STAT : Reg := ⟨0x800018, [], .die0, false, .none,
  [⟨1, 0, .ro, 0, .none⟩, ⟨63, 32, .ro, 0, .warm⟩]⟩
def Fld.AGE_STAT.STATE : Fld := ⟨Reg.AGE_STAT, 1, 0⟩
def Fld.AGE_STAT.HOURS : Fld := ⟨Reg.AGE_STAT, 63, 32⟩
def Reg.AGE_EVT : Reg := ⟨0x800020, [], .die0, false, .none,
  [⟨0, 0, .w1c, 0, .warm⟩, ⟨1, 1, .w1c, 0, .warm⟩, ⟨2, 2, .w1c, 0, .warm⟩, ⟨3, 3, .w1c, 0, .warm⟩, ⟨4, 4, .w1c, 0, .warm⟩, ⟨5, 5, .w1c, 0, .warm⟩]⟩
def Fld.AGE_EVT.DONE : Fld := ⟨Reg.AGE_EVT, 0, 0⟩
def Fld.AGE_EVT.DRIFT_TRIG : Fld := ⟨Reg.AGE_EVT, 1, 1⟩
def Fld.AGE_EVT.DERATED : Fld := ⟨Reg.AGE_EVT, 2, 2⟩
def Fld.AGE_EVT.WORN : Fld := ⟨Reg.AGE_EVT, 3, 3⟩
def Fld.AGE_EVT.LOG_DEFERRED : Fld := ⟨Reg.AGE_EVT, 4, 4⟩
def Fld.AGE_EVT.CUT : Fld := ⟨Reg.AGE_EVT, 5, 5⟩
def Reg.AGE_LAST : Reg := ⟨0x800028, [], .die0, false, .none,
  [⟨31, 0, .ro, 0, .warm⟩, ⟨63, 32, .ro, 0, .warm⟩]⟩
def Fld.AGE_LAST.SEQ : Fld := ⟨Reg.AGE_LAST, 31, 0⟩
def Fld.AGE_LAST.HOURS : Fld := ⟨Reg.AGE_LAST, 63, 32⟩
def Reg.AGE_DRIFT : Reg := ⟨0x800030, [], .die0, false, .none,
  [⟨15, 0, .ro, 0, .warm⟩, ⟨31, 16, .ro, 0, .warm⟩]⟩
def Fld.AGE_DRIFT.BASE_PPM : Fld := ⟨Reg.AGE_DRIFT, 15, 0⟩
def Fld.AGE_DRIFT.NOW_PPM : Fld := ⟨Reg.AGE_DRIFT, 31, 16⟩
def Reg.AGE_PAIR : Reg := ⟨0x801000, [(2, 0x200), (24, 0x8)], .die0, false, .none,
  [⟨31, 0, .ro, 0, .none⟩, ⟨32, 32, .ro, 0, .none⟩]⟩
def Fld.AGE_PAIR.D_PPM : Fld := ⟨Reg.AGE_PAIR, 31, 0⟩
def Fld.AGE_PAIR.VALID : Fld := ⟨Reg.AGE_PAIR, 32, 32⟩
def Reg.AGE_LOG : Reg := ⟨0x802000, [(64, 0x8)], .die0, false, .none,
  [⟨63, 0, .ro, 0, .warm⟩]⟩
def Fld.AGE_LOG.BODY : Fld := ⟨Reg.AGE_LOG, 63, 0⟩

/-! Registers of the chapter The Assay Die. -/

def Reg.ASY_STATE : Reg := ⟨0x900000, [], .die0, false, .none,
  [⟨1, 0, .ro, 0, .none⟩, ⟨31, 16, .ro, 0, .cold⟩, ⟨63, 32, .ro, 0, .cold⟩]⟩
def Fld.ASY_STATE.STATE : Fld := ⟨Reg.ASY_STATE, 1, 0⟩
def Fld.ASY_STATE.FW_VER : Fld := ⟨Reg.ASY_STATE, 31, 16⟩
def Fld.ASY_STATE.CAL_ID : Fld := ⟨Reg.ASY_STATE, 63, 32⟩
def Reg.ASY_SEAL : Reg := ⟨0x900008, [], .die0, false, .none,
  [⟨31, 0, .ro, 0, .standby⟩, ⟨42, 32, .ro, 0, .standby⟩, ⟨48, 48, .ro, 0, .standby⟩, ⟨49, 49, .ro, 0, .standby⟩]⟩
def Fld.ASY_SEAL.SEAL_COUNT : Fld := ⟨Reg.ASY_SEAL, 31, 0⟩
def Fld.ASY_SEAL.LOG_USED : Fld := ⟨Reg.ASY_SEAL, 42, 32⟩
def Fld.ASY_SEAL.LOG_FULL : Fld := ⟨Reg.ASY_SEAL, 48, 48⟩
def Fld.ASY_SEAL.PENDING : Fld := ⟨Reg.ASY_SEAL, 49, 49⟩
def Reg.ASY_CFG : Reg := ⟨0x900010, [], .die0, false, .none,
  [⟨15, 0, .ro, 0, .standby⟩, ⟨40, 16, .ro, 0, .standby⟩]⟩
def Fld.ASY_CFG.RECORD_TICKS : Fld := ⟨Reg.ASY_CFG, 15, 0⟩
def Fld.ASY_CFG.IDLE_MW : Fld := ⟨Reg.ASY_CFG, 40, 16⟩
def Reg.ASY_TICK : Reg := ⟨0x900018, [], .die0, false, .none,
  [⟨47, 0, .ro, 0, .cold⟩, ⟨52, 48, .ro, 0, .cold⟩]⟩
def Fld.ASY_TICK.BTICK : Fld := ⟨Reg.ASY_TICK, 47, 0⟩
def Fld.ASY_TICK.FLAGS : Fld := ⟨Reg.ASY_TICK, 52, 48⟩
def Reg.ASY_TICK_E : Reg := ⟨0x900020, [], .die0, false, .none,
  [⟨63, 0, .ro, 0, .cold⟩]⟩
def Fld.ASY_TICK_E.E_NJ : Fld := ⟨Reg.ASY_TICK_E, 63, 0⟩
def Reg.ASY_TEMP : Reg := ⟨0x900028, [], .die0, false, .none,
  [⟨7, 0, .ro, 0, .none⟩, ⟨15, 8, .ro, 0, .none⟩]⟩
def Fld.ASY_TEMP.T0 : Fld := ⟨Reg.ASY_TEMP, 7, 0⟩
def Fld.ASY_TEMP.T1 : Fld := ⟨Reg.ASY_TEMP, 15, 8⟩
def Reg.ASY_E_TOTAL : Reg := ⟨0x900030, [], .die0, true, .none,
  [⟨63, 0, .ro, 0, .cold⟩]⟩
def Fld.ASY_E_TOTAL.MJ : Fld := ⟨Reg.ASY_E_TOTAL, 63, 0⟩
def Reg.ASY_REC_SEQ : Reg := ⟨0x900038, [], .die0, false, .none,
  [⟨63, 0, .ro, 0, .cold⟩]⟩
def Fld.ASY_REC_SEQ.SEQ : Fld := ⟨Reg.ASY_REC_SEQ, 63, 0⟩
def Reg.ASY_FAULT : Reg := ⟨0x900040, [], .die0, false, .none,
  [⟨31, 0, .ro, 0, .cold⟩, ⟨63, 32, .ro, 0, .cold⟩]⟩
def Fld.ASY_FAULT.FAULTS : Fld := ⟨Reg.ASY_FAULT, 31, 0⟩
def Fld.ASY_FAULT.DROPS : Fld := ⟨Reg.ASY_FAULT, 63, 32⟩
def Reg.ASY_REC : Reg := ⟨0x901000, [(512, 0x8)], .die0, false, .none,
  [⟨63, 0, .ro, 0, .cold⟩]⟩
def Fld.ASY_REC.WORD : Fld := ⟨Reg.ASY_REC, 63, 0⟩
def Reg.ASY_TENT : Reg := ⟨0x902000, [(16, 0x100), (32, 0x8)], .die0, false, .none,
  [⟨63, 0, .ro, 0, .cold⟩]⟩
def Fld.ASY_TENT.WORD : Fld := ⟨Reg.ASY_TENT, 63, 0⟩
def Reg.ASY_CERT : Reg := ⟨0x903000, [(512, 0x8)], .die0, false, .none,
  [⟨63, 0, .ro, 0, .standby⟩]⟩
def Fld.ASY_CERT.WORD : Fld := ⟨Reg.ASY_CERT, 63, 0⟩
def Reg.ASY_SENT : Reg := ⟨0x904000, [(8, 0x1000), (512, 0x8)], .die0, false, .none,
  [⟨63, 0, .ro, 0, .standby⟩]⟩
def Fld.ASY_SENT.WORD : Fld := ⟨Reg.ASY_SENT, 63, 0⟩

/-! Registers of the chapter Boot, Identity, Attestation and Physical Access. -/

def Reg.SEC_STATE : Reg := ⟨0xa00000, [], .die0, false, .none,
  [⟨1, 0, .ro, 0, .d12⟩, ⟨2, 2, .ro, 0, .d12⟩, ⟨3, 3, .ro, 0, .d12⟩, ⟨31, 16, .ro, 0, .d12⟩]⟩
def Fld.SEC_STATE.STATE : Fld := ⟨Reg.SEC_STATE, 1, 0⟩
def Fld.SEC_STATE.ID_OK : Fld := ⟨Reg.SEC_STATE, 2, 2⟩
def Fld.SEC_STATE.CERT_OK : Fld := ⟨Reg.SEC_STATE, 3, 3⟩
def Fld.SEC_STATE.ROM_VER : Fld := ⟨Reg.SEC_STATE, 31, 16⟩
def Reg.SEC_SLOT : Reg := ⟨0xa00008, [], .die0, false, .none,
  [⟨5, 0, .ro, 0, .d12⟩, ⟨13, 8, .ro, 0, .d12⟩]⟩
def Fld.SEC_SLOT.ACTIVE : Fld := ⟨Reg.SEC_SLOT, 5, 0⟩
def Fld.SEC_SLOT.FAILED : Fld := ⟨Reg.SEC_SLOT, 13, 8⟩
def Reg.SEC_REC : Reg := ⟨0xa00010, [], .die0, false, .none,
  [⟨6, 1, .ro, 0, .d12⟩]⟩
def Fld.SEC_REC.BAD : Fld := ⟨Reg.SEC_REC, 6, 1⟩
def Reg.SEC_DBG : Reg := ⟨0xa00018, [], .die0, false, .none,
  [⟨0, 0, .ro, 0, .warm⟩, ⟨1, 1, .ro, 0, .none⟩, ⟨47, 32, .ro, 0, .warm⟩]⟩
def Fld.SEC_DBG.ATTACHED : Fld := ⟨Reg.SEC_DBG, 0, 0⟩
def Fld.SEC_DBG.ACTIVE : Fld := ⟨Reg.SEC_DBG, 1, 1⟩
def Fld.SEC_DBG.ATTACH_COUNT : Fld := ⟨Reg.SEC_DBG, 47, 32⟩
def Reg.SEC_UPD : Reg := ⟨0xa00020, [], .die0, false, .none,
  [⟨2, 0, .ro, 0, .d12⟩, ⟨10, 8, .ro, 0, .d12⟩]⟩
def Fld.SEC_UPD.COMPONENT : Fld := ⟨Reg.SEC_UPD, 2, 0⟩
def Fld.SEC_UPD.RESULT : Fld := ⟨Reg.SEC_UPD, 10, 8⟩
def Reg.SEC_ERR : Reg := ⟨0xa00028, [], .die0, false, .none,
  [⟨0, 0, .w1c, 0, .warm⟩, ⟨1, 1, .w1c, 0, .warm⟩, ⟨2, 2, .w1c, 0, .warm⟩, ⟨3, 3, .w1c, 0, .warm⟩, ⟨4, 4, .w1c, 0, .warm⟩]⟩
def Fld.SEC_ERR.SIG_FAIL : Fld := ⟨Reg.SEC_ERR, 0, 0⟩
def Fld.SEC_ERR.REC_BAD : Fld := ⟨Reg.SEC_ERR, 1, 1⟩
def Fld.SEC_ERR.PUF_FAIL : Fld := ⟨Reg.SEC_ERR, 2, 2⟩
def Fld.SEC_ERR.FLASH_TEMP : Fld := ⟨Reg.SEC_ERR, 3, 3⟩
def Fld.SEC_ERR.UPDATE_FAIL : Fld := ⟨Reg.SEC_ERR, 4, 4⟩
def Reg.SEC_QSEQ : Reg := ⟨0xa00030, [], .die0, false, .none,
  [⟨63, 0, .ro, 0, .d12⟩]⟩
def Fld.SEC_QSEQ.SEQ : Fld := ⟨Reg.SEC_QSEQ, 63, 0⟩
def Reg.SEC_VER : Reg := ⟨0xa00040, [(6, 0x8)], .die0, false, .none,
  [⟨31, 0, .ro, 0, .d12⟩]⟩
def Fld.SEC_VER.VERSION : Fld := ⟨Reg.SEC_VER, 31, 0⟩
def Reg.MREG : Reg := ⟨0xa00100, [(16, 0x40), (8, 0x8)], .die0, false, .none,
  [⟨63, 0, .ro, 0, .d12⟩]⟩
def Fld.MREG.VALUE : Fld := ⟨Reg.MREG, 63, 0⟩
def Reg.SEC_QUOTE : Reg := ⟨0xa02000, [(1024, 0x8)], .die0, false, .none,
  [⟨63, 0, .ro, 0, .d12⟩]⟩
def Fld.SEC_QUOTE.WORD : Fld := ⟨Reg.SEC_QUOTE, 63, 0⟩
def Reg.SEC_CERT : Reg := ⟨0xa04000, [(1024, 0x8)], .die0, false, .none,
  [⟨63, 0, .ro, 0, .d12⟩]⟩
def Fld.SEC_CERT.WORD : Fld := ⟨Reg.SEC_CERT, 63, 0⟩

/-! Registers of the chapter Bring-Up, Repair and Test Access. -/

def Reg.TEST_ERR : Reg := ⟨0xf000000, [], .die0, false, .none,
  [⟨0, 0, .w1c, 0, .warm⟩]⟩
def Fld.TEST_ERR.REFUSED : Fld := ⟨Reg.TEST_ERR, 0, 0⟩
def Reg.TEST_TRAIN : Reg := ⟨0xf000008, [], .die0, false, .none,
  [⟨19, 0, .ro, 0, .none⟩, ⟨39, 20, .ro, 0, .die⟩, ⟨63, 63, .wo, 0, .none⟩]⟩
def Fld.TEST_TRAIN.DOWN : Fld := ⟨Reg.TEST_TRAIN, 19, 0⟩
def Fld.TEST_TRAIN.GAVE_UP : Fld := ⟨Reg.TEST_TRAIN, 39, 20⟩
def Fld.TEST_TRAIN.RETRY : Fld := ⟨Reg.TEST_TRAIN, 63, 63⟩
def Reg.TEST_IDL : Reg := ⟨0xf000010, [(2, 0x8)], .die, false, .none,
  [⟨0, 0, .rw, 0, .none⟩, ⟨1, 1, .w1s, 0, .none⟩, ⟨15, 8, .ro, 0, .d12⟩, ⟨23, 16, .ro, 0, .d12⟩, ⟨63, 32, .ro, 0, .none⟩]⟩
def Fld.TEST_IDL.LOOP : Fld := ⟨Reg.TEST_IDL, 0, 0⟩
def Fld.TEST_IDL.MARGIN : Fld := ⟨Reg.TEST_IDL, 1, 1⟩
def Fld.TEST_IDL.MARGIN_T : Fld := ⟨Reg.TEST_IDL, 15, 8⟩
def Fld.TEST_IDL.MARGIN_V : Fld := ⟨Reg.TEST_IDL, 23, 16⟩
def Fld.TEST_IDL.PRBS_ERR : Fld := ⟨Reg.TEST_IDL, 63, 32⟩
def Reg.TEST_ETH : Reg := ⟨0xf000020, [(4, 0x10)], .port, false, .none,
  [⟨1, 0, .rw, 0, .none⟩, ⟨4, 4, .rw, 0, .none⟩]⟩
def Fld.TEST_ETH.LOOP : Fld := ⟨Reg.TEST_ETH, 1, 0⟩
def Fld.TEST_ETH.PRBS_EN : Fld := ⟨Reg.TEST_ETH, 4, 4⟩
def Reg.TEST_ETH1 : Reg := ⟨0xf000028, [(4, 0x10)], .port, false, .none,
  [⟨63, 0, .ro, 0, .none⟩]⟩
def Fld.TEST_ETH1.PRBS_ERR : Fld := ⟨Reg.TEST_ETH1, 63, 0⟩
def Reg.TEST_BIST : Reg := ⟨0xf001000, [(20, 0x100)], .stack, false, .none,
  [⟨0, 0, .w1s, 0, .none⟩, ⟨2, 1, .rw, 0, .d12⟩, ⟨4, 4, .rw, 0, .d12⟩, ⟨63, 32, .rw, 4294967295, .d12⟩]⟩
def Fld.TEST_BIST.GO : Fld := ⟨Reg.TEST_BIST, 0, 0⟩
def Fld.TEST_BIST.PATTERN : Fld := ⟨Reg.TEST_BIST, 2, 1⟩
def Fld.TEST_BIST.AUTO : Fld := ⟨Reg.TEST_BIST, 4, 4⟩
def Fld.TEST_BIST.PCH_MASK : Fld := ⟨Reg.TEST_BIST, 63, 32⟩
def Reg.TEST_BSTAT : Reg := ⟨0xf001008, [(20, 0x100)], .stack, false, .none,
  [⟨1, 0, .ro, 0, .die⟩, ⟨63, 32, .ro, 0, .die⟩]⟩
def Fld.TEST_BSTAT.STATE : Fld := ⟨Reg.TEST_BSTAT, 1, 0⟩
def Fld.TEST_BSTAT.FAILS : Fld := ⟨Reg.TEST_BSTAT, 63, 32⟩
def Reg.TEST_BFIRST : Reg := ⟨0xf001010, [(20, 0x100)], .stack, false, .none,
  [⟨41, 6, .ro, 0, .die⟩]⟩
def Fld.TEST_BFIRST.LINE : Fld := ⟨Reg.TEST_BFIRST, 41, 6⟩
def Reg.TEST_SLOOP : Reg := ⟨0xf001018, [(20, 0x100)], .stack, false, .none,
  [⟨0, 0, .rw, 0, .none⟩, ⟨63, 32, .ro, 0, .none⟩]⟩
def Fld.TEST_SLOOP.LOOP : Fld := ⟨Reg.TEST_SLOOP, 0, 0⟩
def Fld.TEST_SLOOP.PRBS_ERR : Fld := ⟨Reg.TEST_SLOOP, 63, 32⟩
def Reg.TEST_MARGIN : Reg := ⟨0xf001020, [(20, 0x100)], .stack, false, .none,
  [⟨0, 0, .w1s, 0, .none⟩, ⟨15, 8, .ro, 0, .d12⟩, ⟨23, 16, .ro, 0, .d12⟩, ⟨31, 24, .ro, 0, .d12⟩]⟩
def Fld.TEST_MARGIN.GO : Fld := ⟨Reg.TEST_MARGIN, 0, 0⟩
def Fld.TEST_MARGIN.MARGIN_T : Fld := ⟨Reg.TEST_MARGIN, 15, 8⟩
def Fld.TEST_MARGIN.MARGIN_V : Fld := ⟨Reg.TEST_MARGIN, 23, 16⟩
def Fld.TEST_MARGIN.LANE : Fld := ⟨Reg.TEST_MARGIN, 31, 24⟩
def Reg.TEST_REP : Reg := ⟨0xf001028, [(20, 0x100)], .stack, false, .none,
  [⟨4, 0, .rw, 0, .none⟩, ⟨9, 5, .rw, 0, .none⟩, ⟨24, 10, .rw, 0, .none⟩, ⟨28, 25, .rw, 0, .none⟩, ⟨30, 30, .rw, 0, .none⟩, ⟨34, 32, .ro, 0, .none⟩, ⟨47, 40, .ro, 0, .die⟩, ⟨63, 63, .w1s, 0, .none⟩]⟩
def Fld.TEST_REP.PCH : Fld := ⟨Reg.TEST_REP, 4, 0⟩
def Fld.TEST_REP.BANK : Fld := ⟨Reg.TEST_REP, 9, 5⟩
def Fld.TEST_REP.ROW : Fld := ⟨Reg.TEST_REP, 24, 10⟩
def Fld.TEST_REP.SPARE : Fld := ⟨Reg.TEST_REP, 28, 25⟩
def Fld.TEST_REP.COPY : Fld := ⟨Reg.TEST_REP, 30, 30⟩
def Fld.TEST_REP.RESULT : Fld := ⟨Reg.TEST_REP, 34, 32⟩
def Fld.TEST_REP.CONFLICT : Fld := ⟨Reg.TEST_REP, 47, 40⟩
def Fld.TEST_REP.GO : Fld := ⟨Reg.TEST_REP, 63, 63⟩
def Reg.TEST_SPARES : Reg := ⟨0xf001030, [(20, 0x100)], .stack, false, .none,
  [⟨15, 0, .ro, 0, .die⟩, ⟨21, 16, .ro, 0, .die⟩]⟩
def Fld.TEST_SPARES.LEFT : Fld := ⟨Reg.TEST_SPARES, 15, 0⟩
def Fld.TEST_SPARES.LANES_LEFT : Fld := ⟨Reg.TEST_SPARES, 21, 16⟩

/-! Registers of the chapter The CXL Host Link. -/

def Reg.MSIX_ADDR : Reg := ⟨0xb10000, [(64, 0x10)], .die0, false, .none,
  [⟨63, 0, .rw, 0, .die⟩]⟩
def Fld.MSIX_ADDR.ADDR : Fld := ⟨Reg.MSIX_ADDR, 63, 0⟩
def Reg.MSIX_CTRL : Reg := ⟨0xb10008, [(64, 0x10)], .die0, false, .none,
  [⟨31, 0, .rw, 0, .die⟩, ⟨32, 32, .rw, 1, .die⟩]⟩
def Fld.MSIX_CTRL.DATA : Fld := ⟨Reg.MSIX_CTRL, 31, 0⟩
def Fld.MSIX_CTRL.MASK : Fld := ⟨Reg.MSIX_CTRL, 32, 32⟩
def Reg.MSIX_PBA : Reg := ⟨0xb11000, [], .die0, false, .none,
  [⟨63, 0, .ro, 0, .die⟩]⟩
def Fld.MSIX_PBA.PENDING : Fld := ⟨Reg.MSIX_PBA, 63, 0⟩

/-- Every register of the CSR window. -/
def regTable0 : List Reg :=
  [.TICK_COUNT, .BTICK_NUM, .TICK_PERIOD, .TICK_DISC, .TICK_SYNC, .LEAP_AT, .LEAP_CTRL, .LEAP_CLAIM, .TICK_ERR, .STEP_CFG, .STEP_CTRL, .STEP_STATE, .ALM_NEXT, .ALM_CUR, .COMMIT_NUM, .RESTART_NUM, .OVERRUN_REC, .ADMIT_REC, .STEP_ERR, .CORE_STATUS]
def regTable1 : List Reg :=
  [.CORE_PC, .CORE_CFG, .CORE_LOCK, .CORE_CTRL, .FAULT_REC, .FAULT_PC, .FAULT_ADDR, .FP_FLAGS, .IDX_OOB, .IDX_OOB_CNT, .CYCLES, .BLK_LAST, .BLK_OVER_CNT, .RC_HITS, .RC_MISSES, .ECC_STAT, .STK_STATUS, .STK_CFG, .STK_PWR, .STK_LOCK]
def regTable2 : List Reg :=
  [.STK_TEMP, .STK_REF_CNT, .STK_NRR_CNT, .STK_EXT_RD, .STK_EXT_WR, .STK_INT, .STK_TURNS, .SL_LINE, .SL_LOCK, .SL_ERR, .SL_CFG, .SL_LEVEL, .SL_EXT, .SL_INT, .SL_STALL, .SL_SCALE, .SL_HOSTW, .STK_ECC_CNT, .STK_ECC_THR, .STK_CE_LOST]
def regTable3 : List Reg :=
  [.STK_CE_W0, .STK_CE_W1, .STK_FLIP_DATA, .STK_FLIP_META, .STK_FLIP_CSUM, .STK_FLIP_CTRL, .STK_FLIP_CNT, .ERR_LOG_PI, .ERR_LOG_CI, .ERR_STATUS, .ERR_VERIFY, .ERR_VERIFY_CRC, .ERR_REPAIR, .ERR_REPAIR_CRC, .ERR_POISON, .ERR_LOG, .RAKE_CFG, .RAKE_POS, .RAKE_WALKS, .RAKE_CNT]
def regTable4 : List Reg :=
  [.RAKE_CTRL, .RAKE_DEBT, .SV_CFG, .SV_SPEC, .SV_TABLE, .SV_GEOM, .SV_REQ, .SV_REQCFG, .SV_OUTDIR, .SV_SWAP0, .SV_SWAP1, .SV_SWAPCAP, .SV_STEPREC, .SV_EXPG, .SV_EXPN, .SV_VAR, .SV_PLACE, .SV_CTRL, .SV_STAT, .SV_HEAD]
def regTable5 : List Reg :=
  [.SV_CNT_TOK, .SV_CNT_DEF, .SV_CNT_SWAP, .SERVE_ERR, .PART_ERR, .PART_IDLW, .REG_LOC, .REG_MIR, .REG_CTRL, .REG_STAT, .PT_CORES, .PT_SB, .PT_REGIONS, .PT_SHARE, .PT_ACCT, .PT_STAT, .SEM_SIG, .PT_RANGE, .SEM_VAL, .ACC]
def regTable6 : List Reg :=
  [.MBX_ERR, .MBX_LOCK, .MBX_DROP, .DB_PEND, .DB_RING, .DB_MASK, .DB_CFG, .MB_DATA, .S_CTRL, .S_STAT, .MB_RDATA, .R_PEEK, .R_CTRL, .MB_CFG, .CXLC_LINK, .CXLC_CFG, .CXLC_ERR, .CXLC_DROP, .CXLC_BYTES_IN, .CXLC_BYTES_OUT]
def regTable7 : List Reg :=
  [.CXLC_CNT, .BIAS_CMD, .BIAS_STAT, .BIAS_QUERY, .CH_BASE, .CH_CFG, .CH_TAIL, .CH_HEAD, .CH_STAT, .ETH_DEV, .ETH_LOCK, .ETH_ERR, .ETH_CFG, .ETH_CC, .ETH_TMO, .PTP_CFG, .ETH_DT0, .ETH_DT1, .GRP_CFG, .GRP_MAP]
def regTable8 : List Reg :=
  [.GRP_RESOLVE, .GRP_LOG, .PORT_CFG, .PORT_STAT, .PORT_MAC, .PORT_IP, .PORT_NH, .PORT_TX, .PORT_RX, .PORT_EVT, .PORT_ERR_CNT, .COLL_STAT, .COLL_REC, .COLL_CNT, .PWR_CFG, .PWR_LOCK, .PWR_BUDGET, .PWR_EVT, .PWR_DIE, .OPP_NEXT]
def regTable9 : List Reg :=
  [.OPP_LIM, .PWR_TEL, .PWR_VT, .THERM_CFG, .THERM_SCALE, .THERM_LOCK, .THERM_STAT, .THERM_EVT, .THERM_CTRL, .THERM_SHUT, .THERM_TRIP, .HK_CH, .AGE_CFG, .AGE_LOCK, .AGE_CTRL, .AGE_STAT, .AGE_EVT, .AGE_LAST, .AGE_DRIFT, .AGE_PAIR]
def regTable10 : List Reg :=
  [.AGE_LOG, .ASY_STATE, .ASY_SEAL, .ASY_CFG, .ASY_TICK, .ASY_TICK_E, .ASY_TEMP, .ASY_E_TOTAL, .ASY_REC_SEQ, .ASY_FAULT, .ASY_REC, .ASY_TENT, .ASY_CERT, .ASY_SENT, .SEC_STATE, .SEC_SLOT, .SEC_REC, .SEC_DBG, .SEC_UPD, .SEC_ERR]
def regTable11 : List Reg :=
  [.SEC_QSEQ, .SEC_VER, .MREG, .SEC_QUOTE, .SEC_CERT, .TEST_ERR, .TEST_TRAIN, .TEST_IDL, .TEST_ETH, .TEST_ETH1, .TEST_BIST, .TEST_BSTAT, .TEST_BFIRST, .TEST_SLOOP, .TEST_MARGIN, .TEST_REP, .TEST_SPARES, .MSIX_ADDR, .MSIX_CTRL, .MSIX_PBA]
/-- All register tables of the spec, joined. -/
def regTable : List Reg :=
  regTable0 ++ regTable1 ++ regTable2 ++ regTable3 ++ regTable4 ++ regTable5 ++ regTable6 ++ regTable7 ++ regTable8 ++ regTable9 ++ regTable10 ++ regTable11

/-- The word of a register's Reset column. -/
def Reg.word0 (r : Reg) : Nat := r.fields.foldl (fun a f => a + (f.reset <<< f.lo)) 0

end Sys2Proof.Machine
end

