-- ==== Sys2Proof/Machine/Types.lean ====
section
/-!
DEFINITION. The parts of the block's state: plain data records for a granule, a core, a pan, a partition's step and
the units of the module. State puts them together.
-/
namespace Sys2Proof.Machine

/-- Checksum state of a granule (R282). -/
inductive GranState where
  | unwritten | shut | opened
  deriving DecidableEq, Repr

/-- Metadata of one 4 KiB granule of stack data: valid and poison bits of its 64 lines (bit k for line k),
its checksum state and the stored checksum. -/
structure Gran where
  valid : BitVec 64
  poison : BitVec 64
  state : GranState
  crc : BitVec 32
  deriving DecidableEq, Repr

/-- The agents that access memory (R208, R268, R295). -/
inductive Agent where
  | scalar (core : Nat)
  | xe (core : Nat)
  | pip (core : Nat)
  | fetch (core : Nat)
  | pan (unit : Nat)
  | host
  | hdma (channel : Nat)
  | roce (qp : Nat)
  | rake (stack : Nat)
  | sc (die : Nat)
  | coll (die : Nat)
  | repair
  deriving DecidableEq, Repr

/-- One request waiting at a pseudo-channel (R205, R207): who sent it, its sluice (0–15 a partition, 16 HOST,
17 none: the stack bucket alone, 18 neither), path, direction, granule address and bytes. -/
structure Req where
  agent : Agent
  sluice : Nat
  inStack : Bool
  isWrite : Bool
  dpa : Nat
  size : Nat
  deriving DecidableEq, Repr

/-- Hidden state of one stack: sluice levels in 1/10240 pJ, postponements left, rates and depths in force,
the stack bucket, and per pseudo-channel the waiting requests, owed refreshes and last direction. -/
structure StackSt where
  level : List Int
  deferLeft : List Nat
  rate : List Nat
  depth : List Nat
  bucket : Int
  queue : SMap (List Req)
  owed : SMap Nat
  /-- Owed refreshes that have met no boundary yet (R212, R213: charged once). -/
  fresh : SMap Nat
  /-- When the next refresh of a pseudo-channel falls due (R211); unlisted: at once. -/
  refNext : SMap Nat
  /-- Granules a sluice was granted in the running round of a pseudo-channel's weighted round robin (R219), by
  17 × pseudo-channel + sluice. -/
  grants : SMap Nat
  /-- Direction of the last request of a pseudo-channel: 1 read, 2 write. -/
  lastDir : SMap Nat
  /-- By bank (32 × pseudo-channel + bank): the open row plus one, passes of its open row, time of its last activation. -/
  openRow : SMap Nat
  passed : SMap Nat
  lastAct : SMap Nat
  /-- Activations of a row (32768 × bank + row) in the refresh period actEpoch (R214). -/
  acts : SMap Nat
  /-- The same in the refresh period before actEpoch: no count of one refresh period is lost (R214). -/
  actsOld : SMap Nat
  actEpoch : Nat
  nrrDue : List Nat
  /-- Rake granules forced ahead of each partition's requests in its step (R299). -/
  forced : SMap Nat
  rakeCarry : Nat
  weakRows : SMap Nat
  remap : SMap Nat
  trainTries : Nat
  /-- Entries of the corrected-address table, oldest first (R289). -/
  ceOrder : List Nat
  deriving DecidableEq, Repr

/-- A descriptor register: its 64 bytes and its VALID bit (R71). -/
structure TD where
  valid : Bool
  raw : BitVec 512
  deriving DecidableEq, Repr

/-- The engines with queues (R76). -/
inductive Eng where
  | mxu | ve | xe | pip
  deriving DecidableEq, Repr

/-- An engine instruction in its queue, with what it captured on entry (R78, R132). -/
structure QEntry where
  seq : Nat
  eng : Eng
  word : Nat
  pc : Nat
  vl : Nat
  vrow : Nat
  regs : List Word
  tds : List TD
  item : Option Nat
  deriving DecidableEq, Repr

/-- A store in the store queue (R109), with the address of its instruction. -/
structure StoreEnt where
  pc : Nat
  addr : Nat
  size : Nat
  data : Nat
  deriving DecidableEq, Repr

/-- A finished tile waiting in the finished-tile queue (R80, R81): program order, destination slot, the entry of the
queue's region that holds it, its bytes. -/
structure Tile where
  seq : Nat
  dst : Nat
  entry : Nat
  size : Nat
  deriving DecidableEq, Repr

/-- What the scalar unit does: no block; running one; holding in tick-wait (R68); END retired and engines still at
work (R67); stopped by a fault (R44); halted by debug (R487). -/
inductive RunState where
  | idle | running | tickWait | ended | faulted | halted
  deriving DecidableEq, Repr

/-- One Axver core. Unlisted TRF bytes and accumulator words are zero. -/
structure CoreSt where
  x : List Word
  pc : Nat
  body : Nat
  bodyLen : Nat
  item : Nat
  run : RunState
  vl : Nat
  vrow : Nat
  seed : Word
  td : List TD
  seq : Nat
  queue : List QEntry
  acc0 : SMap Nat
  acc1 : SMap Nat
  ftq : List Tile
  stq : List StoreEnt
  rc : SMap (Line × Bool)
  ibuf : List (Nat × SMap Byte)
  semWait : Option (Nat × Nat)
  trf : SMap Byte
  trfBad : List Nat
  /-- 32-byte words of the TRF with a correctable error (R75). -/
  trfCe : List Nat
  cfg : Nat
  cyc : Nat
  cycStart : Nat
  deriving DecidableEq, Repr

/-- An item of an almanac entry (The almanac). -/
structure AlmItem where
  kind : Nat
  optional : Bool
  expert : Bool
  unit : Nat
  path : Nat
  deps : List Nat
  body : Nat
  cycFix : Nat
  cycTok : Nat
  cycPage : Nat
  eFix : Nat
  eTok : Nat
  ePage : Nat
  bFix : Nat
  bTok : Nat
  bPage : Nat
  alt : Nat
  xover : Nat
  expertId : Nat
  bodyLen : Nat
  deriving DecidableEq, Repr

/-- An almanac entry with its items. -/
structure AlmEntry where
  train : Bool
  serve : Bool
  hasColl : Bool
  next : Nat
  tokMax : Nat
  seqMax : Nat
  items : List AlmItem
  deriving DecidableEq, Repr

/-- An almanac as validated and installed (R58). -/
structure Almanac where
  base : Nat
  refMv : Nat
  entries : List AlmEntry
  deriving DecidableEq, Repr

/-- The causes of an abandonment, coded as STEP_STATE.LAST_CAUSE. -/
inductive Cause where
  | overrun | eveStall | fault | xdieTimeout | groupVote
  deriving DecidableEq, Repr

/-- An abandonment whose engines have still to stop (R42, R43). -/
structure Abandon where
  cause : Cause
  cls : Nat
  unit : Nat
  /-- It stops the partition without a retry (R292). -/
  stop : Bool
  deriving DecidableEq, Repr

/-- A staged output record (R125): ring, core, bytes. -/
structure Staged where
  ring : Nat
  core : Nat
  bytes : List Byte
  deriving DecidableEq, Repr

/-- A stack range in 2 MiB units (R355): stack, first unit, count. -/
structure Range where
  stack : Nat
  first : Nat
  count : Nat
  deriving DecidableEq, Repr

/-- Where a partition's step stands: no step in the open window (before START, or a fault's retry waiting for the next
boundary, R44); the window open with no plan yet; a step running; its tick passed with no engine busy (ready to
commit, R36); an abandonment whose engines are stopping (R42). -/
inductive Phase where
  | idle | opening | active | ready | abandoning
  deriving DecidableEq, Repr

/-- One admitted row of a serving step (R334, R336). -/
structure ServeRow where
  seq : Nat
  prefill : Bool
  final : Bool
  depth : Nat
  ntok : Nat
  deriving DecidableEq, Repr

/-- A swap of one slot scheduled by admission (R339, R341): sequence, geometry, logical page, the slot (stack, pan,
slot number), the pool image, whether it is a restore, whether it has run, and whether it met an error (R342). -/
structure Swap where
  seq : Nat
  geom : Nat
  page : Nat
  stack : Nat
  pch : Nat
  slot : Nat
  image : Nat
  restore : Bool
  ran : Bool
  bad : Bool
  deriving DecidableEq, Repr

/-- The plan of a window (R60): the almanac entry, the items kept, the admitted work, the schedule's finish and last
issue, the planned point, the serving rows, the reservations (sequence, geometry, page index) and the swaps. -/
structure Plan where
  entry : Nat
  /-- The base tick its window opens at, and the RETRY_COUNT it was made for. -/
  opens : Nat
  retry : Nat
  items : List Nat
  tokens : Nat
  seqs : Nat
  pages : Nat
  pagesBy : SMap Nat
  fin : Nat
  opp : Nat
  rows : List ServeRow
  reserved : List (Nat × Nat × Nat)
  swaps : List Swap
  deriving DecidableEq, Repr

/-- A geometry record in force (R303). -/
structure Geom where
  layers : Nat
  fmt : Nat
  kvhLog2 : Nat
  dh : Nat
  ns : Nat
  c0 : Nat
  stks : Nat
  window : Nat
  deriving DecidableEq, Repr

/-- An output ring's directory entry as last read (R330), with the producer index. -/
structure Ring where
  host : Nat
  sizeLog2 : Nat
  vector : Nat
  vecEn : Bool
  en : Bool
  prod : Nat
  deriving DecidableEq, Repr

/-- What a serving partition holds beyond its registers: geometries, rings, the registers an INSTALL captured, the
changes made in the working copy for the step, and the token history of the expert groups (R353). -/
structure ServeSt where
  geoms : List Geom
  rings : List Ring
  tableBase : Nat
  capLog2 : Nat
  stepRec : Nat
  expg : Nat
  ngroup : Nat
  ncount : Nat
  varBase : Nat
  nvar : Nat
  swapPool : List Nat
  swapCap : List Nat
  reloadDir : Bool
  /-- Request entries consumed for the step in progress (R328). -/
  consumed : Nat
  /-- Event records to post at the commit (R332). -/
  events : List (List Nat)
  /-- Sequences a CANCEL of this step ends (R347). -/
  cancelled : List Nat
  /-- Entries that differ between the copies of the sequence table (R323). -/
  dirty : List Nat
  /-- Tokens a group's paths received in the step: group, pan tokens, MXU tokens (R352). -/
  paths : List (Nat × Nat × Nat)
  /-- The same for the last committed step, with that step's tokens (R353). -/
  history : List (Nat × Nat × Nat × Nat)
  /-- Groups whose paths the step has chosen (R352). -/
  chosen : List Nat
  /-- The live entries that the admission of the next window, made during a step, counts on finding after its commit (R337). -/
  foreseen : List (Nat × Nat)
  deriving DecidableEq, Repr

/-- A partition's step, accounting and in-force configuration. -/
structure PartSt where
  alm : Option Almanac
  phase : Phase
  startPend : Bool
  resumePend : Bool
  stopReq : Bool
  quiesceReq : Bool
  /-- Stopped by the device for these poisoned granules (R292, R293). -/
  stoppedFor : List Nat
  /-- To stop at the next step boundary (R292). -/
  stopAtBoundary : Bool
  plan : Option Plan
  nextPlan : Option Plan
  openAt : Nat
  lastTick : Nat
  eve : Bool
  eveStalled : Bool
  retryLate : Bool
  /-- BTICK_NUM at the abandonment that runs (R43), and whether the tick of its step has passed (R45). -/
  abandonTick : Nat
  passed : Bool
  entry : Nat
  issued : List Nat
  done : List Nat
  abandon : Option Abandon
  die1Ready : Bool
  /-- The step that closed last had a collective phase (R39); the base tick its window opened at; the time of its tick. -/
  lastColl : Bool
  openTick : Nat
  tickAt : Nat
  /-- The vote (R427, R428): ranks whose READY the leader holds, the decision, a member in doubt. -/
  heard : List Nat
  decision : Option Bool
  inDoubt : Bool
  askAt : Nat
  staging : List Staged
  semq : SMap (List (Nat × Nat))
  ranges : List Range
  regions : Nat
  shares : List Nat
  acctEvery : Nat
  acctEn : Bool
  stepCfg : Nat
  svCfg : Nat
  svSpec : Nat
  svPlace : Nat
  svReq : Nat
  svReqCfg : Nat
  acc : List Nat
  /-- Energy in nJ counted, with the part below 1 mJ; figures that wait for a commit (tick, nJ, valid); the base ticks that have
  ended since the sub-block was reset and are not included yet, each with the time of its end (R367, R368, R463). -/
  accNJ : Nat
  figs : List (Nat × Nat × Bool)
  owed : List (Nat × Nat)
  accSince : List Nat
  accFirst : Nat
  accCommits : Nat
  accAbandons : Nat
  energyBad : Bool
  serve : ServeSt
  deriving DecidableEq, Repr

/-- A pan batch on its way or running (R157, R230, R231): its issuer and tag, the payload, the words still in the PIP
with their index in the batch, the stacks whose payload is not delivered yet, the granules of payload charged towards each
of them, the stacks that hold its payload blocks, and the target pans (32 × stack + pseudo-channel) that have not reported. `item` is set for a PAN item of the almanac. -/
structure Batch where
  id : Nat
  core : Nat
  part : Nat
  tag : Nat
  pc : Nat
  npay : Nat
  payload : SMap Byte
  words : List (Nat × Nat)
  await : List Nat
  paid : SMap Nat
  held : List Nat
  pans : List Nat
  item : Option Nat
  deriving DecidableEq, Repr

/-- A collective phase handed to a die's engine and not complete (R154, R423): its issuer and descriptor address, and
once started its key (the base tick of the window), operation, descriptors, line, the members whose publication has
come, the pieces that have come from each, whether DST is written, and the members that have finished reading. -/
structure CollPhase where
  die : Nat
  core : Nat
  part : Nat
  tag : Nat
  pc : Nat
  dpa : Nat
  item : Option Nat
  started : Bool
  began : Nat
  key : Nat
  op : Nat
  group : Nat
  redop : Nat
  src : BitVec 512
  dst : BitVec 512
  scratch : Nat
  line : List Nat
  heard : List Nat
  arrived : SMap (SMap Byte)
  got : SMap (List Nat)
  put : Bool
  readBy : List Nat
  deriving DecidableEq, Repr

/-- One write of an engine: address, bytes, data. -/
structure MWrite where
  addr : Nat
  size : Nat
  data : Nat
  deriving DecidableEq, Repr

/-- What a micro-operation of a pan's command does in memory (R254): writes, sealing the granules written whole or leaving all
open; ADD-mode pieces of a format (source, destination, elements, data); granules that SEAL reads and shuts. -/
inductive PanTask where
  | put (sealing : Bool) (ws : List MWrite)
  | add (fmt : Nat) (ps : List (Nat × Nat × Nat × Nat))
  | close (gs : List Nat)
  deriving DecidableEq, Repr

/-- What a pan keeps of the batch it runs (R232, R250, R253, R254): commands done, flags and counts of the SYNC record, clocks in
thousandths with the frequency the pan runs at (R261, R263), and the fault that stopped it. Of the command in hand: its index in
the batch, its micro-operations that have not ended, what those to come do, the banks their reads touch, and the banks the
present one holds and the granules it seals. -/
structure PanRun where
  batch : Nat
  micro : Nat
  cmds : Nat
  flags : Nat
  idxOob : Nat
  skipped : Nat
  sealLost : Nat
  bytes : Nat
  clocks : Nat
  mhz : Nat
  seed : Word
  stopped : Bool
  fault : Option (Nat × Nat × Nat)
  cmd : Nat
  left : List PanTask
  reads : List (List Nat)
  banks : List Nat
  closing : List Nat
  deriving DecidableEq, Repr

/-- A pan: its command queue (batch, index in the batch, word), the batch it runs, its operand buffer by byte, the 32-byte words of
it that hold an uncorrectable error (R226), and its accumulator by FP32 value, unlisted entries zero. -/
structure PanSt where
  queue : List (Nat × Nat × Nat)
  run : Option PanRun
  obuf : SMap Byte
  obufBad : List Nat
  acc : SMap Nat
  deriving DecidableEq, Repr

/-- What a packet on a queue pair carries (R410): by SEND a footprint published, a finished read, an abort, a vote, its
decision, a question about it, a forwarded message, its reply, a forwarded descriptor, its reply, a reset notice; the
RDMA READ of a piece of a member's SRC, or of memory; an RDMA WRITE. -/
inductive Msg where
  | publish (group tag btick rank : Nat) (words : List Nat)
  | finished (group tag btick rank : Nat)
  | abort (group tag btick rank : Nat)
  | vote (group btick : Nat) (ready : Bool)
  | decide (group btick : Nat) (commit : Bool)
  | ask (group btick : Nat)
  | message (src mailbox len sender : Nat) (words : List Nat)
  | reply (src result : Nat)
  | dma (id : Nat) (words : List Nat)
  | dmaReply (id status : Nat)
  | resetNotice (qp : Nat)
  | readPiece (group tag btick rank index : Nat)
  | read (addr len : Nat)
  | write (addr : Nat) (data : List Byte)
  deriving DecidableEq, Repr

/-- What the device sends on its network ports, oldest first: a PTP Sync, an ARP reply, a congestion notice, a packet on a
queue pair with its sequence number, an acknowledgement, a negative acknowledgement, the data of a READ. -/
inductive Sent where
  | sync (port time : Nat)
  | arpReply (port ip : Nat)
  | cnp (qp : Nat)
  | packet (qp psn : Nat) (m : Msg)
  | ack (qp psn : Nat)
  | nak (qp psn code : Nat)
  | readReply (qp psn : Nat) (data : List Byte)
  deriving DecidableEq, Repr

/-- A frame that waits at its sublink (R415), and its payload bytes that have not left. -/
structure TxMsg where
  what : Sent
  left : Nat
  deriving DecidableEq, Repr

/-- The send queues of the sublinks (R415): how much of what was sent they have taken, the frames that wait, those that have left,
with their sublinks, in order for each; picoseconds until a sublink is free; packets of a flow in its round of the weighted
round robin, by 262,144 × sublink + flow; picoseconds until a queue pair may send again. -/
structure TxSt where
  seen : Nat
  queue : List TxMsg
  wire : List (Nat × Sent)
  busy : SMap Nat
  turns : SMap Nat
  pace : SMap Nat
  deriving DecidableEq, Repr

/-- A queue pair (R411, R413, R414), named by 65536 × die + QPN: PSN of the next packet, PSN expected, packets not
acknowledged, retransmissions without progress, ERROR and since when, current and target rate in Mb/s (none: the
sublink's), α, the stage of the rate timer, when it last sent a CNP, when its acknowledgement timer began and when its rate
timer did. -/
structure Qp where
  next : Nat
  expect : Nat
  unacked : List (Nat × Msg)
  tries : Nat
  error : Bool
  errorAt : Nat
  rates : Option (Rat × Rat)
  alpha : Rat
  stage : Nat
  lastCnp : Option Nat
  ackFrom : Nat
  ccFrom : Nat
  deriving DecidableEq, Repr

/-- A source footprint published by a line member before this device started the phase (R423): die, group, tag, window,
rank. -/
structure Pub where
  die : Nat
  group : Nat
  tag : Nat
  btick : Nat
  rank : Nat
  deriving DecidableEq, Repr

/-- A forwarded DMA descriptor that passed its checks here (R431): its name, range, bytes not
moved yet, direction. -/
structure FwdRange where
  id : Nat
  addr : Nat
  len : Nat
  left : Nat
  toStack : Bool
  deriving DecidableEq, Repr

/-- The network beyond its registers: queue pairs, whether the management pairs are established, early publications,
mailboxes whose message awaits its reply (64: a doorbell notice), notices to send again, accepted forwarded ranges. -/
structure NetSt where
  qps : SMap Qp
  mgmt : Bool
  pubs : List Pub
  fwd : List Nat
  notices : List Nat
  ranges : List FwdRange
  lanes : List Nat
  retrain : List Nat
  syncAt : List Nat
  deriving DecidableEq, Repr

/-- A descriptor that a host DMA channel has checked and not completed (R400, R401): its STATUS, bytes moved and still to move, INT,
the device that holds its data, and whether its reply is awaited. -/
structure HdmaJob where
  status : Nat
  moved : Nat
  left : Nat
  int : Bool
  dev : Nat
  awaits : Bool
  words : List Nat
  deriving DecidableEq, Repr

/-- What an access from outside was answered: a register's value, an error response (R28), a line of CXL.mem data,
poisoned data, a completion, a snoop response (R399). -/
inductive Answer where
  | value (v : Nat)
  | error
  | line (v : Nat)
  | poison
  | done
  | rspIHitI
  deriving DecidableEq, Repr

/-- An HDM decoder (R391): committed, Error Not Committed, host base, size, first DPA. -/
structure Hdm where
  on : Bool
  error : Bool
  base : Nat
  size : Nat
  dpa : Nat
  deriving DecidableEq, Repr

/-- A bias command that runs (R397): the next page, the pages left, the bias they take, when the next began. -/
structure BiasRun where
  page : Nat
  left : Nat
  toHost : Bool
  began : Nat
  deriving DecidableEq, Repr

/-- What the configuration space of function 0 holds (R388, R389): the device ID, BAR0's size, the DVSEC for CXL devices (ID 0: the
Capable bits for Cache, IO and Mem, Mem_HwInit_Mode, HDM_Count, CXL Reset Capable, Ranges 1 and 2, Cache Size) and the Register
Locator DVSEC (ID 8: the BIR and offset of the component registers). Memory_Active of Range 1 is LinkSt.active. -/
structure Function0 where
  deviceId : Nat
  bar0 : Nat
  cacheCapable : Bool
  ioCapable : Bool
  memCapable : Bool
  memHwInit : Bool
  hdmCount : Nat
  resetCapable : Bool
  range1 : Nat
  /-- Media_Type volatile, Memory_Class memory, a Desired_Interleave. -/
  range1Volatile : Bool
  range1Memory : Bool
  range1Interleave : Bool
  range2 : Nat
  cacheSize : Nat
  locatorBir : Nat
  locatorOffset : Nat
  deriving DecidableEq, Repr

/-- The host link beyond its registers: Memory_Active, the decoders, the pages in host bias (1 with no host caching
access since, 2 with one), the bias command, the channels' jobs in order. -/
structure LinkSt where
  fn : Function0
  active : Bool
  hdm : List Hdm
  bias : SMap Nat
  run : Option BiasRun
  jobs : List (List HdmaJob)
  deriving DecidableEq, Repr

/-- The module's power (R488, R491–R493, R448): on; entering D1, D2 or Standby (1, 2, 3); there; leaving D1 or D2; rails
removed by an analog trip; +12 V removed. -/
inductive PowerMode where
  | on
  | entering (dest : Nat)
  | asleep (dest : Nat)
  | leaving (back : Nat)
  | tripped
  | dark
  deriving DecidableEq, Repr

/-- A commit stamp (R496). -/
structure Stamp where
  commits : Nat
  gen : Nat
  copy : Nat
  deriving DecidableEq, Repr

/-- A die or warm reset that runs (R495, R501): scope, cause, BTICK_NUM at its start, the partitions it ended, and the
replies it discarded by kind. -/
structure ResetRun where
  scope : Nat
  cause : Nat
  btick : Nat
  ended : Nat
  idl : Nat
  pan : Nat
  csr : Nat
  deriving DecidableEq, Repr

/-- A link with respect to its retraining (R54). -/
inductive LinkPhase where
  | up | training | down
  deriving DecidableEq, Repr

/-- The always-on island: power, WAKE_AT, an exit asked for during entry, commit stamps, resets that run, whether the
inter-die link is being margined (R506). -/
structure ModuleSt where
  power : PowerMode
  wakeAt : Nat
  exitReq : Bool
  stamps : List Stamp
  resets : List ResetRun
  idlTest : Bool
  /-- The inter-die link as its last retraining left it (R54). -/
  idl : LinkPhase
  /-- What is margined in the leap tick that runs (R506): stacks, and 20 + d for the link on die d. -/
  margins : List Nat
  /-- Messages of the device's processors that wait for their mailbox: sender, mailbox, words. -/
  outbox : List (Nat × Nat × List Nat)
  deriving DecidableEq, Repr

/-- A firmware image or a signed record in flash: VERSION, whether it verifies (for a record, with this chip's DEV_ID),
its digest (R476, R477, R480). -/
structure Image where
  version : Nat
  good : Bool
  digest : Nat
  deriving DecidableEq, Repr

/-- An entry of the soft-repair map (R503). -/
structure Repair where
  stack : Nat
  pch : Nat
  bank : Nat
  row : Nat
  spare : Nat
  lane : Bool
  deriving DecidableEq, Repr

/-- Flash: slots A and B of the components (2c, 2c + 1), the records of TYPE 1–6, the bodies the device uses (test voltages
and sensitivities of point 8d + i, repairs, register words of the boot policy, MODE, DEV_NUM and the device table of the
fabric record, certificate words), the bodies of the reckoning log, oldest first, and the hours checkpoint. -/
structure FlashSt where
  slots : List (Option Image)
  records : List (Option Image)
  vtest : List Nat
  sens : List Rat
  repairs : List Repair
  policy : List (Nat × Nat)
  mode : Nat
  devNum : Nat
  table : List Nat
  cert : List Nat
  log : List (List Nat)
  remaps : List Repair
  hours : Nat
  deriving DecidableEq, Repr

/-- A STAGE whose programming runs (R485): tag, component, image. -/
structure StageRun where
  tag : Nat
  comp : Nat
  image : Image
  deriving DecidableEq, Repr

/-- An activation (R486): its component; 0 claimed, 1 draining, 2 drained, 3 restarted and not yet running; when its new
image started. -/
structure UpdRun where
  comp : Nat
  phase : Nat
  began : Nat
  deriving DecidableEq, Repr

/-- The security core beyond its registers: flash, a STAGE, an activation, the device key's DEV_ID, which components are
loaded, and the digests of images and records measured at boot (R493). -/
structure SecSt where
  /-- Whether the last boot reconstructed the identity (R481). -/
  idOk : Bool
  flash : FlashSt
  stage : Option StageRun
  upd : Option UpdRun
  devId : Nat
  loaded : List Bool
  measured : List Nat
  deriving DecidableEq, Repr

/-- A tick as the assay die holds it before its apportionment (R459–R462): number, energy in nJ, duration in ns, clipped,
inlet out of range, a failed self-check, each die's weights, die 0's shares and resident bits, and the energy of a gap right
before it. -/
structure AsyTick where
  t : Nat
  nj : Nat
  dur : Nat
  range : Bool
  tempOut : Bool
  fault : Bool
  w0 : Option (List Nat)
  w1 : Option (List Nat)
  share : List Nat
  resident : List Bool
  gap : Option Nat
  deriving DecidableEq, Repr

/-- The record being filled (R465): first tick, the tick entries, the accounts' sums (energy, share part, weights, resident
ticks), invalid ticks, gap energy before it, whether a gap, an inlet out of range or a seal event fell in it, and whether
it covers part of its span. -/
structure AsyRec where
  first : Nat
  last : Nat
  entries : List (List Nat)
  accts : List (Nat × Nat × Nat × Nat)
  invalid : Nat
  gapNJ : Nat
  gap : Bool
  tempOut : Bool
  moved : Bool
  partial_ : Bool
  deriving DecidableEq, Repr

/-- The host rings of R467: addresses in 4 KiB units, sizes, producer indices. -/
structure AsyRings where
  recAt : Nat
  recLog2 : Nat
  recProd : Nat
  tickAt : Nat
  tickLog2 : Nat
  tickProd : Nat
  deriving DecidableEq, Repr

/-- A seal event whose entry is not programmed (R468, R470): event, digest, the new FW_VER, or CAL_ID, IDLE_MW and
RECORD_TICKS. -/
structure SealEvent where
  event : Nat
  digest : Nat
  ver : Nat
  idle : Nat
  ticks : Nat
  deriving DecidableEq, Repr

/-- The assay die (R458–R473): running; the tick it integrates; closed ticks not apportioned; in a gap, and gap energy not yet
given to a tick; the record being filled; its SEQ and chain digests; SEAL_COUNT of the last record; nJ below the lifetime total's
mJ; records and entries not delivered; the rings; entries dropped since the last record; figures not returned; a pending
seal event; its debug chain out of bypass; calibration verified; the TICK_COUNT of the last mark, 0 before the first; the time between the last two;
standby power lost; firmware version, calibration, idle line, RECORD_TICKS; the event counter and the seal log's bodies. -/
structure AsySt where
  on : Bool
  cur : Option Nat
  ticks : List AsyTick
  gap : Bool
  gapNJ : Option Nat
  filling : Option AsyRec
  fresh : Bool
  seq : Nat
  prevRec : List Byte
  lastSeal : Nat
  njLeft : Nat
  recQ : List (List Byte)
  tickQ : List (List Byte)
  rings : Option AsyRings
  dropped : Nat
  figs : List (Nat × List Nat × Bool)
  sealing : Option SealEvent
  attached : Bool
  calOk : Bool
  markAt : Nat
  period : Nat
  lost : Bool
  fwVer : Nat
  calId : Nat
  idle : Nat
  recTicks : Nat
  count : Nat
  slog : List (List Byte)
  deriving DecidableEq, Repr

/-- A reckoning in its leap tick (R452): what asked for it (1 hours, 2 drift, 3 request), the slacks measured (8d + i), and
the base tick it began in. -/
structure Reckon where
  trigger : Nat
  slack : SMap Int
  began : Nat
  deriving DecidableEq, Repr

/-- Ageing beyond its registers: each pair's drift in the last 16 rounds, newest first, none where a channel was invalid; each
pair's base; nanoseconds below the whole hours; the trigger of a claim; the reckoning that runs; log entries not yet written,
oldest first; rows remapped that no entry holds yet; dies worn. -/
structure AgeSt where
  hist : SMap (List (Option Int))
  base : SMap Int
  ns : Nat
  trigger : Nat
  run : Option Reckon
  deferred : List (List Nat)
  unlogged : List Repair
  worn : List Nat
  deriving DecidableEq, Repr

/-- Time and the leap tick beyond their registers: the base tick boundary last reached by counting (its number plus
one, 0 for none in force) and its TICK_COUNT; a period or a step of TICK_COUNT that waits for a leap tick (R31, R32);
an offset being slewed, in nanoseconds, with its fraction in millionths; whether the leap tick carries a device claim
(R51), the work it is for, and how long it has run (R52); consecutive good syncs and when holdover began (R56). -/
structure TickSt where
  bound : Nat
  boundAt : Nat
  pendPeriod : Option Nat
  pendStep : Option Int
  slew : Int
  slewFrac : Nat
  claimed : Bool
  work : List Nat
  leapNs : Nat
  goodSyncs : Nat
  lostAt : Option Nat
  deriving DecidableEq, Repr

/-- What a die's power manager publishes for one base tick (R437): the operating point, the SL_SCALE of the die's ten
stacks and B(t) in watts. -/
structure PlanTick where
  opp : Nat
  scales : List Nat
  b : Nat
  deriving DecidableEq, Repr

/-- A die's power manager beyond its registers (R436, R437, R441–R444): the plan; the request of a throttle, the point
that its grace waits for and whether it was reached; cool rounds; an emergency to end at the next boundary; a higher
point whose voltage is ramping; the SL_SCALE planned for each stack; emergency scales (0 none, 1 held, k + 2 until base
tick k); sensors or voltage table unusable. -/
structure DiePower where
  plan : SMap PlanTick
  reqAt : Option Nat
  mark : Nat
  reached : Bool
  cool : Nat
  release : Bool
  ramp : Option Nat
  scale : List Nat
  emScale : List Nat
  sensorBad : Bool
  vtBad : Bool
  deriving DecidableEq, Repr

/-- The power managers: per die, the energies in mW of the last base ticks (newest first) and the round number. -/
structure PowerSt where
  dies : List DiePower
  meas : List Nat
  /-- The assay die's energy for the base tick that closed last, in nJ, not yet taken. -/
  energy : Option Nat
  round : Nat
  /-- When the last round was made; whether the input power was above FAST_W at its last check (R442). -/
  roundAt : Nat
  fast : Bool
  deriving DecidableEq, Repr

end Sys2Proof.Machine
end

