-- ==== Sys2Proof/Machine/State.lean ====
section
/-!
DEFINITION. The block's state, its faults and refusals, and the state after reset.
-/
namespace Sys2Proof.Machine

/-- The reasons a step can stop with a fault. No meaning raises one: a core fault of R90 is state (FAULT_REC and the
abandonment of R44), and a command whose condition does not hold does not occur. Safe. -/
inductive Fault where
  /-- Raised by no meaning; it stands for a broken model only. Safe. -/
  | none
  deriving DecidableEq, Repr

/-- The reasons a command can be refused. -/
inductive Refusal where
  /-- Raised by the dispatch for a command that has no meaning yet. Safe. -/
  | notModelled (mnemonic : String)
  deriving DecidableEq, Repr

/-- The whole block. -/
structure State where
  /-- Commands waiting, first in, first out. -/
  pending : List Instr
  /-- Every register of the CSR window, as its difference (exclusive or) from its reset word, by window offset;
  an unlisted offset holds its reset word. -/
  csr : SMap Word
  /-- Bytes of the stacks and shared buffers by DPA; an unlisted byte is zero. -/
  mem : SMap Byte
  /-- Metadata of the granules by DPA / 4096; an unlisted granule is unwritten. -/
  gran : SMap Gran
  /-- Stored bits that disagree with their ECC, by line number. -/
  ecc : SMap Line
  /-- Flipped copies of a line's valid bit (R282, R296), by line number. -/
  metaFlip : SMap (BitVec 3)
  /-- What a data flip before ECC encoding (R296) has changed in a line since each byte of it was written. -/
  flipped : SMap Line
  /-- Granules whose stored checksum lies in an uncorrectable checksum array line (R285), with whether the record
  of that line has been posted. -/
  csumBad : SMap Bool
  cores : List CoreSt
  stks : List StackSt
  parts : List PartSt
  /-- Pans that are not idle and empty, by number. -/
  pans : SMap PanSt
  /-- Pan batches not complete, in the order their PIPs took them. -/
  batches : List Batch
  batchSeq : Nat
  /-- Granules that a pan's SEAL has begun to read and that no write has reached since (R248): pan and granule. -/
  sealing : List (Nat × Nat)
  /-- Collective phases not complete, in hand-off order. -/
  colls : List CollPhase
  /-- Host memory as the device sees it, by the device's writes and the host's own; an unlisted byte is zero. -/
  host : SMap Byte
  /-- Whether each compute die is out of reset and powered. -/
  dieUp : List Bool
  /-- MSI-X signals held by each masked vector (R404), and messages sent on each vector. -/
  msixHeld : SMap Nat
  msixSent : SMap Nat
  /-- Entries of ERR_POISON whose mirror repair may start (R293). -/
  repairDue : List Nat
  /-- What the network ports have been given to send, oldest first. -/
  sent : List Sent
  tx : TxSt
  tick : TickSt
  power : PowerSt
  /-- The answer to the last access from outside that has one. -/
  answer : Option Answer
  /-- Delivered mailboxes not yet taken, in order of delivery. -/
  delivered : List Nat
  net : NetSt
  link : LinkSt
  mod : ModuleSt
  sec : SecSt
  asy : AsySt
  age : AgeSt
  /-- Free values taken so far. The model's own field: no statement rests on it. -/
  free : Nat
  deriving DecidableEq, Repr

/-- A granule that no write has reached since the bulk clear (R287). -/
def Gran.empty : Gran := ⟨0, 0, .unwritten, 0⟩

/-- A core right after reset. -/
def CoreSt.reset : CoreSt :=
  { x := List.replicate 32 0, pc := 0, body := 0, bodyLen := 0, item := 0, run := .idle, vl := 0, vrow := 512, seed := 0
    td := List.replicate 32 ⟨false, 0⟩, seq := 0, queue := [], acc0 := [], acc1 := [], ftq := [], stq := [], rc := []
    ibuf := [], semWait := none, trf := [], trfBad := [], trfCe := [], cfg := Reg.CORE_CFG.word0, cyc := 0, cycStart := 0 }

/-- A stack right after reset: full sluices and bucket (R217, R218). -/
def StackSt.reset : StackSt :=
  { level := List.replicate 17 (16 * 1000000 * 10240), deferLeft := List.replicate 17 0xFFFF
    rate := List.replicate 16 0 ++ [32], depth := List.replicate 17 16, bucket := 16 * 1000000 * 10240, queue := []
    owed := [], fresh := [], refNext := [], grants := [], lastDir := [], openRow := [], passed := [], lastAct := [], acts := [], actsOld := []
    actEpoch := 0, nrrDue := []
    forced := [], rakeCarry := 0, weakRows := [], remap := [], trainTries := 0, ceOrder := [] }

/-- Serving state with nothing installed. -/
def ServeSt.reset : ServeSt :=
  { geoms := [], rings := [], tableBase := 0, capLog2 := 6, stepRec := 0, expg := 0, ngroup := 0, ncount := 0
    varBase := 0, nvar := 0, swapPool := [], swapCap := [], reloadDir := false, consumed := 0, events := []
    cancelled := [], dirty := [], paths := [], history := [], chosen := [], foreseen := [] }

/-- A partition right after reset. -/
def PartSt.reset : PartSt :=
  { alm := none, phase := .idle, startPend := false, resumePend := false, stopReq := false, quiesceReq := false
    stoppedFor := [], stopAtBoundary := false, plan := none, nextPlan := none, openAt := 0, lastTick := 0
    eve := false, eveStalled := false, retryLate := false, abandonTick := 0, passed := false, entry := 0, issued := [], done := [], abandon := none
    die1Ready := false, lastColl := false, openTick := 0, tickAt := 0, heard := [], decision := none, inDoubt := false, askAt := 0
    staging := [], semq := [], ranges := [], regions := 0
    shares := [100, 100, 100, 100, 100], acctEvery := 1, acctEn := false, stepCfg := Reg.STEP_CFG.word0, svCfg := Reg.SV_CFG.word0
    svSpec := Reg.SV_SPEC.word0, svPlace := Reg.SV_PLACE.word0, svReq := Reg.SV_REQ.word0, svReqCfg := Reg.SV_REQCFG.word0
    acc := List.replicate 12 0, accNJ := 0, figs := [], owed := [], accSince := List.replicate 12 0, accFirst := 0
    accCommits := 0, accAbandons := 0, energyBad := false, serve := .reset }

/-- A pan with nothing to do. -/
def PanSt.reset : PanSt := { queue := [], run := none, obuf := [], obufBad := [], acc := [] }

/-- Time right after reset. -/
def TickSt.reset : TickSt :=
  { bound := 0, boundAt := 0, pendPeriod := none, pendStep := none, slew := 0, slewFrac := 0, claimed := false, work := []
    leapNs := 0, goodSyncs := 0, lostAt := none }

/-- A power manager right after reset: nothing published, full scales. -/
def DiePower.reset : DiePower :=
  { plan := [], reqAt := none, mark := 7, reached := true, cool := 0, release := false, ramp := none
    scale := List.replicate 10 256, emScale := List.replicate 10 0, sensorBad := false, vtBad := false }

/-- The power managers right after reset. -/
def PowerSt.reset : PowerSt := { dies := [.reset, .reset], meas := [], energy := none, round := 0, roundAt := 0, fast := false }

/-- A queue pair as established (R411, R414). -/
def Qp.reset : Qp :=
  { next := 0, expect := 0, unacked := [], tries := 0, error := false, errorAt := 0, rates := none, alpha := 1, stage := 0
    lastCnp := none, ackFrom := 0, ccFrom := 0 }

/-- The network right after reset: no queue pair established. -/
def NetSt.reset : NetSt := { qps := [], mgmt := false, pubs := [], fwd := [], notices := [], ranges := [], lanes := List.replicate 4 0, retrain := [], syncAt := List.replicate 4 0 }

/-- The send queues right after reset. -/
def TxSt.reset : TxSt := { seen := 0, queue := [], wire := [], busy := [], turns := [], pace := [] }

/-- The configuration space of function 0 (R388, R389), which nothing changes. -/
def Function0.fixed : Function0 :=
  { deviceId := 0x9620, bar0 := 0x10000000, cacheCapable := true, ioCapable := true, memCapable := true, memHwInit := false
    hdmCount := 1, resetCapable := true, range1 := 1920 * 2 ^ 30, range1Volatile := true, range1Memory := true
    range1Interleave := false, range2 := 0, cacheSize := 0, locatorBir := 0, locatorOffset := 0xB20000 }

/-- The host link right after reset: memory not active, no decoder committed, every page in device bias (R390, R398). -/
def LinkSt.reset : LinkSt :=
  { fn := .fixed, active := false, hdm := List.replicate 4 ⟨false, false, 0, 0, 0⟩, bias := [], run := none, jobs := List.replicate 4 [] }

/-- The always-on island right after reset. -/
def ModuleSt.reset : ModuleSt :=
  { power := .on, wakeAt := 0, exitReq := false, stamps := List.replicate 16 ⟨0, 0, 0⟩, resets := [], idlTest := false, idl := .up, margins := [], outbox := [] }

/-- Flash as the model assumes it: an image that verifies in slot A of every component, verified records of TYPE 1, 2 and 4
with the values of the register tables, no others, an empty reckoning log. -/
def FlashSt.reset : FlashSt :=
  { slots := (List.replicate 6 [some ⟨0, true, 0⟩, none]).flatten
    records := [some ⟨0, true, 0⟩, some ⟨0, true, 0⟩, none, some ⟨0, true, 0⟩, none, none]
    vtest := (List.replicate 2 [570, 600, 630, 660, 700, 740, 800, 850]).flatten, sens := List.replicate 16 1
    repairs := [], policy := [], mode := 0, devNum := 0, table := [], cert := [], log := [], remaps := [], hours := 0 }

/-- The security core right after reset. -/
def SecSt.reset : SecSt := { idOk := true, flash := .reset, stage := none, upd := none, devId := 0, loaded := List.replicate 6 true, measured := List.replicate 12 0 }

/-- The assay die right after reset: running, no mark received, the shipped metrology configuration (R461, R465). -/
def AsySt.reset : AsySt :=
  { on := true, cur := none, ticks := [], gap := false, gapNJ := none, filling := none, fresh := true, seq := 0
    prevRec := List.replicate 32 0, lastSeal := 0, njLeft := 0, recQ := [], tickQ := []
    rings := none, dropped := 0, figs := [], sealing := none, attached := false, calOk := true, markAt := 0, period := 0
    lost := false, fwVer := 0, calId := 0, idle := 118000, recTicks := 2000, count := 0, slog := [] }

/-- Ageing right after reset. -/
def AgeSt.reset : AgeSt := { hist := [], base := [], ns := 0, trigger := 0, run := none, deferred := [], unlogged := [], worn := [] }

/-- The block right after reset: every register at its reset value, empty queues, empty memory. -/
def State.reset : State :=
  { pending := [], csr := [], mem := [], gran := [], ecc := [], metaFlip := [], flipped := [], csumBad := []
    cores := List.replicate 12 .reset, stks := List.replicate 20 .reset, parts := List.replicate 16 .reset
    pans := [], batches := [], batchSeq := 0, sealing := [], colls := []
    host := [], dieUp := [true, true], msixHeld := [], msixSent := [], repairDue := []
    sent := [], tx := .reset, tick := .reset, power := .reset, answer := none, delivered := [], net := .reset, link := .reset, mod := .reset, sec := .reset
    asy := .reset, age := .reset, free := 0 }

end Sys2Proof.Machine
end

