-- ==== Sys2Proof/Machine/Csr.lean ====
section
/-!
DEFINITION. Reading and setting registers and their fields, by name and by window offset. Every access to a register
of the CSR window goes through these.
-/
namespace Sys2Proof.Machine

/-- The offset of instance (i, j) of a register. -/
def Reg.off (r : Reg) (i j : Nat) : Nat :=
  match r.dims with
  | [] => r.base
  | [(_, a)] => r.base + i * a
  | (_, a) :: (_, b) :: _ => r.base + i * a + j * b

/-- Reset words of MB_CFG (R385): receiver, doorbell bit, source partition and its enable. -/
def mbCfgReset (m : Nat) : Nat :=
  let w := fun (rcv db srcP srcEn : Nat) => rcv + db <<< 8 + srcP <<< 16 + srcEn <<< 20
  if m < 16 then w (1 + m) 0 0 0
  else if m < 32 then w 0 m (m - 16) 1
  else if m < 34 then w (17 + (m - 32)) 0 0 0
  else if m < 36 then w 0 (7 + (m - 34)) 0 0
  else if m < 38 then w (19 + (m - 36)) 0 0 0
  else if m < 40 then w 0 (9 + (m - 38)) 0 0
  else if m = 40 then w 21 0 0 0
  else if m = 41 then w 0 11 0 0
  else if m < 48 then w 0 13 0 0
  else if m < 56 then w 22 0 0 0
  else w 0 12 0 0

/-- The voltage-table record assumed for an operating point (R434): the table's frequency, and a test voltage 50 mV
below its typical voltage. -/
def vtReset (i : Nat) : Nat :=
  let f := nth 600 [600, 665, 730, 790, 855, 920, 985, 1050] i
  let v := nth 600 [570, 600, 630, 660, 700, 740, 800, 850] i
  f + ((v + 50) <<< 16) + (v <<< 32)

/-- The reset word of an instance of a register. -/
def Reg.resetWord (r : Reg) (i j : Nat) : Nat :=
  if r.base = Reg.SL_CFG.base && j == 16 then r.word0 + 32
  else if r.base = Reg.MB_CFG.base then mbCfgReset i
  else if r.base = Reg.PWR_VT.base then vtReset j
  else r.word0

/-- The 64-bit content of a register. -/
def State.word (s : State) (r : Reg) (i j : Nat) : Nat :=
  (smGet 0#64 s.csr (r.off i j) ^^^ BitVec.ofNat 64 (r.resetWord i j)).toNat

/-- The state with a register's content set. -/
def State.setWord (s : State) (r : Reg) (i j w : Nat) : State :=
  { s with csr := smPut 0#64 s.csr (r.off i j) (BitVec.ofNat 64 w ^^^ BitVec.ofNat 64 (r.resetWord i j)) }

/-- A field of a register. -/
def State.get (s : State) (f : Fld) (i : Nat := 0) (j : Nat := 0) : Nat := bits (s.word f.reg i j) f.hi f.lo

/-- A one-bit field, as a truth value. -/
def State.is (s : State) (f : Fld) (i : Nat := 0) (j : Nat := 0) : Bool := s.get f i j != 0

/-- The state with a field set to the low bits of a number. -/
def State.set (s : State) (f : Fld) (v : Nat) (i : Nat := 0) (j : Nat := 0) : State :=
  s.setWord f.reg i j (setBits (s.word f.reg i j) f.hi f.lo v)

/-- The state with a field raised, held at its maximum (the saturating counters). -/
def State.bump (s : State) (f : Fld) (n : Nat) (i : Nat := 0) (j : Nat := 0) : State :=
  s.set f (satAdd (2 ^ (f.hi + 1 - f.lo) - 1) (s.get f i j) n) i j

/-- The state with a counter raised that is not said to saturate: past its width its value is free. -/
def State.count (s : State) (f : Fld) (n : Nat) (i : Nat := 0) (j : Nat := 0) : State :=
  let x := s.get f i j + n
  s.set f (if x < 2 ^ (f.hi + 1 - f.lo) then x else Config.counterPast (f.reg.off i j) x) i j

/-- Which instance of a register lies at an offset. -/
def Reg.instAt (r : Reg) (o : Nat) : Option (Nat × Nat) :=
  match r.dims with
  | [] => if o = r.base then some (0, 0) else none
  | [(n, a)] =>
    if o < r.base then none
    else
      let i := (o - r.base) / a
      if i < n && r.base + i * a == o then some (i, 0) else none
  | (n, a) :: (m, b) :: _ =>
    if o < r.base then none
    else
      let i := (o - r.base) / a
      let j := (o - r.base - i * a) / b
      if i < n && j < m && r.base + i * a + j * b == o then some (i, j) else none

/-- The first register of a table with an instance at an offset. -/
def regAtIn : List Reg → Nat → Option (Reg × Nat × Nat)
  | [], _ => none
  | r :: rs, o =>
    match r.instAt o with
    | some (i, j) => some (r, i, j)
    | none => regAtIn rs o

/-- The register at a window offset, with its instance (R26: none where a chapter defines none). -/
def regAt (o : Nat) : Option (Reg × Nat × Nat) := regAtIn regTable o

/-- The die an instance of a register is homed on. -/
def Reg.homeDie (r : Reg) (i : Nat) : Nat :=
  match r.home with
  | .die0 => 0
  | .stack => if i < 10 then 0 else 1
  | .core => if i < 6 then 0 else 1
  | .die => i
  | .port => if i < 2 then 0 else 1

/-- Whether the lock bit of a register's RWL fields is set (R5). -/
def State.locked (s : State) (r : Reg) (i : Nat) : Bool :=
  match r.lock with
  | none => false
  | some (o, st, b) =>
    match regAt (o + i * st) with
    | some (l, li, lj) => bit (s.word l li lj) b
    | none => false

/-- Bits a 64-bit mask selects from one word, the others from another. -/
def mergeMask (mask new old : Nat) : Nat := (new &&& mask) ||| (old &&& (2 ^ 64 - 1 - mask))

/-- One field of a register after a write of word w under a byte mask, by its access code alone (R5). -/
def fieldWrite (locked : Bool) (f : Field) (old w mask : Nat) : Nat :=
  let o := bits old f.hi f.lo
  let n := bits (mergeMask mask w old) f.hi f.lo
  let one := bits (w &&& mask) f.hi f.lo
  match f.access with
  | .rw => setBits old f.hi f.lo n
  | .rwl => if locked then old else setBits old f.hi f.lo n
  | .w1c => setBits old f.hi f.lo (o &&& (2 ^ 64 - 1 - one))
  | .w1s => setBits old f.hi f.lo (o ||| one)
  | .ro | .wo | .rc => old

/-- A register's word after a write, by the access codes of its fields (R4, R5). -/
def plainWriteWord (locked : Bool) (r : Reg) (old w mask : Nat) : Nat :=
  r.fields.foldl (fun a f => fieldWrite locked f a w mask) old

/-- Every bit of a word. -/
def fullMask : Nat := 2 ^ 64 - 1

/-- A register written under a byte mask by the access codes of its fields alone (R4, R5). -/
def State.plainWrite (s : State) (r : Reg) (i j w mask : Nat) : State :=
  s.setWord r i j (plainWriteWord (s.locked r i) r (s.word r i j) w mask)

/-- A register's word as a read returns it: reserved and write-only fields read as zero (R4, R5). -/
def readableWord (r : Reg) (v : Nat) : Nat :=
  r.fields.foldl (fun a f => if f.access = .wo then a else a + (bits v f.hi f.lo) <<< f.lo) 0

/-- A register's word after a read: its RC fields clear (R5). -/
def clearedWord (r : Reg) (v mask : Nat) : Nat :=
  r.fields.foldl (fun a f => if f.access = .rc then setBits a f.hi f.lo (bits v f.hi f.lo &&& (2 ^ 64 - 1 - bits mask f.hi f.lo)) else a) v

/-- The bits an event leaves in place: the fields whose Kept across entry lists it (R9, R10). -/
def keptMask (keep : Field → Bool) (r : Reg) : Nat :=
  r.fields.foldl (fun a f => if keep f then a ||| ((2 ^ (f.hi + 1 - f.lo) - 1) <<< f.lo) else a) 0

/-- One register entry after an event: what is not kept returns to its reset value. -/
def resetEntry (keep : Reg → Nat → Nat → Field → Bool) (e : Nat × Word) : Option (Nat × Word) :=
  match regAt e.1 with
  | none => none
  | some (r, i, j) =>
    let v := e.2 &&& BitVec.ofNat 64 (keptMask (keep r i j) r)
    if v = 0#64 then none else some (e.1, v)

/-- The registers after an event. -/
def State.resetCsrs (s : State) (keep : Reg → Nat → Nat → Field → Bool) : State :=
  { s with csr := s.csr.filterMap (resetEntry keep) }

end Sys2Proof.Machine
end

