-- ==== Sys2Proof/Machine/Ops.lean ====
section
/-!
DEFINITION. Operations that many commands share: cores, partitions and stacks by number, free values, doorbells and
MSI-X messages, error records, core faults and the abandonment they begin, and bytes of host memory.
-/
namespace Sys2Proof.Machine

/-- What every meaning answers: the next state. -/
def ok (s : State) : Host.Outcome State Fault Refusal := .next s

/-- A command whose condition does not hold does not occur: the state stands. -/
def occurs (c : Bool) (s t : State) : Host.Outcome State Fault Refusal := .next (if c then t else s)

/-- Core c. -/
def State.core (s : State) (c : Nat) : CoreSt := nth .reset s.cores c
/-- Core c replaced. -/
def State.setCore (s : State) (c : Nat) (k : CoreSt) : State := { s with cores := setNth s.cores c k }
/-- Partition p's step. -/
def State.part (s : State) (p : Nat) : PartSt := nth .reset s.parts p
/-- Partition p's step replaced. -/
def State.setPart (s : State) (p : Nat) (k : PartSt) : State := { s with parts := setNth s.parts p k }
/-- Stack t. -/
def State.stack (s : State) (t : Nat) : StackSt := nth .reset s.stks t
/-- Stack t replaced. -/
def State.setStack (s : State) (t : Nat) (k : StackSt) : State := { s with stks := setNth s.stks t k }

/-- A free value below n (n positive). -/
def State.freeBelow (s : State) (n : Nat) : Nat × State :=
  (if n = 0 then 0 else Config.freeNat s.free % n, { s with free := s.free + 1 })

/-- A free choice. -/
def State.freeChoice (s : State) : Bool × State := (Config.freeBit s.free, { s with free := s.free + 1 })

/-- The die of a stack (R14). -/
def dieOfStack (t : Nat) : Nat := if t < 10 then 0 else 1
/-- The die of a core (R12). -/
def dieOfCore (c : Nat) : Nat := if c < 6 then 0 else 1

/-- The die of a batch's issuer: its core's, or die 0 for an item, whose step controller issues it (R13, R260). -/
def Batch.die (b : Batch) : Nat := if b.item.isSome then 0 else dieOfCore b.core
/-- Whether the module's power state keeps the dies clocked (R488, R491, R448). -/
def PowerMode.clocked : PowerMode → Bool
  | .on | .entering _ => true
  | _ => false

/-- Whether a die's clocks run (R498): out of reset, powered, not in thermal hold (R446). -/
def State.runs (s : State) (d : Nat) : Bool := nth false s.dieUp d && s.mod.power.clocked && !s.is Fld.THERM_STAT.HOLD

/-- Whether a die is up (R498): it runs and, for die 1, its link is neither margined (R506) nor retraining nor left down by a
retraining (R54). -/
def State.isUp (s : State) (d : Nat) : Bool := s.runs d && !(d == 1 && (s.mod.idlTest || s.mod.idl != .up))

/-- Whether a component has drained and restarts, its new image not yet running (R486). -/
def State.compDown (s : State) (c : Nat) : Bool :=
  match s.sec.upd with
  | some u => u.comp == c && u.phase == 3
  | none => false

/-- Whether a die answers accesses: it is up, and its step controller or power manager is not restarting with a new image, which
is what a die in update is (R28, R392, R412, R498). -/
def State.serves (s : State) (d : Nat) : Bool := s.isUp d && !s.compDown (1 + d) && !s.compDown (3 + d)

/-- The partition a core belongs to (CORE_STATUS). -/
def State.partOf (s : State) (c : Nat) : Option Nat :=
  if s.is Fld.CORE_STATUS.ASSIGNED c then some (s.get Fld.CORE_STATUS.PART c) else none

/-- The cores of a partition, ascending. -/
def State.coresOf (s : State) (p : Nat) : List Nat := setBitsOf (s.get Fld.PT_CORES.CORES p) 12

/-- Whether a partition has cores on a die. -/
def State.hasDie (s : State) (p d : Nat) : Bool := (s.coresOf p).any (fun c => dieOfCore c == d)

/-- Partition states of STEP_STATE.STATE. -/
def stIdle : Nat := 0
def stRunning : Nat := 1
def stStopping : Nat := 2
def stStopped : Nat := 3
def stQuiesced : Nat := 4
def stHeld : Nat := 5

/-- STEP_STATE.STATE of a partition. -/
def State.pstate (s : State) (p : Nat) : Nat := s.get Fld.STEP_STATE.STATE p

/-- Whether no partition is RUNNING or STOPPING (R31, R32). -/
def State.noneRunning (s : State) : Bool :=
  (upFrom 0 16).all (fun p => s.pstate p != stRunning && s.pstate p != stStopping)

/-- Step length of a partition in base ticks (R33). -/
def State.stepLen (s : State) (p : Nat) : Nat := s.get Fld.STEP_CFG.LEN_M1 p + 1

/-- The largest LEN among RUNNING partitions, or 1 when none is (R50). -/
def State.lmax (s : State) : Nat :=
  Nat.max 1 (maxList (((upFrom 0 16).filter (fun p => s.pstate p == stRunning)).map s.stepLen))

/-- Base tick number. -/
def State.btick (s : State) : Nat := s.get Fld.BTICK_NUM.NUM
/-- Period in nanoseconds. -/
def State.periodNs (s : State) : Nat := s.get Fld.TICK_PERIOD.PERIOD_US * 1000
/-- TICK_COUNT. -/
def State.now (s : State) : Nat := s.get Fld.TICK_COUNT.COUNT

/-- An MSI-X signal on a vector: a message, or a pending bit while the vector is masked (R404). -/
def State.msix (s : State) (vec : Nat) : State :=
  if s.is Fld.MSIX_CTRL.MASK vec then
    let s := { s with msixHeld := smPut 0 s.msixHeld vec (smGet 0 s.msixHeld vec + 1) }
    s.set Fld.MSIX_PBA.PENDING (s.get Fld.MSIX_PBA.PENDING ||| 2 ^ vec)
  else { s with msixSent := smPut 0 s.msixSent vec (smGet 0 s.msixSent vec + 1) }

/-- DB_CFG.SUM follows the pending and mask bits of a set (R379). -/
def State.dbSum (s : State) (r : Nat) : State :=
  let live := s.get Fld.DB_PEND.PEND r &&& (0xFFFFFFFF - s.get Fld.DB_MASK.MASK r)
  s.set Fld.DB_CFG.SUM (b2n (live != 0)) r

/-- The vector of host doorbell bit b (R380). -/
def State.dbVec (s : State) (b : Nat) : Nat :=
  let cfg := s.word Reg.DB_CFG 0 0
  bits cfg (8 * (b / 8) + 5) (8 * (b / 8))

/-- Something sent on the network. -/
def State.send (s : State) (m : Sent) : State := { s with sent := s.sent ++ [m] }

/-- A queue pair's state. -/
def State.qp (s : State) (q : Nat) : Qp := smGet .reset s.net.qps q

/-- A queue pair replaced. -/
def State.setQp (s : State) (q : Nat) (x : Qp) : State := { s with net := { s.net with qps := smPut .reset s.net.qps q x } }

/-- The management queue pair to device d (R411). -/
def mgmtQp (d : Nat) : Nat := 0x100 + d

/-- A packet sent on a queue pair under its next PSN, kept until it is acknowledged (R413); nothing in ERROR. Where nothing
waited for an acknowledgement, the timer begins. -/
def State.sendOn (s : State) (q : Nat) (m : Msg) : State :=
  let x := s.qp q
  if x.error then s
  else
    (s.setQp q { x with
      next := (x.next + 1) % 2 ^ 24, unacked := x.unacked ++ [(x.next, m)]
      ackFrom := if x.unacked.isEmpty then s.now else x.ackFrom }).send (.packet q x.next m)

/-- A message to device d on the management queue pair, once the pairs are established (R411). -/
def State.sendDev (s : State) (d : Nat) (m : Msg) : State := if s.net.mgmt then s.sendOn (mgmtQp d) m else s

/-- The device of rank r of group g (GRP_MAP). -/
def State.memberDev (s : State) (g r : Nat) : Nat := bits (s.word Reg.GRP_MAP g (r / 8)) (8 * (r % 8) + 7) (8 * (r % 8))

/-- The ranks of group g other than this device's. -/
def State.peersOf (s : State) (g : Nat) : List Nat :=
  (upFrom 0 (s.get Fld.GRP_CFG.MEMBERS g)).filter (fun r => r != s.get Fld.GRP_CFG.RANK g)

/-- A message to every other member of group g. -/
def State.sendGroup (s : State) (g : Nat) (m : Msg) : State :=
  (s.peersOf g).foldl (fun s r => s.sendDev (s.memberDev g r) m) s

/-- ETH_DEV.MODE values (R418). -/
def mdStandalone : Nat := 0
def mdGateway : Nat := 1
def mdTethered : Nat := 2

/-- The gateway's mailbox for what this tethered device forwards (R429). -/
def State.homeBox (s : State) : Nat := 56 + s.get Fld.ETH_DEV.DEV_NUM % 8

/-- A doorbell notice of a tethered device (R429): command 0x0001 with DB_PEND. -/
def State.doorNotice (s : State) (pend : Nat) : State :=
  ({ s with net := { s.net with fwd := setInsert s.net.fwd 64 } } : State).sendDev 0
    (.message 64 s.homeBox 8 0 [1, pend, 0, 0, 0, 0, 0, 0])

/-- Signals of host doorbell bits (R380, R404), forwarded by a tethered device (R429). -/
def State.dbSignal (s : State) (r sig : Nat) : State :=
  if r = 0 && s.get Fld.ETH_DEV.MODE == mdTethered then
    (setBitsOf sig 32).foldl (fun s _ => s.doorNotice (s.get Fld.DB_PEND.PEND 0)) s
  else if r = 0 && s.is Fld.DB_CFG.VEC_EN 0 then
    (setBitsOf sig 32).foldl (fun s b => s.msix (s.dbVec b)) s
  else s

/-- Doorbell bits rung in set r (R379): newly set unmasked bits signal. -/
def State.ring (s : State) (r ring : Nat) : State :=
  let old := s.get Fld.DB_PEND.PEND r
  let new := ring &&& (0xFFFFFFFF - old)
  let s := (s.set Fld.DB_PEND.PEND (old ||| ring) r)
  let s := s.dbSignal r (new &&& (0xFFFFFFFF - s.get Fld.DB_MASK.MASK r))
  s.dbSum r

/-- A host doorbell bit rung (R385). -/
def State.ringHost (s : State) (b : Nat) : State := s.ring 0 (2 ^ b)

/-- The contents of an error record (R295). -/
structure ErrRec where
  type : Nat
  code : Nat
  part : Option Nat
  stack : Nat
  pch : Nat
  core : Nat
  src : Nat
  dpa : Nat
  cmd : Nat
  stored : Nat
  computed : Nat
  deriving DecidableEq, Repr

/-- A record of a type with nothing else meaningful. -/
def ErrRec.plain (type : Nat) : ErrRec :=
  { type := type, code := 0, part := none, stack := 31, pch := 0, core := 15, src := 0, dpa := 0, cmd := 0, stored := 0
    computed := 0 }

/-- An error record appended to ERR_LOG, or dropped when the log is full (R295). -/
def State.post (s : State) (r : ErrRec) : State :=
  let prod := s.get Fld.ERR_LOG_PI.PROD
  let used := (prod + 2 ^ 32 - s.get Fld.ERR_LOG_CI.CONS) % 2 ^ 32
  if 64 ≤ used then (s.bump Fld.ERR_STATUS.LOST 1).set Fld.ERR_STATUS.OVERFLOW 1
  else
    let e := prod % 64
    let w0 := prod % 65536 + r.type <<< 16 + r.code <<< 24 + (r.part.getD 0) <<< 32 + b2n r.part.isSome <<< 36
      + r.stack <<< 40 + r.pch <<< 48 + r.core <<< 56 + r.src <<< 60
    let s := s.setWord Reg.ERR_LOG e 0 w0
    let s := s.setWord Reg.ERR_LOG e 1 (r.dpa + r.cmd <<< 48)
    let s := s.setWord Reg.ERR_LOG e 2 s.btick
    let s := s.setWord Reg.ERR_LOG e 3 (r.stored + r.computed <<< 32)
    s.set Fld.ERR_LOG_PI.PROD (prod + 1)

/-- A cause as STEP_STATE.LAST_CAUSE codes it. -/
def Cause.code : Cause → Nat
  | .overrun => 1 | .eveStall => 2 | .fault => 3 | .xdieTimeout => 4 | .groupVote => 5

/-- An entry of the almanac in use. -/
def State.entryOf (s : State) (p e : Nat) : Option AlmEntry :=
  match (s.part p).alm with
  | some a => a.entries[e]?
  | none => none

/-- Groups enabled for partition p, ascending (R420). -/
def State.groupsOf (s : State) (p : Nat) : List Nat :=
  (upFrom 0 16).filter (fun g => s.is Fld.GRP_CFG.EN g && s.get Fld.GRP_CFG.PART g == p)

/-- The entry of partition p's step in progress. -/
def State.stepEntry (s : State) (p : Nat) : Option AlmEntry := s.entryOf p (s.part p).entry

/-- Whether partition p's step is decided by a vote (R427). -/
def State.votes (s : State) (p : Nat) : Bool :=
  (match s.stepEntry p with | some e => e.hasColl | none => false) && !(s.groupsOf p).isEmpty

/-- The group whose rank 0 leads partition p's vote (R420). -/
def State.leadGroup (s : State) (p : Nat) : Nat := (s.groupsOf p).headD 0

/-- Whether this device leads the vote of partition p. -/
def State.leads (s : State) (p : Nat) : Bool := s.get Fld.GRP_CFG.RANK (s.leadGroup p) == 0

/-- A decision entered in GRP_LOG: in an entry without one, else in place of the oldest (R427). -/
def State.logDecision (s : State) (g b : Nat) (c : Bool) : State :=
  let free := (upFrom 0 16).find? (fun i => s.get Fld.GRP_LOG.OUTCOME g i == 0)
  let old := (upFrom 0 16).foldl (fun m i => if s.get Fld.GRP_LOG.BTICK g i < s.get Fld.GRP_LOG.BTICK g m then i else m) 0
  let i := free.getD old
  (s.set Fld.GRP_LOG.BTICK b g i).set Fld.GRP_LOG.OUTCOME (if c then 1 else 2) g i

/-- A leader's decision logged, then sent (R427). -/
def State.sendDecision (s : State) (g b : Nat) (c : Bool) : State := (s.logDecision g b c).sendGroup g (.decide g b c)

/-- The leader decides (R427): logged, sent, and in force here. -/
def State.decideVote (s : State) (p : Nat) (c : Bool) : State :=
  let k := s.part p
  if k.decision.isSome then s
  else (s.sendDecision (s.leadGroup p) k.openTick c).setPart p { k with decision := some c }

/-- This device's ABANDON made known as soon as its step is abandoned (R427): sent to the leader, or decided by it. -/
def State.voteAbandon (s : State) (p : Nat) : State :=
  if !s.votes p then s
  else if s.leads p then s.decideVote p false
  else s.sendDev (s.memberDev (s.leadGroup p) 0) (.vote (s.leadGroup p) (s.part p).openTick false)

/-- The sticky record of an abandonment's cause (STEP_ERR). -/
def State.noteCause (s : State) (p : Nat) : Cause → State
  | .overrun => s.set Fld.STEP_ERR.OVERRUN 1 p
  | .eveStall => (s.set Fld.STEP_ERR.OVERRUN 1 p).set Fld.STEP_ERR.EVE_STALL 1 p
  | .fault => s.set Fld.STEP_ERR.FAULT 1 p
  | .xdieTimeout => s.set Fld.STEP_ERR.XDIE_TIMEOUT 1 p
  | .groupVote => s.set Fld.STEP_ERR.GROUP_VOTE 1 p

/-- An abandonment begins (R42, R44, R427): the partition's engines are to stop, its collective phases are cancelled, nothing
more issues, and its vote is ABANDON. A fault that an engine raises while it stops after an overrun falls on the overrun's
tick, and the abandonment is recorded as the fault (R44; DEDUCED: the work belongs to the step that the tick closed). -/
def State.beginAbandon (s : State) (p : Nat) (a : Abandon) : State :=
  let k := s.part p
  match k.phase with
  | .abandoning =>
    match k.abandon with
    | some b =>
      if a.cause = .fault && (b.cause = .overrun || b.cause = .eveStall) then
        (s.setPart p { k with abandon := some { a with stop := b.stop || a.stop } }).noteCause p .fault
      else s.setPart p { k with abandon := some { b with stop := b.stop || a.stop } }
    | none => s.setPart p { k with abandon := some a }
  | .idle => s
  | _ =>
    let s := s.setPart p { k with phase := .abandoning, abandon := some a, abandonTick := s.btick }
    let s : State := { s with colls := s.colls.filter (fun x => x.part != p) }
    (if a.cause = .groupVote then s else s.voteAbandon p).noteCause p a.cause

/-- Engines as FAULT_REC.ENGINE codes them. -/
inductive FaultEng where
  | scalar | mxu | ve | xe | pip | fetch
  deriving DecidableEq, Repr

/-- FAULT_REC.ENGINE. -/
def FaultEng.code : FaultEng → Nat
  | .scalar => 0 | .mxu => 1 | .ve => 2 | .xe => 3 | .pip => 4 | .fetch => 5

/-- OVERRUN_REC.CLASS of an engine (R43: a fetch fault is recorded as class scalar). -/
def FaultEng.cls : FaultEng → Nat
  | .scalar => 6 | .mxu => 0 | .ve => 1 | .xe => 2 | .pip => 3 | .fetch => 6

/-- Core fault codes (R90). -/
def cfIllegalOp : Nat := 0x01
def cfPcRange : Nat := 0x02
def cfMisaligned : Nat := 0x03
def cfCsrDenied : Nat := 0x04
def cfDescInvalid : Nat := 0x05
def cfDescReject : Nat := 0x06
def cfTrfRange : Nat := 0x07
def cfAddrRange : Nat := 0x08
def cfAddrUnmapped : Nat := 0x09
def cfDomainDown : Nat := 0x0A
def cfTrfEcc : Nat := 0x0B
def cfPoison : Nat := 0x0C
def cfCsumOpen : Nat := 0x0D
def cfCsum : Nat := 0x0E
def cfIdxOob : Nat := 0x0F
def cfPanFault : Nat := 0x10
def cfCollFault : Nat := 0x11

/-- A fault as an operation reports it: code, the address or number FAULT_ADDR takes, and the stack of a memory fault. -/
structure CFault where
  code : Nat
  addr : Nat
  stack : Option Nat
  deriving DecidableEq, Repr

/-- Whether FAULT_ADDR of a code holds a DPA (FAULT_ADDR, R511). -/
def cfHasDpa (code : Nat) : Bool :=
  code != cfTrfRange && code != cfTrfEcc && code != cfDescInvalid && code != cfIllegalOp

/-- A core fault (R44, R90, R91, R511): the record, the CORE_FAULT error record, the core's stop, and the abandonment
of its partition's step, recorded for the class and unit given. -/
def State.coreFaultAs (s : State) (c : Nat) (e : FaultEng) (pc : Nat) (f : CFault) (unit cls aunit : Nat) (stop : Bool) :
    State :=
  let s :=
    if s.is Fld.FAULT_REC.VALID c then s.set Fld.FAULT_REC.MORE 1 c
    else
      let s := s.set Fld.FAULT_REC.VALID 1 c
      let s := s.set Fld.FAULT_REC.ENGINE e.code c
      let s := s.set Fld.FAULT_REC.CODE f.code c
      let s := s.set Fld.FAULT_REC.UNIT unit c
      let s := s.set Fld.FAULT_REC.BTICK_LO s.btick c
      (s.set Fld.FAULT_PC.PC pc c).set Fld.FAULT_ADDR.ADDR f.addr c
  let withStack := f.code = cfPanFault || f.stack.isSome
  let s := s.post { type := 1, code := f.code, part := s.partOf c, stack := if withStack then unit else 31, pch := 0
                    core := c, src := 0, dpa := if cfHasDpa f.code then f.addr else 0, cmd := 0, stored := 0, computed := 0 }
  let s := s.setCore c { s.core c with run := .faulted }
  match s.partOf c with
  | some p => s.beginAbandon p ⟨.fault, cls, aunit, stop⟩
  | none => s

/-- Size of a stack's addresses, and of its data region (Device address map). -/
def stackSpan : Nat := 0x1800000000
def stackData : Nat := 0x17FA000000

/-- What an address of the device names (Device address map). -/
inductive Place where
  | data (stack off : Nat)
  | csum (stack : Nat)
  | sbuf (die off : Nat)
  | csr
  | none
  deriving DecidableEq, Repr

/-- The place of a DPA (R25). -/
def placeOf (a : Nat) : Place :=
  if a < 20 * stackSpan then
    let t := a / stackSpan
    let o := a % stackSpan
    if o < stackData then .data t o else .csum t
  else if 0x20000000000 ≤ a && a < 0x20003000000 then .sbuf 0 (a - 0x20000000000)
  else if 0x21000000000 ≤ a && a < 0x21003000000 then .sbuf 1 (a - 0x21000000000)
  else if 0x3F000000000 ≤ a && a < 0x3F010000000 then .csr
  else .none

/-- Region states (REG_STAT.STATE). -/
def rgEmpty : Nat := 0
def rgLoading : Nat := 1
def rgSealing : Nat := 2
def rgReady : Nat := 3

/-- Whether the host link runs as a PCIe endpoint (R387): no CXL.mem, CXL.cache, host DMA or serving ring. -/
def State.pcieOnly (s : State) : Bool := s.is Fld.CXLC_LINK.UP && !s.is Fld.CXLC_LINK.CXL

/-- Whether region r covers unit u of stack t. -/
def State.regionHas (s : State) (r t u : Nat) : Bool :=
  let f := s.get Fld.REG_LOC.FIRST r
  s.get Fld.REG_LOC.STACK r == t && decide (f ≤ u) && decide (u < f + s.get Fld.REG_LOC.COUNT r)

/-- The region in state READY that covers an address, if any. -/
def State.sharedAt (s : State) (a : Nat) : Option Nat :=
  match placeOf a with
  | .data t o => (upFrom 0 32).find? (fun r => s.get Fld.REG_STAT.STATE r == rgReady && s.regionHas r t (o >>> 21))
  | _ => none

/-- A fault of an engine of core c at a pc. A POISON or CSUM in a shared region stops the partition (R292). -/
def State.coreFault (s : State) (c : Nat) (e : FaultEng) (pc : Nat) (f : CFault) : State :=
  let shared := (f.code == cfPoison || f.code == cfCsum) && f.stack.isSome && (s.sharedAt f.addr).isSome
  let s := s.coreFaultAs c e pc f (f.stack.getD 0) e.cls c shared
  match shared, s.partOf c with
  | true, some p => s.setPart p { s.part p with stoppedFor := setInsert (s.part p).stoppedFor (f.addr / 4096) }
  | _, _ => s

/-- n bytes of a sparse memory as a number, least significant first. -/
def smBytes (m : SMap Byte) (a n : Nat) : Nat :=
  (smRange m a n).foldl (fun acc e => acc + e.2.toNat <<< (8 * (e.1 - a))) 0

/-- The cells of n bytes of a number placed from an address, zeros left out. -/
def cellsOf (a n v : Nat) : SMap Byte :=
  ((upFrom 0 n).zip (bytesOf n v)).filterMap (fun e => if e.2 = 0#8 then none else some (a + e.1, e.2))

/-- The cells of a list of bytes placed from an address, zeros left out. -/
def cellsOfList (a : Nat) (l : List Byte) : SMap Byte :=
  ((upFrom 0 l.length).zip l).filterMap (fun e => if e.2 = 0#8 then none else some (a + e.1, e.2))

/-- A sparse memory with n bytes from an address replaced by cells that lie there. -/
def smSplice (m : SMap Byte) (a n : Nat) (cells : SMap Byte) : SMap Byte :=
  m.filter (fun e => decide (e.1 < a)) ++ cells ++ m.filter (fun e => decide (a + n ≤ e.1))

/-- A sparse memory with n bytes written. -/
def smPoke (m : SMap Byte) (a n v : Nat) : SMap Byte := smSplice m a n (cellsOf a n v)

/-- A sparse memory with a list of bytes written. -/
def smPokeList (m : SMap Byte) (a : Nat) (l : List Byte) : SMap Byte := smSplice m a l.length (cellsOfList a l)

/-- A list of n bytes of a sparse memory. -/
def smPeekList (m : SMap Byte) (a n : Nat) : List Byte := bytesOf n (smBytes m a n)

/-- Host memory read as a number (R276: coherent, no copy kept). -/
def State.hostRead (s : State) (a n : Nat) : Nat := smBytes s.host a n
/-- Host memory written, and the bytes sent counted (R399, R406). -/
def State.hostWrite (s : State) (a n v : Nat) : State :=
  ({ s with host := smPoke s.host a n v } : State).count Fld.CXLC_BYTES_OUT.BYTES n
/-- Host memory written with bytes. -/
def State.hostWriteList (s : State) (a : Nat) (l : List Byte) : State :=
  ({ s with host := smPokeList s.host a l } : State).count Fld.CXLC_BYTES_OUT.BYTES l.length

end Sys2Proof.Machine
end

