-- ==== Sys2Proof/Machine/Memory.lean ====
section
/-!
DEFINITION. Stack memory and shared buffers: ranges and access checks, line ECC and poison, granule checksums, writes
with error injection, and the requests that reads and writes put on a pseudo-channel.
-/
namespace Sys2Proof.Machine

/-- Who accesses memory, and for which partition. -/
structure Who where
  agent : Agent
  part : Option Nat
  deriving DecidableEq, Repr

/-- The detecting agent of an error record (R295). -/
def Agent.src : Agent → Nat
  | .scalar _ | .xe _ | .pip _ | .fetch _ | .sc _ => 0
  | .pan _ => 1
  | .host | .hdma _ => 2
  | .roce _ | .coll _ => 3
  | .rake _ => 4
  | .repair => 5

/-- The source of a write as STK_FLIP_CTRL.SRC codes it, 0 for none of the codes. -/
def Agent.flipSrc : Agent → Nat
  | .host | .hdma _ => 1
  | .scalar _ | .xe _ => 2
  | .pan _ => 3
  | .roce _ => 4
  | .rake _ => 5
  | _ => 0

/-- The core of an agent, 15 for none. -/
def Agent.coreNo : Agent → Nat
  | .scalar c | .xe c | .pip c | .fetch c => c
  | _ => 15

/-- The die an agent's traffic starts from, none for the in-stack agents. -/
def Agent.die : Agent → Option Nat
  | .scalar c | .xe c | .pip c | .fetch c => some (dieOfCore c)
  | .host | .hdma _ => some 0
  | .sc d | .coll d => some d
  | .roce _ => some 0
  | .pan _ | .rake _ | .repair => none

/-- The sluice a requester is charged to (R216): its partition's, HOST (16), or the stack bucket alone (17). -/
def Who.sluice (w : Who) : Nat :=
  match w.agent with
  | .rake _ | .repair => 17
  | .host | .hdma _ => 16
  | _ => w.part.getD 16

/-- The pseudo-channel of a stack offset (R206). -/
def pchOf (o : Nat) : Nat := bits o 20 16
/-- The bank of a stack offset (R206). -/
def bankOf (o : Nat) : Nat := bits o 15 12 + 16 * bits o 21 21
/-- The row of a stack offset (R206). -/
def rowOf (o : Nat) : Nat := bits o 36 22

/-- The pan number of an address: 32 × stack + pseudo-channel. -/
def panOf (a : Nat) : Nat := 32 * (a / stackSpan) + pchOf (a % stackSpan)

/-- Whether stack t accepts accesses: it is UP, its die answers, and no self test runs on it (R392, R412, R498, R507). -/
def State.stackUp (s : State) (t : Nat) : Bool :=
  s.get Fld.STK_STATUS.STATE t == 2 && s.serves (dieOfStack t) && !s.is Fld.TEST_BIST.GO t

/-- Stack t comes UP: its refresh intervals count from here (R211). -/
def State.stackRuns (s : State) (t : Nat) : State :=
  (s.set Fld.STK_STATUS.STATE 2 t).setStack t { s.stack t with refNext := [] }

/-- Whether an address lies in a domain that answers (R28, R498). -/
def State.answers (s : State) (a : Nat) : Bool :=
  match placeOf a with
  | .data t _ => s.stackUp t
  | .csum t => s.stackUp t
  | .sbuf d _ => s.serves d
  | .csr => true
  | .none => true

/-- Whether a list of ranges holds unit u of stack t. -/
def rangesHave (rs : List Range) (t u : Nat) : Bool :=
  rs.any (fun r => r.stack == t && decide (r.first ≤ u) && decide (u < r.first + r.count))

/-- Whether a partition's own ranges hold unit u of stack t. -/
def State.owns (s : State) (p t u : Nat) : Bool := rangesHave (s.part p).ranges t u

/-- The READY region mapped into partition p that covers unit u of stack t. -/
def State.mapsUnit (s : State) (p t u : Nat) : Bool :=
  (upFrom 0 32).any (fun r =>
    bit (s.part p).regions r && s.get Fld.REG_STAT.STATE r == rgReady && s.regionHas r t u)

/-- Whether [lo, hi] of a die's shared buffer lies in partition p's allocation (R359), in 256 KiB units. -/
def State.sbHas (s : State) (p d lo hi : Nat) : Bool :=
  let b := if d = 0 then s.get Fld.PT_SB.SB0_BASE p else s.get Fld.PT_SB.SB1_BASE p
  let z := if d = 0 then s.get Fld.PT_SB.SB0_SIZE p else s.get Fld.PT_SB.SB1_SIZE p
  decide (b * 262144 ≤ lo) && decide (hi < (b + z) * 262144)

/-- The reach of an interval [lo, hi] for a partition (R106, R199): wholly its own units; its own or mapped shared
units with at least one shared; wholly its shared buffer allocation of one die; or none of these. -/
inductive Reach where
  | own | shared | sbuf | none
  deriving DecidableEq, Repr

/-- The reach of an interval (lo ≤ hi). -/
def State.reach (s : State) (p lo hi : Nat) : Reach :=
  match placeOf lo, placeOf hi with
  | .data t ol, .data t' oh =>
    if t ≠ t' then .none
    else
      let us := upFrom (ol >>> 21) ((oh >>> 21) - (ol >>> 21) + 1)
      if us.all (s.owns p t) then .own
      else if us.all (fun u => s.owns p t u || s.mapsUnit p t u) then .shared
      else .none
  | .sbuf d ol, .sbuf d' oh => if d = d' && s.sbHas p d ol oh then .sbuf else .none
  | _, _ => .none

/-- Whether a partition may make a scalar access of n bytes at a (R106). -/
def State.scalarReach (s : State) (p a n : Nat) (write : Bool) : Bool :=
  match s.reach p a (a + n - 1) with
  | .own | .sbuf => true
  | .shared => !write
  | .none => false

/-- The metadata of granule g. -/
def State.granule (s : State) (g : Nat) : Gran := smGet Gran.empty s.gran g
/-- The metadata of granule g replaced. -/
def State.setGranule (s : State) (g : Nat) (x : Gran) : State := { s with gran := smPut Gran.empty s.gran g x }

/-- The number of set bits among three copies. -/
def metaFlips (m : BitVec 3) : Nat := b2n (m.getLsbD 0) + b2n (m.getLsbD 1) + b2n (m.getLsbD 2)

/-- Whether line ln reads as valid: its valid bit by majority of three copies (R282). -/
def State.lineValid (s : State) (ln : Nat) : Bool :=
  let v := (s.granule (ln / 64)).valid.getLsbD (ln % 64)
  v != decide (2 ≤ metaFlips (smGet 0#3 s.metaFlip ln))

/-- Whether line ln holds the poison pattern. -/
def State.linePoisoned (s : State) (ln : Nat) : Bool := (s.granule (ln / 64)).poison.getLsbD (ln % 64)

/-- The 64 bytes of line ln as stored with no error, as a number. -/
def State.lineRaw (s : State) (ln : Nat) : Nat := smBytes s.mem (64 * ln) 64

/-- The symbols (bytes) of a flip mask that are not zero, ascending. -/
def maskSymbols (m : Line) : List Nat := (upFrom 0 64).filter (fun i => bits m.toNat (8 * i + 7) (8 * i) != 0)

/-- Traffic of a requester on a stack: one waiting request for each granule piece (R209). -/
def State.traffic (s : State) (w : Who) (inStack write : Bool) (a n : Nat) : State :=
  match placeOf a with
  | .data t _ =>
    let g0 := a / 4096
    let g1 := (a + n - 1) / 4096
    (upFrom g0 (if n = 0 then 0 else g1 - g0 + 1)).foldl
      (fun s g =>
        let lo := Nat.max a (4096 * g)
        let hi := Nat.min (a + n) (4096 * g + 4096)
        let k := s.stack t
        let u := pchOf (lo % stackSpan)
        let q := smGet [] k.queue u
        s.setStack t { k with queue := smPut [] k.queue u (q ++ [⟨w.agent, w.sluice, inStack, write, lo, hi - lo⟩]) })
      s
  | _ => s

/-- Bytes added to an accumulator of partition p (ACC i, R367). -/
def State.account (s : State) (p : Option Nat) (i n : Nat) : State :=
  match p with
  | some p => let k := s.part p; s.setPart p { k with acc := setNth k.acc i (nth 0 k.acc i + n) }
  | none => s

/-- Frequency of a die in MHz: the voltage and frequency record of its operating point. -/
def State.mhz (s : State) (d : Nat) : Nat := s.get Fld.PWR_VT.FREQ_MHZ d (s.get Fld.PWR_DIE.OPP d)

/-- A correction entered in the corrected-address table (R288, R289). -/
def State.enterCE (s : State) (t ln sym : Nat) : State :=
  let was := s.get Fld.STK_ECC_CNT.CE t
  let s := s.bump Fld.STK_ECC_CNT.CE 1 t
  let s :=
    if decide (was < s.get Fld.STK_ECC_THR.THRESH t) && decide (s.get Fld.STK_ECC_THR.THRESH t ≤ s.get Fld.STK_ECC_CNT.CE t) then
      (s.set Fld.STK_ECC_THR.CROSSED 1 t).post { ErrRec.plain 8 with stack := t }
    else s
  let used := (upFrom 0 16).filter (fun i => s.is Fld.STK_CE_W0.VALID t i)
  let k := s.stack t
  let put := fun (s : State) (i rep : Nat) =>
    let s := (s.set Fld.STK_CE_W0.VALID 1 t i).set Fld.STK_CE_W0.LINE ln t i
    let s := (s.set Fld.STK_CE_W1.SYM sym t i).set Fld.STK_CE_W1.REPEAT rep t i
    s.set Fld.STK_CE_W1.BTICK_LO s.btick t i
  match used.find? (fun i => s.get Fld.STK_CE_W0.LINE t i == ln) with
  | some i => put s i (satAdd 0xFFFF (s.get Fld.STK_CE_W1.REPEAT t i) 1)
  | none =>
    match (upFrom 0 16).find? (fun i => !used.contains i) with
    | some i => (put s i 1).setStack t { k with ceOrder := k.ceOrder.filter (· != i) ++ [i] }
    | none =>
      match k.ceOrder.find? (fun i => s.get Fld.STK_CE_W1.REPEAT t i == 1) with
      | some i => (put s i 1).setStack t { k with ceOrder := k.ceOrder.filter (· != i) ++ [i] }
      | none => s.count Fld.STK_CE_LOST.COUNT 1 t

/-- Every partition whose map in force names region r. -/
def State.mappers (s : State) (r : Nat) : List Nat := (upFrom 0 16).filter (fun p => bit (s.part p).regions r)

/-- A granule of a READY shared region poisoned whole (R292): its lines, its ERR_POISON entry, the stops of the
partitions that map it, the POISONED record and host doorbell DB1. -/
def State.poisonShared (s : State) (w : Who) (r g dpa pch : Nat) : State :=
  let x := s.granule g
  let s : State := { s with ecc := smDrop s.ecc (64 * g) 64, metaFlip := smDrop s.metaFlip (64 * g) 64, flipped := smDrop s.flipped (64 * g) 64 }
  let s := s.setGranule g { x with valid := BitVec.allOnes 64, poison := BitVec.allOnes 64 }
  let listed := (upFrom 0 16).any (fun e => s.is Fld.ERR_POISON.VALID e && s.get Fld.ERR_POISON.GRANULE e == g)
  let s :=
    if listed then s
    else
      match (upFrom 0 16).find? (fun e => !s.is Fld.ERR_POISON.VALID e) with
      | some e =>
        let s := (s.set Fld.ERR_POISON.VALID 1 e).set Fld.ERR_POISON.GRANULE g e
        s.set Fld.ERR_POISON.PATH (if s.is Fld.REG_LOC.MIRROR r then 0 else 1) e
      | none => s.set Fld.ERR_STATUS.POISON_FULL 1
  let s := (s.mappers r).foldl
    (fun s p =>
      let k := s.part p
      if s.pstate p == stRunning || s.pstate p == stStopping || s.pstate p == stHeld then
        s.setPart p { k with stopAtBoundary := true, stoppedFor := setInsert k.stoppedFor g }
      else if k.stoppedFor.isEmpty then s
      else s.setPart p { k with stoppedFor := setInsert k.stoppedFor g }) s
  let s := s.post { ErrRec.plain 4 with part := w.part, stack := g * 4096 / stackSpan, pch := pch
                                        core := w.agent.coreNo, src := w.agent.src, dpa := dpa }
  s.ringHost 1

/-- A line found uncorrectable (R290): the poison pattern, the count and the record of a first detection, and R292 in
a shared region. -/
def State.uncorrectable (s : State) (w : Who) (ln : Nat) : State :=
  let g := ln / 64
  let a := 64 * ln
  let t := a / stackSpan
  let x := s.granule g
  if x.poison.getLsbD (ln % 64) then s
  else
    let sym := (maskSymbols (smGet 0#512 s.ecc ln)).headD 0
    let s := s.setGranule g { x with poison := x.poison ||| BitVec.ofNat 64 (2 ^ (ln % 64)) }
    let s := { s with ecc := smErase s.ecc ln }
    let s := s.bump Fld.STK_ECC_CNT.UE 1 t
    let rake := w.agent.src == 4
    let pch := pchOf (a % stackSpan)
    let s := s.post { ErrRec.plain (if rake then 5 else 3) with
      part := w.part, stack := t, pch := pch, core := w.agent.coreNo, src := w.agent.src, dpa := a, stored := sym }
    let s := if rake then s.count Fld.RAKE_CNT.UE 1 t else s
    match s.sharedAt a with
    | some r => s.poisonShared w r g a pch
    | none => s

/-- The bias of a 2 MiB page: 0 device; 1 host; 2 host, with a host caching access since (R275, R397). -/
def State.bias (s : State) (page : Nat) : Nat := smGet 0 s.link.bias page

/-- Whether an agent is an engine or a pan, whose accesses snoop host caches (R275, R399). -/
def Agent.snoops : Agent → Bool
  | .scalar _ | .xe _ | .pip _ | .fetch _ | .pan _ | .coll _ => true
  | _ => false

/-- A whole line written back by the host (R275): valid, without error, its granule open (R283). -/
def State.hostLine (s : State) (ln v : Nat) : State :=
  let g := ln / 64
  let b := BitVec.ofNat 64 (2 ^ (ln % 64))
  let x := s.granule g
  ({ s with
    mem := smPoke s.mem (64 * ln) 64 v, ecc := smErase s.ecc ln, metaFlip := smErase s.metaFlip ln
    flipped := smErase s.flipped ln
    sealing := s.sealing.filter (fun e => e.2 != g) } : State).setGranule g
      { x with valid := x.valid ||| b, poison := x.poison &&& ~~~b, state := .opened }

/-- An engine's or pan's access to a line of a host-bias page snoops host caches (R275): in a page the host has cached lines of, a
dirty copy is written back. Whether there is one and what it holds is the host's: free values (log 11). -/
def State.snoop (s : State) (w : Who) (ln : Nat) : State :=
  if w.agent.snoops && s.bias (64 * ln / 0x200000) == 2 then
    match s.freeChoice with
    | (true, s) => ({ s with free := s.free + 1 } : State).hostLine ln (Config.freeLine s.free).toNat
    | (false, s) => s
  else s

/-- The outcome of reading a line: its bytes as a number, or poison. -/
def State.readLine (s : State) (w : Who) (ln : Nat) : Option Nat × State :=
  match placeOf (64 * ln) with
  | .data t _ =>
    let s := s.snoop w ln
    if !s.lineValid ln then (some 0, s)
    else if s.linePoisoned ln then (none, s)
    else
      let m := smGet 0#512 s.ecc ln
      match maskSymbols m with
      | [] => (some (s.lineRaw ln), s)
      | [sym] => (some (s.lineRaw ln), s.enterCE t ln sym)
      | [_, _] => (none, s.uncorrectable w ln)
      | _ =>
        let (u, s) := s.freeChoice
        if u then (none, s.uncorrectable w ln)
        else (some (Config.freeLine s.free).toNat, { s with free := s.free + 1 })
  | _ => (some (s.lineRaw ln), s)

/-- A run of lines read in order: the bytes as a number, and the first poisoned line. -/
def State.readLines (s : State) (w : Who) (ln : Nat) : Nat → Nat × Option Nat × State
  | 0 => (0, none, s)
  | n + 1 =>
    let (v, bad, s) := s.readLines w ln n
    let (x, s) := s.readLine w (ln + n)
    match x with
    | some y => (v + y <<< (512 * n), bad, s)
    | none => (v, (match bad with | some b => some b | none => some (ln + n)), s)

/-- n bytes read at a point of coherence: their number, and the address of the first poisoned line. -/
def State.readBytes (s : State) (w : Who) (a n : Nat) : Nat × Option Nat × State :=
  if n = 0 then (0, none, s)
  else
    let l0 := a / 64
    let l1 := (a + n - 1) / 64
    let (v, bad, s) := s.readLines w l0 (l1 - l0 + 1)
    ((v >>> (8 * (a - 64 * l0))) % 2 ^ (8 * n), bad.map (64 * ·), s)

/-- An armed data flip fires on a line write it matches (R296). -/
def State.flipData (s : State) (w : Who) (t ln : Nat) : State :=
  let src := s.get Fld.STK_FLIP_CTRL.SRC t
  let okSrc := src == 0 || src == w.agent.flipSrc
  let okPart := !s.is Fld.STK_FLIP_CTRL.PART_EN t || w.part == some (s.get Fld.STK_FLIP_CTRL.PART t)
  if s.is Fld.STK_FLIP_CTRL.ARM_DATA t && okSrc && okPart then
    let m := (upFrom 0 8).foldl (fun a i => a + (s.get Fld.STK_FLIP_DATA.MASK t i) <<< (64 * i)) 0
    let mm := s.get Fld.STK_FLIP_META.MASK t
    let s := s.set Fld.STK_FLIP_CTRL.ARM_DATA 0 t
    let s := s.bump Fld.STK_FLIP_CNT.FIRED 1 t
    let s := { s with metaFlip := smPut 0#3 s.metaFlip ln (smGet 0#3 s.metaFlip ln ^^^ BitVec.ofNat 3 mm) }
    if s.is Fld.STK_FLIP_CTRL.POINT t then
      { s with mem := smPoke s.mem (64 * ln) 64 (s.lineRaw ln ^^^ m)
               flipped := smPut 0#512 s.flipped ln (smGet 0#512 s.flipped ln ^^^ BitVec.ofNat 512 m) }
    else { s with ecc := smPut 0#512 s.ecc ln (smGet 0#512 s.ecc ln ^^^ BitVec.ofNat 512 m) }
  else s

/-- A write performed to granule g, as a SEAL that has begun to read it sees it (R248). -/
def State.unread (s : State) (g : Nat) : State := { s with sealing := s.sealing.filter (fun e => e.2 != g) }

/-- A mask of a line without the bytes that a write replaces. -/
def clearBytes (has : Nat → Bool) (m : Line) : Line :=
  BitVec.ofNat 512 ((upFrom 0 64).foldl (fun v i => if has i then setBits v (8 * i + 7) (8 * i) 0 else v) m.toNat)

/-- A line written in some of its bytes, or all (R290, R510): the valid bit, the merge and its checks. -/
def State.writeLineWith (s : State) (w : Who) (ln : Nat) (full : Bool) (has : Nat → Bool) (put : SMap Byte → SMap Byte) : State :=
  match placeOf (64 * ln) with
  | .data t _ =>
    let g := ln / 64
    let s := (if full then s else s.snoop w ln).unread g
    let wasValid := s.lineValid ln
    let poke := fun (s : State) =>
      let x := s.granule g
      let s := { s with
        mem := put s.mem, ecc := smErase s.ecc ln, metaFlip := smErase s.metaFlip ln
        flipped := match smFind s.flipped ln with
          | none => s.flipped
          | some m => smPut 0#512 s.flipped ln (clearBytes has m) }
      s.setGranule g { x with valid := x.valid ||| BitVec.ofNat 64 (2 ^ (ln % 64)) }
    let s :=
      if full then
        let s := poke s
        let x := s.granule g
        s.setGranule g { x with poison := x.poison &&& ~~~BitVec.ofNat 64 (2 ^ (ln % 64)) }
      else if !wasValid then
        poke { s with mem := smPoke s.mem (64 * ln) 64 0 }
      else if s.linePoisoned ln then s
      else
        let syms := maskSymbols (smGet 0#512 s.ecc ln)
        match syms with
        | [] => poke s
        | [sym] => poke (if has sym then s else s.enterCE t ln sym)
        | [_, _] => s.uncorrectable w ln
        | _ =>
          let (u, s) := s.freeChoice
          if u then s.uncorrectable w ln
          else
            let x := (Config.freeLine s.free).toNat
            poke { s with mem := smPoke s.mem (64 * ln) 64 x, free := s.free + 1 }
    s.flipData w t ln
  | _ => { s with mem := put s.mem }

/-- Bytes b0 to b0 + n − 1 of a line written with a number. -/
def State.writeLinePart (s : State) (w : Who) (ln b0 n v : Nat) : State :=
  s.writeLineWith w ln (b0 = 0 && n = 64) (fun i => decide (b0 ≤ i) && decide (i < b0 + n)) (fun m => smPoke m (64 * ln + b0) n v)

/-- n bytes written line by line at a point of coherence, checksum states untouched. -/
def State.writeRaw (s : State) (w : Who) (a n v : Nat) : State :=
  if n = 0 then s
  else
    let l0 := a / 64
    let l1 := (a + n - 1) / 64
    (upFrom l0 (l1 - l0 + 1)).foldl
      (fun s ln =>
        let lo := Nat.max a (64 * ln)
        let hi := Nat.min (a + n) (64 * ln + 64)
        s.writeLinePart w ln (lo - 64 * ln) (hi - lo) ((v >>> (8 * (lo - a))) % 2 ^ (8 * (hi - lo)))) s

/-- A granule's state made open (R283). -/
def State.openGranule (s : State) (g : Nat) : State :=
  match placeOf (4096 * g) with
  | .data _ _ => s.setGranule g { s.granule g with state := .opened }
  | _ => s

/-- The 4,096 bytes of a granule in address order, lines not written counting as zeros (R281). -/
def State.granBytes (s : State) (g : Nat) : List Byte :=
  (upFrom (64 * g) 64).flatMap (fun ln => bytesOf 64 (if s.lineValid ln then s.lineRaw ln else 0))

/-- The checksum of a granule's data as they were written, without what data flips changed after it was computed (R296). -/
def State.granCrcWritten (s : State) (g : Nat) : Nat :=
  crc32c ((upFrom (64 * g) 64).flatMap (fun ln =>
    bytesOf 64 (if s.lineValid ln then s.lineRaw ln ^^^ (smGet 0#512 s.flipped ln).toNat else 0)))

/-- The checksum of a granule's stored data. -/
def State.granCrc (s : State) (g : Nat) : Nat := crc32c (s.granBytes g)

/-- A granule sealed with a checksum, an armed checksum flip applied (R281, R296). -/
def State.sealGranule (s : State) (g crc : Nat) : State :=
  match placeOf (4096 * g) with
  | .data t _ =>
    let armed := s.is Fld.STK_FLIP_CTRL.ARM_CSUM t
    let stored := if armed then crc ^^^ s.get Fld.STK_FLIP_CSUM.MASK t else crc
    let s := if armed then (s.set Fld.STK_FLIP_CTRL.ARM_CSUM 0 t).bump Fld.STK_FLIP_CNT.FIRED 1 t else s
    let s := { s with csumBad := smErase s.csumBad g }
    s.setGranule g { s.granule g with state := .shut, crc := BitVec.ofNat 32 stored }
  | _ => s

/-- A granule sealed with the checksum of what it stores (R248, R294); one no write has reached stays unwritten (R282). -/
def State.sealStored (s : State) (g : Nat) : State :=
  if (s.granule g).valid = 0#64 then s else s.sealGranule g (s.granCrc g)

/-- n bytes written that leave every granule they touch open (R108, R283). -/
def State.writeOpen (s : State) (w : Who) (a n v : Nat) : State :=
  if n = 0 then s
  else
    let s := s.writeRaw w a n v
    (upFrom (a / 4096) ((a + n - 1) / 4096 - a / 4096 + 1)).foldl (fun s g => s.openGranule g) s

/-- n bytes written, granules covered in full sealed with the checksum of the data written and the others left open
(R152, R283). -/
def State.writeSealing (s : State) (w : Who) (a n v : Nat) : State :=
  if n = 0 then s
  else
    (upFrom (a / 4096) ((a + n - 1) / 4096 - a / 4096 + 1)).foldl
      (fun s g =>
        let lo := Nat.max a (4096 * g)
        let hi := Nat.min (a + n) (4096 * g + 4096)
        let x := (v >>> (8 * (lo - a))) % 2 ^ (8 * (hi - lo))
        let s := s.writeRaw w lo (hi - lo) x
        if hi - lo = 4096 then s.sealGranule g (crc32c (bytesOf 4096 x)) else s.openGranule g) s

/-- What a compute use makes of a granule: nothing wrong, open, or a failing checksum (R284, R285). -/
inductive Check where
  | good | isOpen | bad
  deriving DecidableEq, Repr

/-- The record of an unreadable checksum line, once for the line (R285). -/
def State.csumLineRecord (s : State) (w : Who) (g : Nat) : State :=
  match smFind s.csumBad g with
  | some false =>
    let s := { s with csumBad := s.csumBad.map (fun (e : Nat × Bool) => if e.1 / 16 = g / 16 then (e.1, true) else e) }
    s.post { ErrRec.plain 7 with part := w.part, stack := 4096 * g / stackSpan, core := w.agent.coreNo
                                 src := w.agent.src, dpa := 4096 * g }
  | _ => s

/-- A compute use's check of granule g over the data delivered for it (R85, R284): a mismatch in a READY shared region
poisons the granule (R292). -/
def State.checkGranule (s : State) (w : Who) (unchecked : Bool) (g data : Nat) : Check × State :=
  let x := s.granule g
  match x.state with
  | .unwritten => (.good, s)
  | .opened => (if unchecked then .good else .isOpen, s)
  | .shut =>
    let s := s.csumLineRecord w g
    if crc32c (bytesOf 4096 data) = x.crc.toNat && (smFind s.csumBad g).isNone then (.good, s)
    else
      match s.sharedAt (4096 * g) with
      | some r => (.bad, s.poisonShared w r g (4096 * g) (pchOf (4096 * g % stackSpan)))
      | none => (.bad, s)

/-- The fault of lower code, the first when equal (R90). -/
def lowerFault (a b : Option CFault) : Option CFault :=
  match a, b with
  | some x, some y => if y.code < x.code then some y else some x
  | some x, none => some x
  | none, y => y

/-- The read cache with room for a line (R85: 1,024 sets of 8 ways): a full set gives up one of its lines, a free choice. The set
of a line is its number modulo 1,024 (DEDUCED; log 38). -/
def State.makeRoom (s : State) (rc : SMap (Line × Bool)) (ln : Nat) : SMap (Line × Bool) × State :=
  let set := rc.filter (fun e => e.1 % 1024 == ln % 1024)
  if set.length < 8 then (rc, s)
  else
    let (i, s) := s.freeBelow 8
    (smErase rc (nth 0 (set.map Prod.fst) i), s)

/-- A line of a core's compute read: from the read cache when asked for and held, else from the stack, filling the
cache when asked for (R85, R89). -/
def State.cachedLine (s : State) (w : Who) (c : Option Nat) (ln : Nat) : Option Nat × State :=
  match c with
  | none => s.readLine w ln
  | some c =>
    match smFind (s.core c).rc ln with
    | some (d, bad) => (if bad then none else some d.toNat, s.count Fld.RC_HITS.HITS 1 c)
    | none =>
      let (x, s) := s.readLine w ln
      let s := s.traffic w false false (64 * ln) 64
      let s := s.count Fld.RC_MISSES.MISSES 1 c
      let (rc, s) := s.makeRoom (s.core c).rc ln
      (x, s.setCore c { s.core c with rc := smInsert rc ln (BitVec.ofNat 512 (x.getD 0), x.isNone) })

/-- Descriptor and DMA prefetch (R85, R114): whether the line that follows a read through the cache is filled ahead is a free choice;
it shows only in the cache and its counts (DESIGN CHOICE; log 38). -/
def State.runAhead (s : State) (w : Who) (c p ln : Nat) : State :=
  match placeOf (64 * ln) with
  | .data _ _ =>
    if bit (s.core c).cfg 16 && s.scalarReach p (64 * ln) 64 false && s.answers (64 * ln) &&
        (smFind (s.core c).rc ln).isNone then
      match s.freeChoice with
      | (true, s) => (s.cachedLine w (some c) ln).2
      | (false, s) => s
    else s
  | _ => s

/-- The lines of a granule read for a compute use. -/
def State.granuleData (s : State) (w : Who) (c : Option Nat) (ln : Nat) : Nat → Nat × Option Nat × State
  | 0 => (0, none, s)
  | n + 1 =>
    let (v, bad, s) := s.granuleData w c ln n
    let (x, s) := s.cachedLine w c (ln + n)
    match x with
    | some y => (v + y <<< (512 * n), bad, s)
    | none => (v, (match bad with | some b => some b | none => some (ln + n)), s)

/-- A granule read whole for a compute use: its data, and the fault it raises (R152, R284). -/
def State.computeGranule (s : State) (w : Who) (inStack unchecked : Bool) (c : Option Nat) (g : Nat) :
    Nat × Option CFault × State :=
  match placeOf (4096 * g) with
  | .data t _ =>
    if !s.stackUp t then (0, some ⟨cfDomainDown, 4096 * g, some t⟩, s)
    else
      let s := if c.isSome then s else s.traffic w inStack false (4096 * g) 4096
      let (v, bad, s) := s.granuleData w c (64 * g) 64
      match bad with
      | some ln => (v, some ⟨cfPoison, 64 * ln, some t⟩, s)
      | none =>
        match s.checkGranule w unchecked g v with
        | (.good, s) => (v, none, s)
        | (.isOpen, s) => (v, some ⟨cfCsumOpen, 4096 * g, some t⟩, s)
        | (.bad, s) => (v, some ⟨cfCsum, 4096 * g, some t⟩, s)
  | .sbuf d _ => if s.serves d then (smBytes s.mem (4096 * g) 4096, none, s) else (0, some ⟨cfDomainDown, 4096 * g, none⟩, s)
  | _ => (0, none, s)

/-- Granules read once each, in the order given: their data by granule, and the fault of lowest code. -/
def State.computeGranules (s : State) (w : Who) (inStack unchecked : Bool) (c : Option Nat) :
    List Nat → SMap Nat × Option CFault × State
  | [] => ([], none, s)
  | g :: gs =>
    let (v, f, s) := s.computeGranule w inStack unchecked c g
    let (m, f', s) := s.computeGranules w inStack unchecked c gs
    (smInsert m g v, lowerFault f f', s)

/-- n bytes at a out of granule data. -/
def fromGranules (m : SMap Nat) (a n : Nat) : Nat :=
  if n = 0 then 0
  else
    let g0 := a / 4096
    let g1 := (a + n - 1) / 4096
    let v := (upFrom g0 (g1 - g0 + 1)).foldl (fun acc g => acc + (smGet 0 m g) <<< (32768 * (g - g0))) 0
    (v >>> (8 * (a - 4096 * g0))) % 2 ^ (8 * n)

/-- The granules an interval touches. -/
def granulesOf (a n : Nat) : List Nat := if n = 0 then [] else upFrom (a / 4096) ((a + n - 1) / 4096 - a / 4096 + 1)

/-- A write by a core's scalar unit or XE updates the lines its read cache holds (R87); a write of a whole line ends its
poison there as it does in the stack (R290). -/
def State.updateCache (s : State) (c a n v : Nat) : State :=
  let k := s.core c
  let rc := k.rc.map (fun (e : Nat × Line × Bool) =>
    let base := 64 * e.1
    let lo := Nat.max a base
    let hi := Nat.min (a + n) (base + 64)
    if lo < hi then
      (e.1, (BitVec.ofNat 512 (setBits e.2.1.toNat (8 * (hi - base) - 1) (8 * (lo - base)) (v >>> (8 * (lo - a)))),
        e.2.2 && !(lo == base && hi == base + 64)))
    else e)
  s.setCore c { k with rc := rc }

end Sys2Proof.Machine
end

