-- ==== Sys2Proof/Machine/Desc.lean ====
section
/-!
DEFINITION. Tensor descriptors (R185–R204): their fields, the seven checks of creation, shards, rows and images.
-/
namespace Sys2Proof.Machine

/-- The fields of a descriptor (R185), extents as they stand in its words. -/
structure Desc where
  base : Nat
  fmt : Nat
  kind : Nat
  mode : Nat
  rank : Nat
  scaled : Bool
  unchecked : Bool
  cache : Bool
  genPair : Bool
  wrap : Bool
  strict : Bool
  dist : Bool
  ext : List Nat
  str : List Int
  pairOff : Nat
  blockDim : Nat
  group : Nat
  ga : Nat
  gb : Nat
  shd : List Nat
  deriving DecidableEq, Repr

/-- Bits of word i of a descriptor. -/
def dw (raw : Nat) (i hi lo : Nat) : Nat := bits raw (64 * i + hi) (64 * i + lo)

/-- The fields of 64 bytes (R185). -/
def Desc.of (raw : Nat) : Desc :=
  { base := dw raw 0 41 0, fmt := dw raw 0 46 44, kind := dw raw 0 49 48, mode := dw raw 0 51 50
    rank := dw raw 0 54 52 + 1, scaled := dw raw 0 56 56 == 1, unchecked := dw raw 0 57 57 == 1
    cache := dw raw 0 58 58 == 1, genPair := dw raw 0 59 59 == 1, wrap := dw raw 0 60 60 == 1
    strict := dw raw 0 61 61 == 1, dist := dw raw 0 62 62 == 1
    ext := [dw raw 1 31 0, dw raw 1 63 32, dw raw 2 31 0, dw raw 2 63 32]
    str := [0, toSigned 48 (dw raw 3 47 0), toSigned 48 (dw raw 4 47 0), toSigned 48 (dw raw 5 47 0)]
    pairOff := dw raw 6 19 0, blockDim := dw raw 6 21 20, group := dw raw 7 3 0, ga := dw raw 7 13 8 + 1
    gb := dw raw 7 21 16 + 1, shd := [dw raw 7 25 24, dw raw 7 27 26, dw raw 7 29 28, dw raw 7 31 30] }

/-- Descriptor modes. -/
def mdRead : Nat := 0
def mdRw : Nat := 1
def mdReduce : Nat := 2
/-- Descriptor kinds. -/
def kdData : Nat := 0
def kdIndex : Nat := 1
def kdScale : Nat := 2

/-- Reserved bits of the eight words (R185, R186). -/
def descReserved (raw : Nat) : Bool :=
  dw raw 0 43 42 != 0 || dw raw 0 47 47 != 0 || dw raw 0 55 55 != 0 || dw raw 0 63 63 != 0 ||
  dw raw 3 63 48 != 0 || dw raw 4 63 48 != 0 || dw raw 5 63 48 != 0 || dw raw 6 63 22 != 0 ||
  dw raw 7 7 4 != 0 || dw raw 7 15 14 != 0 || dw raw 7 23 22 != 0 || dw raw 7 63 32 != 0

/-- Check 1 of creation: field legality (R186, R189). -/
def Desc.legal (raw : Nat) (d : Desc) : Bool :=
  !descReserved raw && d.kind != 3 && d.mode != 3 && decide (d.rank ≤ 4) && !d.shd.contains 3 &&
  (d.kind == kdData || d.fmt == 0) &&
  (upFrom 0 4).all (fun i => decide (i < d.rank) || (nth (0:Nat) d.ext i == 0 && nth (0:Int) d.str i == 0)) &&
  (d.genPair || d.pairOff == 0) && (d.kind == kdScale || d.blockDim == 0) && (d.dist || dw raw 7 63 0 == 0) &&
  (d.kind != kdIndex || (d.rank == 1 && (d.mode == mdRead || d.mode == mdRw))) &&
  (d.kind != kdScale || ((d.mode == mdRead || d.mode == mdRw) && decide (d.blockDim < d.rank))) &&
  (d.mode != mdReduce || (d.kind == kdData && decide (d.fmt ≤ 2) && !d.genPair)) &&
  (!d.scaled || (d.kind == kdData && decide (3 ≤ d.fmt) && decide (d.fmt ≤ 6))) &&
  (d.kind == kdIndex || (!d.wrap && !d.strict)) && (!d.genPair || d.pairOff != 0)

/-- Check 2 of creation: alignment (R191). -/
def Desc.aligned (d : Desc) : Bool :=
  d.base % 64 == 0 && (upFrom 1 3).all (fun i => decide (nth (0:Nat) d.ext i ≤ 1) || decide (nth (0:Int) d.str i % 64 = 0))

/-- Element width in bits (R187). -/
def Desc.width (d : Desc) : Nat := if d.kind = kdIndex then 32 else if d.kind = kdScale then 8 else fmtBits d.fmt

/-- Check 3 of creation: the group and sharding of a DIST descriptor (R202). -/
def State.distOk (s : State) (d : Desc) : Bool :=
  !d.dist ||
  (s.is Fld.GRP_CFG.EN d.group && s.get Fld.GRP_CFG.MEMBERS d.group == d.ga * d.gb &&
    decide (s.get Fld.GRP_CFG.MEMBERS d.group ≤ 64) &&
    decide ((d.shd.filter (· == 1)).length ≤ 1) && decide ((d.shd.filter (· == 2)).length ≤ 1))

/-- The extent a shard holds of a dimension of global extent e, at coordinate c of an axis of size g (R201). -/
def shardExtent (e g c : Nat) : Nat :=
  let b := ceilDiv e g
  Nat.min b (e - c * b)

/-- The descriptor with this device's local extents (R201, R203). -/
def State.localDesc (s : State) (d : Desc) : Desc :=
  if d.dist then
    let rho := s.get Fld.GRP_CFG.RANK d.group
    let a := rho % d.ga
    let b := rho / d.ga
    { d with ext := (upFrom 0 4).map (fun i =>
        let e := nth (0:Nat) d.ext i
        match nth (0:Nat) d.shd i with
        | 1 => shardExtent e d.ga a
        | 2 => shardExtent e d.gb b
        | _ => e) }
  else d

/-- The extents of the dimensions a descriptor has. -/
def Desc.exts (d : Desc) : List Nat := d.ext.take d.rank

/-- The element count N (R193). -/
def Desc.count (d : Desc) : Nat := d.exts.foldl (· * ·) 1

/-- Bytes of a row of dimension 0 (R192). -/
def Desc.rowBytes (d : Desc) : Nat := ceilDiv (nth (0:Nat) d.ext 0 * d.width) 8

/-- The descriptor's size in bytes (R193). -/
def Desc.size (d : Desc) : Nat := ceilDiv (d.count * d.width) 8

/-- The reach of dimension i from the base: stride × (extent − 1). -/
def Desc.span (d : Desc) (i : Nat) : Int := nth (0:Int) d.str i * (((nth (0:Nat) d.ext i : Nat) : Int) - 1)

/-- Lowest address of the footprint (R194). -/
def Desc.lo (d : Desc) : Int :=
  (upFrom 1 (d.rank - 1)).foldl (fun a i => a + (if d.span i < 0 then d.span i else 0)) (d.base : Int)

/-- Highest address of the footprint (R194). -/
def Desc.hi (d : Desc) : Int :=
  (upFrom 1 (d.rank - 1)).foldl (fun a i => a + (if d.span i < 0 then 0 else d.span i)) (d.base : Int) + d.rowBytes - 1

/-- Distance of half 1 from half 0 in bytes (R198). -/
def Desc.pairBytes (d : Desc) : Nat := d.pairOff * 0x200000

/-- Check 4 of creation: the footprint bounds (R194). -/
def Desc.bounded (d : Desc) : Bool :=
  d.count == 0 || (decide (0 ≤ d.lo) && decide (d.hi ≤ 0x3FFFFFFFFFF) &&
    (!d.genPair || decide (d.hi + d.pairBytes ≤ 0x3FFFFFFFFFF)))

/-- A dimension inserted by ascending absolute stride, ties in ascending dimension. -/
def insDim (d : Desc) (i : Nat) : List Nat → List Nat
  | [] => [i]
  | j :: l => if (nth (0:Int) d.str i).natAbs < (nth (0:Int) d.str j).natAbs then i :: j :: l else j :: insDim d i l

/-- The nesting test of R196 over dimensions in order. -/
def nestOk (d : Desc) : List Nat → Nat → Bool
  | [], _ => true
  | i :: l, span =>
    let st := (nth (0:Int) d.str i).natAbs
    if st < span then false else nestOk d l (st * (nth (0:Nat) d.ext i - 1) + span)

/-- Check 5 of creation: the one-to-one test of RW descriptors (R196). -/
def Desc.oneToOne (d : Desc) : Bool :=
  d.mode != mdRw || d.count == 0 ||
    nestOk d (((upFrom 1 (d.rank - 1)).filter (fun i => decide (1 < nth (0:Nat) d.ext i))).foldl (fun l i => insDim d i l) [])
      d.rowBytes

/-- Check 6 of creation: the half separation (R198). -/
def Desc.halvesApart (d : Desc) : Bool := !d.genPair || d.count == 0 || decide (d.hi - d.lo + 1 ≤ (d.pairBytes : Int))

/-- Check 7 of creation for one interval (R199). -/
def State.rangeOk (s : State) (p : Nat) (d : Desc) (lo hi : Nat) : Bool :=
  match s.reach p lo hi with
  | .own => true
  | .shared => d.mode == mdRead
  | .sbuf => !d.genPair
  | .none => false

/-- Check 7 of creation: the ranges, of each half (R199). -/
def State.rangesOk (s : State) (p : Nat) (d : Desc) : Bool :=
  d.count == 0 ||
    (s.rangeOk p d d.lo.toNat d.hi.toNat &&
      (!d.genPair || s.rangeOk p d (d.lo.toNat + d.pairBytes) (d.hi.toNat + d.pairBytes)))

/-- The seven checks of creation in their order (R200): the number of the first that fails, 0 when all pass. -/
def State.createFails (s : State) (p raw : Nat) : Nat :=
  let d := Desc.of raw
  if !d.legal raw then 1
  else if !d.aligned then 2
  else if !s.distOk d then 3
  else
    let d := s.localDesc d
    if !d.bounded then 4
    else if !d.oneToOne then 5
    else if !d.halvesApart then 6
    else if !s.rangesOk p d then 7
    else 0

/-- Whether creation accepts 64 bytes for a partition. -/
def State.createOk (s : State) (p raw : Nat) : Bool := s.createFails p raw == 0

/-- A descriptor as the engines use it: local extents, half 0 at its base. -/
def State.descOf (s : State) (raw : Nat) : Desc := s.localDesc (Desc.of raw)

/-- The base a read uses: the committed half (R198). -/
def State.readBase (s : State) (p : Nat) (d : Desc) : Nat :=
  if d.genPair then d.base + s.get Fld.STEP_STATE.GEN p * d.pairBytes else d.base

/-- The base a write uses: the working half (R198). -/
def State.writeBase (s : State) (p : Nat) (d : Desc) : Nat :=
  if d.genPair then d.base + (1 - s.get Fld.STEP_STATE.GEN p) * d.pairBytes else d.base

/-- Byte offsets of the rows of dimension 0 over dimensions listed from the innermost (logical order). -/
def offsetsOver (d : Desc) : List Nat → List Int
  | [] => [0]
  | i :: l =>
    (offsetsOver d l).flatMap (fun o => (upFrom 0 (nth (0:Nat) d.ext i)).map (fun (k : Nat) => o + nth (0:Int) d.str i * (k : Int)))

/-- Addresses of every row of dimension 0, in logical order. -/
def Desc.rowAddrs (d : Desc) (base : Nat) : List Nat :=
  if d.count = 0 then []
  else (offsetsOver d (upFrom 1 (d.rank - 1))).map (fun o => ((base : Int) + o).toNat)

/-- Addresses of the rows of dimension 0 of outermost index j, for rank 2 and above. -/
def Desc.subRows (d : Desc) (base j : Nat) : List Nat :=
  let o := nth (0:Int) d.str (d.rank - 1) * (j : Int)
  (offsetsOver d (upFrom 1 (d.rank - 2))).map (fun x => ((base : Int) + o + x).toNat)

/-- Pieces of memory that hold row j of a descriptor (R148): address and bytes of each, in order. -/
def Desc.rowPieces (d : Desc) (base j : Nat) : List (Nat × Nat) :=
  if d.rank = 1 then [(base + j * d.width / 8, d.width / 8)]
  else (d.subRows base j).map (fun a => (a, d.rowBytes))

/-- The extent E of the outermost dimension (R148). -/
def Desc.outer (d : Desc) : Nat := nth (0:Nat) d.ext (d.rank - 1)

/-- Bits of one row of dimension 0. -/
def Desc.rowBits (d : Desc) : Nat := nth (0:Nat) d.ext 0 * d.width

/-- Bits of one row j (R148): every element of one outermost index. -/
def Desc.outerBits (d : Desc) : Nat :=
  if d.rank = 1 then d.width else (d.exts.take (d.rank - 1)).foldl (· * ·) 1 * d.width

/-- Bit strings joined, the first lowest (R193: no padding between rows). -/
def joinBits (w : Nat) (l : List Nat) : Nat :=
  ((l.zip (upFrom 0 l.length)).foldl (fun acc e => acc + (e.1 % 2 ^ w) <<< (w * e.2)) 0)

/-- n bit strings of w bits cut from a number, the lowest first. -/
def cutBits (w v : Nat) (n : Nat) : List Nat := (upFrom 0 n).map (fun i => (v >>> (w * i)) % 2 ^ w)

/-- Whether a descriptor of rank 1 has rows of less than a byte (R148). -/
def Desc.subByteRow (d : Desc) : Bool := d.rank == 1 && d.kind == kdData && decide (d.width < 8)

end Sys2Proof.Machine
end

