-- ==== Sys2Proof/Machine/Fetch.lean ====
section
/-!
DEFINITION. A core's instruction: which core may run, the fetch at its program counter through the instruction buffer,
the fields of the word (R95–R98, R130), and the frame every Axver row runs in.
-/
namespace Sys2Proof.Machine

/-- The partition a core runs a block for, when its scalar unit may execute: a step is running, the core runs a block
and no WAIT holds it. -/
def State.runsFor (s : State) (c : Nat) : Option Nat :=
  let k := s.core c
  match s.partOf c with
  | some p =>
    if k.run = .running && k.semWait.isNone && (s.part p).phase = .active && s.isUp (dieOfCore c) then some p else none
  | none => none

/-- Register Xr of core c (R69). -/
def State.x (s : State) (c r : Nat) : Nat := if r = 0 then 0 else (nth 0#64 (s.core c).x r).toNat

/-- Register Xr of core c set; X0 discards the write (R69). -/
def State.setX (s : State) (c r v : Nat) : State :=
  if r = 0 then s else s.setCore c { s.core c with x := setNth (s.core c).x r (BitVec.ofNat 64 v) }

/-- The program counter of core c set. -/
def State.setPc (s : State) (c a : Nat) : State := s.setCore c { s.core c with pc := a }

/-- The program counter of core c moved past one word. -/
def State.next (s : State) (c : Nat) : State := s.setPc c ((s.core c).pc + 8)

/-- Flags joined into FP_FLAGS of core c. -/
def State.flag (s : State) (c fl : Nat) : State :=
  if fl = 0 then s else s.setWord Reg.FP_FLAGS c 0 (s.word Reg.FP_FLAGS c 0 ||| fl)

/-- What a fetch gives. -/
inductive Fetched where
  | word (w : Nat)
  | bad (f : CFault)
  deriving DecidableEq, Repr

/-- The word of a program counter in a held granule. -/
def wordIn (g : SMap Byte) (pc : Nat) : Nat := smBytes g pc 8

/-- A granule entered in the instruction buffer of 16 granules, in place of the oldest when it is full (R65). -/
def State.holdCode (s : State) (c g v : Nat) : State :=
  let k := s.core c
  let held := if 16 ≤ k.ibuf.length then k.ibuf.drop 1 else k.ibuf
  s.setCore c { k with ibuf := held ++ [(g, cellsOf (4096 * g) 4096 v)] }

/-- Instruction prefetch (R114): whether the granule that follows in the block is read ahead is a free choice each time a granule
enters the buffer; what it meets shows only when the fetch reaches it (DESIGN CHOICE; log 38). -/
def State.prefetchCode (s : State) (c p g : Nat) : State :=
  let k := s.core c
  if k.body + k.bodyLen ≤ 4096 * (g + 1) || k.ibuf.any (fun e => e.1 == g + 1) || !s.answers (4096 * (g + 1)) then s
  else
    match s.freeChoice with
    | (true, s) =>
      match s.computeGranule ⟨.fetch c, some p⟩ false false none (g + 1) with
      | (v, none, t) => t.holdCode c (g + 1) v
      | (_, some _, _) => s
    | (false, s) => s

/-- The fetch of core c at its program counter (R65, R67, R90): the word, or the fault, with the granule entered in the
instruction buffer of 16 granules when it was not held. -/
def State.fetch (s : State) (c p : Nat) : Fetched × State :=
  let k := s.core c
  let pc := k.pc
  let g := pc / 4096
  if pc < k.body || k.body + k.bodyLen < pc + 8 then (.bad ⟨cfPcRange, pc, none⟩, s)
  else
    match k.ibuf.find? (fun e => e.1 == g) with
    | some e => (.word (wordIn e.2 pc), s)
    | none =>
      match placeOf (4096 * g) with
      | .data _ _ | .sbuf _ _ =>
        let (v, f, s) := s.computeGranule ⟨.fetch c, some p⟩ false false none g
        match f with
        | some e => (.bad e, s)
        | none => (.word (wordIn (cellsOf (4096 * g) 4096 v) pc), (s.holdCode c g v).prefetchCode c p g)
      | _ => (.bad ⟨cfAddrUnmapped, pc, none⟩, s)

/-- A fault of the scalar unit at the instruction's address. -/
def State.scalarFault (s : State) (c code addr : Nat) (stack : Option Nat) : State :=
  s.coreFault c .scalar (s.core c).pc ⟨code, addr, stack⟩

/-- The frame of an Axver row: core c runs the word at its program counter when its OP is the row's. A failed fetch
faults whichever row is commanded; an illegal word faults with ILLEGAL_OP (R96); an OP of another row leaves the state
unchanged, since then this event does not occur. -/
def State.axRow (s : State) (c op : Nat) (legal : Nat → Bool) (f : Nat → Nat → State → State) :
    Host.Outcome State Fault Refusal :=
  match s.runsFor c with
  | none => ok s
  | some p =>
    match s.fetch c p with
    | (.bad e, t) => ok (t.coreFault c .fetch (s.core c).pc e)
    | (.word w, t) =>
      if w >>> 56 ≠ op then ok s
      else if legal w then ok (f p w t)
      else ok (t.scalarFault c cfIllegalOp 0 none)

/-- RD of the scalar formats (R98). -/
def wRD (w : Nat) : Nat := bits w 55 51
/-- RS1 (R98). -/
def wRS1 (w : Nat) : Nat := bits w 50 46
/-- RS2 (R98). -/
def wRS2 (w : Nat) : Nat := bits w 45 41
/-- RS3 (R98). -/
def wRS3 (w : Nat) : Nat := bits w 40 36
/-- CC (R98). -/
def wCC (w : Nat) : Nat := bits w 35 32
/-- SEL of format S (R98). -/
def wSEL (w : Nat) : Nat := bits w 39 32
/-- IMM32 (R98). -/
def wIMM (w : Nat) : Nat := bits w 31 0
/-- IMM32 or OFF32 sign-extended to 64 bits. -/
def wSImm (w : Nat) : Nat := ofSigned 64 (toSigned 32 (wIMM w))

/-- Whether each listed field is zero (R96). -/
def allZero (l : List Nat) : Bool := l.all (· == 0)

/-- Format R with RS1 and RS2 used. -/
def lgR2 (w : Nat) : Bool := allZero [wRS3 w, wCC w, wIMM w]
/-- Format R with RS1 used. -/
def lgR1 (w : Nat) : Bool := allZero [wRS2 w, wRS3 w, wCC w, wIMM w]
/-- Format R with RS1, RS2 and RS3 used. -/
def lgR3 (w : Nat) : Bool := allZero [wCC w, wIMM w]
/-- Format I. -/
def lgI (w : Nat) : Bool := bits w 45 32 == 0
/-- Format I of the shifts (R101). -/
def lgIsh (w : Nat) : Bool := bits w 45 32 == 0 && bits w 31 6 == 0
/-- Format L. -/
def lgL (w : Nat) : Bool := bits w 50 48 == 0
/-- Format B, with RD zero. -/
def lgBr (w : Nat) : Bool := bits w 55 51 == 0 && bits w 40 32 == 0 && bits w 2 0 == 0

/-- Engine instruction OPs (R129) and the scalar OPs (R97): whether an OP is defined. -/
def opDefined (op : Nat) : Bool :=
  [(0x01, 0x18), (0x20, 0x28), (0x2A, 0x2B), (0x30, 0x37), (0x38, 0x3B), (0x40, 0x45), (0x50, 0x57), (0x58, 0x59),
    (0x60, 0x65), (0x70, 0x74), (0x80, 0x80), (0x88, 0x9A), (0xA0, 0xA4), (0xB0, 0xB6), (0xC0, 0xC1),
    (0xD0, 0xD3)].any (fun r => decide (r.1 ≤ op) && decide (op ≤ r.2))

end Sys2Proof.Machine
end

