-- ==== Sys2Proof/Machine/Scalar.lean ====
section
/-!
DEFINITION. The scalar unit: integer, FP32, special-register and branch instructions (R99–R104, R111).
-/
namespace Sys2Proof.Machine

/-- A register-operand integer instruction: RD receives a function of RS1, RS2 and RS3, and flags join FP_FLAGS. -/
def State.axOp (s : State) (c op : Nat) (legal : Nat → Bool) (f : Nat → Nat → Nat → Nat × Nat) :
    Host.Outcome State Fault Refusal :=
  s.axRow c op legal (fun _ w s =>
    let (v, fl) := f (s.x c (wRS1 w)) (s.x c (wRS2 w)) (s.x c (wRS3 w))
    ((s.flag c fl).setX c (wRD w) v).next c)

/-- An immediate integer instruction: RD receives a function of RS1 and the sign-extended immediate. -/
def State.axImm (s : State) (c op : Nat) (legal : Nat → Bool) (f : Nat → Nat → Nat) :
    Host.Outcome State Fault Refusal :=
  s.axRow c op legal (fun _ w s => (s.setX c (wRD w) (f (s.x c (wRS1 w)) (wSImm w))).next c)

/-- Signed less-than of 64-bit words. -/
def slt64 (a b : Nat) : Bool := decide (toSigned 64 a < toSigned 64 b)

/-- All ones, the quotient of a division by zero (R69). -/
def ones64 : Nat := 0xFFFFFFFFFFFFFFFF

/-- Signed quotient (R69, R100). -/
def divS (a b : Nat) : Nat × Nat :=
  if b = 0 then (ones64, flDZ) else (ofSigned 64 (Int.tdiv (toSigned 64 a) (toSigned 64 b)), 0)
/-- Unsigned quotient (R69). -/
def divU (a b : Nat) : Nat × Nat := if b = 0 then (ones64, flDZ) else (a / b, 0)
/-- Signed remainder with the sign of the dividend (R69, R100). -/
def remS (a b : Nat) : Nat × Nat :=
  if b = 0 then (a, flDZ) else (ofSigned 64 (Int.tmod (toSigned 64 a) (toSigned 64 b)), 0)
/-- Unsigned remainder (R69). -/
def remU (a b : Nat) : Nat × Nat := if b = 0 then (a, flDZ) else (a % b, 0)

/-- Leading zero bits of a 64-bit word. -/
def clz64 (a : Nat) : Nat := if a = 0 then 64 else 63 - Nat.log2 a
/-- Set bits of a 64-bit word. -/
def popc64 (a : Nat) : Nat := (setBitsOf a 64).length

/-- ADD (R99). -/
def execAxAdd (c : Fin 12) (s : State) := s.axOp c 0x01 lgR2 (fun a b _ => (a + b, 0))
/-- SUB (R99). -/
def execAxSub (c : Fin 12) (s : State) := s.axOp c 0x02 lgR2 (fun a b _ => (a + 2 ^ 64 - b, 0))
/-- AND (R99). -/
def execAxAnd (c : Fin 12) (s : State) := s.axOp c 0x03 lgR2 (fun a b _ => (a &&& b, 0))
/-- OR (R99). -/
def execAxOr (c : Fin 12) (s : State) := s.axOp c 0x04 lgR2 (fun a b _ => (a ||| b, 0))
/-- XOR (R99). -/
def execAxXor (c : Fin 12) (s : State) := s.axOp c 0x05 lgR2 (fun a b _ => (a ^^^ b, 0))
/-- SLL (R99). -/
def execAxSll (c : Fin 12) (s : State) := s.axOp c 0x06 lgR2 (fun a b _ => (a <<< (b % 64), 0))
/-- SRL (R99). -/
def execAxSrl (c : Fin 12) (s : State) := s.axOp c 0x07 lgR2 (fun a b _ => (a >>> (b % 64), 0))
/-- SRA (R99). -/
def execAxSra (c : Fin 12) (s : State) := s.axOp c 0x08 lgR2 (fun a b _ => (ofSigned 64 (toSigned 64 a >>> (b % 64)), 0))
/-- SLT (R99). -/
def execAxSlt (c : Fin 12) (s : State) := s.axOp c 0x09 lgR2 (fun a b _ => (b2n (slt64 a b), 0))
/-- SLTU (R99). -/
def execAxSltu (c : Fin 12) (s : State) := s.axOp c 0x0A lgR2 (fun a b _ => (b2n (decide (a < b)), 0))
/-- MUL (R99). -/
def execAxMul (c : Fin 12) (s : State) := s.axOp c 0x0B lgR2 (fun a b _ => (a * b, 0))
/-- MULH (R99). -/
def execAxMulh (c : Fin 12) (s : State) :=
  s.axOp c 0x0C lgR2 (fun a b _ => (ofSigned 128 (toSigned 64 a * toSigned 64 b) >>> 64, 0))
/-- MULHU (R99). -/
def execAxMulhu (c : Fin 12) (s : State) := s.axOp c 0x0D lgR2 (fun a b _ => ((a * b) >>> 64, 0))
/-- DIV (R99, R100). -/
def execAxDiv (c : Fin 12) (s : State) := s.axOp c 0x0E lgR2 (fun a b _ => divS a b)
/-- DIVU (R99). -/
def execAxDivu (c : Fin 12) (s : State) := s.axOp c 0x0F lgR2 (fun a b _ => divU a b)
/-- REM (R99, R100). -/
def execAxRem (c : Fin 12) (s : State) := s.axOp c 0x10 lgR2 (fun a b _ => remS a b)
/-- REMU (R99). -/
def execAxRemu (c : Fin 12) (s : State) := s.axOp c 0x11 lgR2 (fun a b _ => remU a b)
/-- MIN (R99). -/
def execAxMin (c : Fin 12) (s : State) := s.axOp c 0x12 lgR2 (fun a b _ => (if slt64 b a then b else a, 0))
/-- MAX (R99). -/
def execAxMax (c : Fin 12) (s : State) := s.axOp c 0x13 lgR2 (fun a b _ => (if slt64 a b then b else a, 0))
/-- MINU (R99). -/
def execAxMinu (c : Fin 12) (s : State) := s.axOp c 0x14 lgR2 (fun a b _ => (Nat.min a b, 0))
/-- MAXU (R99). -/
def execAxMaxu (c : Fin 12) (s : State) := s.axOp c 0x15 lgR2 (fun a b _ => (Nat.max a b, 0))
/-- CLZ (R99). -/
def execAxClz (c : Fin 12) (s : State) := s.axOp c 0x16 lgR1 (fun a _ _ => (clz64 a, 0))
/-- POPC (R99). -/
def execAxPopc (c : Fin 12) (s : State) := s.axOp c 0x17 lgR1 (fun a _ _ => (popc64 a, 0))
/-- SEL (R99). -/
def execAxSel (c : Fin 12) (s : State) := s.axOp c 0x18 lgR3 (fun a b d => (if a ≠ 0 then b else d, 0))

/-- ADDI (R101). -/
def execAxAddi (c : Fin 12) (s : State) := s.axImm c 0x20 lgI (fun a i => a + i)
/-- ANDI (R101). -/
def execAxAndi (c : Fin 12) (s : State) := s.axImm c 0x21 lgI (fun a i => a &&& i)
/-- ORI (R101). -/
def execAxOri (c : Fin 12) (s : State) := s.axImm c 0x22 lgI (fun a i => a ||| i)
/-- XORI (R101). -/
def execAxXori (c : Fin 12) (s : State) := s.axImm c 0x23 lgI (fun a i => a ^^^ i)
/-- SLLI (R101). -/
def execAxSlli (c : Fin 12) (s : State) := s.axImm c 0x24 lgIsh (fun a i => a <<< (i % 64))
/-- SRLI (R101). -/
def execAxSrli (c : Fin 12) (s : State) := s.axImm c 0x25 lgIsh (fun a i => a >>> (i % 64))
/-- SRAI (R101). -/
def execAxSrai (c : Fin 12) (s : State) := s.axImm c 0x26 lgIsh (fun a i => ofSigned 64 (toSigned 64 a >>> (i % 64)))
/-- SLTI (R101). -/
def execAxSlti (c : Fin 12) (s : State) := s.axImm c 0x27 lgI (fun a i => b2n (slt64 a i))
/-- SLTIU (R101). -/
def execAxSltiu (c : Fin 12) (s : State) := s.axImm c 0x28 lgI (fun a i => b2n (decide (a < i)))
/-- LI (R101). -/
def execAxLi (c : Fin 12) (s : State) :=
  s.axRow c 0x2A lgL (fun _ w s => (s.setX c (wRD w) (ofSigned 64 (toSigned 48 (bits w 47 0)))).next c)
/-- LIH (R101). -/
def execAxLih (c : Fin 12) (s : State) :=
  s.axRow c 0x2B (fun w => lgL w && bits w 47 16 == 0)
    (fun _ w s => (s.setX c (wRD w) (setBits (s.x c (wRD w)) 63 48 (bits w 15 0))).next c)

/-- An FP32 instruction on bits [31:0] of its registers, zero above (R70). -/
def lo32 (a : Nat) : Nat := a % 2 ^ 32

/-- FADD (R102). -/
def execAxFadd (c : Fin 12) (s : State) := s.axOp c 0x30 lgR2 (fun a b _ => f32Add (lo32 a) (lo32 b))
/-- FSUB (R102). -/
def execAxFsub (c : Fin 12) (s : State) := s.axOp c 0x31 lgR2 (fun a b _ => f32Sub (lo32 a) (lo32 b))
/-- FMUL (R102). -/
def execAxFmul (c : Fin 12) (s : State) := s.axOp c 0x32 lgR2 (fun a b _ => f32Mul (lo32 a) (lo32 b))
/-- FDIV (R102). -/
def execAxFdiv (c : Fin 12) (s : State) := s.axOp c 0x33 lgR2 (fun a b _ => f32Div (lo32 a) (lo32 b))
/-- FMA (R102). -/
def execAxFma (c : Fin 12) (s : State) := s.axOp c 0x34 lgR3 (fun a b d => f32Fma (lo32 a) (lo32 b) (lo32 d))
/-- FSQRT (R102). -/
def execAxFsqrt (c : Fin 12) (s : State) := s.axOp c 0x35 lgR1 (fun a _ _ => f32Sqrt (lo32 a))

/-- An FP32 comparison under a condition code (R102): the result and its flags. -/
def f32Cmp (cc a b : Nat) : Nat × Nat :=
  let x := of32 a
  let y := of32 b
  let nan := fvIsNan x || fvIsNan y
  match cc with
  | 0 => (b2n (!nan && fvEq x y), 0)
  | 1 => (b2n (!nan && fvLt x y), flIf nan flNV)
  | 2 => (b2n (!nan && (fvLt x y || fvEq x y)), flIf nan flNV)
  | _ => (b2n nan, 0)

/-- A conversion under a condition code (R102, R103). -/
def f32Cvt (cc a : Nat) : Nat × Nat :=
  match cc with
  | 0 => f32ToInt true (lo32 a)
  | 1 => f32ToInt false (lo32 a)
  | 2 => intToF32 true a
  | _ => intToF32 false a

/-- FCMP (R102). -/
def execAxFcmp (c : Fin 12) (s : State) :=
  s.axRow c 0x36 (fun w => allZero [wRS3 w, wIMM w] && decide (wCC w ≤ 3)) (fun _ w s =>
    let (v, fl) := f32Cmp (wCC w) (lo32 (s.x c (wRS1 w))) (lo32 (s.x c (wRS2 w)))
    ((s.flag c fl).setX c (wRD w) v).next c)

/-- FCVT (R102, R103). -/
def execAxFcvt (c : Fin 12) (s : State) :=
  s.axRow c 0x37 (fun w => allZero [wRS2 w, wRS3 w, wIMM w] && decide (wCC w ≤ 3)) (fun _ w s =>
    let (v, fl) := f32Cvt (wCC w) (s.x c (wRS1 w))
    ((s.flag c fl).setX c (wRD w) v).next c)

/-- Whether a vector instruction that advances SR_SEED waits in the queue: R77 orders its draws. -/
def seedBusy (k : CoreSt) : Bool := k.queue.any (fun e => e.eng = .ve && bit e.word 15)

/-- RDS (R104). -/
def execAxRds (c : Fin 12) (s : State) :=
  s.axRow c 0x38 (fun w => allZero [wRS1 w, wRS2 w, wRS3 w, wIMM w] && decide (wCC w ≤ 4)) (fun p w s =>
    let k := s.core c
    let v := match wCC w with
      | 0 => k.vl
      | 1 => k.vrow
      | 2 => k.seed.toNat
      | 3 => c.val
      | _ => p
    if wCC w = 2 && seedBusy k then s else (s.setX c (wRD w) v).next c)

/-- WRS (R104). -/
def execAxWrs (c : Fin 12) (s : State) :=
  s.axRow c 0x39 (fun w => allZero [wRD w, wRS2 w, wRS3 w, wIMM w] && (wCC w == 1 || wCC w == 2)) (fun _ w s =>
    let k := s.core c
    let a := s.x c (wRS1 w)
    if wCC w = 1 then (s.setCore c { k with vrow := clamp 1 4096 a }).next c
    else if seedBusy k then s
    else (s.setCore c { k with seed := BitVec.ofNat 64 a }).next c)

/-- VL set to a request held at 262,144, with RD (R104). -/
def State.setVl (s : State) (c rd req : Nat) : State :=
  let v := Nat.min req 262144
  ((s.setCore c { s.core c with vl := v }).setX c rd v).next c

/-- SETVL (R104). -/
def execAxSetvl (c : Fin 12) (s : State) := s.axRow c 0x3A lgR1 (fun _ w s => s.setVl c (wRD w) (s.x c (wRS1 w)))
/-- SETVLI (R104). -/
def execAxSetvli (c : Fin 12) (s : State) :=
  s.axRow c 0x3B (fun w => bits w 50 32 == 0) (fun _ w s => s.setVl c (wRD w) (wIMM w))

/-- A conditional branch (R111): the condition on RS1 and RS2 picks the branch's own address + OFF32, or the next word. -/
def State.axBranch (s : State) (c op : Nat) (f : Nat → Nat → Bool) : Host.Outcome State Fault Refusal :=
  s.axRow c op lgBr (fun _ w s =>
    if f (s.x c (wRS1 w)) (s.x c (wRS2 w)) then s.setPc c (((s.core c).pc + wSImm w) % 2 ^ 64) else s.next c)

/-- BEQ (R111). -/
def execAxBeq (c : Fin 12) (s : State) := s.axBranch c 0x50 (fun a b => a == b)
/-- BNE (R111). -/
def execAxBne (c : Fin 12) (s : State) := s.axBranch c 0x51 (fun a b => a != b)
/-- BLT (R111). -/
def execAxBlt (c : Fin 12) (s : State) := s.axBranch c 0x52 (fun a b => slt64 a b)
/-- BGE (R111). -/
def execAxBge (c : Fin 12) (s : State) := s.axBranch c 0x53 (fun a b => !slt64 a b)
/-- BLTU (R111). -/
def execAxBltu (c : Fin 12) (s : State) := s.axBranch c 0x54 (fun a b => decide (a < b))
/-- BGEU (R111). -/
def execAxBgeu (c : Fin 12) (s : State) := s.axBranch c 0x55 (fun a b => decide (b ≤ a))

/-- JAL (R111). -/
def execAxJal (c : Fin 12) (s : State) :=
  s.axRow c 0x56 (fun w => bits w 50 32 == 0 && bits w 2 0 == 0) (fun _ w s =>
    let pc := (s.core c).pc
    (s.setX c (wRD w) (pc + 8)).setPc c ((pc + wSImm w) % 2 ^ 64))

/-- JALR (R111): RS1 is read before RD is written. OFF32 bits [2:0] are zero under R111. -/
def execAxJalr (c : Fin 12) (s : State) :=
  s.axRow c 0x57 (fun w => bits w 45 32 == 0 && bits w 2 0 == 0) (fun _ w s =>
    let pc := (s.core c).pc
    let t := (s.x c (wRS1 w) + wSImm w) % 2 ^ 64
    (s.setX c (wRD w) (pc + 8)).setPc c (t / 8 * 8))

/-- NOP (R123). -/
def execAxNop (c : Fin 12) (s : State) := s.axRow c 0x70 (fun w => bits w 55 0 == 0) (fun _ _ s => s.next c)

/-- An undefined OP faults with ILLEGAL_OP (R96). -/
def execUndefinedOpcode (c : Fin 12) (s : State) : Host.Outcome State Fault Refusal :=
  match s.runsFor c with
  | none => ok s
  | some p =>
    match s.fetch c p with
    | (.bad _, _) => ok s
    | (.word w, t) => if opDefined (w >>> 56) then ok s else ok (t.scalarFault c cfIllegalOp 0 none)

/-- A fetch outside the block faults with PC_RANGE (R67). -/
def execPcRangeFetch (c : Fin 12) (s : State) : Host.Outcome State Fault Refusal :=
  match s.runsFor c with
  | none => ok s
  | some p =>
    match s.fetch c p with
    | (.bad e, t) => if e.code = cfPcRange then ok (t.coreFault c .fetch (s.core c).pc e) else ok s
    | (.word _, _) => ok s

end Sys2Proof.Machine
end

