-- ==== Sys2Proof/Machine/ScalarMem.lean ====
section
/-!
DEFINITION. The scalar unit's memory accesses, fences, semaphores and block control (R105–R110, R115–R127), and the
store queue.
-/
namespace Sys2Proof.Machine

/-- The access of core c's scalar unit for partition p. -/
def scalarWho (c p : Nat) : Who := ⟨.scalar c, some p⟩

/-- Whether a waiting request belongs to the scalar unit, XE or PIP of core c. -/
def Req.ofCore (r : Req) (c : Nat) : Bool := r.agent = .scalar c || r.agent = .xe c || r.agent = .pip c

/-- Whether a request that satisfies a test waits at any pseudo-channel. -/
def State.anyReq (s : State) (f : Req → Bool) : Bool := s.stks.any (fun k => k.queue.any (fun e => e.2.any f))

/-- OPs of queued engine instructions that read memory. -/
def readsMemory (op : Nat) : Bool := [0xB0, 0xB2, 0xB3, 0xB4, 0xB5, 0xB6].contains op
/-- OPs of queued engine instructions that write memory or hand work over as a write (R271). -/
def writesMemory (op : Nat) : Bool := [0xB1, 0xB2, 0xB4, 0xB5, 0xC0, 0xD1].contains op

/-- Whether a queue entry of a core's XE or PIP has an OP that satisfies a test. -/
def CoreSt.queued (k : CoreSt) (f : Nat → Bool) : Bool := k.queue.any (fun e => f (e.word >>> 56))

/-- Whether core c has a batch whose words or payload are still being delivered. -/
def State.delivering (s : State) (c : Nat) : Bool :=
  s.batches.any (fun b => b.core == c && b.item.isNone && (!b.words.isEmpty || !b.await.isEmpty))

/-- Whether every earlier write of core c is performed. -/
def State.writesDone (s : State) (c : Nat) : Bool :=
  (s.core c).stq.isEmpty && !(s.core c).queued writesMemory && !s.delivering c &&
    !s.anyReq (fun r => r.ofCore c && r.isWrite)

/-- Whether every earlier read of core c is performed. -/
def State.readsDone (s : State) (c : Nat) : Bool :=
  !(s.core c).queued readsMemory && !s.anyReq (fun r => r.ofCore c && !r.isWrite)

/-- The condition of a FENCE of kind FULL, and of a release (R115, R116). -/
def State.fullDone (s : State) (c : Nat) : Bool := s.writesDone c && s.readsDone c

/-- The read cache of core c invalidated (R86). -/
def State.invalidate (s : State) (c : Nat) : State := s.setCore c { s.core c with rc := [] }

/-- The stack of an address, for the memory faults of R90. -/
def stackOfAddr (a : Nat) : Option Nat := match placeOf a with | .data t _ => some t | _ => none

/-- The checks of R106 on an access of n bytes at a that must be a multiple of al, in order, with the domain behind
them: the fault, if any. -/
def State.scalarCheck (s : State) (p a n al : Nat) (write : Bool) : Option CFault :=
  if a % al ≠ 0 then some ⟨cfMisaligned, a % 2 ^ 42, none⟩
  else if 2 ^ 42 < a + n || !s.scalarReach p a n write then some ⟨cfAddrRange, a % 2 ^ 42, none⟩
  else if !s.answers a then some ⟨cfDomainDown, a, stackOfAddr a⟩
  else none

/-- Whether a queued store of core c overlaps n bytes at a (R268: a source reads its own earlier writes). -/
def CoreSt.storeOverlaps (k : CoreSt) (a n : Nat) : Bool :=
  k.stq.any (fun e => decide (e.addr < a + n) && decide (a < e.addr + e.size))

/-- n bytes (within a line) read at the point of coherence by the scalar unit. -/
def State.loadVolatile (s : State) (c p a n : Nat) : Nat × Option CFault × State :=
  let (v, bad, s) := s.readBytes (scalarWho c p) a n
  let s := s.traffic (scalarWho c p) false false (a / 64 * 64) 64
  (v, bad.map (fun l => ⟨cfPoison, l, stackOfAddr a⟩), s)

/-- n bytes (within a line) read as a plain load does: through the read cache when it is enabled (R107). -/
def State.loadPlain (s : State) (c p a n : Nat) : Nat × Option CFault × State :=
  match placeOf a with
  | .data _ _ =>
    if bit (s.core c).cfg 16 then
      let (x, s) := s.cachedLine (scalarWho c p) (some c) (a / 64)
      match x with
      | some v => ((v >>> (8 * (a % 64))) % 2 ^ (8 * n), none, s)
      | none => (0, some ⟨cfPoison, a / 64 * 64, stackOfAddr a⟩, s)
    else s.loadVolatile c p a n
  | _ => s.loadVolatile c p a n

/-- OFF32 added to RS1 modulo 2^64. -/
def State.memAddr (s : State) (c w : Nat) : Nat := (s.x c (wRS1 w) + wSImm w) % 2 ^ 64

/-- ORD of format M. -/
def wORD (w : Nat) : Nat := bits w 35 34
/-- Access size of format M in bytes. -/
def wBytes (w : Nat) : Nat := 2 ^ bits w 33 32

/-- The scalar unit's fault as an operation reports it. -/
def State.faultScalar (s : State) (c : Nat) (f : CFault) : State := s.coreFault c .scalar (s.core c).pc f

/-- A load (R105–R107): plain, volatile or acquire, extended by f. -/
def State.axLoad (s : State) (c op : Nat) (f : Nat → Nat → Nat) : Host.Outcome State Fault Refusal :=
  s.axRow c op (fun w => allZero [wRS2 w, wRS3 w] && decide (wORD w ≤ 2)) (fun p w s =>
    let n := wBytes w
    let a := s.memAddr c w
    match s.scalarCheck p a n n false with
    | some e => s.faultScalar c e
    | none =>
      if (s.core c).storeOverlaps a n then s
      else
        let (v, e, s) := if wORD w = 0 then s.loadPlain c p a n else s.loadVolatile c p a n
        match e with
        | some e => s.faultScalar c e
        | none =>
          let s := if wORD w = 2 then s.invalidate c else s
          (s.setX c (wRD w) (f n v)).next c)

/-- LD (R105–R107). -/
def execAxLd (c : Fin 12) (s : State) := s.axLoad c 0x40 (fun _ v => v)
/-- LDS (R105–R107). -/
def execAxLds (c : Fin 12) (s : State) := s.axLoad c 0x41 (fun n v => ofSigned 64 (toSigned (8 * n) v))

/-- A store entered in the store queue (R109). -/
def State.enterStore (s : State) (c a n v : Nat) : State :=
  let k := s.core c
  (s.setCore c { k with stq := k.stq ++ [⟨k.pc, a, n, v⟩] }).next c

/-- ST (R105, R106, R109, R116). -/
def execAxSt (c : Fin 12) (s : State) :=
  s.axRow c 0x42 (fun w => allZero [wRD w, wRS3 w] && (wORD w == 0 || wORD w == 2)) (fun p w s =>
    let n := wBytes w
    let a := s.memAddr c w
    match s.scalarCheck p a n n true with
    | some e => s.faultScalar c e
    | none =>
      if 16 ≤ (s.core c).stq.length || (wORD w == 2 && !s.fullDone c) then s
      else s.enterStore c a n (s.x c (wRS2 w) % 2 ^ (8 * n)))

/-- n bytes written at the point of coherence by core c's scalar unit or XE: the granule opened, the read cache
updated (R87, R108). -/
def State.coreWrite (s : State) (w : Who) (c a n v : Nat) : State :=
  let s := s.writeOpen w a n v
  let s := s.traffic w false true (a / 64 * 64) (64 * ((a + n - 1) / 64 - a / 64 + 1))
  s.updateCache c a n v

/-- A queued store performed, or its DOMAIN_DOWN fault (R106, R109). -/
def State.performStore (s : State) (c p : Nat) (e : StoreEnt) : State :=
  if s.answers e.addr then s.coreWrite (scalarWho c p) c e.addr e.size e.data
  else s.coreFault c .scalar e.pc ⟨cfDomainDown, e.addr, stackOfAddr e.addr⟩

/-- The destination an address belongs to (R268): a stack, or a die's shared buffer. -/
def destOf (a : Nat) : Nat :=
  match placeOf a with
  | .data t _ => t
  | .csum t => t
  | .sbuf d _ => 20 + d
  | _ => 22

/-- Places in the store queue of the stores that may be performed next: the oldest to each destination (R109, R268). -/
def CoreSt.nextStores (k : CoreSt) : List Nat :=
  (upFrom 0 k.stq.length).filter (fun i =>
    match k.stq[i]? with
    | some e => (k.stq.take i).all (fun x => destOf x.addr != destOf e.addr)
    | none => false)

/-- STORE_QUEUE_DRAIN (R109, R268): the oldest queued store to some destination is performed. The queue writes through in program
order, and the stores of one source to different destinations are performed in no order: which goes first is a free choice. -/
def execStoreQueueDrain (c : Fin 12) (s : State) : Host.Outcome State Fault Refusal :=
  let k := s.core c
  let l := k.nextStores
  let (j, s) := if l.length ≤ 1 then (0, s) else s.freeBelow l.length
  let i := nth 0 l j
  match k.stq[i]?, s.partOf c with
  | some e, some p => ok ((s.setCore c { k with stq := k.stq.eraseIdx i }).performStore c p e)
  | _, _ => ok s

/-- An atomic read-modify-write at the point of coherence (R105, R110, R116, R117). -/
def State.axAtomic (s : State) (c op : Nat) (cas : Bool) (f : Nat → Nat → Nat → Nat) :
    Host.Outcome State Fault Refusal :=
  s.axRow c op (fun w => (cas || wRS3 w == 0) && wBytes w == 8 && wORD w != 1) (fun p w s =>
    let a := s.memAddr c w
    match s.scalarCheck p a 8 8 true with
    | some e => s.faultScalar c e
    | none =>
      if !(s.core c).stq.isEmpty || (wORD w == 3 && !s.fullDone c) then s
      else
        let (old, e, s) := s.loadVolatile c p a 8
        match e with
        | some e => s.faultScalar c e
        | none =>
          let new := f old (s.x c (wRS2 w)) (s.x c (wRS3 w)) % 2 ^ 64
          let s := s.coreWrite (scalarWho c p) c a 8 new
          let s := if 2 ≤ wORD w then s.invalidate c else s
          (s.setX c (wRD w) old).next c)

/-- AMOADD (R105, R110). -/
def execAxAmoadd (c : Fin 12) (s : State) := s.axAtomic c 0x43 false (fun o a _ => o + a)
/-- AMOSWAP (R105, R110). -/
def execAxAmoswap (c : Fin 12) (s : State) := s.axAtomic c 0x44 false (fun _ a _ => a)
/-- AMOCAS (R105, R110): an unequal comparison writes the old value back. -/
def execAxAmocas (c : Fin 12) (s : State) := s.axAtomic c 0x45 true (fun o a b => if o = b then a else o)

/-- FENCE (R115): it stalls until the condition of its kind holds. -/
def execAxFence (c : Fin 12) (s : State) :=
  s.axRow c 0x60 (fun w => allZero [bits w 55 40, wIMM w] && decide (wSEL w ≤ 2)) (fun _ w s =>
    let done := match wSEL w with
      | 0 => s.fullDone c
      | 1 => s.writesDone c
      | _ => s.readsDone c
    if done then s.next c else s)

/-- CINV (R118). -/
def execAxCinv (c : Fin 12) (s : State) :=
  s.axRow c 0x61 (fun w => bits w 55 0 == 0) (fun _ _ s => (s.invalidate c).next c)

/-- The count of semaphore i of partition p. -/
def State.sem (s : State) (p i : Nat) : Nat := s.get Fld.SEM_VAL.COUNT p i
/-- The WAITs blocked on semaphore i of partition p, in arrival order: core and n (R121). -/
def State.semQueue (s : State) (p i : Nat) : List (Nat × Nat) := smGet [] (s.part p).semq i
/-- The queue of semaphore i replaced. -/
def State.setSemQueue (s : State) (p i : Nat) (q : List (Nat × Nat)) : State :=
  s.setPart p { s.part p with semq := smPut [] (s.part p).semq i q }

/-- A WAIT completes: the count is taken, the acquire performed, and the core goes on (R117, R120). -/
def State.completeWait (s : State) (p i c n : Nat) : State :=
  let s := s.set Fld.SEM_VAL.COUNT (s.sem p i - n) p i
  let s := (s.invalidate c)
  (s.setCore c { s.core c with semWait := none }).next c

/-- The WAITs at the head of a queue that the count satisfies complete, in arrival order (R121). -/
def State.grantWaits (s : State) (p i : Nat) : List (Nat × Nat) → State
  | [] => s.setSemQueue p i []
  | (c, n) :: q => if n ≤ s.sem p i then (s.completeWait p i c n).grantWaits p i q else s.setSemQueue p i ((c, n) :: q)

/-- A signal of n on semaphore i of partition p, held at 0xFFFF_FFFF, with the WAITs it satisfies (R120, R121). -/
def State.signal (s : State) (p i n : Nat) : State :=
  let s := s.set Fld.SEM_VAL.COUNT (satAdd 0xFFFFFFFF (s.sem p i) n) p i
  s.grantWaits p i (s.semQueue p i)

/-- The operand n of a semaphore instruction (R120). -/
def State.semN (s : State) (c w : Nat) : Nat := (s.x c (wRS1 w) + wIMM w) % 2 ^ 32

/-- The fields of a semaphore instruction: RS2 and bit 40 zero, SEL below 64. -/
def lgSem (w : Nat) : Bool := allZero [bits w 45 40] && decide (wSEL w < 64)

/-- SIG (R116, R120). -/
def execAxSig (c : Fin 12) (s : State) :=
  s.axRow c 0x62 (fun w => lgSem w && wRD w == 0) (fun p w s =>
    if s.fullDone c then (s.signal p (wSEL w) (s.semN c w)).next c else s)

/-- WAIT (R117, R120, R121). -/
def execAxWait (c : Fin 12) (s : State) :=
  s.axRow c 0x63 (fun w => lgSem w && wRD w == 0) (fun p w s =>
    let i := wSEL w
    let n := s.semN c w
    if (s.semQueue p i).isEmpty && decide (n ≤ s.sem p i) then s.completeWait p i c n
    else (s.setSemQueue p i (s.semQueue p i ++ [(c.val, n)])).setCore c { s.core c with semWait := some (i, n) })

/-- TRYW (R117, R120). -/
def execAxTryw (c : Fin 12) (s : State) :=
  s.axRow c 0x64 lgSem (fun p w s =>
    let i := wSEL w
    let n := s.semN c w
    if (s.semQueue p i).isEmpty && decide (n ≤ s.sem p i) then
      (((s.set Fld.SEM_VAL.COUNT (s.sem p i - n) p i).invalidate c).setX c (wRD w) 1).next c
    else (s.setX c (wRD w) 0).next c)

/-- SEMRD (R120). -/
def execAxSemrd (c : Fin 12) (s : State) :=
  s.axRow c 0x65 (fun w => lgSem w && allZero [wRS1 w, wIMM w]) (fun p w s => (s.setX c (wRD w) (s.sem p (wSEL w))).next c)

/-- END (R67): the scalar unit is done; the block ends when its engines are. -/
def execAxEnd (c : Fin 12) (s : State) :=
  s.axRow c 0x71 (fun w => bits w 55 0 == 0) (fun _ _ s => let s := s.next c; s.setCore c { s.core c with run := .ended })

/-- Whether every earlier scalar access of core c is performed (R124). -/
def State.scalarDone (s : State) (c : Nat) : Bool :=
  (s.core c).stq.isEmpty && !s.anyReq (fun r => r.agent = .scalar c)

/-- TWAIT (R68, R124). -/
def execAxTwait (c : Fin 12) (s : State) :=
  s.axRow c 0x72 (fun w => bits w 55 0 == 0) (fun _ _ s =>
    if s.scalarDone c then s.setCore c { s.core c with run := .tickWait } else s)

/-- POST (R125, R126). -/
def execAxPost (c : Fin 12) (s : State) :=
  s.axRow c 0x73 (fun w =>
      allZero [wRD w, bits w 45 40] && decide (wSEL w ≤ 15) && wIMM w % 8 == 0 && decide (8 ≤ wIMM w) &&
        decide (wIMM w ≤ 256)) (fun p w s =>
    let a := s.x c (wRS1 w)
    let n := wIMM w
    match s.scalarCheck p a n 8 false with
    | some e => s.faultScalar c e
    | none =>
      let k := s.part p
      if [0, 1, 3].contains (wSEL w) then (s.set Fld.SERVE_ERR.POST_RSVD 1 p).next c
      else if !(s.core c).stq.isEmpty || 8192 ≤ k.staging.length then s
      else
        let (v, bad, s) := s.readBytes (scalarWho c p) a n
        let s := s.traffic (scalarWho c p) false false (a / 64 * 64) (64 * ((a + n - 1) / 64 - a / 64 + 1))
        match bad with
        | some l => s.faultScalar c ⟨cfPoison, l, stackOfAddr a⟩
        | none =>
          let k := s.part p
          (s.setPart p { k with staging := k.staging ++ [⟨wSEL w, c.val, bytesOf n v⟩] }).next c)

/-- Window length W of partition p in nanoseconds (R33). -/
def State.windowNs (s : State) (p : Nat) : Nat := s.stepLen p * s.periodNs

/-- Length of the eve of partition p in nanoseconds (R34), under the EVE_PM in force. -/
def State.eveNs (s : State) (p : Nat) : Nat :=
  ceilDiv (s.stepLen p * s.get Fld.TICK_PERIOD.PERIOD_US * bits (s.part p).stepCfg 41 32) 1000 * 1000

/-- The window time RDWIN selects (R127), in nanoseconds of TICK_COUNT, before the local copy's deviation. -/
def State.winTime (s : State) (p sel : Nat) : Int :=
  let o := (s.part p).openAt
  match sel with
  | 0 => (s.now : Int) - o
  | 1 => (o : Int) + s.windowNs p - s.eveNs p - s.now
  | _ => (o : Int) + s.windowNs p - s.now

/-- RDWIN (R127): the core's local copy lies within 20 ns of TICK_COUNT; the deviation is a free value. -/
def execAxRdwin (c : Fin 12) (s : State) :=
  s.axRow c 0x74 (fun w => allZero [bits w 50 40, wIMM w] && decide (wSEL w ≤ 2)) (fun p w s =>
    let (d, s) := s.freeBelow 41
    let dev : Int := if wSEL w = 0 then (d : Int) - 20 else 20 - (d : Int)
    (s.setX c (wRD w) (ofSigned 64 (s.winTime p (wSEL w) + dev))).next c)

end Sys2Proof.Machine
end

