-- ==== Sys2Proof/Machine/Trf.lean ====
section
/-!
DEFINITION. The tile register file (R73–R75), the fields of the engine formats (R130), and what the scoreboard tracks
of an engine instruction (R77).
-/
namespace Sys2Proof.Machine

/-- Bytes of a TRF slot. -/
def slotBytes : Nat := 16384
/-- Slots of the TRF. -/
def slotCount : Nat := 384

/-- An operand in the TRF: its first slot and its extent in bytes. -/
structure Ext where
  slot : Nat
  bytes : Nat
  deriving DecidableEq, Repr

/-- Whether an operand runs past slot 383 (R73). -/
def Ext.isOver (x : Ext) : Bool := decide (slotCount * slotBytes < x.slot * slotBytes + x.bytes)

/-- Slots an operand covers. -/
def Ext.slots (x : Ext) : Nat := ceilDiv x.bytes slotBytes

/-- Whether two operands share a slot. -/
def Ext.meets (x y : Ext) : Bool :=
  decide (0 < x.slots) && decide (0 < y.slots) && decide (x.slot < y.slot + y.slots) && decide (y.slot < x.slot + x.slots)

/-- The fault of operands that run past slot 383: the lowest of their first slots (R73). -/
def trfRange (l : List Ext) : Option CFault :=
  match (l.filter Ext.isOver).map Ext.slot with
  | [] => none
  | a :: r => some ⟨cfTrfRange, r.foldl Nat.min a, none⟩

/-- Whether an operand takes in a 32-byte word of the TRF. -/
def Ext.holds (x : Ext) (w : Nat) : Bool :=
  decide (w * 32 < x.slot * slotBytes + x.bytes) && decide (x.slot * slotBytes < w * 32 + 32)

/-- The fault of operands read that hold an uncorrectable word: the slot of the first such word (R75). -/
def CoreSt.trfEcc (k : CoreSt) (l : List Ext) : Option CFault :=
  match k.trfBad.find? (fun w => l.any (fun x => x.holds w)) with
  | some w => some ⟨cfTrfEcc, w * 32 / slotBytes, none⟩
  | none => none

/-- The bytes of an operand as a number. -/
def CoreSt.trfGet (k : CoreSt) (x : Ext) : Nat := smBytes k.trf (x.slot * slotBytes) x.bytes

/-- n bytes of a core's TRF written from byte address a; an uncorrectable word they touch is cleared (R75). -/
def State.trfPut (s : State) (c a n v : Nat) : State :=
  let k := s.core c
  s.setCore c { k with
    trf := smPoke k.trf a n v
    trfBad := k.trfBad.filter (fun w => !(decide (w * 32 < a + n) && decide (a < w * 32 + 32)))
    trfCe := k.trfCe.filter (fun w => !(decide (w * 32 < a + n) && decide (a < w * 32 + 32))) }

/-- Operands read whose words the code corrects: each such word counts once (R75). -/
def State.trfCorrect (s : State) (c : Nat) (l : List Ext) : State :=
  match ((s.core c).trfCe.filter (fun w => l.any (fun x => x.holds w))).length with
  | 0 => s
  | n + 1 => s.bump Fld.ECC_STAT.TRF_CE (n + 1) c

/-- An engine's fault with the TRF_ECC record of R75. -/
def State.engineFault (s : State) (c : Nat) (e : FaultEng) (pc : Nat) (f : CFault) : State :=
  let s :=
    if f.code = cfTrfEcc then
      ((s.set Fld.ECC_STAT.TRF_UE 1 c).set Fld.ECC_STAT.UE_SLOT_LO f.addr c).set Fld.ECC_STAT.UE_SLOT_HI (f.addr / 256) c
    else s
  s.coreFault c e pc f

/-- The elements of a format packed in a number, the first n. -/
def elems (f v n : Nat) : List FV := (cutBits (fmtBits f) v n).map (decodeFmt f)

/-- Bytes of n elements of a format (R84, R192). -/
def elemBytes (f n : Nat) : Nat := ceilDiv (n * fmtBits f) 8

/-- DST or SLOT of formats A, V, X, P, W. -/
def wSlot (w : Nat) : Nat := bits w 55 47

/-- Format V: DFMT. -/
def vDFMT (w : Nat) : Nat := bits w 46 44
/-- Format V: SA. -/
def vSA (w : Nat) : Nat := bits w 43 35
/-- Format V: AFMT. -/
def vAFMT (w : Nat) : Nat := bits w 34 32
/-- Format V: AMODE. -/
def vAMODE (w : Nat) : Nat := bits w 31 30
/-- Format V: SB. -/
def vSB (w : Nat) : Nat := bits w 29 21
/-- Format V: BFMT. -/
def vBFMT (w : Nat) : Nat := bits w 20 18
/-- Format V: BMODE. -/
def vBMODE (w : Nat) : Nat := bits w 17 16
/-- Format V: SR. -/
def vSR (w : Nat) : Bool := bit w 15
/-- Format V: RS. -/
def vRS (w : Nat) : Nat := bits w 13 9

/-- Format X: TDA. -/
def xTDA (w : Nat) : Nat := bits w 46 42
/-- Format X: TDB. -/
def xTDB (w : Nat) : Nat := bits w 41 37
/-- Format X: TDC. -/
def xTDC (w : Nat) : Nat := bits w 36 32

/-- The OP of a queue entry. -/
def QEntry.op (e : QEntry) : Nat := e.word >>> 56

/-- A captured register value of a queue entry. -/
def QEntry.reg (e : QEntry) (i : Nat) : Nat := (nth 0#64 e.regs i).toNat

/-- A captured descriptor register of a queue entry. -/
def QEntry.tdAt (e : QEntry) (i : Nat) : TD := nth ⟨false, 0⟩ e.tds i

/-- Whether a vector OP uses source B in full (R138). -/
def vUsesB (op : Nat) : Bool := (decide (0x88 ≤ op) && decide (op ≤ 0x8D)) || op == 0x8F
/-- Whether a vector OP uses a scale array at SB. -/
def vUsesScale (op : Nat) : Bool := op == 0x97 || op == 0x98
/-- Whether a vector OP reduces rows. -/
def vRowOp (op : Nat) : Bool := decide (0x93 ≤ op) && decide (op ≤ 0x95)

/-- Elements of a source in a mode (R83, R84). -/
def modeCount (mode vl vrow : Nat) : Nat := if mode = 0 then vl else if mode = 1 then 1 else vrow

/-- The operand A of a vector instruction. -/
def QEntry.extA (e : QEntry) : Ext := ⟨vSA e.word, elemBytes (vAFMT e.word) (modeCount (vAMODE e.word) e.vl e.vrow)⟩
/-- The operand B of a vector instruction. -/
def QEntry.extB (e : QEntry) : Ext := ⟨vSB e.word, elemBytes (vBFMT e.word) (modeCount (vBMODE e.word) e.vl e.vrow)⟩
/-- The scale array of a vector instruction (R140). -/
def QEntry.extS (e : QEntry) : Ext := ⟨vSB e.word, ceilDiv e.vl 32⟩
/-- The destination of a vector instruction. -/
def QEntry.extD (e : QEntry) : Ext :=
  ⟨wSlot e.word, elemBytes (vDFMT e.word) (if vRowOp e.op then ceilDiv e.vl e.vrow else e.vl)⟩

/-- What a vector instruction reads of the TRF. -/
def QEntry.vReads (e : QEntry) : List Ext :=
  if e.vl = 0 then []
  else
    (if e.op = 0x96 then [] else [e.extA]) ++ (if vUsesB e.op then [e.extB] else []) ++
      (if e.op = 0x98 then [e.extS] else []) ++ (if e.op = 0x8B then [e.extD] else [])

/-- What a vector instruction writes of the TRF. -/
def QEntry.vWrites (e : QEntry) : List Ext :=
  if e.vl = 0 then [] else [e.extD] ++ (if e.op = 0x97 then [e.extS] else [])

/-- Format A: LFMT. -/
def aLFMT (w : Nat) : Nat := bits w 31 29
/-- Format A: RFMT. -/
def aRFMT (w : Nat) : Nat := bits w 28 26
/-- Format A: DFMT. -/
def aDFMT (w : Nat) : Nat := bits w 25 23
/-- Format A: ACC. -/
def aACC (w : Nat) : Bool := bit w 22
/-- Format A: FIN. -/
def aFIN (w : Nat) : Bool := bit w 21
/-- Format A: BANK. -/
def aBANK (w : Nat) : Bool := bit w 20

/-- An operand register of MMA (R132). -/
structure MOperand where
  vslot : Nat
  sslot : Nat
  scaled : Bool
  k0 : Nat
  deriving DecidableEq, Repr

/-- The operand a register describes for a format: scales of FP32, BF16, FP16 and INT8 are ignored (R132, R134). -/
def MOperand.of (r f : Nat) : MOperand :=
  ⟨bits r 8 0, bits r 24 16, bit r 31 && decide (3 ≤ f) && decide (f ≤ 6), 32 * bits r 43 32⟩

/-- KL of an MMA (R132). -/
def QEntry.kl (e : QEntry) : Nat := 32 * bits (e.reg 2) 11 0

/-- The extents of one operand of MMA (R136): n is 128 or 512. -/
def MOperand.exts (o : MOperand) (f n kl : Nat) : List Ext :=
  ⟨o.vslot, elemBytes f ((o.k0 + kl) * n)⟩ :: (if o.scaled then [⟨o.sslot, (o.k0 + kl) / 32 * n⟩] else [])

/-- What an MMA reads of the TRF (R136). -/
def QEntry.mReads (e : QEntry) : List Ext :=
  if e.kl = 0 then []
  else
    (MOperand.of (e.reg 0) (aLFMT e.word)).exts (aLFMT e.word) 128 e.kl ++
      (MOperand.of (e.reg 1) (aRFMT e.word)).exts (aRFMT e.word) 512 e.kl

/-- Bytes of a drained tile (R135). -/
def tileBytes (f : Nat) : Nat := if f = 0 then 262144 else 131072

/-- The destination of an MMA with FIN. -/
def QEntry.mWrites (e : QEntry) : List Ext := if aFIN e.word then [⟨wSlot e.word, tileBytes (aDFMT e.word)⟩] else []

/-- The words and payload of a PISSUE (R157). -/
def QEntry.pReads (e : QEntry) : List Ext :=
  [⟨wSlot e.word, 16 * (bits e.word 46 35 + 1)⟩, ⟨bits e.word 34 26, slotBytes * bits e.word 25 21⟩]

end Sys2Proof.Machine
end

