-- ==== Sys2Proof/Machine/Vector.lean ====
section
/-!
DEFINITION. The VE: what each vector operation computes (R83, R84, R138–R142, R168–R174, R178–R181).
-/
namespace Sys2Proof.Machine

/-- A source's element list in a mode: element i for each i below vl (R83). -/
def modeElems (f mode vl vrow v : Nat) : List FV :=
  let l := elems f v (modeCount mode vl vrow)
  if mode = 0 then l
  else if mode = 1 then (upFrom 0 vl).map (fun _ => l.headD .nan)
  else (upFrom 0 vl).map (fun i => nth .nan l (i % vrow))

/-- One result: the exact value before rounding to DFMT, with the flags of its operation, or a code written as it is. -/
inductive VRes where
  | val (v : FV) (fl : Nat)
  | code (c fl : Nat)
  deriving DecidableEq, Repr

/-- A result of an FP32 function: rounded to FP32 first, then to DFMT (R179). -/
def VRes.via32 (r : FV × Nat) : VRes :=
  let (c, fl) := narrow 0 r.1
  .val (of32 c) (flJoin r.2 fl)

/-- An element-wise vector operation of two sources and the old destination (R138, R178, R179). -/
def vElem (op : Nat) (a b d : FV) : VRes :=
  match op with
  | 0x88 => let (v, f) := fvAdd a b; .val v f
  | 0x89 => let (v, f) := fvAdd a (fvNeg b); .val v f
  | 0x8A => let (v, f) := fvMul a b; .val v f
  | 0x8B => let (v, f) := fvFma a b d; .val v f
  | 0x8C => .val (fvMax a b) 0
  | 0x8D => .val (fvMin a b) 0
  | 0x8E => .val a 0
  | 0x8F => .via32 (f32ExpDiff (narrow 0 a).1 (narrow 0 b).1)
  | 0x90 => .via32 (fvLog a)
  | 0x91 => .via32 (fvRcp a)
  | _ => .via32 (fvRsq a)

/-- A row reduction over a list of FP32 values given exactly (R139). -/
def vRow (op : Nat) (l : List FV) : VRes :=
  match op with
  | 0x94 => .val (match l with | [] => .nan | a :: r => r.foldl fvMax a) 0
  | 0x93 =>
    let (c, fl) := pairSum (l.map (fun v => (narrow 0 v).1))
    .val (of32 c) fl
  | _ =>
    let sq := l.map (fun v => to32 (fvMul v v))
    let (c, fl) := pairSum (sq.map Prod.fst)
    .val (of32 c) (sq.foldl (fun acc r => flJoin acc r.2) fl)

/-- Rounding of a result to DFMT, with a draw when SR is set (R170, R174). -/
def VRes.finish (f : Nat) (draw : Option Nat) : VRes → Nat × Nat
  | .code c fl => (c, fl)
  | .val v fl =>
    let (c, g) := match draw with
      | some r => narrowSR f r v
      | none => narrow f v
    (c, flJoin fl g)

/-- The draws of n elements from a generator state (R173). -/
def srDraws : Nat → Word → List Nat
  | 0, _ => []
  | n + 1, s => let t := srAdvance s; srDraw t :: srDraws n t

/-- Results finished with their draws; no draw where SR is clear. -/
def finishAll (f : Nat) (draws : List Nat) (rs : List VRes) : List Nat × Nat :=
  let out := (rs.zip (upFrom 0 rs.length)).map (fun (e : VRes × Nat) => e.1.finish f draws[e.2]?)
  (out.map Prod.fst, out.foldl (fun a r => flJoin a r.2) 0)

/-- VMXQ over all blocks of 32 elements (R140, R168): scales, codes and flags. -/
def vQuant (f : Nat) (draws : List Nat) (l : List FV) : List Nat × List Nat × Nat :=
  let bl := chunks 32 l
  let rs := (bl.zip (upFrom 0 bl.length)).map (fun (e : List FV × Nat) =>
    mxQuant f e.1 (if draws.isEmpty then [] else (draws.drop (32 * e.2)).take 32))
  (rs.map (fun r => r.1), rs.flatMap (fun r => r.2.1), rs.foldl (fun a r => flJoin a r.2.2) 0)

/-- The index of the element a source element reads in a mode. -/
def modeIndex (mode vrow i : Nat) : Nat := if mode = 0 then i else if mode = 1 then 0 else i % vrow

/-- A vector instruction run by the VE of core c. VMXQ writes its values and then its scales: where the scale bytes at SB overlap
the values at DST, the scales stand (DESIGN CHOICE: R140 does not say which; log 17). -/
def State.runVe (s : State) (c : Nat) (e : QEntry) : State :=
  if e.vl = 0 then s
  else
    let w := e.word
    let k := s.core c
    match trfRange (e.vReads ++ e.vWrites) with
    | some f => s.engineFault c .ve e.pc f
    | none =>
      match k.trfEcc e.vReads with
      | some f => s.engineFault c .ve e.pc f
      | none =>
        let f := vDFMT w
        let A := if e.op = 0x96 then [] else modeElems (vAFMT w) (vAMODE w) e.vl e.vrow (k.trfGet e.extA)
        let draws := if vSR w then srDraws e.vl k.seed else []
        let k' := if vSR w then { k with seed := srAdvanceN e.vl k.seed } else k
        let s := s.setCore c k'
        let put := fun (codes : List Nat) (fl : Nat) =>
          let s := s.trfPut c (wSlot w * slotBytes) (elemBytes f codes.length) (joinBits (fmtBits f) codes)
          s.flag c fl
        if e.op = 0x97 then
          let (sc, codes, fl) := vQuant f draws A
          (put codes fl).trfPut c (vSB w * slotBytes) sc.length (joinBits 8 sc)
        else
          let rs : List VRes :=
            if vRowOp e.op then (chunks e.vrow A).map (vRow e.op)
            else if e.op = 0x96 then (upFrom 0 e.vl).map (fun _ => .val (of32 (lo32 (e.reg 0))) 0)
            else if e.op = 0x98 then
              let sc := cutBits 8 (k.trfGet e.extS) (ceilDiv e.vl 32)
              (A.zip (upFrom 0 e.vl)).map (fun (x : FV × Nat) =>
                .val (fvScaled x.1 (nth 0 sc (modeIndex (vAMODE w) e.vrow x.2 / 32))) 0)
            else if e.op = 0x99 || e.op = 0x9A then
              (A.zip (upFrom 0 e.vl)).map (fun (x : FV × Nat) =>
                let d : Int := ((x.2 % e.vrow : Nat) : Int) - ((x.2 / e.vrow : Nat) : Int)
                let r := toSigned 64 (e.reg 0)
                let keep := if e.op = 0x99 then decide (d ≤ r) else decide (r ≤ d)
                if keep then .val x.1 0 else .code (narrow f (.inf true)).1 0)
            else
              let B := if vUsesB e.op then modeElems (vBFMT w) (vBMODE w) e.vl e.vrow (k.trfGet e.extB) else []
              let D := if e.op = 0x8B then elems f (k.trfGet e.extD) e.vl else []
              (A.zip (upFrom 0 e.vl)).map (fun (x : FV × Nat) => vElem e.op x.1 (nth .nan B x.2) (nth .nan D x.2))
          let (codes, fl) := finishAll f draws rs
          put codes fl

end Sys2Proof.Machine
end

