-- ==== Sys2Proof/Machine/Matrix.lean ====
section
/-!
DEFINITION. The MXU: the matrix product, its drain and the finished-tile queue (R80, R81, R132–R137, R175).
-/
namespace Sys2Proof.Machine

/-- An operand of MMA loaded: element values of step k and row or column r, and the scale byte of a group. -/
structure MSide where
  vals : Nat
  scales : Nat
  fmt : Nat
  n : Nat
  k0 : Nat
  scaled : Bool

/-- The operand an MMA register describes, with its bytes (R133). -/
def CoreSt.mSide (k : CoreSt) (r f n kl : Nat) : MSide :=
  let o := MOperand.of r f
  { vals := k.trfGet ⟨o.vslot, elemBytes f ((o.k0 + kl) * n)⟩
    scales := if o.scaled then k.trfGet ⟨o.sslot, (o.k0 + kl) / 32 * n⟩ else 0
    fmt := f, n := n, k0 := o.k0, scaled := o.scaled }

/-- Element of step k (counted from K0) and index i. -/
def MSide.val (m : MSide) (k i : Nat) : FV :=
  let b := ((m.k0 + k) * m.n + i) * fmtBits m.fmt
  decodeFmt m.fmt ((m.vals >>> b) % 2 ^ fmtBits m.fmt)

/-- Scale byte of the group that holds step k, 127 without scales (R175). -/
def MSide.scale (m : MSide) (k i : Nat) : Nat :=
  if m.scaled then (m.scales >>> (8 * ((m.k0 + k) / 32 * m.n + i))) % 256 else 127

/-- The products of the 32 steps of group g for output (row, col). -/
def groupProds (l r : MSide) (g row col : Nat) : List (FV × FV) :=
  (upFrom (32 * g) 32).map (fun k => (l.val k row, r.val k col))

/-- The same with each operand's scale applied to its values (R134, R167), as the steps of an FP32 operand take them. -/
def scaledProds (l r : MSide) (g row col : Nat) : List (FV × FV) :=
  (groupProds l r g row col).map (fun x => (fvScaled x.1 (l.scale (32 * g) row), fvScaled x.2 (r.scale (32 * g) col)))

/-- One output's accumulator after the groups of an MMA (R175). -/
def mmaCell (l r : MSide) (groups row col acc : Nat) : Nat :=
  (upFrom 0 groups).foldl (fun a g =>
    if l.fmt = 0 || r.fmt = 0 then stepAcc a (scaledProds l r g row col)
    else groupAcc a (groupProds l r g row col) (l.scale (32 * g) row) (r.scale (32 * g) col)) acc

/-- The accumulators of a bank after KL steps (R133, R135). -/
def mmaBank (l r : MSide) (kl : Nat) (acc : SMap Nat) : SMap Nat :=
  if kl = 0 then acc
  else
    (upFrom 0 65536).filterMap (fun i =>
      let v := mmaCell l r (kl / 32) (i / 512) (i % 512) (smGet 0 acc i)
      if v = 0 then none else some (i, v))

/-- The drained tile of a bank in a format, as a number, and the flags of the drain (R135, R181). -/
def drainTile (acc : SMap Nat) (f : Nat) : Nat × Nat :=
  acc.foldl (fun (t : Nat × Nat) (e : Nat × Nat) =>
    let c := (narrow f (of32 e.2)).1
    let fl := match decodeFmt f c with
      | .nan => flNV
      | .inf _ => flOF
      | .fin _ _ _ => 0
    (t.1 + c <<< (fmtBits f * e.1), flJoin t.2 fl)) (0, 0)

/-- Base address of entry i of core c's finished-tile queue (R81). -/
def State.ftqAddr (s : State) (c i : Nat) : Nat :=
  (if dieOfCore c = 0 then 0x20000000000 else 0x21000000000) + (bits (s.core c).cfg 7 0 + i) * 262144

/-- Entries of core c's finished-tile queue in force. -/
def CoreSt.ftqDepth (k : CoreSt) : Nat := bits k.cfg 11 8

/-- The free entry of the finished-tile queue after the last one taken. -/
def CoreSt.ftqFree (k : CoreSt) : Option Nat :=
  if k.ftqDepth ≤ k.ftq.length then none
  else
    let start := match k.ftq.getLast? with | some t => t.entry + 1 | none => 0
    ((upFrom start k.ftqDepth).map (· % k.ftqDepth)).find? (fun i => k.ftq.all (fun t => t.entry != i))

/-- An MMA run by the MXU of core c; `direct` says that R77 lets the tile reach its slots at once. -/
def State.runMma (s : State) (c : Nat) (e : QEntry) (direct : Bool) : State :=
  let w := e.word
  let k := s.core c
  match trfRange (e.mReads ++ e.mWrites) with
  | some f => s.engineFault c .mxu e.pc f
  | none =>
    match k.trfEcc e.mReads with
    | some f => s.engineFault c .mxu e.pc f
    | none =>
      let old := if aACC w then (if aBANK w then k.acc1 else k.acc0) else []
      let acc :=
        if e.kl = 0 then old
        else mmaBank (k.mSide (e.reg 0) (aLFMT w) 128 e.kl) (k.mSide (e.reg 1) (aRFMT w) 512 e.kl) e.kl old
      let k := if aBANK w then { k with acc1 := acc } else { k with acc0 := acc }
      let s := s.setCore c k
      if aFIN w then
        let (v, fl) := drainTile acc (aDFMT w)
        let n := tileBytes (aDFMT w)
        let s := s.flag c fl
        if direct then s.trfPut c (wSlot w * slotBytes) n v
        else
          match k.ftqFree with
          | some i =>
            let s := { s with mem := smPoke s.mem (s.ftqAddr c i) n v }
            s.setCore c { s.core c with ftq := k.ftq ++ [⟨e.seq, wSlot w, i, n⟩] }
          | none => s
      else s

end Sys2Proof.Machine
end

