-- ==== Sys2Proof/Machine/Transfer.lean ====
section
/-!
DEFINITION. The XE: transfers, gathers, scatters, copies and prefetch (R85, R87, R89, R146–R153, R163, R188, R197, R198,
R204).
-/
namespace Sys2Proof.Machine

/-- The access of core c's XE for partition p. -/
def xeWho (c p : Nat) : Who := ⟨.xe c, some p⟩

/-- A free subset of a list: what a stopped instruction has written (R149, R152). -/
def State.someOf {α : Type} (s : State) : List α → List α × State
  | [] => ([], s)
  | x :: l =>
    let (b, s) := s.freeChoice
    let (r, s) := s.someOf l
    (if b then x :: r else r, s)

/-- A list in a free order: an order of additions that the spec leaves open (R150). -/
def State.shuffle {α : Type} (s : State) : List α → List α × State
  | [] => ([], s)
  | x :: l =>
    let (r, s) := s.shuffle l
    let (i, s) := s.freeBelow (r.length + 1)
    (r.take i ++ x :: r.drop i, s)

/-- Line-aligned bytes of an interval. -/
def lineSpan (a n : Nat) : Nat × Nat := (a / 64 * 64, 64 * ((a + n - 1) / 64 - a / 64 + 1))

/-- Traffic of the lines an interval touches. -/
def State.lineTraffic (s : State) (w : Who) (inStack write : Bool) (a n : Nat) : State :=
  if n = 0 then s else s.traffic w inStack write (lineSpan a n).1 (lineSpan a n).2

/-- Writes performed together by one instruction (R152, R281): granules written in full are sealed with the checksum of
the data written, the others are left open. -/
def State.writeMany (s : State) (w : Who) (ws : List MWrite) : State :=
  let ws := ws.filter (fun x => decide (0 < x.size))
  let s := ws.foldl (fun s x => s.writeRaw w x.addr x.size x.data) s
  let mask := ws.foldl (fun m x => smPoke m x.addr x.size (2 ^ (8 * x.size) - 1)) ([] : SMap Byte)
  let data := ws.foldl (fun m x => smPoke m x.addr x.size x.data) ([] : SMap Byte)
  let gs := ws.foldl (fun l x => (granulesOf x.addr x.size).foldl setInsert l) ([] : List Nat)
  gs.foldl (fun s g =>
    if (smRange mask (4096 * g) 4096).length = 4096 then s.sealGranule g (crc32c (smPeekList data (4096 * g) 4096))
    else s.openGranule g) s

/-- The rows of dimension 0 of a descriptor image as writes. -/
def Desc.rowWrites (d : Desc) (base image : Nat) : List MWrite :=
  let as := d.rowAddrs base
  (as.zip (cutBits d.rowBits image as.length)).map (fun (e : Nat × Nat) => ⟨e.1, d.rowBytes, e.2⟩)

/-- The element of a REDUCE or ADD write: the old code and the addend summed in FP32 and rounded to the format (R151). -/
def addElem (f old x : Nat) : Nat :=
  let (v, _) := to32 (fvAdd (decodeFmt f old) (decodeFmt f x))
  (narrow f (of32 v)).1

/-- The elements of a row added one by one. -/
def addRow (f n old x : Nat) : Nat :=
  joinBits (fmtBits f) (((cutBits (fmtBits f) old n).zip (cutBits (fmtBits f) x n)).map
    (fun (e : Nat × Nat) => addElem f e.1 e.2))

/-- One ADD-mode piece: n elements at an address added to what the source address holds and written, the granule left
open (R151, R152, R197). -/
def State.addPiece (s : State) (w : Who) (f src dst n data : Nat) : Option CFault × State :=
  let bytes := n * fmtBits f / 8
  let (old, bad, s) := s.readBytes w src bytes
  match bad with
  | some l => (some ⟨cfPoison, l, stackOfAddr src⟩, s)
  | none =>
    let s := s.writeOpen w dst bytes (addRow f n old data)
    (none, (s.traffic w true false src bytes).traffic w true true dst bytes)

/-- ADD-mode pieces in order: source, destination, elements, data. -/
def State.addPieces (s : State) (w : Who) (f : Nat) : List (Nat × Nat × Nat × Nat) → Option CFault × State
  | [] => (none, s)
  | (src, dst, n, data) :: l =>
    match s.addPiece w f src dst n data with
    | (some e, s) => (some e, s)
    | (none, s) => s.addPieces w f l

/-- Rows of a descriptor written by an engine (R146, R152, R188, R197): RW replaces, REDUCE adds. -/
def State.putRows (s : State) (w : Who) (d : Desc) (ws : List MWrite) : Option CFault × State :=
  if d.mode = mdReduce then
    let (ws, s) := s.shuffle ws
    let s := ws.foldl (fun s x => s.lineTraffic w false true x.addr x.size) s
    s.addPieces w d.fmt (ws.map (fun x => (x.addr, x.addr, nth 0 d.ext 0, x.data)))
  else
    let s := ws.foldl (fun s x => s.lineTraffic w false true x.addr x.size) s
    (none, s.writeMany w ws)

/-- The image of a descriptor written by an engine. -/
def State.putImage (s : State) (w : Who) (p : Nat) (d : Desc) (image : Nat) : Option CFault × State :=
  s.putRows w d (d.rowWrites (s.writeBase p d) image)

/-- Granules the rows of a descriptor touch, each once (R85: distinct granules are fetched once). -/
def Desc.granules (d : Desc) (base : Nat) : List Nat :=
  (d.rowAddrs base).foldl (fun l a => (granulesOf a d.rowBytes).foldl setInsert l) []

/-- The image of a descriptor read for compute (R85, R146, R152): the packed elements, or the fault. -/
def State.getImage (s : State) (w : Who) (c : Option Nat) (p : Nat) (d : Desc) : Nat × Option CFault × State :=
  let base := s.readBase p d
  let (m, f, s) := s.computeGranules w false d.unchecked c (d.granules base)
  let s := match c with | some c => s.runAhead w c p (64 * (maxList (d.granules base) + 1)) | none => s
  (joinBits d.rowBits ((d.rowAddrs base).map (fun a => fromGranules m a d.rowBytes)), f, s)

/-- The core whose read cache a compute read of a descriptor uses: with CACHE set and the cache enabled (R85). -/
def State.cacheOf (s : State) (c : Nat) (d : Desc) : Option Nat :=
  if d.cache && bit (s.core c).cfg 16 then some c else none

/-- The checks of a descriptor operand (R145, R204): valid, of a permitted kind and mode. -/
def TD.bad (t : TD) (d : Desc) (ok : Desc → Bool) : Bool := !t.valid || !ok d

/-- An operand that is read. -/
def opRead (d : Desc) : Bool := d.mode == mdRead || d.mode == mdRw
/-- An operand that is written. -/
def opWrite (d : Desc) : Bool := d.mode == mdRw || (d.mode == mdReduce && d.kind == kdData)
/-- An index operand. -/
def opIndex (d : Desc) : Bool := d.kind == kdIndex && opRead d
/-- The table of a gather (R148). -/
def opTable (d : Desc) : Bool := opRead d && !d.subByteRow
/-- The target of a STORE scatter. -/
def opScatStore (d : Desc) : Bool := (d.kind == kdData || d.kind == kdScale) && d.mode == mdRw && !d.subByteRow
/-- The target of an ADD scatter (R151). -/
def opScatAdd (d : Desc) : Bool := d.kind == kdData && d.mode == mdRw && decide (d.fmt ≤ 2)

/-- The fault of the first descriptor register that is invalid or of the wrong kind (R71, R145). -/
def descInvalid (l : List (Nat × Bool)) : Option CFault :=
  (l.find? (fun e => e.2)).map (fun e => ⟨cfDescInvalid, e.1, none⟩)

/-- The fault of a descriptor whose domain does not answer. -/
def State.downFault (s : State) (a : Nat) : Option CFault :=
  if s.answers a then none else some ⟨cfDomainDown, a, stackOfAddr a⟩

/-- Lines of a run of memory read as plain loads (R148): through the read cache when it is enabled. -/
def State.plainLines (s : State) (w : Who) (c ln : Nat) : Nat → Nat × Option CFault × State
  | 0 => (0, none, s)
  | n + 1 =>
    let (v, f, s) := s.plainLines w c ln n
    let a := 64 * (ln + n)
    let (x, s) :=
      match placeOf a with
      | .data _ _ =>
        if bit (s.core c).cfg 16 then s.cachedLine w (some c) (ln + n)
        else
          let (x, s) := s.readLine w (ln + n)
          (x, s.traffic w false false a 64)
      | _ => s.readLine w (ln + n)
    match x with
    | some y => (v + y <<< (512 * n), f, s)
    | none => (v, (match f with | some e => some e | none => some ⟨cfPoison, a, stackOfAddr a⟩), s)

/-- The indices of an INDEX descriptor, signed (R148). -/
def State.readIndices (s : State) (w : Who) (c p : Nat) (d : Desc) : List Int × Option CFault × State :=
  let n := d.count
  if n = 0 then ([], none, s)
  else
    let base := s.readBase p d
    let (v, f, s) := s.plainLines w c (base / 64) (ceilDiv (4 * n) 64)
    ((cutBits 32 v n).map (toSigned 32), f, s)

/-- An index resolved against an extent (R149); none where it is out of range. -/
def resolveIdx (wrap : Bool) (E : Nat) (i : Int) : Option Nat :=
  if 0 ≤ i && i < (E : Int) then some i.toNat
  else if i < 0 && wrap && 0 ≤ (E : Int) + i then some ((E : Int) + i).toNat
  else none

/-- Out-of-range indices counted (R149). -/
def State.countOob (s : State) (c n : Nat) : State :=
  if n = 0 then s else (s.set Fld.IDX_OOB.FLAG 1 c).bump Fld.IDX_OOB_CNT.COUNT n c

/-- One row of a descriptor's outermost dimension read for compute: its packed bits, or the fault. -/
def State.getRow (s : State) (w : Who) (c : Option Nat) (p : Nat) (d : Desc) (j : Nat) : Nat × Option CFault × State :=
  let ps := d.rowPieces (s.readBase p d) j
  let gs := ps.foldl (fun l x => (granulesOf x.1 x.2).foldl setInsert l) ([] : List Nat)
  let (m, f, s) := s.computeGranules w false d.unchecked c gs
  let wid := if d.rank = 1 then d.width else d.rowBits
  (joinBits wid (ps.map (fun x => fromGranules m x.1 x.2)), f, s)

/-- Rows gathered in index order; an out-of-range index gives a zero row. -/
def State.getRows (s : State) (w : Who) (c : Option Nat) (p : Nat) (d : Desc) :
    List (Option Nat) → List Nat × Option CFault × State
  | [] => ([], none, s)
  | j :: l =>
    let (v, f, s) := match j with
      | some j => s.getRow w c p d j
      | none => (0, none, s)
    let (r, f', s) := s.getRows w c p d l
    (v :: r, lowerFault f f', s)

/-- The writes that place a row's packed bits into row j of a descriptor. -/
def Desc.placeRow (d : Desc) (base j v : Nat) : List MWrite :=
  let ps := d.rowPieces base j
  let wid := if d.rank = 1 then d.width else d.rowBits
  (ps.zip (cutBits wid v ps.length)).map (fun (e : (Nat × Nat) × Nat) => ⟨e.1.1, e.1.2, e.2⟩)

/-- XLD (R85, R146, R152). -/
def State.runXld (s : State) (c p : Nat) (e : QEntry) : State :=
  let t := e.tdAt 0
  let d := s.descOf t.raw.toNat
  let x : Ext := ⟨wSlot e.word, d.size⟩
  match lowerFault (descInvalid [(xTDA e.word, t.bad d opRead)]) none with
  | some f => s.engineFault c .xe e.pc f
  | none =>
    match trfRange [x] with
    | some f => s.engineFault c .xe e.pc f
    | none =>
      if d.count = 0 then s
      else
        match s.downFault (s.readBase p d) with
        | some f => s.engineFault c .xe e.pc f
        | none =>
          let (v, f, s) := s.getImage (xeWho c p) (s.cacheOf c d) p d
          match f with
          | none => s.trfPut c (x.slot * slotBytes) x.bytes v
          | some f =>
            let rows := (upFrom 0 (ceilDiv x.bytes 4096)).map (fun i => (4096 * i, Nat.min 4096 (x.bytes - 4096 * i)))
            let (keep, s) := s.someOf rows
            let s := keep.foldl (fun s (r : Nat × Nat) =>
              s.trfPut c (x.slot * slotBytes + r.1) r.2 ((v >>> (8 * r.1)) % 2 ^ (8 * r.2))) s
            s.engineFault c .xe e.pc f

/-- The read cache updated by an XE's writes (R87). -/
def State.cacheWrites (s : State) (c : Nat) (ws : List MWrite) : State :=
  ws.foldl (fun s x => if x.size = 0 then s else s.updateCache c x.addr x.size x.data) s

/-- Lines of the read cache brought up to date with the stack after ADD-mode writes of this core (R87). -/
def State.refreshCache (s : State) (c : Nat) (ws : List MWrite) : State :=
  ws.foldl (fun s x => if x.size = 0 then s else s.updateCache c x.addr x.size (smBytes s.mem x.addr x.size)) s

/-- Rows written by core c's XE, with its read cache. -/
def State.xePutRows (s : State) (c p : Nat) (d : Desc) (ws : List MWrite) : Option CFault × State :=
  let (f, s) := s.putRows (xeWho c p) d ws
  (f, if d.mode = mdReduce then s.refreshCache c ws else s.cacheWrites c ws)

/-- An image written by core c's XE. -/
def State.xePut (s : State) (c p : Nat) (d : Desc) (v : Nat) : Option CFault × State :=
  s.xePutRows c p d (d.rowWrites (s.writeBase p d) v)

/-- XST (R146, R152). -/
def State.runXst (s : State) (c p : Nat) (e : QEntry) : State :=
  let t := e.tdAt 0
  let d := s.descOf t.raw.toNat
  let x : Ext := ⟨wSlot e.word, d.size⟩
  match descInvalid [(xTDA e.word, t.bad d opWrite)] with
  | some f => s.engineFault c .xe e.pc f
  | none =>
    match trfRange [x] with
    | some f => s.engineFault c .xe e.pc f
    | none =>
      if d.count = 0 then s
      else
        match lowerFault (s.downFault (s.writeBase p d)) ((s.core c).trfEcc [x]) with
        | some f => s.engineFault c .xe e.pc f
        | none =>
          let (f, s) := s.xePut c p d ((s.core c).trfGet x)
          match f with
          | some f => s.engineFault c .xe e.pc f
          | none => s

/-- XMOV (R146, R147, R152). -/
def State.runXmov (s : State) (c p : Nat) (e : QEntry) : State :=
  let ta := e.tdAt 0
  let tb := e.tdAt 1
  let a := s.descOf ta.raw.toNat
  let b := s.descOf tb.raw.toNat
  let same := a.width == b.width && a.count == b.count
  match descInvalid [(xTDA e.word, ta.bad a opRead || (tb.valid && !same)), (xTDB e.word, tb.bad b opWrite)] with
  | some f => s.engineFault c .xe e.pc f
  | none =>
    if a.count = 0 then s
    else
      match lowerFault (s.downFault (s.readBase p a)) (s.downFault (s.writeBase p b)) with
      | some f => s.engineFault c .xe e.pc f
      | none =>
        let (v, f, s) := s.getImage (xeWho c p) (s.cacheOf c a) p a
        match f with
        | some f =>
          let (keep, s) := s.someOf (b.rowWrites (s.writeBase p b) v)
          (s.xePutRows c p b keep).2.engineFault c .xe e.pc f
        | none =>
          let (f, s) := s.xePut c p b v
          match f with
          | some f => s.engineFault c .xe e.pc f
          | none => s

/-- The resolved indices of a gather or scatter (R149). -/
def resolveAll (d : Desc) (E : Nat) (l : List Int) : List (Option Nat) := l.map (resolveIdx d.wrap E)

/-- Out-of-range indices in a resolved list. -/
def oobCount (l : List (Option Nat)) : Nat := (l.filter Option.isNone).length

/-- The rows a gather that a fault stops may have written (R149, R152): under IDX_STRICT those of in-range indices, else every row. -/
def keptRows (js : List (Option Nat)) (strict : Option CFault) (n : Nat) : List Nat :=
  if strict.isSome then (upFrom 0 n).filter (fun i => (nth none js i).isSome) else upFrom 0 n

/-- The zero rows among those kept: their indices are counted (R149). -/
def zeroRows (js : List (Option Nat)) (keep : List Nat) : Nat := (keep.filter (fun i => (nth none js i).isNone)).length

/-- n bits written in core c's TRF at a bit offset from a slot; only the bytes they touch are written (R149). -/
def State.trfRow (s : State) (c slot at_ n v : Nat) : State :=
  if n = 0 then s
  else
    let a := slot * slotBytes + at_ / 8
    let len := (at_ + n - 1) / 8 - at_ / 8 + 1
    s.trfPut c a len (setBits (smBytes (s.core c).trf a len) (at_ % 8 + n - 1) (at_ % 8) v)

/-- Row length in bytes of a descriptor (R148). -/
def Desc.outerBytes (d : Desc) : Nat := ceilDiv d.outerBits 8

/-- XGATH (R146, R148–R150, R152). -/
def State.runXgath (s : State) (c p : Nat) (e : QEntry) : State :=
  let ta := e.tdAt 0
  let tb := e.tdAt 1
  let a := s.descOf ta.raw.toNat
  let b := s.descOf tb.raw.toNat
  let n := b.count
  let x : Ext := ⟨wSlot e.word, ceilDiv (n * a.outerBits) 8⟩
  match descInvalid [(xTDA e.word, ta.bad a opTable), (xTDB e.word, tb.bad b opIndex)] with
  | some f => s.engineFault c .xe e.pc f
  | none =>
    match trfRange [x] with
    | some f => s.engineFault c .xe e.pc f
    | none =>
      if n = 0 then s
      else
        match lowerFault (s.downFault (s.readBase p b)) (if a.count = 0 then none else s.downFault (s.readBase p a)) with
        | some f => s.engineFault c .xe e.pc f
        | none =>
          let (idx, f0, s) := s.readIndices (xeWho c p) c p b
          match f0 with
          | some f => s.engineFault c .xe e.pc f
          | none =>
            let js := resolveAll b a.outer idx
            let strict := if b.strict && decide (0 < oobCount js) then some ⟨cfIdxOob, 0, none⟩ else none
            let (rows, f, s) := s.getRows (xeWho c p) (s.cacheOf c a) p a js
            match lowerFault f strict with
            | none =>
              (s.trfPut c (x.slot * slotBytes) x.bytes (joinBits a.outerBits rows)).countOob c (oobCount js)
            | some f =>
              let (keep, s) := s.someOf (keptRows js strict n)
              let s := keep.foldl (fun s i => s.trfRow c x.slot (a.outerBits * i) a.outerBits (nth 0 rows i)) s
              (s.countOob c (zeroRows js keep)).engineFault c .xe e.pc f

/-- XGATM (R146, R148–R150, R152). -/
def State.runXgatm (s : State) (c p : Nat) (e : QEntry) : State :=
  let ta := e.tdAt 0
  let tb := e.tdAt 1
  let tc := e.tdAt 2
  let a := s.descOf ta.raw.toNat
  let b := s.descOf tb.raw.toNat
  let t := s.descOf tc.raw.toNat
  let n := b.count
  let okC := opWrite t && !t.subByteRow && t.outerBytes == a.outerBytes && decide (n ≤ t.outer)
  match descInvalid [(xTDA e.word, ta.bad a opTable), (xTDB e.word, tb.bad b opIndex), (xTDC e.word, !tc.valid || !okC)] with
  | some f => s.engineFault c .xe e.pc f
  | none =>
    if n = 0 then s
    else
      match lowerFault (s.downFault (s.readBase p b)) (lowerFault (if a.count = 0 then none else s.downFault (s.readBase p a))
          (if t.count = 0 then none else s.downFault (s.writeBase p t))) with
      | some f => s.engineFault c .xe e.pc f
      | none =>
        let (idx, f0, s) := s.readIndices (xeWho c p) c p b
        match f0 with
        | some f => s.engineFault c .xe e.pc f
        | none =>
          let js := resolveAll b a.outer idx
          let strict := if b.strict && decide (0 < oobCount js) then some ⟨cfIdxOob, 0, none⟩ else none
          let (rows, f, s) := s.getRows (xeWho c p) (s.cacheOf c a) p a js
          let base := s.writeBase p t
          let place := fun (i : Nat) => t.placeRow base i (nth 0 rows i)
          let put := fun (s : State) (is : List Nat) =>
            let ws := is.flatMap place
            let s := ws.foldl (fun s x => s.lineTraffic (xeWho c p) false true x.addr x.size) s
            if t.mode = mdReduce then
              let (f, s) := s.addPieces (xeWho c p) t.fmt (ws.map (fun x =>
                (x.addr, x.addr, x.size * 8 / fmtBits t.fmt, x.data)))
              (f, s.refreshCache c ws)
            else (none, (s.writeMany (xeWho c p) ws).cacheWrites c ws)
          match lowerFault f strict with
          | none =>
            let (f, s) := put s (upFrom 0 n)
            let s := s.countOob c (oobCount js)
            match f with
            | some f => s.engineFault c .xe e.pc f
            | none => s
          | some f =>
            let (keep, s) := s.someOf (keptRows js strict n)
            ((put s keep).2.countOob c (zeroRows js keep)).engineFault c .xe e.pc f

/-- Rows of a STORE scatter in index order: whether a later row of a collision stays is free (R150), the same in a retry (R184). -/
def storeRows (key : List Nat) (all : List (Nat × Nat)) : List (Nat × Nat) → SMap Nat → SMap Nat
  | [], m => m
  | (j, v) :: l, m =>
    storeRows key all l
      (if (smFind m j).isNone || Config.laterRow (l.length :: key) all then smInsert m j v else m)

/-- The pieces of an ADD scatter in a given order: the first addition to a row reads the committed half, a later one
what the first wrote (R150, R198). -/
def addScatPieces (d : Desc) (rb wb : Nat) : List (Nat × Nat) → List Nat → List (Nat × Nat × Nat × Nat)
  | [], _ => []
  | (j, v) :: l, seen =>
    let src := if seen.contains j then wb else rb
    let ps := d.rowPieces wb j
    let wid := if d.rank = 1 then d.width else d.rowBits
    ((ps.zip (cutBits wid v ps.length)).map (fun (e : (Nat × Nat) × Nat) =>
        (e.1.1 + src - wb, e.1.1, wid / d.width, e.2))) ++ addScatPieces d rb wb l (setInsert seen j)

/-- XSCAT (R146, R148–R152, R198). -/
def State.runXscat (s : State) (c p : Nat) (e : QEntry) : State :=
  let add := bit e.word 31
  let ta := e.tdAt 0
  let tb := e.tdAt 1
  let a := s.descOf ta.raw.toNat
  let b := s.descOf tb.raw.toNat
  let n := b.count
  let x : Ext := ⟨wSlot e.word, ceilDiv (n * a.outerBits) 8⟩
  match descInvalid [(xTDA e.word, ta.bad a (if add then opScatAdd else opScatStore)), (xTDB e.word, tb.bad b opIndex)] with
  | some f => s.engineFault c .xe e.pc f
  | none =>
    match trfRange [x] with
    | some f => s.engineFault c .xe e.pc f
    | none =>
      if n = 0 then s
      else
        match lowerFault (s.downFault (s.readBase p b))
            (lowerFault (if a.count = 0 then none else s.downFault (s.writeBase p a)) ((s.core c).trfEcc [x])) with
        | some f => s.engineFault c .xe e.pc f
        | none =>
          let (idx, f0, s) := s.readIndices (xeWho c p) c p b
          match f0 with
          | some f => s.engineFault c .xe e.pc f
          | none =>
            let js := resolveAll b a.outer idx
            let img := cutBits a.outerBits ((s.core c).trfGet x) n
            let rows := (js.zip img).filterMap (fun (q : Option Nat × Nat) => q.1.map (fun j => (j, q.2)))
            let strict := b.strict && decide (0 < oobCount js)
            let (rows, s) := if strict then s.someOf rows else (rows, s)
            let rb := s.readBase p a
            let wb := s.writeBase p a
            let (f, s) : Option CFault × State :=
              if add then
                let (rows, s) := s.shuffle rows
                let ps := addScatPieces a rb wb rows []
                let s := ps.foldl (fun (s : State) (q : Nat × Nat × Nat × Nat) => s.lineTraffic (xeWho c p) false true q.2.1 (q.2.2.1 * a.width / 8)) s
                let (f, s) := s.addPieces (xeWho c p) a.fmt ps
                (f, s.refreshCache c (ps.map (fun (q : Nat × Nat × Nat × Nat) => (⟨q.2.1, q.2.2.1 * a.width / 8, 0⟩ : MWrite))))
              else
                let m := storeRows [s.get Fld.COMMIT_NUM.COMMITS p, c, (s.core c).item, e.pc] rows rows []
                let ws := m.flatMap (fun (q : Nat × Nat) => a.placeRow wb q.1 q.2)
                let s := ws.foldl (fun (s : State) (y : MWrite) => s.lineTraffic (xeWho c p) false true y.addr y.size) s
                let s := ws.foldl (fun (s : State) (y : MWrite) => s.writeOpen (xeWho c p) y.addr y.size y.data) s
                (none, s.cacheWrites c ws)
            match lowerFault f (if strict then some ⟨cfIdxOob, 0, none⟩ else none) with
            | some f => s.engineFault c .xe e.pc f
            | none => s.countOob c (oobCount js)

/-- XPF (R89, R146): the lines of TDA enter the read cache. -/
def State.runXpf (s : State) (c p : Nat) (e : QEntry) : State :=
  let t := e.tdAt 0
  let d := s.descOf t.raw.toNat
  match descInvalid [(xTDA e.word, t.bad d opRead)] with
  | some f => s.engineFault c .xe e.pc f
  | none =>
    let base := s.readBase p d
    if d.count = 0 || !bit (s.core c).cfg 16 || !s.answers base then s
    else
      match placeOf base with
      | .data _ _ =>
        let lines := (d.rowAddrs base).foldl (fun l a =>
          (upFrom (a / 64) ((a + d.rowBytes - 1) / 64 - a / 64 + 1)).foldl setInsert l) ([] : List Nat)
        lines.foldl (fun s ln => (s.cachedLine (xeWho c p) (some c) ln).2) s
      | _ => s

end Sys2Proof.Machine
end

