-- ==== Sys2Proof/Machine/Engines.lean ====
section
/-!
DEFINITION. The engine queues and the scoreboard (R76–R80), the rows that enter them (R129–R161), and the
synchronizing instructions of pan batches and collective phases.
-/
namespace Sys2Proof.Machine

/-- Queue capacity of an engine. -/
def Eng.cap : Eng → Nat
  | .mxu => 8 | .ve => 32 | .xe => 32 | .pip => 16

/-- Whether an OP issues a transfer, a collective phase or a pan batch (R161). -/
def issuesWork (op : Nat) : Bool := (decide (0xB0 ≤ op) && decide (op ≤ 0xB6)) || op == 0xC0 || op == 0xD1

/-- Whether partition p is in its eve (R34). -/
def State.inEve (s : State) (p : Nat) : Bool :=
  (s.part p).eve || decide ((s.part p).openAt + s.windowNs p ≤ s.now + s.eveNs p)

/-- What a queue entry reads of the TRF. -/
def State.entryReads (s : State) (e : QEntry) : List Ext :=
  let w := e.word
  match e.op with
  | 0x80 => e.mReads
  | 0xB1 => [⟨wSlot w, (s.descOf (e.tdAt 0).raw.toNat).size⟩]
  | 0xB5 => [⟨wSlot w, ceilDiv ((s.descOf (e.tdAt 1).raw.toNat).count * (s.descOf (e.tdAt 0).raw.toNat).outerBits) 8⟩]
  | 0xD1 => e.pReads
  | _ => if e.eng = .ve then e.vReads else []

/-- What a queue entry writes of the TRF. -/
def State.entryWrites (s : State) (e : QEntry) : List Ext :=
  let w := e.word
  match e.op with
  | 0x80 => e.mWrites
  | 0xB0 => [⟨wSlot w, (s.descOf (e.tdAt 0).raw.toNat).size⟩]
  | 0xB3 => [⟨wSlot w, ceilDiv ((s.descOf (e.tdAt 1).raw.toNat).count * (s.descOf (e.tdAt 0).raw.toNat).outerBits) 8⟩]
  | 0xD0 => [⟨wSlot w, slotBytes⟩]
  | _ => if e.eng = .ve then e.vWrites else []

/-- Whether two lists of operands share a slot. -/
def extsMeet (a b : List Ext) : Bool := a.any (fun x => b.any x.meets)

/-- Whether earlier work of core c still has to read or write slots that are written, or to write slots that are read
(R77): queue entries and finished tiles before a point of program order. -/
def State.conflicts (s : State) (c seq : Nat) (reads writes : List Ext) : Bool :=
  let k := s.core c
  k.queue.any (fun e => decide (e.seq < seq) &&
      (extsMeet (s.entryWrites e) (reads ++ writes) || extsMeet (s.entryReads e) writes)) ||
    k.ftq.any (fun t => decide (t.seq < seq) && extsMeet [⟨t.dst, t.size⟩] (reads ++ writes))

/-- TAG of a PISSUE word. -/
def pTAG (w : Nat) : Nat := bits w 20 17

/-- Whether an incomplete batch of core c holds a tag. -/
def State.batchHolds (s : State) (c tag : Nat) : Bool :=
  s.batches.any (fun b => b.item.isNone && b.core == c && b.tag == tag)

/-- Whether an incomplete phase of core c holds a tag. -/
def State.phaseHolds (s : State) (c tag : Nat) : Bool :=
  s.colls.any (fun q => q.item.isNone && q.core == c && q.tag == tag)

/-- A PISSUE leaves the PIP queue (R157, R231): its words and payload are read, and delivery begins. -/
def State.runPissue (s : State) (c p : Nat) (e : QEntry) : State :=
  let w := e.word
  let k := s.core c
  let n := bits w 46 35 + 1
  let npay := bits w 25 21
  let ws := cutBits 128 (k.trfGet ⟨wSlot w, 16 * n⟩) n
  let stks := ws.foldl (fun l x => setInsert l (bits x 119 115)) ([] : List Nat)
  match if stks.any (fun t => decide (20 ≤ t)) then some ⟨cfIllegalOp, 0, none⟩ else trfRange e.pReads with
  | some f => s.engineFault c .pip e.pc f
  | none =>
    match k.trfEcc e.pReads with
    | some f => s.engineFault c .pip e.pc f
    | none =>
      let pay := cellsOf 0 (slotBytes * npay) (k.trfGet ⟨bits w 34 26, slotBytes * npay⟩)
      let b : Batch :=
        { id := s.batchSeq, core := c, part := p, tag := pTAG w, pc := e.pc, npay := npay, payload := pay
          words := (upFrom 0 n).zip ws, await := stks, paid := [], held := []
          pans := ws.foldl (fun l x => setInsert l (32 * bits x 119 115 + bits x 114 110)) [], item := none }
      { s with batches := s.batches ++ [b], batchSeq := s.batchSeq + 1 }

/-- A phase handed to the collective engine of a die (R154). -/
def State.handOff (s : State) (die core p tag pc dpa : Nat) (item : Option Nat) : State :=
  { s with colls := s.colls ++ [{ die := die, core := core, part := p, tag := tag, pc := pc, dpa := dpa, item := item
                                  started := false, began := 0, key := 0, op := 0, group := 0, redop := 0
                                  src := 0, dst := 0, scratch := 0, line := [], heard := [], arrived := [], got := [], put := false
                                  readBy := [] }] }

/-- Eighths of a cycle the MXU takes for a reduction step of an operand format (R64). -/
def stepEighths (f : Nat) : Nat := if f = 0 then 64 else if f = 1 || f = 2 then 16 else if f = 5 || f = 6 then 4 else 8

/-- Cycles of the arithmetic clock an MMA takes (R64, R135, R137): the latency of an idle array, the steps at the slower operand's
rate, and the drain. -/
def mmaCycles (w kl : Nat) : Nat :=
  (if kl = 0 then 1 else 24 + ceilDiv (kl * Nat.max (stepEighths (aLFMT w)) (stepEighths (aRFMT w))) 8) + (if aFIN w then 128 else 0)

/-- Cycles a VE instruction takes (R84, R138, R142). -/
def veCycles (op vl : Nat) : Nat :=
  if vl = 0 then 1 else 12 + ceilDiv vl (if [0x8F, 0x90, 0x91, 0x92].contains op then 128 else 512)

/-- The time core c's MXU or VE works for partition p on an instruction it completes (R367): its whole cost, each instruction being
complete before the next one starts (log 2). -/
def State.engineTime (s : State) (c p : Nat) (e : QEntry) : State :=
  if (s.core c).run = .faulted then s
  else
    let ns := fun (n : Nat) => n * 1000 / Nat.max 1 (s.mhz (dieOfCore c))
    if e.op = 0x80 then s.account (some p) 0 (ns (mmaCycles e.word e.kl))
    else if e.eng = .ve then s.account (some p) 1 (ns (veCycles e.op e.vl))
    else s

/-- A queue entry executed by its engine, the words it reads corrected (R75). -/
def State.runEntry (s : State) (c p : Nat) (e : QEntry) (direct : Bool) : State :=
  let s := if (trfRange (s.entryReads e)).isSome then s else s.trfCorrect c (s.entryReads e)
  match e.op with
  | 0x80 => (s.runMma c e direct).engineTime c p e
  | 0xB0 => s.runXld c p e
  | 0xB1 => s.runXst c p e
  | 0xB2 => s.runXmov c p e
  | 0xB3 => s.runXgath c p e
  | 0xB4 => s.runXgatm c p e
  | 0xB5 => s.runXscat c p e
  | 0xB6 => s.runXpf c p e
  | 0xC0 => s.handOff (dieOfCore c) c p (wSEL e.word) e.pc (e.reg 0) none
  | 0xD0 => s.trfPut c (wSlot e.word * slotBytes + 16 * bits e.word 46 37) 16 (e.reg 0 + e.reg 1 <<< 64)
  | 0xD1 => s.runPissue c p e
  | _ => (s.runVe c e).engineTime c p e

/-- Whether the scoreboard and the tags let the head of an engine's queue start (R76, R77, R80, R154, R157). -/
def State.mayRun (s : State) (c : Nat) (e : QEntry) : Bool :=
  let w := e.word
  let rd := s.entryReads e
  let wr := s.entryWrites e
  let free :=
    if e.op = 0x80 then
      !s.conflicts c e.seq rd [] && (wr.isEmpty || !s.conflicts c e.seq [] wr || (s.core c).ftqFree.isSome)
    else !s.conflicts c e.seq rd wr
  free && !(e.op == 0xC0 && s.phaseHolds c (wSEL w)) &&
    !(e.op == 0xD1 && (s.batchHolds c (pTAG w) || s.delivering c)) && !(e.op == 0xD0 && s.delivering c)

/-- Whether the head of an engine's queue may start: in the eve, no work issues (R35). -/
def State.mayStart (s : State) (c p : Nat) (e : QEntry) : Bool := s.mayRun c e && !(issuesWork e.op && s.inEve p)

/-- The head of an engine's queue started if it may. The transfer of an almanac item starts as time passes (R59). -/
def State.tryEngine (s : State) (c p : Nat) (g : Eng) : Option State :=
  let k := s.core c
  match k.queue.find? (fun e => e.eng = g) with
  | none => none
  | some e =>
    if e.item.isNone && s.mayStart c p e then
      let direct := !s.conflicts c e.seq [] (s.entryWrites e)
      let s := s.setCore c { k with queue := k.queue.filter (fun x => x.seq != e.seq) }
      some (s.runEntry c p e direct)
    else none

/-- Whether the head of some queue of core c is an issue that the eve holds. -/
def State.eveHeld (s : State) (c p : Nat) : Bool :=
  s.inEve p && [Eng.xe, .pip].any (fun g =>
    match (s.core c).queue.find? (fun e => e.eng = g) with
    | some e => issuesWork e.op
    | none => false)

/-- The engines of core c run what they may, one entry at a time. -/
def State.pumpCore (s : State) (c p : Nat) : Nat → State
  | 0 => s
  | n + 1 =>
    if (s.part p).phase = .active then
      match s.tryEngine c p .mxu with
      | some t => t.pumpCore c p n
      | none =>
        match s.tryEngine c p .ve with
        | some t => t.pumpCore c p n
        | none =>
          match s.tryEngine c p .xe with
          | some t => t.pumpCore c p n
          | none =>
            match s.tryEngine c p .pip with
            | some t => t.pumpCore c p n
            | none => s
    else s

/-- The engines of core c run what they may (R76, R77), and an issue held by the eve is noted. -/
def State.pump (s : State) (c : Nat) : State :=
  match s.partOf c with
  | none => s
  | some p =>
    let s := s.pumpCore c p ((s.core c).queue.length + 1)
    if s.eveHeld c p then s.setPart p { s.part p with eveStalled := true } else s

/-- The engines of every core of partition p run what they may. -/
def State.pumpPart (s : State) (p : Nat) : State := (s.coresOf p).foldl (fun s c => s.pump c) s

/-- An engine instruction placed in its queue with what it captures (R76, R78): it stalls while the queue is full. -/
def State.enqueue (s : State) (c : Nat) (g : Eng) (w : Nat) (regs tds : List Nat) : State :=
  let k := s.core c
  if g.cap ≤ (k.queue.filter (fun e => e.eng = g)).length then s
  else
    let e : QEntry :=
      { seq := k.seq, eng := g, word := w, pc := k.pc, vl := k.vl, vrow := k.vrow
        regs := regs.map (fun r => BitVec.ofNat 64 (s.x c r)), tds := tds.map (nth ⟨false, 0⟩ k.td), item := none }
    ((s.setCore c { k with seq := k.seq + 1, queue := k.queue ++ [e] }).next c).pump c

/-- A row that enters an engine's queue. -/
def State.axEngine (s : State) (c op : Nat) (g : Eng) (legal : Nat → Bool) (regs : Nat → List Nat) (tds : Nat → List Nat) :
    Host.Outcome State Fault Refusal :=
  s.axRow c op legal (fun _ w s => s.enqueue c g w (regs w) (tds w))

/-- Legality of MMA's word (R130, R134). -/
def lgMma (w : Nat) : Bool :=
  bits w 19 0 == 0 && decide (wSlot w < slotCount) && decide (aDFMT w ≤ 2) && ((aLFMT w == 7) == (aRFMT w == 7))

/-- MMA (R132–R137). -/
def execAxMma (c : Fin 12) (s : State) :=
  s.axEngine c 0x80 .mxu lgMma (fun w => [bits w 46 42, bits w 41 37, bits w 36 32]) (fun _ => [])

/-- Legality of a vector word (R130, R138–R141). -/
def lgV (op w : Nat) : Bool :=
  let useB := vUsesB op
  let useS := vUsesScale op
  bit w 14 == false && bits w 8 0 == 0 && decide (wSlot w < slotCount) && decide (vSA w < slotCount) &&
    decide (vSB w < slotCount) && vAMODE w != 3 && vBMODE w != 3 &&
    (useB || (vBFMT w == 0 && vBMODE w == 0 && (useS || vSB w == 0))) &&
    (op != 0x96 || (vSA w == 0 && vAFMT w == 0 && vAMODE w == 0)) &&
    (op == 0x96 || op == 0x99 || op == 0x9A || vRS w == 0) && (!vRowOp op || vAMODE w == 0) &&
    (op != 0x97 || (decide (3 ≤ vDFMT w) && decide (vDFMT w ≤ 6))) &&
    (op != 0x98 || (decide (3 ≤ vAFMT w) && decide (vAFMT w ≤ 6))) &&
    (!vSR w || ((op == 0x8E || op == 0x97) && decide (3 ≤ vDFMT w) && decide (vDFMT w ≤ 6))) &&
    ((op != 0x99 && op != 0x9A) || decide (vDFMT w ≤ 2))

/-- A vector row. -/
def State.axVec (s : State) (c op : Nat) : Host.Outcome State Fault Refusal :=
  s.axEngine c op .ve (lgV op) (fun w => [vRS w]) (fun _ => [])

/-- VADD (R138). -/
def execAxVadd (c : Fin 12) (s : State) := s.axVec c 0x88
/-- VSUB (R138). -/
def execAxVsub (c : Fin 12) (s : State) := s.axVec c 0x89
/-- VMUL (R138). -/
def execAxVmul (c : Fin 12) (s : State) := s.axVec c 0x8A
/-- VMAC (R138). -/
def execAxVmac (c : Fin 12) (s : State) := s.axVec c 0x8B
/-- VMAX (R138, R178). -/
def execAxVmax (c : Fin 12) (s : State) := s.axVec c 0x8C
/-- VMIN (R138, R178). -/
def execAxVmin (c : Fin 12) (s : State) := s.axVec c 0x8D
/-- VCVT (R138, R141). -/
def execAxVcvt (c : Fin 12) (s : State) := s.axVec c 0x8E
/-- VEXP (R138, R179). -/
def execAxVexp (c : Fin 12) (s : State) := s.axVec c 0x8F
/-- VLOG (R138, R179). -/
def execAxVlog (c : Fin 12) (s : State) := s.axVec c 0x90
/-- VRCP (R138, R179). -/
def execAxVrcp (c : Fin 12) (s : State) := s.axVec c 0x91
/-- VRSQ (R138, R179). -/
def execAxVrsq (c : Fin 12) (s : State) := s.axVec c 0x92
/-- VRSUM (R138, R139). -/
def execAxVrsum (c : Fin 12) (s : State) := s.axVec c 0x93
/-- VRMAX (R138, R139). -/
def execAxVrmax (c : Fin 12) (s : State) := s.axVec c 0x94
/-- VRSSQ (R138, R139). -/
def execAxVrssq (c : Fin 12) (s : State) := s.axVec c 0x95
/-- VSPLAT (R138). -/
def execAxVsplat (c : Fin 12) (s : State) := s.axVec c 0x96
/-- VMXQ (R140, R168). -/
def execAxVmxq (c : Fin 12) (s : State) := s.axVec c 0x97
/-- VMXD (R140, R169). -/
def execAxVmxd (c : Fin 12) (s : State) := s.axVec c 0x98
/-- VMLE (R138, R180). -/
def execAxVmle (c : Fin 12) (s : State) := s.axVec c 0x99
/-- VMGE (R138, R180). -/
def execAxVmge (c : Fin 12) (s : State) := s.axVec c 0x9A

/-- A transfer row: legality of the fields its operation uses (R146). -/
def State.axXfer (s : State) (c op : Nat) (legal : Nat → Bool) : Host.Outcome State Fault Refusal :=
  s.axEngine c op .xe (fun w => bits w 30 0 == 0 && decide (wSlot w < slotCount) && legal w) (fun _ => [])
    (fun w => [xTDA w, xTDB w, xTDC w])

/-- XLD (R146). -/
def execAxXld (c : Fin 12) (s : State) := s.axXfer c 0xB0 (fun w => bits w 41 31 == 0)
/-- XST (R146). -/
def execAxXst (c : Fin 12) (s : State) := s.axXfer c 0xB1 (fun w => bits w 41 31 == 0)
/-- XMOV (R146, R147). -/
def execAxXmov (c : Fin 12) (s : State) := s.axXfer c 0xB2 (fun w => wSlot w == 0 && bits w 36 31 == 0)
/-- XGATH (R146). -/
def execAxXgath (c : Fin 12) (s : State) := s.axXfer c 0xB3 (fun w => bits w 36 31 == 0)
/-- XGATM (R146). -/
def execAxXgatm (c : Fin 12) (s : State) := s.axXfer c 0xB4 (fun w => wSlot w == 0 && !bit w 31)
/-- XSCAT (R146). -/
def execAxXscat (c : Fin 12) (s : State) := s.axXfer c 0xB5 (fun w => bits w 36 32 == 0)
/-- XPF (R146). -/
def execAxXpf (c : Fin 12) (s : State) := s.axXfer c 0xB6 (fun w => wSlot w == 0 && bits w 41 31 == 0)

/-- CPH (R154): the address is checked under R106 by the scalar unit, then the hand-off enters the XE queue. -/
def execAxCph (c : Fin 12) (s : State) :=
  s.axRow c 0xC0 (fun w => allZero [wRD w, bits w 45 40, wIMM w] && decide (wSEL w ≤ 3)) (fun p w s =>
    match s.scalarCheck p (s.x c (wRS1 w)) 64 64 false with
    | some e => s.faultScalar c e
    | none => s.enqueue c .xe w [wRS1 w] [])

/-- CSYNC (R155, R117). -/
def execAxCsync (c : Fin 12) (s : State) :=
  s.axRow c 0xC1 (fun w => allZero [bits w 55 32, bits w 31 4]) (fun _ w s =>
    let held := fun (t : Nat) => bit w t
    let busy := (s.core c).queue.any (fun e => e.op == 0xC0 && held (wSEL e.word)) ||
      (setBitsOf w 4).any (s.phaseHolds c)
    if busy then s else (s.invalidate c).next c)

/-- PCW (R156). -/
def execAxPcw (c : Fin 12) (s : State) :=
  s.axEngine c 0xD0 .pip (fun w => bits w 26 0 == 0 && decide (wSlot w < slotCount)) (fun w => [bits w 36 32, bits w 31 27])
    (fun _ => [])

/-- PISSUE (R157). -/
def execAxPissue (c : Fin 12) (s : State) :=
  s.axEngine c 0xD1 .pip (fun w =>
      bits w 16 0 == 0 && decide (wSlot w < slotCount) && decide (bits w 34 26 < slotCount) && decide (bits w 25 21 ≤ 16) &&
        (bits w 25 21 != 0 || bits w 34 26 == 0)) (fun _ => []) (fun _ => [])

/-- Tags of core c held by a PISSUE in the queue or an incomplete batch (R159). -/
def State.tagHeld (s : State) (c t : Nat) : Bool :=
  (s.core c).queue.any (fun e => e.op == 0xD1 && pTAG e.word == t) || s.batchHolds c t

/-- PSYNC (R158, R117). -/
def execAxPsync (c : Fin 12) (s : State) :=
  s.axRow c 0xD2 (fun w => allZero [bits w 55 32, bits w 31 16]) (fun _ w s =>
    if (setBitsOf w 16).any (s.tagHeld c) then s else (s.invalidate c).next c)

/-- PTEST (R159). -/
def execAxPtest (c : Fin 12) (s : State) :=
  s.axRow c 0xD3 (fun w => bits w 50 0 == 0) (fun _ w s =>
    let m := (upFrom 0 16).foldl (fun m t => if s.tagHeld c t then m else m + 2 ^ t) 0
    (s.setX c (wRD w) m).next c)

/-- FTQ_DRAIN (R80): the oldest finished tile reaches its destination slots once the scoreboard allows. -/
def execFtqDrain (c : Fin 12) (s : State) : Host.Outcome State Fault Refusal :=
  let k := s.core c
  match k.ftq with
  | [] => ok s
  | t :: rest =>
    if s.conflicts c t.seq [] [⟨t.dst, t.size⟩] then ok s
    else
      let v := smBytes s.mem (s.ftqAddr c t.entry) t.size
      let s := s.setCore c { k with ftq := rest }
      ok ((s.trfPut c (t.dst * slotBytes) t.size v).pump c)

/-- A descriptor register of core c set. -/
def State.setTd (s : State) (c i : Nat) (t : TD) : State := s.setCore c { s.core c with td := setNth (s.core c).td i t }

/-- Creation of a descriptor register (R71, R143, R200): rejected, it is left invalid and DESC_REJECT is raised. -/
def State.create (s : State) (c p i : Nat) (raw : Nat) : State :=
  if s.createOk p raw then (s.setTd c i ⟨true, BitVec.ofNat 512 raw⟩).next c
  else (s.setTd c i ⟨false, BitVec.ofNat 512 raw⟩).scalarFault c cfDescReject 0 none

/-- WORD of format D. -/
def dWORD (w : Nat) : Nat := bits w 40 37

/-- TDLD (R143, R144). -/
def execAxTdld (c : Fin 12) (s : State) :=
  s.axRow c 0xA0 (fun w => allZero [wRS2 w, bits w 40 32]) (fun p w s =>
    let a := s.memAddr c w
    match s.scalarCheck p a 64 64 false with
    | some e => s.faultScalar c e
    | none =>
      if (s.core c).storeOverlaps a 64 then s
      else
        let (v, e, s) := s.loadPlain c p a 64
        match e with
        | some e => s.faultScalar c e
        | none => (s.runAhead (scalarWho c p) c p (a / 64 + 1)).create c p (wRD w) v)

/-- TDSET (R143). -/
def execAxTdset (c : Fin 12) (s : State) :=
  s.axRow c 0xA1 (fun w => allZero [wRS1 w, bits w 36 0] && decide (dWORD w ≤ 7)) (fun p w s =>
    let t := nth ⟨false, 0⟩ (s.core c).td (wRD w)
    let i := dWORD w
    if !t.valid then s.scalarFault c cfDescInvalid (wRD w) none
    else s.create c p (wRD w) (setBits t.raw.toNat (64 * i + 63) (64 * i) (s.x c (wRS2 w))))

/-- TDMOV (R143). -/
def execAxTdmov (c : Fin 12) (s : State) :=
  s.axRow c 0xA2 (fun w => allZero [wRS1 w, bits w 40 0]) (fun _ w s =>
    let t := nth ⟨false, 0⟩ (s.core c).td (wRS2 w)
    if !t.valid then s.scalarFault c cfDescInvalid (wRS2 w) none else (s.setTd c (wRD w) t).next c)

/-- TDINV (R143). -/
def execAxTdinv (c : Fin 12) (s : State) :=
  s.axRow c 0xA3 (fun w => bits w 50 0 == 0) (fun _ w s =>
    (s.setTd c (wRD w) { nth ⟨false, 0⟩ (s.core c).td (wRD w) with valid := false }).next c)

/-- TDST (R143, R144): one entry of the store queue carries all 64 bytes (R109). -/
def execAxTdst (c : Fin 12) (s : State) :=
  s.axRow c 0xA4 (fun w => allZero [wRS2 w, bits w 40 32]) (fun p w s =>
    let a := s.memAddr c w
    match s.scalarCheck p a 64 64 true with
    | some e => s.faultScalar c e
    | none =>
      if 16 ≤ (s.core c).stq.length then s
      else s.enterStore c a 64 (nth ⟨false, 0⟩ (s.core c).td (wRD w)).raw.toNat)

end Sys2Proof.Machine
end

