-- ==== Sys2Proof/Machine/Pan.lean ====
section
/-!
DEFINITION. The pans' state, addresses, descriptors and the delivery of batches (R226–R235, R253–R259).
-/
namespace Sys2Proof.Machine

/-- Pan number u (32 × stack + pseudo-channel). -/
def State.pan (s : State) (u : Nat) : PanSt := smGet .reset s.pans u
/-- Pan u replaced. -/
def State.setPan (s : State) (u : Nat) (x : PanSt) : State := { s with pans := smPut .reset s.pans u x }

/-- The stack and pseudo-channel of a pan. -/
def panStack (u : Nat) : Nat := u / 32
/-- The pseudo-channel of a pan. -/
def panPch (u : Nat) : Nat := u % 32

/-- The pan-local offset of a stack offset of the pan's own pseudo-channel (R228). -/
def panLocal (o : Nat) : Nat := (o >>> 21) * 0x10000 + bits o 15 0

/-- The DPA of a pan-local offset (R228). -/
def panDpa (u l : Nat) : Nat := panStack u * stackSpan + (l >>> 16) * 0x200000 + panPch u * 0x10000 + l % 0x10000

/-- Highest pan-local address a command reaches (R229). -/
def panTop : Nat := 0xBFCFFFFF

/-- Batch b, if it is not complete. -/
def State.batch (s : State) (b : Nat) : Option Batch := s.batches.find? (fun x => x.id == b)
/-- A batch replaced. -/
def State.setBatch (s : State) (b : Batch) : State :=
  { s with batches := s.batches.map (fun x => if x.id = b.id then b else x) }

/-- Whether a batch still has commands for pan u in a PIP or a command queue. -/
def State.batchLeft (s : State) (b u : Nat) : Bool :=
  (s.pan u).queue.any (fun e => e.1 == b) ||
    (match s.batch b with
     | some x => x.words.any (fun w => 32 * bits w.2 119 115 + bits w.2 114 110 == u)
     | none => false)

/-- Words of a batch delivered in order while the target's queue has room and its stack holds the payload (R157, R231). -/
def State.deliverWords (s : State) (b : Batch) : List (Nat × Nat) → State
  | [] => s.setBatch { b with words := [] }
  | (i, w) :: l =>
    let t := bits w 119 115
    let u := 32 * t + bits w 114 110
    let k := s.pan u
    if b.await.contains t || 256 ≤ k.queue.length then s.setBatch { b with words := (i, w) :: l }
    else (s.setPan u { k with queue := k.queue ++ [(b.id, i, w)] }).deliverWords b l

/-- Every batch's waiting words delivered as far as queues allow. -/
def State.deliverAll (s : State) : State := s.batches.foldl (fun s b => s.deliverWords b b.words) s

/-- Payload blocks taken in stack t (R230). -/
def State.blocksUsed (s : State) (t : Nat) : Nat :=
  sumList (s.batches.map (fun b => if b.held.contains t then b.npay else 0))

/-- Bytes charged as their request issues (R163, R216–R218): LEVEL of a sluice, the stack bucket, the byte counters. -/
def State.charge (s : State) (sl t : Nat) (inStack write : Bool) (n : Nat) : State :=
  let k := s.stack t
  let cost : Int := if inStack then ((n * 32768 : Nat) : Int) else ((n * 81920 : Nat) : Int)
  let k := if sl ≤ 17 then { k with bucket := k.bucket - cost } else k
  let k := if sl ≤ 16 then { k with level := setNth k.level sl (nth 0 k.level sl - cost) } else k
  let s := s.setStack t k
  let s :=
    if sl ≤ 16 then
      if inStack then s.count Fld.SL_INT.BYTES n t sl else s.count Fld.SL_EXT.BYTES n t sl
    else s
  if inStack then s.bump Fld.STK_INT.BYTES n t
  else if write then s.bump Fld.STK_EXT_WR.BYTES n t
  else s.bump Fld.STK_EXT_RD.BYTES n t

/-- Whether the LEVEL of a sluice and the stack bucket let a request issue (R217, R218); a sluice whose RATE or SCALE is zero
issues nothing (R222). -/
def State.mayIssue (s : State) (sl t : Nat) : Bool :=
  let k := s.stack t
  (decide (17 < sl) || decide (0 < k.bucket)) &&
    (decide (16 < sl) || (decide (0 < nth 0 k.level sl) && decide (0 < nth 0 k.rate sl) && s.is Fld.SL_SCALE.SCALE t))

/-- Granules of a batch's payload carried from core c to stack t, one after the other while the partition's LEVEL and the stack
bucket let them issue (R163, R217): how many are carried after it; a crossing of the inter-die link is counted there (R15). -/
def State.carry (s : State) (c t p done : Nat) : Nat → Nat × State
  | 0 => (done, s)
  | n + 1 =>
    if s.mayIssue p t then
      let s := (s.charge p t false true 4096).account (some p) 6 4096
      let s := if dieOfCore c = dieOfStack t then s else s.account (some p) 8 4096
      s.carry c t p (done + 1) n
    else (done, s)

/-- PAYLOAD_DELIVERY (R157, R217, R230, R231): the earliest batch of core c that awaits stack t sends its payload there, when
enough blocks are free, granule by granule while the sluice lets it; once all of it is there its words follow. -/
def execPayloadDelivery (c : Fin 12) (t : Fin 20) (s : State) : Host.Outcome State Fault Refusal :=
  match s.batches.find? (fun b => b.core == c.val && b.item.isNone && (!b.await.isEmpty || !b.words.isEmpty)) with
  | none => ok s
  | some b =>
    if b.await.contains t.val then
      if !s.stackUp t then
        ok (({ s with batches := s.batches.filter (fun x => x.id != b.id) }).engineFault c .pip b.pc
              ⟨cfDomainDown, t * stackSpan, some t⟩)
      else if s.blocksUsed t + b.npay ≤ 64 then
        let was := smGet 0 b.paid t
        let (done, s) := s.carry c t b.part was (4 * b.npay - was)
        if done < 4 * b.npay then ok (s.setBatch { b with paid := smPut 0 b.paid t done })
        else
          let b := { b with await := setErase b.await t, paid := smErase b.paid t, held := setInsert b.held t }
          let s := (s.setBatch b).deliverWords b b.words
          ok (s.pump c)
      else ok s
    else ok s

/-- Bank number within a stack: 32 × pseudo-channel + bank. -/
def bankKey (o : Nat) : Nat := 32 * pchOf o + bankOf o

/-- The seed a pan starts a batch at (R253, R509). -/
def panSeed (payload : SMap Byte) (npay t u : Nat) : Word :=
  let first := if npay = 0 then bytesOf 8 0 else smPeekList payload 0 8
  BitVec.ofNat 64 (seedOf (first ++ bytesOf 8 t ++ bytesOf 8 u))

/-- Whether the pans of stack t may start work: the stack is up and its die takes no emergency action (R263). -/
def State.pansRun (s : State) (t : Nat) : Bool := s.stackUp t && !s.is Fld.PWR_DIE.EMERG (dieOfStack t)

/-- PAN_BATCH_START (R232, R253): the pan takes the batch whose word arrived first. -/
def execPanBatchStart (t : Fin 20) (u : Fin 32) (s : State) : Host.Outcome State Fault Refusal :=
  let n := 32 * t.val + u.val
  let k := s.pan n
  match k.run, k.queue with
  | none, (b, _, _) :: _ =>
    match s.batch b with
    | some x =>
      if s.pansRun t && (s.part x.part).phase = .active then
        ok (s.setPan n { k with
          run := some { batch := b, micro := 0, cmds := 0, flags := 0, idxOob := 0, skipped := 0, sealLost := 0, bytes := 0
                        clocks := 0, mhz := s.mhz (dieOfStack t), seed := panSeed x.payload x.npay t u, stopped := false
                        fault := none, cmd := 0, left := [], reads := [], banks := [], closing := [] }
          obuf := [], obufBad := [], acc := [] })
      else ok s
    | none => ok s
  | _, _ => ok s

/-- Fields of a command word (R233). -/
def cOPC (w : Nat) : Nat := bits w 127 120
/-- SR. -/
def cSR (w : Nat) : Bool := bit w 109
/-- ACC. -/
def cACC (w : Nat) : Bool := bit w 108
/-- DA. -/
def cDA (w : Nat) : Nat := bits w 107 96
/-- DB. -/
def cDB (w : Nat) : Nat := bits w 95 84
/-- DC. -/
def cDC (w : Nat) : Nat := bits w 83 72
/-- OB. -/
def cOB (w : Nat) : Nat := bits w 71 60
/-- AC. -/
def cAC (w : Nat) : Nat := bits w 59 50
/-- CNT. -/
def cCNT (w : Nat) : Nat := bits w 49 34
/-- AF. -/
def cAF (w : Nat) : Nat := bits w 33 31
/-- BF and DF. -/
def cBD (w : Nat) : Nat := bits w 30 25
/-- FUNC. -/
def cFUNC (w : Nat) : Nat := bits w 24 20
/-- FLG. -/
def cFLG (w : Nat) : Nat := bits w 19 16
/-- IMM. -/
def cIMM (w : Nat) : Nat := bits w 15 0

/-- Pan fault codes (R258). -/
def pfIllegal : Nat := 1
def pfPayload : Nat := 2
def pfRange : Nat := 3
def pfReject : Nat := 4
def pfKind : Nat := 5
def pfObuf : Nat := 6
def pfAcc : Nat := 7
def pfObufEcc : Nat := 8
def pfPoison : Nat := 9
def pfCsumOpen : Nat := 10
def pfCsum : Nat := 11
def pfIdxOob : Nat := 12

/-- A pan fault: its code and the granule FAULT_ADDR takes (R258, R259). -/
structure PFault where
  code : Nat
  addr : Nat
  deriving DecidableEq, Repr

/-- The first of several checks that fails, in the order of R258. -/
def firstBad : List (Bool × Nat) → Option PFault
  | [] => none
  | (b, c) :: l =>
    match firstBad l with
    | some f => if b && c ≤ f.code then some ⟨c, 0⟩ else some f
    | none => if b then some ⟨c, 0⟩ else none

/-- A pan command in execution: the pan, the batch, what the batch has done on it, and the word. -/
structure PCtx where
  u : Nat
  b : Batch
  w : Nat

/-- Bytes of a batch's payload from a unit. -/
def Batch.pay (b : Batch) (unit n : Nat) : Nat := smBytes b.payload (64 * unit) n

/-- Whether n bytes from a payload unit run past the payload (R235). -/
def Batch.payOver (b : Batch) (unit n : Nat) : Bool := decide (b.npay * slotBytes < 64 * unit + n)

/-- The descriptor in a payload unit as pan pc of the same stack reads it: BASE turned into a pan-local offset (R229). -/
def panDesc (raw : Nat) : Desc := let d := Desc.of raw; { d with base := panLocal (d.base % stackSpan) }

/-- Whether a descriptor's BASE lies in no stack but a given one, nor in another pseudo-channel of it when one is asked for (R229,
R238). -/
def panBaseOk (raw t : Nat) (u : Option Nat) : Bool :=
  let a := (Desc.of raw).base
  !decide (a < 20 * stackSpan) || a / stackSpan == t && (match u with | some u => pchOf (a % stackSpan) == u | none => true)

/-- Distance of half 1 in pan-local bytes (R229). -/
def Desc.panPair (d : Desc) : Nat := d.pairOff * 0x10000

/-- Whether an interval of pan-local bytes lies in units a partition may use through a mode (R199, R229). -/
def State.panRangeOk (s : State) (p t : Nat) (d : Desc) (lo hi : Nat) : Bool :=
  let us := upFrom (lo >>> 16) ((hi >>> 16) - (lo >>> 16) + 1)
  us.all (s.owns p t) || (d.mode == mdRead && us.all (fun x => s.owns p t x || s.mapsUnit p t x))

/-- The checks of R200 in the pan-local space (R229). -/
def State.panCreateOk (s : State) (p t raw : Nat) : Bool :=
  let d := panDesc raw
  d.legal raw && !d.dist && (Desc.of raw).aligned && decide ((Desc.of raw).base < 20 * stackSpan) &&
    (d.count == 0 ||
      (decide (0 ≤ d.lo) && decide (d.hi + (if d.genPair then d.panPair else 0) ≤ (panTop : Int)) && d.oneToOne &&
        (!d.genPair || decide (d.hi - d.lo + 1 ≤ (d.panPair : Int))) && s.panRangeOk p t d d.lo.toNat d.hi.toNat &&
        (!d.genPair || s.panRangeOk p t d (d.lo.toNat + d.panPair) (d.hi.toNat + d.panPair))))

/-- The raw bytes of the descriptor in a payload unit. -/
def PCtx.raw (x : PCtx) (unit : Nat) : Nat := x.b.pay unit 64
/-- The descriptor in a payload unit. -/
def PCtx.desc (x : PCtx) (unit : Nat) : Desc := panDesc (x.raw unit)
/-- The stack of the pan. -/
def PCtx.stack (x : PCtx) : Nat := panStack x.u
/-- The access of the pan. -/
def PCtx.who (x : PCtx) : Who := ⟨.pan x.u, some x.b.part⟩

/-- The checks of a descriptor in a payload unit (R229, R235): in the payload, in reach, and created. The pseudo-channel
is the pan's own except for the target of a COPY. -/
def PCtx.unitChecks (x : PCtx) (s : State) (unit : Nat) (own : Bool) : List (Bool × Nat) :=
  let isOver := x.b.payOver unit 64
  let raw := x.raw unit
  [(isOver, pfPayload),
    (!isOver && !panBaseOk raw x.stack (if own then some (panPch x.u) else none), pfRange),
    (!isOver && !s.panCreateOk x.b.part x.stack raw, pfReject)]

/-- The checks of a descriptor that a field of the command names (R235): 0xFFF names none. -/
def PCtx.descChecks (x : PCtx) (s : State) (unit : Nat) (own : Bool) : List (Bool × Nat) :=
  (unit == 0xFFF, pfIllegal) :: x.unitChecks s unit own

/-- The base of the half a read takes, pan-local (R198, R229). -/
def State.panReadBase (s : State) (p : Nat) (d : Desc) : Nat :=
  if d.genPair then d.base + s.get Fld.STEP_STATE.GEN p * d.panPair else d.base
/-- The base of the half a write takes, pan-local. -/
def State.panWriteBase (s : State) (p : Nat) (d : Desc) : Nat :=
  if d.genPair then d.base + (1 - s.get Fld.STEP_STATE.GEN p) * d.panPair else d.base

/-- A core's memory fault as the pan reports it. -/
def panFaultOf (f : CFault) : PFault :=
  ⟨if f.code = cfPoison then pfPoison else if f.code = cfCsumOpen then pfCsumOpen else pfCsum, f.addr / 4096 * 4096⟩

/-- Granules in the pan-local space read for compute, in order: their data by local granule (R251). -/
def State.panGranules (s : State) (x : PCtx) (unchecked : Bool) : List Nat → SMap Nat × Option PFault × State
  | [] => ([], none, s)
  | g :: gs =>
    let (v, f, s) := s.computeGranule x.who true unchecked none (panDpa x.u (4096 * g) / 4096)
    match f with
    | some e => ([], some (panFaultOf e), s)
    | none =>
      let (m, f, s) := s.panGranules x unchecked gs
      (smInsert m g v, f, s)

/-- The image of a descriptor read for compute by a pan. -/
def State.panImage (s : State) (x : PCtx) (d : Desc) : Nat × Option PFault × State :=
  let base := s.panReadBase x.b.part d
  let (m, f, s) := s.panGranules x d.unchecked (d.granules base)
  (joinBits d.rowBits ((d.rowAddrs base).map (fun a => fromGranules m a d.rowBytes)), f, s)

/-- A write in pan-local space as writes at DPAs, cut at 64 KiB blocks (R228). -/
def panSplit (u : Nat) (m : MWrite) : List MWrite :=
  if m.size = 0 then []
  else
    (upFrom (m.addr / 65536) ((m.addr + m.size - 1) / 65536 - m.addr / 65536 + 1)).map (fun k =>
      let lo := Nat.max m.addr (65536 * k)
      let hi := Nat.min (m.addr + m.size) (65536 * k + 65536)
      ⟨panDpa u lo, hi - lo, (m.data >>> (8 * (lo - m.addr))) % 2 ^ (8 * (hi - lo))⟩)

/-- A pan's run changed. -/
def State.setRun (s : State) (n : Nat) (f : PanRun → PanRun) : State :=
  let k := s.pan n
  match k.run with
  | some r => s.setPan n { k with run := some (f r) }
  | none => s

/-- Memory tasks of the command in hand, done in its micro-operations in this order (R254). -/
def State.panLater (s : State) (u : Nat) (ts : List PanTask) : State := s.setRun u (fun r => { r with left := r.left ++ ts })

/-- The part of a write in granule g. -/
def MWrite.inGranule (m : MWrite) (g : Nat) : MWrite :=
  let lo := Nat.max m.addr (4096 * g)
  let hi := Nat.min (m.addr + m.size) (4096 * g + 4096)
  ⟨lo, hi - lo, (m.data >>> (8 * (lo - m.addr))) % 2 ^ (8 * (hi - lo))⟩

/-- Writes as tasks of at most 16 granules each (R254). -/
def putTasks (sealing : Bool) (ws : List MWrite) : List PanTask :=
  let gs := ws.foldl (fun l (m : MWrite) => (granulesOf m.addr m.size).foldl setInsert l) ([] : List Nat)
  (chunks 16 gs).map (fun g16 => .put sealing (ws.flatMap (fun (m : MWrite) =>
    ((granulesOf m.addr m.size).filter g16.contains).map m.inGranule)))

/-- Writes of a pan through pseudo-channel v of its stack: sealing full granules or leaving all open (R237). -/
def State.panWrites (s : State) (x : PCtx) (v : Nat) (sealing : Bool) (ws : List MWrite) : State :=
  s.panLater x.u (putTasks sealing (ws.flatMap (panSplit v)))

/-- An ADD-mode piece of pan v (source and destination pan-local, elements, data) as pieces at DPAs, cut at granules. -/
def addSplit (v f : Nat) (p : Nat × Nat × Nat × Nat) : List (Nat × Nat × Nat × Nat) :=
  let (src, dst, n, data) := p
  let eb := fmtBits f / 8
  (granulesOf dst (n * eb)).map (fun g =>
    let i := (Nat.max dst (4096 * g) - dst) / eb
    let j := (Nat.min (dst + n * eb) (4096 * g + 4096) - dst) / eb
    (panDpa v (src + i * eb), panDpa v (dst + i * eb), j - i, (data >>> (i * fmtBits f)) % 2 ^ ((j - i) * fmtBits f)))

/-- ADD-mode pieces of a pan (R151, R244), in micro-operations of eight, each of which reads a granule and writes one. -/
def State.panAdds (s : State) (x : PCtx) (v f : Nat) (ps : List (Nat × Nat × Nat × Nat)) : State :=
  s.panLater x.u ((chunks 8 (ps.flatMap (addSplit v f))).map (PanTask.add f))

/-- An image written through a descriptor by a pan (R237, R238, R245). -/
def State.panPut (s : State) (x : PCtx) (v : Nat) (d : Desc) (sealing : Bool) (image : Nat) : State :=
  let ws := d.rowWrites (s.panWriteBase x.b.part d) image
  if d.mode = mdReduce then
    let (ws, s) := s.shuffle ws
    s.panAdds x v d.fmt (ws.map (fun (m : MWrite) => (m.addr, m.addr, nth 0 d.ext 0, m.data)))
  else s.panWrites x v sealing ws

/-- A task of a micro-operation of pan n for partition p done, or begun where it is a SEAL's: its lines are read, and from then on
a write is noticed (R248). -/
def State.panTask (s : State) (n p : Nat) (t : PanTask) : Option PFault × State :=
  let w : Who := ⟨.pan n, some p⟩
  match t with
  | .put sealing ws =>
    let s := ws.foldl (fun s (m : MWrite) => s.lineTraffic w true true m.addr m.size) s
    (none, if sealing then s.writeMany w ws else ws.foldl (fun s (m : MWrite) => s.writeOpen w m.addr m.size m.data) s)
  | .add f ps => let (e, s) := s.addPieces w f ps; (e.map panFaultOf, s)
  | .close gs =>
    let s := gs.foldl (fun s g => ((s.traffic w true false (4096 * g) 4096).readLines w (64 * g) 64).2.2) s
    (none, ({ s with sealing := s.sealing ++ gs.map (fun g => (n, g)) } : State).setRun n (fun r => { r with closing := gs }))

/-- A granule of SEAL at the end of its micro-operation (R248): sealed with the checksum of its contents, or left open and counted
where a write came after SEAL began to read it. -/
def State.panShut (s : State) (n : Nat) (g : Nat) : State :=
  if s.sealing.contains (n, g) then s.sealStored g
  else (s.openGranule g).setRun n (fun r => { r with sealLost := satAdd 0xFFFFFFFF r.sealLost 1 })

/-- The end of pan n's present micro-operation: what it seals is sealed, the banks it holds are free (R254). -/
def State.microEnd (s : State) (n : Nat) : State :=
  match (s.pan n).run with
  | none => s
  | some r =>
    let s := r.closing.foldl (fun s g => s.panShut n g) s
    ({ s with sealing := s.sealing.filter (fun e => e.1 != n) } : State).setRun n (fun r => { r with banks := [], closing := [] })

/-- Addresses of the requests of pan n that wait at its own pseudo-channel. -/
def State.panDpas (s : State) (n : Nat) : List Nat :=
  ((smGet [] (s.stack (panStack n)).queue (panPch n)).filter (fun r => r.agent = .pan n)).map Req.dpa

/-- Requests of pan u waiting at its stack: count and bytes. -/
def State.panReqs (s : State) (u : Nat) : Nat × Nat :=
  (s.stack (panStack u)).queue.foldl (fun (a : Nat × Nat) (e : Nat × List Req) =>
    e.2.foldl (fun (a : Nat × Nat) (r : Req) => if r.agent = .pan u then (a.1 + 1, a.2 + r.size) else a) a) (0, 0)

/-- The next micro-operation of pan n begins (R254): its task is done and the banks it touches are held. -/
def State.microBegin (s : State) (n p : Nat) : Option PFault × State :=
  match (s.pan n).run with
  | none => (none, s)
  | some r =>
    let had := (s.panDpas n).length
    let bytes := (s.panReqs n).2
    let (e, s) := match r.left with | [] => (none, s) | t :: _ => s.panTask n p t
    let new := ((s.panDpas n).drop had).map (fun a => bankKey (a % stackSpan))
    let more := (s.panReqs n).2 - bytes
    (e, s.setRun n (fun r => { r with
      left := r.left.drop 1, reads := r.reads.drop 1, banks := nth [] r.reads 0 ++ new, bytes := r.bytes + more }))

/-- Everything the command in hand still does in memory done (R39): where a fault stops it after its writes. -/
def State.panFinish (s : State) (n p : Nat) : Option PFault × State :=
  let go := fun (a : Option PFault × State) (_ : PanTask) =>
    match a with
    | (some e, s) => (some e, s)
    | (none, s) => let (e, s) := s.microBegin n p; (e, s.microEnd n)
  match (s.pan n).run with
  | none => (none, s)
  | some r => r.left.foldl go (none, s.microEnd n)

/-- Bytes of the operand buffer as a number. -/
def PanSt.obGet (k : PanSt) (line n : Nat) : Nat := smBytes k.obuf (64 * line) n
/-- Whether n bytes of the operand buffer from a line hold an uncorrectable word (R226, R258). -/
def PanSt.obBad (k : PanSt) (line n : Nat) : Bool := k.obufBad.any (fun w => decide (32 * w < 64 * line + n) && decide (64 * line < 32 * w + 32))
/-- The operand buffer of a pan written from a line; a word written whole is without error after it. -/
def State.obPut (s : State) (u line n v : Nat) : State :=
  let k := s.pan u
  s.setPan u { k with
    obuf := smPoke k.obuf (64 * line) n v
    obufBad := k.obufBad.filter (fun w => !(decide (64 * line ≤ 32 * w) && decide (32 * w + 32 ≤ 64 * line + n))) }
/-- Whether n bytes from a line run past the operand buffer (R235). -/
def obOver (line n : Nat) : Bool := decide (262144 < 64 * line + n)
/-- Whether n values from a line run past the accumulator (R235). -/
def accOver (line n : Nat) : Bool := decide (16384 < 16 * line + n)

/-- Accumulator values set from an index. -/
def State.accPut (s : State) (u i : Nat) (vs : List Nat) : State :=
  let k := s.pan u
  s.setPan u { k with acc := (vs.zip (upFrom i vs.length)).foldl (fun m (e : Nat × Nat) => smPut 0 m e.2 e.1) k.acc }

/-- Flags joined into the batch's SYNC record. -/
def State.panFlag (s : State) (u fl : Nat) : State :=
  let k := s.pan u
  match k.run with
  | some r => s.setPan u { k with run := some { r with flags := flJoin r.flags fl } }
  | none => s

/-- Out-of-range indices counted in the batch's SYNC record. -/
def State.panOob (s : State) (u n : Nat) : State :=
  let k := s.pan u
  match k.run with
  | some r => s.setPan u { k with run := some { r with idxOob := satAdd 0xFFFFFFFF r.idxOob n } }
  | none => s

/-- Draws taken from the pan's generator for n outputs (R253). -/
def State.panDraws (s : State) (u n : Nat) : List Nat × State :=
  let k := s.pan u
  match k.run with
  | some r => (srDraws n r.seed, s.setPan u { k with run := some { r with seed := srAdvanceN n r.seed } })
  | none => ([], s)

/-- The command of code op that pan u runs next, if it may run it now: the batch has begun, no micro-operation is left,
and the partition's step is running (R42, R232, R254, R263). -/
def State.nextCommand (s : State) (u op : Nat) : Option (PCtx × PanRun × Nat) :=
  let k := s.pan u
  match k.run with
  | none => none
  | some r =>
    if r.stopped || r.fault.isSome || r.micro != 0 || !s.pansRun (panStack u) then none
    else
      match s.batch r.batch, k.queue.find? (fun e => e.1 == r.batch) with
      | some b, some e =>
        if cOPC e.2.2 = op && (s.part b.part).phase = .active then some (⟨u, b, e.2.2⟩, r, e.2.1) else none
      | _, _ => none

/-- What a command's execution gives: the clocks of its arithmetic (R261), the fault if any, and the state. -/
abbrev PanOut := Nat × Option PFault × State

/-- The first queue entry of a batch removed. -/
def dropFirst (b : Nat) : List (Nat × Nat × Nat) → List (Nat × Nat × Nat)
  | [] => []
  | e :: l => if e.1 = b then l else e :: dropFirst b l

/-- A fault of pan n in command i of a batch: the rest of the batch's commands on this pan are discarded (R259). -/
def State.panFails (s : State) (n b i : Nat) (pf : PFault) : State :=
  let k := s.pan n
  let s := s.setPan n { k with
    run := k.run.map (fun r => { r with fault := some (pf.code, pf.addr, i), micro := 0, left := [], reads := [], banks := [], closing := [] })
    queue := k.queue.filter (fun q => q.1 != b) }
  let s := match s.batch b with
    | some x => s.setBatch { x with words := x.words.filter (fun q => 32 * bits q.2 119 115 + bits q.2 114 110 != n) }
    | none => s
  s.deliverAll

/-- The command of code op started by the pan: its checks, its reads and its arithmetic, then the first of its micro-operations,
in which its writes are made, 16 granules in each (R254; log 17). A command that a fault stops after its writes has made them. -/
def State.panCommand (s : State) (t u op : Nat) (f : PCtx → State → PanOut) : Host.Outcome State Fault Refusal :=
  let n := 32 * t + u
  match s.nextCommand n op with
  | none => ok s
  | some (x, r, i) =>
    let k := s.pan n
    let s := s.setPan n { k with
      queue := dropFirst r.batch k.queue, run := some { r with mhz := s.mhz (dieOfStack t), left := [], closing := [] } }
    let before := s.panReqs n
    let had := (s.panDpas n).length
    let (clk, e, s) := f x s
    let after := s.panReqs n
    let banks := ((s.panDpas n).drop had).map (fun a => bankKey (a % stackSpan))
    match e with
    | some pf =>
      let (e, s) := (s.setRun n (fun r => { r with bytes := r.bytes + (after.2 - before.2) })).panFinish n x.b.part
      ok (s.panFails n x.b.id i (e.getD pf))
    | none =>
      let s := s.setRun n (fun r => { r with
        bytes := r.bytes + (after.2 - before.2), cmd := i, reads := chunks 16 banks
        micro := Nat.max 1 (Nat.max (ceilDiv clk 1152) (Nat.max (ceilDiv (after.1 - before.1) 16) r.left.length)) })
      match s.microBegin n x.b.part with
      | (some pf, s) => ok (s.panFails n x.b.id i pf)
      | (none, s) => ok s.deliverAll

/-- A command that only fails: the fault it ends with. -/
def PanOut.fail (f : PFault) (s : State) : PanOut := (0, some f, s)

end Sys2Proof.Machine
end

