-- ==== Sys2Proof/Machine/PanCmds.lean ====
section
/-!
DEFINITION. The pan commands (R236–R254), what an illegal word does, the boundary between micro-operations and the
completion report.
-/
namespace Sys2Proof.Machine

/-- The fields of a command word that a command may use (R233). -/
inductive CField where
  | sr | acc | da | db | dc | ob | ac | cnt | af | func | flg | imm
  deriving DecidableEq, Repr

/-- The value of a field of a command word. -/
def CField.of (w : Nat) : CField → Nat
  | .sr => b2n (cSR w) | .acc => b2n (cACC w) | .da => cDA w | .db => cDB w | .dc => cDC w | .ob => cOB w
  | .ac => cAC w | .cnt => cCNT w | .af => cAF w | .func => cFUNC w | .flg => cFLG w | .imm => cIMM w

/-- Every field. -/
def allFields : List CField := [.sr, .acc, .da, .db, .dc, .ob, .ac, .cnt, .af, .func, .flg, .imm]

/-- Whether a field the command does not use is not zero, or a flag bit it does not use is set (R233, R258). -/
def cUnused (w flags : Nat) (used : List CField) : Bool :=
  cBD w != 0 || cFLG w / (flags + 1) != 0 || allFields.any (fun f => !used.contains f && f.of w != 0)

/-- Clocks of a command's start: 8, and 24 for each descriptor validated (R261). -/
def pclk (descs body : Nat) : Nat := 8 + 24 * descs + body

/-- Granules a descriptor's rows touch from a base. -/
def Desc.gcount (d : Desc) (base : Nat) : Nat := (d.granules base).length

/-- Local bytes read as they are, through the in-stack path: index lists (R251). -/
def State.panPlain (s : State) (x : PCtx) : List MWrite → Nat → Nat × Option PFault × State
  | [], _ => (0, none, s)
  | m :: l, at_ =>
    let (v, bad, s) := s.readBytes x.who m.addr m.size
    let s := s.lineTraffic x.who true false m.addr m.size
    match bad with
    | some a => (0, some ⟨pfPoison, a / 4096 * 4096⟩, s)
    | none =>
      let (r, f, s) := s.panPlain x l (at_ + m.size)
      (v <<< (8 * at_) + r, f, s)

/-- LOAD (R236). -/
def runPanLoad (x : PCtx) (s : State) : PanOut :=
  let w := x.w
  if bit (cFLG w) 0 then
    let n := 64 * cCNT w
    match firstBad [(cUnused w 1 [.da, .ob, .cnt, .flg], pfIllegal), (decide (0 < n) && x.b.payOver (cDA w) n, pfPayload),
        (obOver (cOB w) n, pfObuf)] with
    | some f => .fail f s
    | none => (8 + cCNT w + 32, none, s.obPut x.u (cOB w) n (x.b.pay (cDA w) n))
  else
    let d := x.desc (cDA w)
    match firstBad ([(cUnused w 1 [.da, .ob, .flg], pfIllegal)] ++ x.descChecks s (cDA w) true ++
        [(!opRead d, pfKind), (obOver (cOB w) d.size, pfObuf)]) with
    | some f => .fail f s
    | none =>
      let (v, e, s) := s.panImage x d
      match e with
      | some e => .fail e s
      | none =>
        let g := d.gcount (s.panReadBase x.b.part d)
        (pclk 1 (Nat.max (35 * g) (d.size / 512) + 64), none, s.obPut x.u (cOB w) d.size v)

/-- Whether a format may be the target of a stochastic rounding (R253). -/
def srFmt (f : Nat) : Bool := decide (3 ≤ f) && decide (f ≤ 6)

/-- Values converted to a format, with draws where SR is set: codes and flags (R170, R174). -/
def convertAll (f : Nat) (draws : List Nat) (vs : List FV) : List Nat × Nat :=
  finishAll f draws (vs.map (fun v => .val v 0))

/-- STORE (R237). -/
def runPanStore (x : PCtx) (s : State) : PanOut :=
  let w := x.w
  let fromOb := bit (cFLG w) 0
  let d := x.desc (cDA w)
  let n := d.count
  let af := cAF w
  let used := [CField.da, .sr, .flg] ++ (if fromOb then [CField.ob, .af] else [.ac])
  match firstBad ([(cUnused w 1 used, pfIllegal)] ++ x.descChecks s (cDA w) true ++
      [(!(d.kind == kdData && opWrite d) || (cSR w && !srFmt d.fmt), pfKind),
        (fromOb && obOver (cOB w) (elemBytes af n), pfObuf), (!fromOb && accOver (cAC w) n, pfAcc)]) with
  | some f => .fail f s
  | none =>
    let k := s.pan x.u
    if fromOb && k.obBad (cOB w) (elemBytes af n) then .fail ⟨pfObufEcc, 0⟩ s
    else
    let vs := if fromOb then elems af (k.obGet (cOB w) (elemBytes af n)) n
      else (upFrom (16 * cAC w) n).map (fun i => of32 (smGet 0 k.acc i))
    let (draws, s) := if cSR w then s.panDraws x.u n else ([], s)
    let (codes, fl) := convertAll d.fmt draws vs
    let s := s.panFlag x.u fl
    let g := d.gcount (s.panWriteBase x.b.part d)
    let s := s.panPut x x.u d true (joinBits (fmtBits d.fmt) codes)
    (pclk 1 (Nat.max (35 * g * (if d.mode = mdReduce then 2 else 1)) (n / 64) + 64), none, s)

/-- COPY (R238). -/
def runPanCopy (x : PCtx) (s : State) : PanOut :=
  let w := x.w
  let a := x.desc (cDA w)
  let c := x.desc (cDC w)
  let v := 32 * x.stack + pchOf ((Desc.of (x.raw (cDC w))).base % stackSpan)
  match firstBad ([(cUnused w 0 [.da, .dc], pfIllegal)] ++ x.descChecks s (cDA w) true ++ x.descChecks s (cDC w) false ++
      [(!(opRead a && opWrite c && a.width == c.width && a.count == c.count), pfKind)]) with
  | some f => .fail f s
  | none =>
    let (img, e, s) := s.panImage x a
    match e with
    | some e => .fail e s
    | none =>
      let g := a.gcount (s.panReadBase x.b.part a)
      let h := c.gcount (s.panWriteBase x.b.part c)
      let clk := if v = x.u then 35 * (g + h) + 64 else Nat.max (35 * g) (a.size / 64) + 64
      (pclk 2 clk, none, s.panPut x v c true img)

/-- MAC operations per clock of a format (R226). -/
def macRate (f : Nat) : Nat := if f = 5 || f = 6 then 256 else if f = 3 || f = 4 || f = 7 then 128 else 64

/-- A group of products added to an FP32 accumulator with its flags (R175, R252). -/
def panGroup (acc : Nat × Nat) (prods : List (FV × FV)) (bl br : Nat) : Nat × Nat :=
  let step := fun (r : FV × Nat) (ab : FV × FV) =>
    let (m, fm) := fvMul ab.1 ab.2
    let (t, ft) := fvAdd r.1 m
    (t, flJoin r.2 (flJoin fm ft))
  let (sum, f1) := prods.foldl step (.fin true 0 0, 0)
  let sc : FV := if bl = 255 || br = 255 then .nan else fvScale sum ((bl : Int) + (br : Int) - 254)
  let (v, f2) := to32 (fvAdd (of32 acc.1) sc)
  (v, flJoin acc.2 (flJoin f1 f2))

/-- GEMV (R239): y[t][n] with scale arrays, in groups of 32 steps (R175, R177). -/
def runPanGemv (x : PCtx) (s : State) : PanOut :=
  let w := x.w
  let t := cCNT w
  let af := cAF w
  let a := x.desc (cDA w)
  let hasDb := cDB w != 0xFFF
  let b := x.desc (cDB w)
  let n := nth 0 a.ext 0
  let k := nth 0 a.ext 1
  let xs := bit (cFLG w) 1
  let xBytes := elemBytes af (t * k)
  let scLine := cOB w + ceilDiv xBytes 64
  let inBytes := if xs then 64 * (scLine - cOB w) + t * k / 32 else xBytes
  let matchDb := b.kind == kdScale && opRead b && a.scaled && b.blockDim == 1 && b.rank == a.rank && nth 0 b.ext 0 == n &&
    nth 0 b.ext 1 == ceilDiv k 32
  let okA := a.kind == kdData && opRead a && a.rank == 2 && decide (n ≤ 16384) && k % 32 == 0 && a.fmt != 0
  match firstBad ([(cUnused w 3 [.da, .db, .ob, .ac, .cnt, .af, .acc, .flg] || t == 0 || decide (64 < t) || bit (cFLG w) 0,
          pfIllegal)] ++ x.descChecks s (cDA w) true ++ (if hasDb then x.descChecks s (cDB w) true else []) ++
      [(a.scaled && !hasDb, pfIllegal),
        (!okA || af == 0 || ((af == 7) != (a.fmt == 7)) || (hasDb && !matchDb), pfKind), (obOver (cOB w) inBytes, pfObuf),
        (accOver (cAC w) (t * n), pfAcc)]) with
  | some f => .fail f s
  | none =>
    if (s.pan x.u).obBad (cOB w) inBytes then .fail ⟨pfObufEcc, 0⟩ s
    else
    let (va, e, s) := s.panImage x a
    match e with
    | some e => .fail e s
    | none =>
      let (vb, e, s) := if hasDb then s.panImage x b else (0, none, s)
      match e with
      | some e => .fail e s
      | none =>
        let p := s.pan x.u
        let xv := p.obGet (cOB w) xBytes
        let xsc := if xs then p.obGet scLine (t * k / 32) else 0
        let cell := fun (ti ni : Nat) =>
          (upFrom 0 (k / 32)).foldl (fun acc g =>
            let prods := (upFrom (32 * g) 32).map (fun i =>
              (decodeFmt af ((xv >>> ((ti * k + i) * fmtBits af)) % 2 ^ fmtBits af),
                decodeFmt a.fmt ((va >>> ((i * n + ni) * fmtBits a.fmt)) % 2 ^ fmtBits a.fmt)))
            let bl := if xs then (xsc >>> (8 * (ti * (k / 32) + g))) % 256 else 127
            let br := if hasDb then (vb >>> (8 * (g * n + ni))) % 256 else 127
            panGroup acc prods bl br) (0, 0)
        let ys := (upFrom 0 (t * n)).map (fun i =>
          let y := cell (i / n) (i % n)
          if cACC w then
            let (z, f) := f32Add (smGet 0 p.acc (16 * cAC w + i)) y.1
            (z, flJoin y.2 f)
          else y)
        let s := s.accPut x.u (16 * cAC w) (ys.map Prod.fst)
        let s := s.panFlag x.u (ys.foldl (fun f y => flJoin f y.2) 0)
        let g := a.gcount (s.panReadBase x.b.part a) + (if hasDb then b.gcount (s.panReadBase x.b.part b) else 0)
        let rate := Nat.min (macRate af) (macRate a.fmt)
        (pclk (if hasDb then 2 else 1) (Nat.max (ceilDiv (t * n * k) rate) (35 * g) + 64), none, s)

/-- The indices of a GATHER, SCADD or PATTN: from descriptor DB or from the payload (R240, R243). -/
def State.panIndices (s : State) (x : PCtx) (fromPay : Bool) : List Int × Option PFault × State :=
  let n := if fromPay then cCNT x.w else (x.desc (cDB x.w)).count
  if fromPay then ((cutBits 32 (x.b.pay (cDB x.w) (4 * n)) n).map (toSigned 32), none, s)
  else
    let d := x.desc (cDB x.w)
    let base := s.panReadBase x.b.part d
    let (v, f, s) := s.panPlain x (panSplit x.u ⟨base, 4 * n, 0⟩) 0
    ((cutBits 32 v n).map (toSigned 32), f, s)

/-- The checks of an index operand. -/
def PCtx.idxChecks (x : PCtx) (s : State) (fromPay : Bool) : List (Bool × Nat) :=
  if fromPay then [(decide (0 < cCNT x.w) && x.b.payOver (cDB x.w) (4 * cCNT x.w), pfPayload)]
  else x.descChecks s (cDB x.w) true ++ [(!opIndex (x.desc (cDB x.w)), pfKind)]

/-- A page pool of PATTN (R240). -/
def poolOk (d : Desc) : Bool :=
  d.kind == kdData && opRead d && d.rank == 2 && nth 0 d.ext 0 * d.width == 8 * 65536 && nth (0 : Int) d.str 1 == 65536 &&
    decide (1 ≤ d.fmt) && decide (d.fmt ≤ 4)

/-- The parameter block of a PATTN (R240). -/
structure PattnP where
  scale : Nat
  kvLen : Int
  q0 : Int
  u : Nat
  causal : Bool
  window : Int
  h0 : Nat
  hn : Nat
  g : Nat
  kvh : Nat
  dh : Nat

/-- The fields of a parameter block. -/
def PattnP.of (v : Nat) : PattnP :=
  { scale := bits v 31 0, kvLen := bits v 63 32, q0 := bits v 95 64, u := bits v 100 96 + 1, causal := bit v 104
    window := bits v 159 128, h0 := bits v 167 160, hn := bits v 172 168 + 1, g := bits v 180 176 + 1
    kvh := bits v 188 184, dh := if bit v 192 then 64 else 128 }

/-- Whether the key at position p is visible to query token u (R241). -/
def PattnP.sees (q : PattnP) (u : Nat) (p : Int) : Bool :=
  let qp := q.q0 + u
  decide (p < q.kvLen) && (!q.causal || decide (p ≤ qp)) && (q.window == 0 || decide (qp - p < q.window))

/-- Whether query token u sees a key of one of some pages of tp tokens, by the positions of their first tokens (R242). -/
def PattnP.seesAny (q : PattnP) (tp u : Nat) (pages : List (Nat × Int)) : Bool :=
  pages.any (fun e => (upFrom 0 tp).any (fun (t : Nat) => q.sees u (e.2 + (t : Int))))

/-- The running record of a query row: m, l and o (R242), its flags, and whether it can see a key of the command's pages: one that
can see none stays as it is. -/
structure PRow where
  m : Nat
  l : Nat
  o : List Nat
  fl : Nat
  live : Bool

/-- One block of 16 tokens applied to a row (R241): queries and keys as values, and which tokens are visible. -/
def PattnP.block (q : PattnP) (fv : Nat) (qr : List FV) (keys vals : List (List FV)) (seen : List Bool) (r : PRow) : PRow :=
  let score := fun (k : List FV) (b : Bool) =>
    if b then
      let d := (chunks 32 (qr.zip k)).foldl (fun a g => panGroup a g 127 127) (0, 0)
      let (v, f) := f32Mul q.scale d.1
      (v, flJoin d.2 f)
    else (0xFF800000, 0)
  let sc := (keys.zip seen).map (fun (e : List FV × Bool) => score e.1 e.2)
  let m' := (narrow 0 (sc.foldl (fun a (e : Nat × Nat) => fvMax a (of32 e.1)) (of32 r.m))).1
  let ex := fun (a b : Nat) => let e := f32ExpDiff a b; let c := narrow 0 e.1; (c.1, flJoin e.2 c.2)
  let ps := sc.map (fun e => ex e.1 m')
  let c := ex r.m m'
  let (l1, f1) := f32Mul r.l c.1
  let (sum, f2) := ps.foldl (fun (a : FV × Nat) p => let t := fvAdd a.1 (of32 p.1); (t.1, flJoin a.2 t.2)) (.fin true 0 0, 0)
  let (l', f3) := to32 (fvAdd (of32 l1) sum)
  let pq := ps.map (fun p => narrow fv (of32 p.1))
  let o' := (upFrom 0 q.dh).map (fun i =>
    let (o1, g1) := f32Mul (nth 0 r.o i) c.1
    panGroup (o1, g1) ((pq.zip vals).map (fun (e : (Nat × Nat) × List FV) => (decodeFmt fv e.1.1, nth .nan e.2 i))) 127 127)
  let fl := (sc ++ ps ++ pq ++ o').foldl (fun f e => flJoin f e.2) (flJoin r.fl (flJoin c.2 (flJoin f1 (flJoin f2 f3))))
  { m := m', l := l', o := o'.map Prod.fst, fl := fl, live := r.live }

/-- FP32 values of a row record: m, l, o and the padding (R242). -/
def PRow.values (r : PRow) (_dh : Nat) : List Nat := [r.m, r.l] ++ r.o ++ List.replicate 14 0

/-- A row record's size in values. -/
def recordLen (dh : Nat) : Nat := dh + 16

/-- The work PATTN has done: its rows, and the tokens, granules and whole pages skipped. -/
structure PattnAcc where
  rows : List PRow
  tokens : Nat
  grans : Nat
  skipped : Nat

/-- One page of PATTN: its computed blocks in order, over the rows (R241). -/
def State.pattnPage (s : State) (x : PCtx) (q : PattnP) (kd vd : Desc) (queries : List (List FV)) (row : Nat) (pos : Int)
    (a : PattnAcc) : PattnAcc × Option PFault × State :=
  let eb := kd.width / 8
  let tp := 65536 / (2 ^ q.kvh * q.dh * eb)
  let head := 65536 / 2 ^ q.kvh
  let blocks := (upFrom 0 (tp / 16)).filter (fun b =>
    (upFrom 0 q.u).any (fun u => (upFrom (16 * b) 16).any (fun (t : Nat) => q.sees u (pos + (t : Int)))))
  if blocks.isEmpty then ({ a with skipped := a.skipped + 1 }, none, s)
  else
    let kb := s.panReadBase x.b.part kd + 65536 * row
    let vb := s.panReadBase x.b.part vd + 65536 * row
    let addr := fun (base h t : Nat) => base + (q.h0 + h) * head + t * q.dh * eb
    let need := fun (base : Nat) => (upFrom 0 q.hn).foldl (fun l h => blocks.foldl (fun l b =>
      (granulesOf (addr base h (16 * b)) (16 * q.dh * eb)).foldl setInsert l) l) ([] : List Nat)
    let gk := need kb
    let gv := need vb
    let (gmk, e, s) := s.panGranules x kd.unchecked gk
    match e with
    | some e => (a, some e, s)
    | none =>
      let (gmv, e, s) := s.panGranules x vd.unchecked gv
      match e with
      | some e => (a, some e, s)
      | none =>
        let vec := fun (m : SMap Nat) (f base h t : Nat) => elems f (fromGranules m (addr base h t) (q.dh * eb)) q.dh
        let rows := (a.rows.zip (upFrom 0 a.rows.length)).map (fun (e : PRow × Nat) =>
          let u := e.2 % q.u
          let h := e.2 / (q.u * q.g)
          if !e.1.live then e.1
          else blocks.foldl (fun r b =>
            let ts := upFrom (16 * b) 16
            q.block vd.fmt (nth [] queries e.2) (ts.map (vec gmk kd.fmt kb h)) (ts.map (vec gmv vd.fmt vb h))
              (ts.map (fun (t : Nat) => q.sees u (pos + (t : Int)))) r) e.1)
        ({ a with rows := rows, tokens := a.tokens + 16 * blocks.length, grans := a.grans + gk.length + gv.length }, none, s)

/-- The pages of PATTN in list order. -/
def State.pattnPages (s : State) (x : PCtx) (q : PattnP) (kd vd : Desc) (queries : List (List FV)) :
    List (Nat × Int) → PattnAcc → PattnAcc × Option PFault × State
  | [], a => (a, none, s)
  | (row, pos) :: l, a =>
    match s.pattnPage x q kd vd queries row pos a with
    | (a, some e, s) => (a, some e, s)
    | (a, none, s) => s.pattnPages x q kd vd queries l a

/-- Pairs of a list. -/
def pairsOf : List Int → List (Int × Int)
  | a :: b :: l => (a, b) :: pairsOf l
  | _ => []

/-- PATTN (R240–R242). -/
def runPanPattn (x : PCtx) (s : State) : PanOut :=
  let w := x.w
  let fromPay := bit (cFLG w) 0
  let af := cAF w
  let kd := x.desc (cDA w)
  let vd := x.desc (cDC w)
  let pb := bits (cIMM w) 11 0
  let raw := x.raw pb
  let q := PattnP.of raw
  let n := if fromPay then cCNT w else (x.desc (cDB w)).count
  let tp := 65536 / (2 ^ q.kvh * q.dh * (kd.width / 8))
  let nrows := q.hn * q.g * q.u
  let qBytes := elemBytes af (nrows * q.dh)
  let badP := decide (tp < 16) || decide (2 ^ q.kvh ≤ q.h0 + q.hn - 1) || decide (4 < q.kvh) || decide (16 < q.u) ||
    decide (16 < q.hn)
  let used := [CField.da, .db, .dc, .ob, .ac, .acc, .af, .imm, .flg] ++ (if fromPay then [CField.cnt] else [])
  match firstBad ([(cUnused w 1 used || cIMM w / 4096 != 0, pfIllegal), (x.b.payOver pb 64, pfPayload)] ++
      x.descChecks s (cDA w) true ++ x.descChecks s (cDC w) true ++ x.idxChecks s fromPay ++
      [(!poolOk kd || !poolOk vd || kd.width != vd.width || n % 2 == 1 || badP || !(decide (1 ≤ af) && decide (af ≤ 4)), pfKind),
        (obOver (cOB w) qBytes, pfObuf), (accOver (cAC w) (nrows * recordLen q.dh), pfAcc)]) with
  | some f => .fail f s
  | none =>
    if (s.pan x.u).obBad (cOB w) qBytes then .fail ⟨pfObufEcc, 0⟩ s
    else
    let (idx, e, s) := s.panIndices x fromPay
    match e with
    | some e => .fail e s
    | none =>
      let pages := pairsOf idx
      let E : Int := Nat.min (nth 0 kd.ext 1) (nth 0 vd.ext 1)
      if pages.any (fun p => decide (p.1 < 0) || decide (E ≤ p.1)) then .fail ⟨pfKind, 0⟩ s
      else
        let k := s.pan x.u
        let at_ := pages.map (fun p => (p.1.toNat, p.2))
        let qs := (upFrom 0 nrows).map (fun r =>
          elems af (k.obGet (cOB w) qBytes >>> (r * q.dh * fmtBits af)) q.dh)
        let base := 16 * cAC w
        let rows := (upFrom 0 nrows).map (fun r =>
          if cACC w then
            let b := base + r * recordLen q.dh
            ({ m := smGet 0 k.acc b, l := smGet 0 k.acc (b + 1)
               o := (upFrom (b + 2) q.dh).map (smGet 0 k.acc), fl := 0, live := q.seesAny tp (r % q.u) at_ } : PRow)
          else { m := 0xFF800000, l := 0, o := List.replicate q.dh 0, fl := 0, live := q.seesAny tp (r % q.u) at_ })
        let (a, e, s) := s.pattnPages x q kd vd qs at_ ⟨rows, 0, 0, 0⟩
        match e with
        | some e => .fail e s
        | none =>
          let s := s.accPut x.u base (a.rows.flatMap (fun r => r.values q.dh))
          let s := s.panFlag x.u (a.rows.foldl (fun f r => flJoin f r.fl) 0)
          let p := s.pan x.u
          let s := match p.run with
            | some r => s.setPan x.u { p with run := some { r with skipped := satAdd 0xFFFFFFFF r.skipped a.skipped } }
            | none => s
          let macs := 2 * nrows * q.dh * a.tokens
          let exps := nrows * a.tokens
          let rate := Nat.min (macRate af) (macRate kd.fmt)
          let descs := if fromPay then 2 else 3
          (pclk descs (Nat.max (ceilDiv macs rate) (Nat.max (ceilDiv exps 16) (35 * a.grans)) + 64), none, s)

/-- Row j of a descriptor read for compute by a pan. -/
def State.panRow (s : State) (x : PCtx) (d : Desc) (j : Nat) : Nat × Nat × Option PFault × State :=
  let ps := d.rowPieces (s.panReadBase x.b.part d) j
  let gs := ps.foldl (fun l q => (granulesOf q.1 q.2).foldl setInsert l) ([] : List Nat)
  let (m, f, s) := s.panGranules x d.unchecked gs
  let wid := if d.rank = 1 then d.width else d.rowBits
  (joinBits wid (ps.map (fun q => fromGranules m q.1 q.2)), gs.length, f, s)

/-- Rows gathered in index order: each row, the clocks so far (R243, R261). -/
def State.panRows (s : State) (x : PCtx) (d : Desc) :
    List (Option Nat) → List Nat → Option Nat → List Nat × Nat × Option PFault × State
  | [], _, _ => ([], 0, none, s)
  | none :: l, seen, _ =>
    let (r, c, f, s) := s.panRows x d l seen none
    (0 :: r, c + ceilDiv d.outerBytes 512, f, s)
  | some j :: l, seen, prev =>
    let (v, g, f, s) := s.panRow x d j
    match f with
    | some e => ([v], 0, some e, s)
    | none =>
      let (r, c, f, s) := s.panRows x d l (setInsert seen j) (some j)
      (v :: r, c + 35 * g + (if seen.contains j && prev != some j then 48 else 0), f, s)

/-- GATHER (R243). -/
def runPanGather (x : PCtx) (s : State) : PanOut :=
  let w := x.w
  let fromPay := bit (cFLG w) 0
  let toBank := bit (cFLG w) 1
  let a := x.desc (cDA w)
  let b := x.desc (cDB w)
  let c := x.desc (cDC w)
  let n := if fromPay then cCNT w else b.count
  let okC := opWrite c && !c.subByteRow && c.outerBytes == a.outerBytes && decide (n ≤ c.outer)
  let used := [CField.da, .db, .flg] ++ (if toBank then [CField.dc] else [.ob]) ++ (if fromPay then [CField.cnt] else [])
  let bytes := ceilDiv (n * a.outerBits) 8
  match firstBad ([(cUnused w 3 used, pfIllegal)] ++ x.descChecks s (cDA w) true ++ x.idxChecks s fromPay ++
      (if toBank then x.descChecks s (cDC w) true else []) ++
      [(!opTable a || (toBank && !okC), pfKind), (!toBank && obOver (cOB w) bytes, pfObuf)]) with
  | some f => .fail f s
  | none =>
    let (idx, e, s) := s.panIndices x fromPay
    match e with
    | some e => .fail e s
    | none =>
      let js := idx.map (resolveIdx (!fromPay && b.wrap) a.outer)
      let strict := !fromPay && b.strict && decide (0 < oobCount js)
      let (keep, s) := if strict then s.someOf ((upFrom 0 n).filter (fun i => (nth none js i).isSome)) else (upFrom 0 n, s)
      let (rows, clk, e, s) := s.panRows x a (keep.map (nth none js)) [] none
      match e with
      | some e => .fail e s
      | none =>
        let placed := keep.zip rows
        let s :=
          if toBank then
            let ws := placed.flatMap (fun (r : Nat × Nat) => c.placeRow (s.panWriteBase x.b.part c) r.1 r.2)
            if c.mode = mdReduce then
              s.panAdds x x.u c.fmt (ws.map (fun m => (m.addr, m.addr, m.size * 8 / fmtBits c.fmt, m.data)))
            else s.panWrites x x.u false ws
          else
            let k := s.pan x.u
            let v := placed.foldl (fun v (r : Nat × Nat) =>
              if a.outerBits = 0 then v else setBits v (a.outerBits * r.1 + a.outerBits - 1) (a.outerBits * r.1) r.2)
              (k.obGet (cOB w) bytes)
            s.obPut x.u (cOB w) bytes v
        let descs := 1 + (if fromPay then 0 else 1) + (if toBank then 1 else 0)
        if strict then .fail ⟨pfIdxOob, 0⟩ s else (pclk descs clk, none, s.panOob x.u (oobCount js))

/-- SCADD (R244). -/
def runPanScadd (x : PCtx) (s : State) : PanOut :=
  let w := x.w
  let fromPay := bit (cFLG w) 0
  let a := x.desc (cDA w)
  let b := x.desc (cDB w)
  let n := if fromPay then cCNT w else b.count
  let bytes := ceilDiv (n * a.outerBits) 8
  let used := [CField.da, .db, .ob, .flg] ++ (if fromPay then [CField.cnt] else [])
  match firstBad ([(cUnused w 1 used, pfIllegal)] ++ x.descChecks s (cDA w) true ++ x.idxChecks s fromPay ++
      [(!(a.kind == kdData && opWrite a && decide (a.fmt ≤ 2)), pfKind), (obOver (cOB w) bytes, pfObuf)]) with
  | some f => .fail f s
  | none =>
    if (s.pan x.u).obBad (cOB w) bytes then .fail ⟨pfObufEcc, 0⟩ s
    else
    let (idx, e, s) := s.panIndices x fromPay
    match e with
    | some e => .fail e s
    | none =>
      let js := idx.map (resolveIdx (!fromPay && b.wrap) a.outer)
      let strict := !fromPay && b.strict && decide (0 < oobCount js)
      let img := cutBits a.outerBits ((s.pan x.u).obGet (cOB w) bytes) n
      let rows := (js.zip img).filterMap (fun (q : Option Nat × Nat) => q.1.map (fun j => (j, q.2)))
      let (rows, s) := if strict then s.someOf rows else (rows, s)
      let (rows, s) := s.shuffle rows
      let rb := if a.mode = mdReduce then s.panWriteBase x.b.part a else s.panReadBase x.b.part a
      let ps := addScatPieces a rb (s.panWriteBase x.b.part a) rows []
      let s := s.panAdds x x.u a.fmt ps
      let g := sumList (ps.map (fun q => (granulesOf q.2.1 (q.2.2.1 * a.width / 8)).length))
      if strict then .fail ⟨pfIdxOob, 0⟩ s
      else
        (pclk (if fromPay then 1 else 2) (70 * g + sumList (ps.map (fun q => q.2.2.1)) / 64), none, s.panOob x.u (oobCount js))

/-- An FP32 value carried with the flags raised on the way to it. -/
abbrev F32 := Nat × Nat

/-- An FP32 operation on carried values. -/
def F32.op (f : Nat → Nat → Nat × Nat) (a b : F32) : F32 := let r := f a.1 b.1; (r.1, flJoin r.2 (flJoin a.2 b.2))

/-- One AdamW element (R246): parameters lr, β1, β2, ε, weight decay, c1, c2, then w, m, v, g in FP32; the new w, m, v. -/
def adamw (p : List Nat) (w m v g : Nat) : F32 × F32 × F32 :=
  let at_ := fun i => ((nth 0 p i, 0) : F32)
  let one : F32 := (0x3F800000, 0)
  let add := F32.op f32Add
  let sub := F32.op f32Sub
  let mul := F32.op f32Mul
  let g : F32 := (g, 0)
  let m' := add (mul (at_ 1) (m, 0)) (mul (sub one (at_ 1)) g)
  let v' := add (mul (at_ 2) (v, 0)) (mul (sub one (at_ 2)) (mul g g))
  let cv := mul (at_ 6) v'
  let rt := f32Sqrt cv.1
  let den := add (rt.1, flJoin rt.2 cv.2) (at_ 3)
  let upd := add (F32.op f32Div (mul (at_ 5) m') den) (mul (at_ 4) (w, 0))
  (sub (w, 0) (mul (at_ 0) upd), m', v')

/-- FP32 words of a parameter block. -/
def PCtx.params (x : PCtx) (n : Nat) : List Nat := cutBits 32 (x.b.pay (bits (cIMM x.w) 11 0) (4 * n)) n

/-- Whether a SCALE descriptor matches a SCALED DATA descriptor (R195). -/
def scaleMatches (d sc : Desc) : Bool :=
  sc.kind == kdScale && d.scaled && sc.rank == d.rank && (upFrom 0 d.rank).all (fun i =>
    nth 0 sc.ext i == (if i = sc.blockDim then ceilDiv (nth 0 d.ext i) 32 else nth 0 d.ext i))

/-- Product of the extents below dimension i. -/
def Desc.below (d : Desc) (i : Nat) : Nat := (d.ext.take i).foldl (· * ·) 1

/-- The element indices covered by scale element j of a matching SCALE descriptor (R195). -/
def scaleCovers (d sc : Desc) (j : Nat) : List Nat :=
  let b := sc.blockDim
  let co := fun i => j / sc.below i % nth 1 sc.ext i
  let rest := sumList ((upFrom 0 d.rank).map (fun i => if i = b then 0 else co i * d.below i))
  let e := nth 0 d.ext b
  (upFrom (32 * co b) (Nat.min 32 (e - 32 * co b))).map (fun k => rest + k * d.below b)

/-- The result of an ELEM function other than conversion with scales and AdamW (R245). -/
def elemFn (func : Nat) (p : List Nat) (a b : FV) : VRes :=
  match func with
  | 0 => let (v, f) := fvAdd a b; .val v f
  | 1 => let (v, f) := fvAdd a (fvNeg b); .val v f
  | 2 => let (v, f) := fvMul a b; .val v f
  | 3 =>
    let (x, f1) := to32 (fvMul (of32 (nth 0 p 0)) a)
    let (y, f2) := to32 (fvMul (of32 (nth 0 p 1)) b)
    let (v, f3) := fvAdd (of32 x) (of32 y)
    .val v (flJoin f1 (flJoin f2 f3))
  | 4 => .val (fvMax a b) 0
  | 5 => .val (fvMin a b) 0
  | 7 => let (v, f) := fvMul (of32 (nth 0 p 0)) a; .val v f
  | _ => .val a 0

/-- ELEM FUNC 8 (R246). -/
def runPanAdamw (x : PCtx) (s : State) : PanOut :=
  let w := x.w
  let us := upFrom (cDA w) 4
  let ds := us.map x.desc
  let n := (nth (x.desc (cDA w)) ds 0).count
  let okD := (upFrom 0 4).all (fun i =>
    let d := nth (x.desc (cDA w)) ds i
    d.kind == kdData && d.count == n && (if i < 3 then d.mode == mdRw else opRead d))
  let badSr := cSR w && (upFrom 0 3).any (fun i => !srFmt (nth (x.desc (cDA w)) ds i).fmt)
  match firstBad ([(cUnused w 0 [.da, .db, .dc, .func, .sr, .imm] || cDB w != 0xFFF || cDC w != 0xFFF || cIMM w / 4096 != 0, pfIllegal),
        (x.b.payOver (bits (cIMM w) 11 0) 28, pfPayload)] ++ x.descChecks s (cDA w) true ++ (us.drop 1).flatMap (fun u => x.unitChecks s u true) ++
      [(!okD || badSr, pfKind)]) with
  | some f => .fail f s
  | none =>
    let step := fun (r : List (List FV) × Option PFault × State) (d : Desc) =>
      match r.2.1 with
      | some _ => r
      | none =>
        let (v, e, s) := r.2.2.panImage x d
        (r.1 ++ [elems d.fmt v n], e, s)
    let (imgs, e, s) := ds.foldl step ([], none, s)
    match e with
    | some e => .fail e s
    | none =>
      let p := x.params 7
      let c32 := fun (v : FV) => (narrow 0 v).1
      let col := fun i => nth [] imgs i
      let rs := (upFrom 0 n).map (fun i =>
        adamw p (c32 (nth .nan (col 0) i)) (c32 (nth .nan (col 1) i)) (c32 (nth .nan (col 2) i)) (c32 (nth .nan (col 3) i)))
      let outs := [rs.map (fun r => r.1), rs.map (fun r => r.2.1), rs.map (fun r => r.2.2)]
      let s := (outs.zip (ds.take 3)).foldl (fun (s : State) (o : List F32 × Desc) =>
        let (draws, s) := if cSR w then s.panDraws x.u n else ([], s)
        let (codes, fl) := finishAll o.2.fmt draws (o.1.map (fun r => .val (of32 r.1) r.2))
        (s.panPut x x.u o.2 false (joinBits (fmtBits o.2.fmt) codes)).panFlag x.u fl) s
      let g := sumList (ds.map (fun d => d.gcount (s.panReadBase x.b.part d)))
      let h := sumList ((ds.take 3).map (fun d => d.gcount (s.panWriteBase x.b.part d)))
      (pclk 4 (Nat.max (35 * (g + h)) (n / 16) + 64 + 52 * ceilDiv (g + h) 16), none, s)

/-- ELEM (R245, R246). -/
def runPanElem (x : PCtx) (s : State) : PanOut :=
  let w := x.w
  let func := cFUNC w
  if func = 8 then runPanAdamw x s
  else
    let a := x.desc (cDA w)
    let b := x.desc (cDB w)
    let d := x.desc (cDC w)
    let unary := func = 6 || func = 7
    let hasP := func = 3 || func = 7
    let n := a.count
    let scaled := func = 6 && d.scaled
    let sc := x.desc (cDC w + 1)
    let used := [CField.da, .db, .dc, .func, .sr] ++ (if hasP then [CField.imm] else [])
    let okD := a.kind == kdData && opRead a && d.kind == kdData && opWrite d && d.count == n &&
      (unary || (b.kind == kdData && opRead b && b.count == n)) && (!cSR w || srFmt d.fmt)
    match firstBad ([(cUnused w 0 used || decide (9 ≤ func) || (decide (unary) != (cDB w == 0xFFF)) ||
            (hasP && cIMM w / 4096 != 0), pfIllegal),
          (hasP && x.b.payOver (bits (cIMM w) 11 0) (if func = 3 then 8 else 4), pfPayload)] ++ x.descChecks s (cDA w) true ++
        (if unary then [] else x.descChecks s (cDB w) true) ++ x.descChecks s (cDC w) true ++
        (if scaled then x.unitChecks s (cDC w + 1) true else []) ++
        [(!okD || (scaled && !(scaleMatches d sc && opWrite sc)), pfKind)]) with
    | some f => .fail f s
    | none =>
      let (va, e, s) := s.panImage x a
      match e with
      | some e => .fail e s
      | none =>
        let (vb, e, s) := if unary then (0, none, s) else s.panImage x b
        match e with
        | some e => .fail e s
        | none =>
          let A := elems a.fmt va n
          let B := if unary then [] else elems b.fmt vb n
          let (draws, s) := if cSR w then s.panDraws x.u n else ([], s)
          let p := if hasP then x.params 2 else []
          let s :=
            if scaled then
              let blocks := (upFrom 0 sc.count).map (fun j =>
                let is := scaleCovers d sc j
                let q := mxQuant d.fmt (is.map (nth .nan A)) (if cSR w then is.map (nth 0 draws) else [])
                (q.1, is.zip q.2.1, q.2.2))
              let img := blocks.foldl (fun v q => q.2.1.foldl (fun v (e : Nat × Nat) => v + e.2 <<< (fmtBits d.fmt * e.1)) v) 0
              let s := s.panFlag x.u (blocks.foldl (fun f q => flJoin f q.2.2) 0)
              (s.panPut x x.u d false img).panPut x x.u sc false (joinBits 8 (blocks.map (fun q => q.1)))
            else
              let rs := (A.zip (upFrom 0 n)).map (fun (e : FV × Nat) => elemFn func p e.1 (nth .nan B e.2))
              let (codes, fl) := finishAll d.fmt draws rs
              (s.panFlag x.u fl).panPut x x.u d false (joinBits (fmtBits d.fmt) codes)
          let g := a.gcount (s.panReadBase x.b.part a) + (if unary then 0 else b.gcount (s.panReadBase x.b.part b))
          let h := d.gcount (s.panWriteBase x.b.part d) + (if scaled then sc.gcount (s.panWriteBase x.b.part sc) else 0)
          let descs := (if unary then 2 else 3) + (if scaled then 1 else 0)
          (pclk descs (Nat.max (35 * (g + h)) (n / 64) + 64 + 52 * ceilDiv (g + h) 16), none, s)

/-- STAT (R247). -/
def runPanStat (x : PCtx) (s : State) : PanOut :=
  let w := x.w
  let func := cFUNC w
  let d := x.desc (cDA w)
  let e0 := nth 0 d.ext 0
  let rows := (d.exts.drop 1).foldl (· * ·) 1
  let per := if func = 3 then 2 else 1
  match firstBad ([(cUnused w 0 [.da, .ac, .func, .acc] || decide (4 ≤ func), pfIllegal)] ++ x.descChecks s (cDA w) true ++
      [(!(d.kind == kdData && opRead d), pfKind), (accOver (cAC w) (rows * per), pfAcc)]) with
  | some f => .fail f s
  | none =>
    let (v, e, s) := s.panImage x d
    match e with
    | some e => .fail e s
    | none =>
      let k := s.pan x.u
      let stat := fun (op : Nat) (l : List FV) => (vRow op l).finish 0 none
      let (free, s) := if e0 = 0 then s.freeBelow (2 ^ 32) else (0, s)
      let outs := (upFrom 0 rows).flatMap (fun r =>
        let l := elems d.fmt (v >>> (r * d.rowBits)) e0
        match func with
        | 0 => [(false, stat 0x93 l)]
        | 1 => [(false, stat 0x95 l)]
        | 2 => [(true, if e0 = 0 then (free, 0) else stat 0x94 l)]
        | _ => [(false, stat 0x93 l), (false, stat 0x95 l)])
      let base := 16 * cAC w
      let vals := (outs.zip (upFrom base outs.length)).map (fun (e : (Bool × Nat × Nat) × Nat) =>
        if cACC w then
          let old := smGet 0 k.acc e.2
          if e.1.1 then ((narrow 0 (fvMax (of32 old) (of32 e.1.2.1))).1, e.1.2.2)
          else let r := f32Add old e.1.2.1; (r.1, flJoin r.2 e.1.2.2)
        else e.1.2)
      let s := (s.accPut x.u base (vals.map Prod.fst)).panFlag x.u (vals.foldl (fun f e => flJoin f e.2) 0)
      (pclk 1 (Nat.max (35 * d.gcount (s.panReadBase x.b.part d)) (d.count / 64) + 64), none, s)

/-- SEAL (R248). -/
def runPanSeal (x : PCtx) (s : State) : PanOut :=
  let w := x.w
  let d := x.desc (cDA w)
  match firstBad ([(cUnused w 0 [.da], pfIllegal)] ++ x.descChecks s (cDA w) true ++ [(d.mode != mdRw, pfKind)]) with
  | some f => .fail f s
  | none =>
    let gs := if d.count = 0 then [] else d.granules (s.panWriteBase x.b.part d)
    (pclk 1 (51 * gs.length), none,
      s.panLater x.u ((chunks 16 (gs.map (fun g => panDpa x.u (4096 * g) / 4096))).map PanTask.close))

/-- Whether every write of pan u is performed (R249). -/
def State.panWritesDone (s : State) (u : Nat) : Bool := !s.anyReq (fun r => r.agent = .pan u && r.isWrite)

/-- FENCE (R249). -/
def runPanFence (x : PCtx) (s : State) : PanOut :=
  match firstBad [(cUnused x.w 0 [], pfIllegal)] with
  | some f => .fail f s
  | none => (8, none, s)

/-- The status record of SYNC (R250). -/
def PanRun.record (r : PanRun) (u user clocks : Nat) : Nat :=
  r.flags % 64 + (r.cmds % 65536) <<< 16 + r.idxOob <<< 32 + r.skipped <<< 64 + r.sealLost <<< 96 +
    (clocks % 2 ^ 64) <<< 128 + (r.bytes % 2 ^ 64) <<< 192 + user <<< 256 + (panStack u) <<< 272 + (panPch u) <<< 280

/-- SYNC (R250). -/
def runPanSync (x : PCtx) (s : State) : PanOut :=
  let w := x.w
  let d := x.desc (cDA w)
  match firstBad ([(cUnused w 1 [.da, .imm, .flg], pfIllegal)] ++ x.descChecks s (cDA w) true ++
      [(!(d.mode == mdRw && d.rank == 1 && d.size == 64), pfKind)]) with
  | some f => .fail f s
  | none =>
    match (s.pan x.u).run with
    | none => (0, none, s)
    | some r =>
      let s := s.panPut x x.u d false (r.record x.u (cIMM w) (r.clocks / 1000))
      (pclk 1 64, none, if bit (cFLG w) 0 then s.signal x.b.part (bits (cIMM w) 5 0) 1 else s)

/-- PAN_LOAD (R236). -/
def execPanLoad (t : Fin 20) (u : Fin 32) (s : State) := s.panCommand t u 0x01 runPanLoad
/-- PAN_STORE (R237). -/
def execPanStore (t : Fin 20) (u : Fin 32) (s : State) := s.panCommand t u 0x02 runPanStore
/-- PAN_GEMV (R239). -/
def execPanGemv (t : Fin 20) (u : Fin 32) (s : State) := s.panCommand t u 0x03 runPanGemv
/-- PAN_PATTN (R240–R242). -/
def execPanPattn (t : Fin 20) (u : Fin 32) (s : State) := s.panCommand t u 0x04 runPanPattn
/-- PAN_GATHER (R243). -/
def execPanGather (t : Fin 20) (u : Fin 32) (s : State) := s.panCommand t u 0x05 runPanGather
/-- PAN_SCADD (R244). -/
def execPanScadd (t : Fin 20) (u : Fin 32) (s : State) := s.panCommand t u 0x06 runPanScadd
/-- PAN_ELEM (R245, R246). -/
def execPanElem (t : Fin 20) (u : Fin 32) (s : State) := s.panCommand t u 0x07 runPanElem
/-- PAN_STAT (R247). -/
def execPanStat (t : Fin 20) (u : Fin 32) (s : State) := s.panCommand t u 0x08 runPanStat
/-- PAN_COPY (R238). -/
def execPanCopy (t : Fin 20) (u : Fin 32) (s : State) := s.panCommand t u 0x09 runPanCopy
/-- PAN_SEAL (R248). -/
def execPanSeal (t : Fin 20) (u : Fin 32) (s : State) := s.panCommand t u 0x0A runPanSeal
/-- PAN_FENCE (R249): it holds until the pan's writes are performed. -/
def execPanFence (t : Fin 20) (u : Fin 32) (s : State) :=
  if s.panWritesDone (32 * t.val + u.val) then s.panCommand t u 0x0B runPanFence else ok s
/-- PAN_SYNC (R250): it waits as FENCE does. -/
def execPanSync (t : Fin 20) (u : Fin 32) (s : State) :=
  if s.panWritesDone (32 * t.val + u.val) then s.panCommand t u 0x0C runPanSync else ok s

/-- The operation code of the command that pan n of a batch in progress would run next. -/
def State.nextOpc (s : State) (n : Nat) : Option Nat :=
  match (s.pan n).run with
  | some r => ((s.pan n).queue.find? (fun e => e.1 == r.batch)).map (fun e => cOPC e.2.2)
  | none => none

/-- ILLEGAL_PAN_COMMAND (R234, R258): a word with no defined OPC fails with CMD_ILLEGAL. -/
def execIllegalPanCommand (t : Fin 20) (u : Fin 32) (s : State) : Host.Outcome State Fault Refusal :=
  match s.nextOpc (32 * t.val + u.val) with
  | some op => if 0x01 ≤ op && op ≤ 0x0C then ok s else s.panCommand t u op (fun _ s => .fail ⟨pfIllegal, 0⟩ s)
  | none => ok s

end Sys2Proof.Machine
end

