-- ==== Sys2Proof/Machine/Items.lean ====
section
/-!
DEFINITION. The items of a step: when one may issue, the issue of PAN, XFER and COLL items, completion, and the choice
of expert paths (R59, R351, R352).
-/
namespace Sys2Proof.Machine

/-- The step controller's access for a partition. -/
def scWho (p : Nat) : Who := ⟨.sc 0, some p⟩

/-- Item kinds. -/
def kBlock : Nat := 1
def kPan : Nat := 2
def kXfer : Nat := 3
def kColl : Nat := 4

/-- The unit an item runs on (R59): scalar units, XEs, stacks and collective engines. -/
def AlmItem.unitKey (i : AlmItem) : Nat :=
  if i.kind = kBlock then i.unit else if i.kind = kXfer then 100 + i.unit else if i.kind = kPan then 200 + i.unit else 300 + i.unit

/-- The items of the plan in force, with their numbers in ascending order. -/
def State.planItems (s : State) (p : Nat) : List (Nat × AlmItem) :=
  match (s.part p).plan with
  | none => []
  | some pl =>
    match s.entryOf p pl.entry with
    | none => []
    | some e => ((upFrom 0 e.items.length).zip e.items).filter (fun x => pl.items.contains x.1)

/-- Item n of the plan in force. -/
def State.planItem (s : State) (p n : Nat) : Option AlmItem := ((s.planItems p).find? (fun e => e.1 == n)).map Prod.snd

/-- An expert group's fields (R351): FIRST, NSH, NPV, ROUTE_K; none outside the group table or the count array. -/
def State.group (s : State) (p g : Nat) : Option (Nat × Nat × Nat × Nat) × State :=
  let k := (s.part p).serve
  if k.ngroup ≤ g then (none, s)
  else
    let (v, _, s) := s.readBytes (scWho p) (k.expg + 8 * g) 8
    let first := bits v 15 0
    let nsh := bits v 23 16
    let npv := bits v 39 24
    (if k.ncount < first + nsh + npv then none else some (first, nsh, npv, bits v 43 40), s)

/-- Whether every item an item depends on is complete; one left out of the plan counts as complete (R59). -/
def State.depsDone (s : State) (p : Nat) (i : AlmItem) : Bool :=
  i.deps.all (fun d => d == 0xFFFF || !(s.planItems p).any (fun e => e.1 == d) || (s.part p).done.contains d)

/-- Whether an item may issue (R59, R352), the eve aside: its dependencies are complete and every lower-numbered item
on its unit has issued. -/
def State.itemReady (s : State) (p n : Nat) (i : AlmItem) : Bool :=
  let k := s.part p
  k.phase = .active && !k.issued.contains n && s.depsDone p i &&
    (s.planItems p).all (fun e => !(decide (e.1 < n) && e.2.unitKey == i.unitKey) || k.issued.contains e.1) &&
    (!i.expert || k.serve.chosen.contains i.expertId) &&
    [0, 1].all (fun d => !(s.hasDie p d && (s.compDown (1 + d) || s.compDown (3 + d))))

/-- An item issued. -/
def State.issued (s : State) (p n : Nat) : State := s.setPart p { s.part p with issued := setInsert (s.part p).issued n }

/-- An item complete. -/
def State.itemDone (s : State) (p n : Nat) : State :=
  let k := s.part p
  s.setPart p { k with issued := setInsert k.issued n, done := setInsert k.done n }

/-- The payload of a PAN item: the last slots of its body, their number free (log 15). -/
def panItemSlots (v len : Nat) : Nat := Nat.min (Nat.min 16 (len / slotBytes)) (Config.panPayload v len)

/-- The batch of a PAN item: its command words, those of its body or for an EXPERT item those of the experts whose path is PAN in
ascending order (R352), and the number of its payload slots with their bytes. -/
def State.panBody (s : State) (p : Nat) (i : AlmItem) : (List Nat × Nat × Nat) × State :=
  let (v, _, s) := s.readBytes (scWho p) i.body i.bodyLen
  let npay := if i.bodyLen < slotBytes then 0 else panItemSlots v i.bodyLen
  let cmds := i.bodyLen - slotBytes * npay
  let pay := v >>> (8 * cmds)
  if !i.expert then ((cutBits 128 v (cmds / 16), npay, pay), s)
  else
    match s.group p i.expertId with
    | (none, s) => (([], npay, pay), s)
    | (some (first, nsh, npv, _), s) =>
      let n := nsh + npv
      let (paths, _, s) := s.readBytes (scWho p) ((s.part p).serve.stepRec + 0x10000 + 4 * (s.part p).serve.ncount + first) n
      let pick := (upFrom 0 n).filter (fun e => bits paths (8 * e + 7) (8 * e) == 1)
      ((pick.flatMap (fun e =>
        let x := bits v (64 * e + 63) (64 * e)
        cutBits 128 (v >>> (64 * n + 128 * bits x 15 0)) (bits x 31 16)), npay, pay), s)

/-- A PAN item issued (R59, R230, R352): its payload lies in every stack it targets and its words follow, unless a stack has too
few payload blocks free: then it waits. -/
def State.issuePan (s : State) (p n : Nat) (i : AlmItem) : State :=
  let ((ws, npay, pay), s) := s.panBody p i
  let stks := ws.foldl (fun l x => setInsert l (bits x 119 115)) ([] : List Nat)
  if ws.isEmpty then (s.issued p n).itemDone p n
  else if stks.any (fun t => decide (64 < s.blocksUsed t + npay)) then s
  else
    let b : Batch :=
      { id := s.batchSeq, core := 15, part := p, tag := 0, pc := 0, npay := npay
        payload := cellsOf 0 (slotBytes * npay) pay, words := (upFrom 0 ws.length).zip ws, await := [], paid := []
        held := if npay = 0 then [] else stks
        pans := ws.foldl (fun l x => setInsert l (32 * bits x 119 115 + bits x 114 110)) [], item := some n }
    ({ s.issued p n with batches := s.batches ++ [b], batchSeq := s.batchSeq + 1 } : State).deliverAll

/-- An XFER item issued (R59): its transfer enters the XE queue of its core, or waits while the queue is full. -/
def State.issueXfer (s : State) (p n : Nat) (i : AlmItem) : State :=
  let k := s.core i.unit
  if Eng.xe.cap ≤ (k.queue.filter (fun e => e.eng = .xe)).length then s
  else
    let e : QEntry := { seq := k.seq, eng := .xe, word := 0, pc := i.body, vl := 0, vrow := 0, regs := [], tds := [], item := some n }
    (s.issued p n).setCore i.unit { k with seq := k.seq + 1, queue := k.queue ++ [e] }

/-- An item of kind PAN, XFER or COLL issued (R59). -/
def State.issueItem (s : State) (p n : Nat) (i : AlmItem) : State :=
  if i.kind = kPan then s.issuePan p n i
  else if i.kind = kColl then (s.issued p n).handOff i.unit 15 p 0 0 i.body (some n)
  else s.issueXfer p n i

/-- Whether an EXPERT item names no usable group (R351). -/
def State.groupBad (s : State) (p : Nat) (i : AlmItem) : Bool := i.expert && (s.group p i.expertId).1.isNone

/-- One pass over the plan: every PAN, XFER and COLL item that may issue does, and an EXPERT item without a usable group completes
once its dependencies have (R351). -/
def State.issuePass (s : State) (p : Nat) : State :=
  (s.planItems p).foldl (fun s e =>
    let (n, i) := e
    if s.groupBad p i then
      if (s.part p).phase = .active && !(s.part p).done.contains n && s.depsDone p i then
        (s.set Fld.SERVE_ERR.GROUP_BAD 1 p).itemDone p n
      else s
    else if i.kind != kBlock && !s.inEve p && s.itemReady p n i && s.isUp 0 then s.issueItem p n i
    else s) s

/-- Items issued until none more may. -/
def State.issueAll (s : State) (p : Nat) : Nat → State
  | 0 => s
  | n + 1 => let t := s.issuePass p; if (t.part p).issued = (s.part p).issued then t else t.issueAll p n

/-- The path of one expert count (R352): 0 NONE, 1 PAN, 2 MXU. -/
def pathOf (x nsh e n : Nat) : Nat := if n = 0 then 0 else if nsh ≤ e || n ≤ x then 1 else 2

/-- The crossover of a group (R352): the PAN item's of the pair, else SV_CFG's. -/
def State.crossover (s : State) (p g : Nat) : Nat :=
  let pans := match s.stepEntry p with
    | some e => e.items.filter (fun (i : AlmItem) => i.expert && i.kind == kPan && i.expertId == g && i.xover != 0)
    | none => []
  match pans with
  | i :: _ => i.xover
  | [] => bits (s.part p).svCfg 7 0

/-- The paths of group g chosen once its count block completes (R352). -/
def State.choosePaths (s : State) (p g : Nat) : State :=
  match s.group p g with
  | (none, s) => s
  | (some (first, nsh, npv, _), s) =>
    let k := (s.part p).serve
    let base := k.stepRec + 0x10000
    let m := nsh + npv
    let (v, _, s) := s.readBytes (scWho p) (base + 4 * first) (4 * m)
    let ns := cutBits 32 v m
    let paths := ((upFrom 0 m).zip ns).map (fun e => pathOf (s.crossover p g) nsh e.1 e.2)
    let s := s.writeRaw (scWho p) (base + 4 * k.ncount + first) m (ofBytes (paths.map (BitVec.ofNat 8)))
    let total := fun (w : Nat) => sumList ((paths.zip ns).map (fun e => if e.1 = w then e.2 else 0))
    let q := s.part p
    let s := s.setPart p { q with serve := { q.serve with
      chosen := setInsert q.serve.chosen g, paths := q.serve.paths ++ [(g, total 1, total 2)] } }
    (s.planItems p).foldl (fun s e =>
      if e.2.expert && e.2.expertId == g && total (if e.2.kind = kPan then 1 else 2) == 0 then s.itemDone p e.1
      else s) s

/-- An item completes: expert groups whose count block it was choose their paths, and what may issue does (R59, R352). -/
def State.itemComplete (s : State) (p n : Nat) : State :=
  let s := s.itemDone p n
  let its := (s.planItems p).filter (fun e => e.2.expert && nth 0xFFFF e.2.deps 0 == n)
  let s := its.foldl (fun s e =>
    if (s.part p).serve.chosen.contains e.2.expertId then s else s.choosePaths p e.2.expertId) s
  s.issueAll p ((s.planItems p).length + 1)

/-- The instruction that the transfer descriptor of an XFER item stands for: what it encodes is free, as the spec gives the
descriptor no layout (log 15). -/
def State.xferEntry (s : State) (p : Nat) (e : QEntry) (i : AlmItem) : QEntry × State :=
  let (v, _, s) := s.readBytes (scWho p) i.body i.bodyLen
  let (x, ds) := Config.xferOf v i.bodyLen
  ({ e with word := (0xB0 + x % 7) <<< 56 + x / 7 % 2 ^ 56, tds := ds.map (fun d => ⟨s.createOk p d.toNat, d⟩) }, s)

/-- The transfer of an almanac item at the head of core c's XE queue (R59): it runs once the scoreboard lets it, and the item is
complete. -/
def State.runXfer (s : State) (c : Nat) : State :=
  match s.partOf c, (s.core c).queue.find? (fun e => e.eng = .xe) with
  | some p, some e =>
    match e.item.bind (fun n => (s.planItem p n).map (fun i => (n, i))) with
    | some (n, i) =>
      if (s.part p).phase = .active && s.isUp (dieOfCore c) then
        let (e, s) := s.xferEntry p e i
        if s.mayRun c e then
          let k := s.core c
          let s := s.setCore c { k with queue := k.queue.filter (fun x => x.seq != e.seq) }
          ((s.runEntry c p e true).itemComplete p n).pump c
        else s
      else s
    | none => s
  | _, _ => s

/-- What goes on of the running steps as time passes (R59): the transfers of almanac items, and items that waited for room. -/
def State.goOn (s : State) : State :=
  let s := (upFrom 0 12).foldl (fun s c => s.runXfer c) s
  ((upFrom 0 16).filter (fun p => (s.part p).phase = .active)).foldl (fun s p => s.issueAll p ((s.planItems p).length + 1)) s

end Sys2Proof.Machine
end

