-- ==== Sys2Proof/Machine/Stack.lean ====
section
/-!
DEFINITION. The stack controllers: requests issued to their banks, refresh and neighbour-row refresh, the pans'
boundaries and reports, sluice writes (R205–R225, R254, R257–R260).
-/
namespace Sys2Proof.Machine

/-- Whether a leap tick is active (LEAP_CTRL.STATE). -/
def State.inLeap (s : State) : Bool := s.get Fld.LEAP_CTRL.STATE == 2

/-- The refresh period of 32 ms, or 16 ms when hot, that the activation counters cover (R214), numbered from TICK_COUNT 0. -/
def State.refEpoch (s : State) (t : Nat) : Nat := s.now / (if s.is Fld.STK_STATUS.HOT t then 16000000 else 32000000)

/-- A granule's row opened in stack t for an access at an address, and left open when a further request waits for it
(R207, R214). A row's count is that of the running refresh period and the one before, so that none of one period is lost; the
spec does not say when a count that stays below the threshold drops (DESIGN CHOICE, log 22). -/
def State.openBank (s : State) (t a : Nat) (keep : Bool) : State :=
  let o := a % stackSpan
  let key := bankKey o
  let row := rowOf o
  let k := s.stack t
  let held := smPut 0 k.openRow key (if keep then row + 1 else 0)
  if smGet 0 k.openRow key = row + 1 then s.setStack t { k with openRow := held }
  else
    let last := smGet 0 k.lastAct key
    let wait := decide (0 < last) && decide (s.now < last - 1 + 45)
    let at_ := if wait then last - 1 + 45 else s.now
    let now := s.refEpoch t
    let acts := if k.actEpoch = now then k.acts else []
    let old := if k.actEpoch = now then k.actsOld else if k.actEpoch + 1 = now then k.acts else []
    let n := smGet 0 acts (32768 * key + row) + smGet 0 old (32768 * key + row) + 1
    let full := decide (s.get Fld.STK_CFG.ACT_THRESH_64 t * 64 ≤ n)
    let s := if wait then s.bump Fld.STK_NRR_CNT.CONFLICTS 1 t else s
    s.setStack t { k with
      openRow := held, lastAct := smPut 0 k.lastAct key (at_ + 1), actEpoch := now
      acts := smPut 0 acts (32768 * key + row) (if full then 0 else smGet 0 acts (32768 * key + row) + 1)
      actsOld := if full then smErase old (32768 * key + row) else old
      nrrDue := if full then k.nrrDue ++ [key] else k.nrrDue }

/-- The sluice whose DEFER_LEFT lets owed refreshes of a pseudo-channel be postponed, if R212 lets them be. -/
def State.deferrer (s : State) (t u : Nat) : Option Nat :=
  let k := s.stack t
  match smGet [] k.queue u with
  | [] => none
  | r :: _ =>
    if decide (smGet 0 k.owed u < s.get Fld.STK_CFG.REF_POSTPONE_MAX t) && decide (r.sluice ≤ 16) &&
      decide (0 < nth 0 k.deferLeft r.sluice) then some r.sluice else none

/-- One refresh postponed for the first time, charged to a sluice (R213). -/
def State.postpone (s : State) (t u sl : Nat) : State :=
  let k := s.stack t
  let left := nth 0 k.deferLeft sl
  (s.setStack t { k with deferLeft := setNth k.deferLeft sl (if left = 0xFFFF then left else left - 1)
                         fresh := smPut 0 k.fresh u (smGet 0 k.fresh u - 1) }).bump Fld.STK_REF_CNT.POSTPONED 1 t

/-- One neighbour-row refresh that is due in a bank, done (R214): its row closes. -/
def State.nrr (s : State) (t key : Nat) : State :=
  let k := s.stack t
  (s.setStack t { k with nrrDue := k.nrrDue.erase key, openRow := smErase k.openRow key }).bump Fld.STK_NRR_CNT.NRR 1 t

/-- The neighbour-row refreshes due in some banks, done: never later than the pseudo-channel's refresh (R214), and before
any sluice's request (R219). -/
def State.nrrAll (s : State) (t : Nat) (of : Nat → Bool) : State := ((s.stack t).nrrDue.filter of).foldl (fun s key => s.nrr t key) s

/-- Every owed refresh of a pseudo-channel issued (R212), the neighbour-row refreshes due there with them (R214). -/
def State.clearOwed (s : State) (t u : Nat) : State :=
  let s := s.nrrAll t (fun key => key / 32 == u)
  let k := s.stack t
  s.setStack t { k with owed := smErase k.owed u, fresh := smErase k.fresh u }

/-- Owed refreshes at the boundary of an operation: postponed while R212 lets them be, else all issue. -/
def State.refreshBoundary (s : State) (t u : Nat) : Nat → State
  | 0 => s
  | n + 1 =>
    let k := s.stack t
    if smGet 0 k.owed u = 0 then s
    else
      match s.deferrer t u with
      | some sl => if smGet 0 k.fresh u = 0 then s else (s.postpone t u sl).refreshBoundary t u n
      | none =>
        let waiting := !(smGet [] k.queue u).isEmpty
        let s := s.clearOwed t u
        if waiting then s.bump Fld.STK_REF_CNT.FORCED 1 t else s

/-- The refresh interval of stack t in nanoseconds (R211). -/
def State.refInterval (s : State) (t : Nat) : Nat :=
  s.get Fld.STK_CFG.TREFI_10NS t * (if s.is Fld.STK_STATUS.HOT t then 5 else 10)

/-- Whether the pan of a pseudo-channel waits on its sluice or on the stack bucket: a boundary for as long as it waits (R254). -/
def State.panStalls (s : State) (t u : Nat) : Bool :=
  (smGet [] (s.stack t).queue u).any (fun r => r.agent = .pan (32 * t + u) && !s.mayIssue r.sluice t)

/-- The pan of a pseudo-channel within a micro-operation (R212, R254), if it is in one. -/
def State.panAtWork (s : State) (t u : Nat) : Option PanRun :=
  match (s.pan (32 * t + u)).run with
  | some r => if r.micro = 0 || s.panStalls t u then none else some r
  | none => none

/-- Whether the pan of a pseudo-channel is within a micro-operation (R212). -/
def State.panBusy (s : State) (t u : Nat) : Bool := (s.panAtWork t u).isSome

/-- Whether a micro-operation of the pan of a pseudo-channel holds a bank against a request of another agent (R254). -/
def State.bankHeld (s : State) (t u : Nat) (r : Req) : Bool :=
  match s.panAtWork t u with
  | some x => r.agent != .pan (32 * t + u) && x.banks.contains (bankKey (r.dpa % stackSpan))
  | none => false

/-- A refresh that falls due (R211, R212): an idle pseudo-channel refreshes at once; within a pan's micro-operation it waits
for the boundary; between granule transfers it stands at one, and is postponed or issues with all that are owed. A channel whose
waiting requests are stalled by their sluices is idle. -/
def State.refreshFalls (s : State) (t u : Nat) : State :=
  let k := s.stack t
  let due := if smGet 0 k.refNext u = 0 then s.now else smGet 0 k.refNext u
  let s := s.setStack t { k with
    owed := smPut 0 k.owed u (smGet 0 k.owed u + 1), fresh := smPut 0 k.fresh u (smGet 0 k.fresh u + 1)
    refNext := smPut 0 k.refNext u (due + s.refInterval t) }
  if s.panBusy t u then s
  else if (smGet [] k.queue u).any (fun r => s.mayIssue r.sluice t) then s.refreshBoundary t u 16
  else s.clearOwed t u

/-- NEIGHBOUR_ROW_REFRESH (R214). -/
def execNeighbourRowRefresh (t : Fin 20) (u bank : Fin 32) (s : State) : Host.Outcome State Fault Refusal :=
  let k := s.stack t
  let key := 32 * u.val + bank.val
  if s.get Fld.STK_STATUS.STATE t == 2 && k.nrrDue.contains key then
    ok (s.nrr t key)
  else ok s

/-- Whether request i of a pseudo-channel's queue may be taken next (R205, R207): within the 64 entries of the queue,
and first of its bank or an open-row request that may still pass. -/
def StackSt.eligible (k : StackSt) (q : List Req) (i : Nat) (r : Req) : Bool :=
  let o := r.dpa % stackSpan
  let key := bankKey o
  let earlier := (q.take i).filter (fun x => bankKey (x.dpa % stackSpan) == key)
  let isOpen := smGet 0 k.openRow key == rowOf o + 1
  decide (i < 64) && (earlier.isEmpty ||
    (isOpen && decide (smGet 0 k.passed key < 16) && earlier.all (fun x => rowOf (x.dpa % stackSpan) != rowOf o)))

/-- The weight of a sluice in the round robin of a stack (R219): a partition's bandwidth share, HOST_WEIGHT. -/
def State.slWeight (s : State) (t sl : Nat) : Nat :=
  if sl = 16 then s.get Fld.SL_HOSTW.HOST_WEIGHT t else nth 100 (s.part sl).shares 1

/-- Whether a sluice has a request waiting at a pseudo-channel that its LEVEL and the stack bucket let issue (R219). -/
def State.contends (s : State) (t u sl : Nat) : Bool :=
  s.mayIssue sl t && (smGet [] (s.stack t).queue u).any (fun r => r.sluice == sl)

/-- Whether a sluice has had its weight of granules in the running round of a pseudo-channel (R219). -/
def State.served (s : State) (t u sl : Nat) : Bool := decide (s.slWeight t sl ≤ smGet 0 (s.stack t).grants (17 * u + sl))

/-- Whether it is a sluice's turn at a pseudo-channel (R219): it has had less than its weight in this round, or every sluice
that contends has had its weight, so that a new round begins. What no sluice is charged for takes no part. -/
def State.turn (s : State) (t u sl : Nat) : Bool :=
  decide (16 < sl) || !s.served t u sl || !(upFrom 0 17).any (fun x => s.contends t u x && !s.served t u x)

/-- A granule granted to a sluice (R219): counted in its round, or first of a new one. -/
def State.grant (s : State) (t u sl : Nat) : State :=
  if 16 < sl then s
  else
    let k := s.stack t
    let g := if s.served t u sl then smDrop k.grants (17 * u) 17 else k.grants
    s.setStack t { k with grants := smPut 0 g (17 * u + sl) (smGet 0 g (17 * u + sl) + 1) }

/-- The partition a crossing of the inter-die link is carried for (R15, R20): the requester's, or for the host's traffic the
owner of the unit; none where no partition owns it (R366). -/
def State.crossFor (s : State) (r : Req) : Option Nat :=
  if r.sluice < 16 then some r.sluice
  else if r.sluice = 16 then (upFrom 0 16).find? (fun p => s.owns p (r.dpa / stackSpan) (r.dpa % stackSpan >>> 21))
  else none

/-- Whether request i of a pseudo-channel's queue may issue now, but for the banks a pan holds: the stack serves, its sluice and the
bucket let it, it may be taken from the queue, and it is its sluice's turn (R205, R207, R217–R219). -/
def State.issues (s : State) (t u i : Nat) (r : Req) : Bool :=
  s.stackUp t && s.mayIssue r.sluice t && (s.stack t).eligible (smGet [] (s.stack t).queue u) i r && s.turn t u r.sluice

/-- Request i of a pseudo-channel taken from its queue and issued to its bank (R207, R209, R214, R217–R219). -/
def State.issueReq (s : State) (t u i : Nat) (r : Req) : State :=
  let s := s.nrrAll t (fun key => key == bankKey (r.dpa % stackSpan))
  let q := smGet [] (s.stack t).queue u
  let o := r.dpa % stackSpan
  let key := bankKey o
  let rest := q.eraseIdx i
  let same := fun (x : Req) => bankKey (x.dpa % stackSpan) == key
  let passing := (q.take i).any same
  let s := s.openBank t r.dpa (rest.any (fun x => same x && rowOf (x.dpa % stackSpan) == rowOf o))
  let dir := if r.isWrite then 2 else 1
  let k := s.stack t
  let turn := smGet 0 k.lastDir u != 0 && smGet 0 k.lastDir u != dir
  let s := s.setStack t { k with
    queue := smPut [] k.queue u rest, lastDir := smPut 0 k.lastDir u dir
    passed := smPut 0 k.passed key (if passing then smGet 0 k.passed key + 1 else 0) }
  let s := if turn then s.bump Fld.STK_TURNS.SWITCHES 1 t else s
  let s := s.charge r.sluice t r.inStack r.isWrite r.size
  let p := if r.sluice < 16 then some r.sluice else none
  let s := s.account p (if r.inStack then 7 else 6) r.size
  let cross := match r.agent.die with | some d => d != dieOfStack t | none => false
  if cross && !r.inStack then s.account (s.crossFor r) 8 r.size else s

/-- STACK_REQUEST_ISSUE (R207, R209, R212, R217–R219, R254): request i of a pseudo-channel issues to its bank, unless a pan's
micro-operation holds it; refreshes owed issue or are postponed at the boundary before it. -/
def execStackRequestIssue (t : Fin 20) (u : Fin 32) (i : Nat) (s : State) : Host.Outcome State Fault Refusal :=
  match (smGet [] (s.stack t).queue u)[i]? with
  | none => ok s
  | some r =>
    if !s.issues t u i r || s.bankHeld t u r then ok s
    else
      let s := ((s.grant t u r.sluice).refreshBoundary t u 16).issueReq t u i r
      ok (if (smGet [] (s.stack t).queue u).isEmpty then s.refreshBoundary t u 16 else s)

/-- The first request of another agent that waits for a bank the pan has held, issued at the boundary, ahead of a refresh: one granule
at each boundary (R254, R255). -/
def State.serveHeld (s : State) (t u : Nat) (banks : List Nat) : State :=
  let q := smGet [] (s.stack t).queue u
  match (q.zip (upFrom 0 q.length)).find? (fun e =>
      e.1.agent != .pan (32 * t + u) && banks.contains (bankKey (e.1.dpa % stackSpan)) && s.issues t u e.2 e.1) with
  | some (r, i) => (s.grant t u r.sluice).issueReq t u i r
  | none => s

/-- SL_LINE.USED (R220): the sum of RATE over the 340 sluices. -/
def State.lineUsed (s : State) : Nat :=
  sumList ((upFrom 0 20).map (fun t => sumList ((upFrom 0 17).map (fun sl => s.get Fld.SL_CFG.RATE t sl))))

/-- SL_LINE.USED brought to the sum of RATE (R220), after a RATE write and after an event that returns RATEs to reset. -/
def State.setUsed (s : State) : State := s.set Fld.SL_LINE.USED s.lineUsed

/-- A sluice's RATE and DEPTH_UJ taken into force, its LEVEL set full when either changed (R217). -/
def State.sluiceTake (s : State) (t sl : Nat) : State :=
  let k := s.stack t
  let r := s.get Fld.SL_CFG.RATE t sl
  let d := s.get Fld.SL_CFG.DEPTH_UJ t sl
  if nth 0 k.rate sl = r && nth 0 k.depth sl = d then s
  else
    s.setStack t { k with rate := setNth k.rate sl r, depth := setNth k.depth sl d
                          level := setNth k.level sl ((d * 1000000 * 10240 : Nat) : Int) }

/-- A write of SL_CFG (R217, R220): its new word, checked; a HOST write acts at once. -/
def State.sluiceWrite (s : State) (t sl w : Nat) : State :=
  let old := s.get Fld.SL_CFG.RATE t sl
  let new := bits w 13 0
  let depth := if bits w 25 16 = 0 then 1 else bits w 25 16
  let overCap := decide (s.get Fld.STK_PWR.PWR_CAP t < new)
  let overLine := decide (old < new) && decide (s.get Fld.SL_LINE.BUDGET < s.lineUsed + new - old)
  let s := if overCap then s.set Fld.SL_ERR.OVER_CAP 1 else s
  let s := if overLine then s.set Fld.SL_ERR.OVER_LINE 1 else s
  let s := (s.set Fld.SL_CFG.DEPTH_UJ depth t sl).set Fld.SL_CFG.REF_DEFER (bits w 47 32) t sl
  let s := if overCap || overLine then s else (s.set Fld.SL_CFG.RATE new t sl).setUsed
  if sl = 16 then s.sluiceTake t 16 else s

/-- SLUICE_RATE_WRITE (R220). -/
def execSluiceRateWrite (t : Fin 20) (sl : Fin 17) (v : Word) (s : State) : Host.Outcome State Fault Refusal :=
  occurs (s.serves (dieOfStack t)) s (s.sluiceWrite t sl v.toNat)

/-- A pan stops a batch: the rest of its commands there are discarded (R42, R259), and at the pan's next boundary what is left of
the command in hand. -/
def State.stopPan (s : State) (n b : Nat) : State :=
  let k := s.pan n
  let s := s.setPan n { k with
    queue := k.queue.filter (fun q => q.1 != b)
    run := k.run.map (fun r => if r.batch = b then { r with stopped := true } else r) }
  match s.batch b with
  | some x => (s.setBatch { x with words := x.words.filter (fun q => 32 * bits q.2 119 115 + bits q.2 114 110 != n) }).deliverAll
  | none => s

/-- MICRO_OP_BOUNDARY (R42, R212, R254, R255, R263): the present micro-operation ends; abandonment first, then an emergency hold, then a
request that waits for a bank held, then refresh, then the pan's next micro-operation, at the operating point now in force. -/
def execMicroOpBoundary (t : Fin 20) (u : Fin 32) (s : State) : Host.Outcome State Fault Refusal :=
  let n := 32 * t.val + u.val
  match (s.pan n).run with
  | none => ok s
  | some r =>
    let s := s.microEnd n
    let p := match s.batch r.batch with | some b => b.part | none => 0
    if r.stopped || (s.batch r.batch).isNone || (s.part p).phase = .abandoning then
      ok ((s.stopPan n r.batch).setRun n (fun r => { r with micro := 0, left := [], reads := [] }))
    else if !s.pansRun t then ok s
    else
      let s := ((s.setRun n (fun r => { r with mhz := s.mhz (dieOfStack t) })).serveHeld t u r.banks).refreshBoundary t u 16
      if r.micro = 0 then ok s
      else if r.micro = 1 then ok (s.setRun n (fun r => { r with micro := 0, cmds := r.cmds + 1 }))
      else
        match (s.setRun n (fun r => { r with micro := r.micro - 1 })).microBegin n p with
        | (some pf, s) => ok (s.panFails n r.batch r.cmd pf)
        | (none, s) => ok s

/-- A batch without one of its pans; it leaves when none is left (R158, R230). -/
def State.reportPan (s : State) (b : Batch) (n : Nat) : State :=
  let pans := setErase b.pans n
  let held := if pans.any (fun x => panStack x == panStack n) then b.held else setErase b.held (panStack n)
  if pans.isEmpty then
    let s := { s with batches := s.batches.filter (fun x => x.id != b.id) }
    match b.item with
    | some i => s.itemComplete b.part i
    | none => s
  else s.setBatch { b with pans := pans, held := held }

/-- A pan's fault as it reaches the issuing core (R160, R259, R292, R511). -/
def State.panFault (s : State) (b : Batch) (n code addr cmd : Nat) : State :=
  let t := panStack n
  let a := if pfPoison ≤ code && code ≤ pfCsum then addr else 0
  let s := s.post { type := 2, code := code, part := some b.part, stack := t, pch := panPch n
                    core := if b.item.isSome then 15 else b.core, src := 1, dpa := a, cmd := cmd, stored := 0, computed := 0 }
  let shared := (code == pfPoison || code == pfCsum) && (s.sharedAt a).isSome
  let s := if shared then s.setPart b.part { s.part b.part with stoppedFor := setInsert (s.part b.part).stoppedFor (a / 4096) } else s
  if b.item.isSome then s.beginAbandon b.part ⟨.fault, 4, t, shared⟩
  else s.coreFaultAs b.core .pip b.pc ⟨cfPanFault, a, some t⟩ t 4 t shared

/-- PAN_COMPLETION_REPORT (R158, R160, R230, R257, R259). -/
def execPanCompletionReport (t : Fin 20) (u : Fin 32) (s : State) : Host.Outcome State Fault Refusal :=
  let n := 32 * t.val + u.val
  let k := s.pan n
  match k.run with
  | none => ok s
  | some r =>
    let isOver := r.stopped || r.fault.isSome || !s.batchLeft r.batch n
    if !isOver || r.micro != 0 || (s.panReqs n).1 != 0 then ok s
    else
      let s := s.setPan n { k with run := none, obuf := [], obufBad := [], acc := [] }
      match s.batch r.batch with
      | none => ok s
      | some b =>
        let s := s.reportPan b n
        let s := match r.fault with
          | some (code, addr, cmd) => (b.pans.filter (fun x => x != n)).foldl (fun (s : State) x => s.stopPan x b.id) (s.panFault b n code addr cmd)
          | none => s
        ok ((s.deliverAll).pump b.core)

end Sys2Proof.Machine
end

