-- ==== Sys2Proof/Machine/Errors.lean ====
section
/-!
DEFINITION. The rake, the host's test and repair of granules, mirror repair, the error log and injected errors
(R286, R292–R302).
-/
namespace Sys2Proof.Machine

/-- The rake's access to stack t. -/
def rakeWho (t : Nat) : Who := ⟨.rake t, none⟩

/-- Granules of a stack, its checksum array included. -/
def stackGranules : Nat := stackSpan / 4096

/-- The granule that the rake of stack t reads next, as an offset in its stack (R298). -/
def State.rakeNext (s : State) (t : Nat) : Nat :=
  let ln := s.get Fld.RAKE_POS.NEXT t
  let base := t * stackSpan / 64
  if base ≤ ln && ln < base + stackSpan / 64 then (ln - base) / 64 else 0

/-- The rake of stack t set to an offset in granules. -/
def State.setRakeNext (s : State) (t g : Nat) : State := s.set Fld.RAKE_POS.NEXT (t * stackSpan / 64 + 64 * g) t

/-- One line read by the rake (R288, R300): what it reads, and a correction written back. -/
def State.rakeLine (s : State) (t ln : Nat) : Option Nat × State :=
  let one := s.lineValid ln && !s.linePoisoned ln && (maskSymbols (smGet 0#512 s.ecc ln)).length == 1
  let (v, s) := s.readLine (rakeWho t) ln
  if one then
    let x := s.granule (ln / 64)
    let s := { s with ecc := smErase s.ecc ln, metaFlip := smErase s.metaFlip ln }
    let s := s.setGranule (ln / 64) { x with valid := x.valid ||| BitVec.ofNat 64 (2 ^ (ln % 64)) }
    let s := s.count Fld.RAKE_CNT.CORRECTED 1 t
    let o := 64 * ln % stackSpan
    let key := 32768 * bankKey o + rowOf o
    let k := s.stack t
    (v, (s.setStack t { k with weakRows := smPut 0 k.weakRows key (smGet 0 k.weakRows key + 1) }).flipData (rakeWho t) t ln)
  else (v, s)

/-- The lines of a granule read by the rake: their data, none where one is poisoned. -/
def State.rakeLines (s : State) (t ln : Nat) : Nat → Option Nat × State
  | 0 => (some 0, s)
  | n + 1 =>
    let (v, s) := s.rakeLines t ln n
    let (x, s) := s.rakeLine t (ln + n)
    (match v, x with | some v, some x => some (v + x <<< (512 * n)) | _, _ => none, s)

/-- The deep check of a sealed granule over what the rake has read (R301). What a poisoned line reads as is free; a granule of a
READY shared region that is poisoned whole has been through R292. -/
def State.rakeDeep (s : State) (t g : Nat) (data : Option Nat) : State :=
  let x := s.granule g
  if x.state ≠ .shut || (x.poison = BitVec.allOnes 64 && (s.sharedAt (4096 * g)).isSome) then s
  else
    let (c, s) := match data with
      | some v => (crc32c (bytesOf 4096 v), s)
      | none => s.freeBelow (2 ^ 32)
    if c = x.crc.toNat && (smFind s.csumBad g).isNone then s
    else
      let a := 4096 * g
      let s := s.count Fld.RAKE_CNT.CSUM_BAD 1 t
      let s := s.post { ErrRec.plain 6 with stack := t, pch := pchOf (a % stackSpan), src := 4, dpa := a, stored := x.crc.toNat, computed := c }
      match s.sharedAt a with
      | some r => s.poisonShared (rakeWho t) r g a (pchOf (a % stackSpan))
      | none => s

/-- Partitions with a request waiting at a pseudo-channel. -/
def State.waiters (s : State) (t u : Nat) : List Nat :=
  (smGet [] (s.stack t).queue u).foldl (fun l r => if r.sluice < 16 then setInsert l r.sluice else l) []

/-- Whether the rake of stack t may issue at pseudo-channel u (R298, R299, R302), and whether ahead of waiting requests. -/
def State.rakeMay (s : State) (t u : Nat) : Option Bool :=
  let k := s.stack t
  let debt := s.get Fld.RAKE_DEBT.GRANULES t
  let burst := s.inLeap && s.is Fld.RAKE_CTRL.BURST_EN t
  if !s.stackUp t || !(s.mod.power = .on) || s.is Fld.RAKE_CTRL.PAUSE t || k.bucket ≤ 0 || (debt = 0 && !burst) then none
  else if (smGet [] k.queue u).isEmpty then some false
  else if debt = s.get Fld.RAKE_CFG.DEBT_MAX t &&
      (s.waiters t u).all (fun p => decide (smGet 0 k.forced p < s.get Fld.RAKE_CFG.FORCE_PER_STEP t)) then some true
  else none

/-- RAKE_ISSUE (R298–R302): the rake reads its next granule. -/
def execRakeIssue (t : Fin 20) (s : State) : Host.Outcome State Fault Refusal :=
  let g := s.rakeNext t
  let a := t * stackSpan + 4096 * g
  let u := pchOf (4096 * g)
  match s.rakeMay t u with
  | none => ok s
  | some ahead =>
    let k := s.stack t
    let s := if ahead then s.setStack t { k with forced := (s.waiters t u).foldl (fun m p => smPut 0 m p (smGet 0 m p + 1)) k.forced } else s
    let s := s.openBank t a false
    let s := s.charge 17 t false false 4096
    let s := s.set Fld.RAKE_DEBT.GRANULES (s.get Fld.RAKE_DEBT.GRANULES t - 1) t
    let s :=
      match placeOf a with
      | .data _ _ =>
        let (v, s) := s.rakeLines t (64 * (a / 4096)) 64
        if s.is Fld.RAKE_CFG.DEEP t then s.rakeDeep t (a / 4096) v else s
      | _ => ((s.csumBad.map Prod.fst).filter (fun h => 4096 * h / stackSpan == t.val &&
          (stackData + 4 * (4096 * h % stackSpan / 4096)) / 4096 == g)).foldl (fun (s : State) h => s.csumLineRecord (rakeWho t) h) s
    if g + 1 = stackGranules then ok ((s.setRakeNext t 0).count Fld.RAKE_WALKS.WALKS 1 t)
    else ok (s.setRakeNext t (g + 1))

/-- RAKE_RESTART (RAKE_CTRL.RESTART). -/
def execRakeRestart (t : Fin 20) (s : State) : Host.Outcome State Fault Refusal :=
  occurs (s.serves (dieOfStack t)) s (s.setRakeNext t 0)

/-- The entry of ERR_POISON that lists granule g, if any. -/
def State.poisonEntry (s : State) (g : Nat) : Option Nat :=
  (upFrom 0 16).find? (fun e => s.is Fld.ERR_POISON.VALID e && s.get Fld.ERR_POISON.GRANULE e == g)

/-- The ERR_POISON entry of granule g removed. -/
def State.dropPoison (s : State) (g : Nat) : State :=
  match s.poisonEntry g with
  | some e => { (s.setWord Reg.ERR_POISON e 0 0) with repairDue := s.repairDue.filter (· != e) }
  | none => s

/-- Partitions stopped for granule g run again from their next step boundary, when no other granule holds them
(R293, R294). -/
def State.release (s : State) (g : Nat) (resume : Bool) : State :=
  (upFrom 0 16).foldl (fun s p =>
    let k := s.part p
    if !k.stoppedFor.contains g then s
    else
      let left := setErase k.stoppedFor g
      if left.isEmpty && resume then
        if s.pstate p == stStopped then
          (s.setPart p { k with stoppedFor := [], stopAtBoundary := false, resumePend := true }).set Fld.STEP_STATE.RETRY_COUNT 0 p
        else s.setPart p { k with stoppedFor := [], stopAtBoundary := false }
      else s.setPart p { k with stoppedFor := left }) s

/-- Whether every partition that maps region r is stopped, quiesced or idle (R293). -/
def State.mappersRest (s : State) (r : Nat) : Bool :=
  (s.mappers r).all (fun p => s.pstate p == stStopped || s.pstate p == stQuiesced || s.pstate p == stIdle)

/-- The access of a mirror repair. -/
def repairWho : Who := ⟨.repair, none⟩

/-- The address of a region's replica of an address (R360). -/
def State.replicaOf (s : State) (r a : Nat) : Nat :=
  let o := a % stackSpan
  s.get Fld.REG_MIR.MSTACK r * stackSpan + (o - s.get Fld.REG_LOC.FIRST r * 0x200000) + s.get Fld.REG_MIR.MFIRST r * 0x200000

/-- MIRROR_REPAIR (R293): the granule of an entry that awaits its mirror is repaired from the replica. -/
def execMirrorRepair (e : Fin 16) (s : State) : Host.Outcome State Fault Refusal :=
  let g := s.get Fld.ERR_POISON.GRANULE e
  let a := 4096 * g
  if !s.is Fld.ERR_POISON.VALID e || s.get Fld.ERR_POISON.PATH e != 0 then ok s
  else
    match s.sharedAt a with
    | none => ok s
    | some r =>
      if !s.mappersRest r || !(s.inLeap || s.repairDue.contains e.val) then ok s
      else
        let m := s.replicaOf r a
        let (v, f, s) := s.computeGranule repairWho false false none (m / 4096)
        let t := a / stackSpan
        let rec_ := fun (ty : Nat) => { ErrRec.plain ty with stack := t, pch := pchOf (a % stackSpan), src := 5, dpa := a }
        match f with
        | none =>
          let s := s.writeSealing repairWho a 4096 v
          let s := s.traffic repairWho false true a 4096
          let s := (s.dropPoison g).post (rec_ 9)
          ok (s.release g true)
        | some _ =>
          let s := (s.set Fld.ERR_POISON.PATH 1 e).post (rec_ 10)
          ok { s with repairDue := s.repairDue.filter (· != e.val) }

/-- A line read by ERR_VERIFY (R286, R288): a correctable error is counted; nothing is poisoned. -/
def State.probeLine (s : State) (t ln : Nat) : Option Nat × State :=
  if !s.lineValid ln then (some 0, s)
  else if s.linePoisoned ln then (none, s)
  else
    match maskSymbols (smGet 0#512 s.ecc ln) with
    | [] => (some (s.lineRaw ln), s)
    | [sym] => (some (s.lineRaw ln), s.enterCE t ln sym)
    | [_, _] => (none, s)
    | _ =>
      let (u, s) := s.freeChoice
      if u then (none, s) else (some (Config.freeLine s.free).toNat, { s with free := s.free + 1 })

/-- Lines read by ERR_VERIFY: their data, none where one is uncorrectable. -/
def State.probeLines (s : State) (t ln : Nat) : Nat → Option Nat × State
  | 0 => (some 0, s)
  | n + 1 =>
    let (v, s) := s.probeLines t ln n
    let (x, s) := s.probeLine t (ln + n)
    (match v, x with | some v, some x => some (v + x <<< (512 * n)) | _, _ => none, s)

/-- A write of ERR_VERIFY (R286): the test runs when GO is written one. -/
def State.errVerifyWrite (s : State) (w mask : Nat) : State :=
  let s := s.plainWrite Reg.ERR_VERIFY 0 0 w mask
  if !s.is Fld.ERR_VERIFY.GO then s
  else
    let s := s.set Fld.ERR_VERIFY.GO 0
    let g := s.get Fld.ERR_VERIFY.GRANULE
    match placeOf (4096 * g) with
    | .data t _ =>
      if !s.stackUp t then s.set Fld.ERR_VERIFY.RESULT 7
      else
        let x := s.granule g
        let (v, s) := s.probeLines t (64 * g) 64
        let (c, s) := match v with | some v => (crc32c (bytesOf 4096 v), s) | none => s.freeBelow (2 ^ 32)
        let res := if v.isNone then 6 else match x.state with
          | .unwritten => 5
          | .opened => 4
          | .shut => if c = x.crc.toNat && (smFind s.csumBad g).isNone then 2 else 3
        ((s.set Fld.ERR_VERIFY_CRC.STORED x.crc.toNat).set Fld.ERR_VERIFY_CRC.COMPUTED c).set Fld.ERR_VERIFY.RESULT res
    | _ => s.set Fld.ERR_VERIFY.RESULT 7

/-- ERR_VERIFY (R286). -/
def execErrVerify (v : Word) (s : State) : Host.Outcome State Fault Refusal :=
  occurs (s.serves 0) s (s.errVerifyWrite v.toNat fullMask)

/-- A write of ERR_REPAIR (R294): the repair runs when GO is written one. -/
def State.errRepairWrite (s : State) (w mask : Nat) : State :=
  let s := s.plainWrite Reg.ERR_REPAIR 0 0 w mask
  if !s.is Fld.ERR_REPAIR.GO then s
  else
    let s := s.set Fld.ERR_REPAIR.GO 0
    let g := s.get Fld.ERR_REPAIR.GRANULE
    let a := 4096 * g
    match placeOf a with
    | .data t _ =>
      if !s.stackUp t then s.set Fld.ERR_REPAIR.RESULT 0
      else
        let (v, bad, s) := s.readLines repairWho (64 * g) 64
        let c := crc32c (bytesOf 4096 v)
        if bad.isSome then s.set Fld.ERR_REPAIR.RESULT 3
        else if s.is Fld.ERR_REPAIR.EXPECT_EN && c != s.get Fld.ERR_REPAIR_CRC.EXPECT then s.set Fld.ERR_REPAIR.RESULT 4
        else
          let s := (if (s.granule g).valid = 0#64 then s else s.sealGranule g c).dropPoison g
          let s := s.post { ErrRec.plain 11 with stack := t, pch := pchOf (a % stackSpan), src := 5, dpa := a }
          (s.release g (s.is Fld.ERR_REPAIR.RESUME)).set Fld.ERR_REPAIR.RESULT 2
    | _ => s.set Fld.ERR_REPAIR.RESULT 0

/-- ERR_REPAIR (R294). -/
def execErrRepair (v : Word) (s : State) : Host.Outcome State Fault Refusal :=
  occurs (s.serves 0) s (s.errRepairWrite v.toNat fullMask)

/-- A write of ERR_LOG_CI (R295): a value outside PROD − 64 to PROD is ignored. -/
def State.errLogWrite (s : State) (w : Nat) : State :=
  let prod := s.get Fld.ERR_LOG_PI.PROD
  let c := bits w 31 0
  if (prod + 2 ^ 32 - c) % 2 ^ 32 ≤ 64 then s.set Fld.ERR_LOG_CI.CONS c else s

/-- ERR_LOG_CONSUME (R295). -/
def execErrLogConsume (v : Word) (s : State) : Host.Outcome State Fault Refusal :=
  occurs (s.serves 0) s (s.errLogWrite v.toNat)

/-- A write of STK_FLIP_CTRL (R296): SRC 6 to 15 is written as 0. -/
def State.flipWrite (s : State) (t w mask : Nat) : State :=
  let s := s.plainWrite Reg.STK_FLIP_CTRL t 0 w mask
  if 6 ≤ s.get Fld.STK_FLIP_CTRL.SRC t then s.set Fld.STK_FLIP_CTRL.SRC 0 t else s

/-- FLIP_ARM_DATA (R296): a write of STK_FLIP_CTRL with ARM_DATA set. -/
def execFlipArmData (t : Fin 20) (v : Word) (s : State) : Host.Outcome State Fault Refusal :=
  occurs (s.serves (dieOfStack t) && bit v.toNat 0) s (s.flipWrite t v.toNat fullMask)

/-- FLIP_ARM_CSUM (R296): a write of STK_FLIP_CTRL with ARM_CSUM set. -/
def execFlipArmCsum (t : Fin 20) (v : Word) (s : State) : Host.Outcome State Fault Refusal :=
  occurs (s.serves (dieOfStack t) && bit v.toNat 1) s (s.flipWrite t v.toNat fullMask)

end Sys2Proof.Machine
end

