-- ==== Sys2Proof/Machine/Partition.lean ====
section
/-!
DEFINITION. Partitions and shared regions: cores, shared-buffer allocations, ranges and maps, LOAD, SEAL and RELEASE,
and semaphore signals from outside (R355–R362, R371, R74, R86, R72, R94).
-/
namespace Sys2Proof.Machine

/-- Units of a stack's data region (R357). -/
def stackUnits : Nat := 49104

/-- A partition write refused (PART_ERR): the flag, and the partition of the refusal. -/
def State.refuse (s : State) (f : Fld) (p : Nat) : State := (s.set f 1).set Fld.PART_ERR.PART p

/-- Whether a partition's PT_CORES and PT_SB may be written (R356). -/
def State.atRest (s : State) (p : Nat) : Bool :=
  s.pstate p == stIdle || s.pstate p == stStopped || s.pstate p == stQuiesced

/-- A core passed to a partition or to none (R74, R86, R72, R94). -/
def State.assignCore (s : State) (c : Nat) (p : Option Nat) : State :=
  let s := s.resetCsrs (fun r i _ f => !(r.home = .core && i == c && f.kept = .d12q))
  let s := ((s.setWord Reg.FP_FLAGS c 0 0).setWord Reg.IDX_OOB c 0 0).setWord Reg.IDX_OOB_CNT c 0 0
  let k := s.core c
  let s := s.setCore c { k with
    trf := [], trfBad := [], trfCe := [], rc := [], td := k.td.map (fun t => { t with valid := false }), cfg := Reg.CORE_CFG.word0
    run := if k.run = .halted then .halted else .idle }
  (s.set Fld.CORE_STATUS.ASSIGNED (b2n p.isSome) c).set Fld.CORE_STATUS.PART (p.getD 0) c

/-- A write of PT_CORES (R356). -/
def State.ptCoresPut (s : State) (p w : Nat) : State :=
  let new := bits w 11 0
  let old := s.get Fld.PT_CORES.CORES p
  if !s.atRest p then s.refuse Fld.PART_ERR.BUSY p
  else if (setBitsOf new 12).any (fun c => match s.partOf c with | some q => q != p | none => false) then
    s.refuse Fld.PART_ERR.CORE_TAKEN p
  else
    let s := s.set Fld.PT_CORES.CORES new p
    let s := ((setBitsOf old 12).filter (fun c => !bit new c)).foldl (fun s c => s.assignCore c none) s
    ((setBitsOf new 12).filter (fun c => !bit old c)).foldl (fun s c => s.assignCore c (some p)) s

/-- PT_CORES_WRITE (R356). -/
def execPtCoresWrite (p : Fin 16) (v : Word) (s : State) : Host.Outcome State Fault Refusal :=
  occurs (s.serves 0) s (s.ptCoresPut p v.toNat)

/-- Whether two allocations of 256 KiB units overlap; an empty one overlaps nothing (R359). -/
def spansMeet (a n b m : Nat) : Bool := decide (0 < n) && decide (0 < m) && decide (a < b + m) && decide (b < a + n)

/-- A write of PT_SB (R356, R359). -/
def State.ptSbPut (s : State) (p w : Nat) : State :=
  let b0 := bits w 7 0
  let n0 := bits w 15 8
  let b1 := bits w 23 16
  let n1 := bits w 31 24
  let out := decide (192 < b0 + n0) || decide (192 < b1 + n1)
  let meets := (upFrom 0 16).any (fun q => q != p &&
    (spansMeet b0 n0 (s.get Fld.PT_SB.SB0_BASE q) (s.get Fld.PT_SB.SB0_SIZE q) ||
      spansMeet b1 n1 (s.get Fld.PT_SB.SB1_BASE q) (s.get Fld.PT_SB.SB1_SIZE q)))
  if !s.atRest p then s.refuse Fld.PART_ERR.BUSY p
  else if out || meets then
    let s := if out then s.refuse Fld.PART_ERR.SB_RANGE p else s
    if meets then s.refuse Fld.PART_ERR.SB_OVERLAP p else s
  else s.setWord Reg.PT_SB p 0 (bits w 31 0)

/-- PT_SB_WRITE (R356, R359). -/
def execPtSbWrite (p : Fin 16) (v : Word) (s : State) : Host.Outcome State Fault Refusal :=
  occurs (s.serves 0) s (s.ptSbPut p v.toNat)

/-- The range entry i of a partition as written. -/
def State.rangeEntry (s : State) (p i : Nat) : Range :=
  ⟨s.get Fld.PT_RANGE.STACK p i, s.get Fld.PT_RANGE.FIRST p i, s.get Fld.PT_RANGE.COUNT p i⟩

/-- Whether two ranges share a unit. -/
def Range.meets (a b : Range) : Bool := a.stack == b.stack && spansMeet a.first a.count b.first b.count

/-- The units of a region, and of its replica (R360, R362). -/
def State.regionRanges (s : State) (r : Nat) : List Range :=
  let n := s.get Fld.REG_LOC.COUNT r
  ⟨s.get Fld.REG_LOC.STACK r, s.get Fld.REG_LOC.FIRST r, n⟩ ::
    (if s.is Fld.REG_LOC.MIRROR r then [⟨s.get Fld.REG_MIR.MSTACK r, s.get Fld.REG_MIR.MFIRST r, n⟩] else [])

/-- The units taken by regions other than r that are not EMPTY. -/
def State.regionUnits (s : State) (except : Option Nat) : List Range :=
  ((upFrom 0 32).filter (fun r => some r != except && s.get Fld.REG_STAT.STATE r != rgEmpty)).flatMap s.regionRanges

/-- The units of partitions other than p, by the ranges in force. -/
def State.partUnits (s : State) (except : Option Nat) : List Range :=
  ((upFrom 0 16).filter (fun q => some q != except)).flatMap (fun q => (s.part q).ranges)

/-- Whether a range lies in a stack's units. -/
def Range.inBounds (r : Range) : Bool := decide (r.stack ≤ 19) && decide (r.first + r.count ≤ stackUnits)

/-- A pending range or map change of partition p acts, or is refused and undone (R356, R357). -/
def State.applyChange (s : State) (p : Nat) : State :=
  let s := s.set Fld.PT_STAT.PENDING 0 p
  let k := s.part p
  let ents := (upFrom 0 64).map (s.rangeEntry p)
  let live := ents.filter (fun r => r.count != 0)
  let map := s.get Fld.PT_REGIONS.MAP p
  let badRange := ents.any (fun r => !r.inBounds)
  let taken := s.partUnits (some p) ++ s.regionUnits none
  let overlap := live.any (fun r => taken.any r.meets)
  let badMap := (setBitsOf map 32).any (fun r => s.get Fld.REG_STAT.STATE r != rgReady)
  if badRange || overlap || badMap then
    let s := if badRange then s.refuse Fld.PART_ERR.RANGE_BAD p else s
    let s := if overlap then s.refuse Fld.PART_ERR.OVERLAP p else s
    let s := if badMap then s.refuse Fld.PART_ERR.REGION_BAD p else s
    let s := s.set Fld.PT_REGIONS.MAP k.regions p
    (upFrom 0 64).foldl (fun s i =>
      let r := nth ⟨0, 0, 0⟩ k.ranges i
      s.setWord Reg.PT_RANGE p i (r.stack + r.first <<< 16 + r.count <<< 32)) s
  else s.setPart p { k with ranges := ents, regions := map }

/-- A range entry or map written (R356): it waits for the boundary of a RUNNING partition, else acts at once. -/
def State.changeWritten (s : State) (p : Nat) : State :=
  if s.pstate p == stRunning then s.set Fld.PT_STAT.PENDING 1 p else s.applyChange p

/-- Fields of a word held to a range, in place (a share: 0 written as 1, above 1,000 as 1,000). -/
def clampField (lo hi : Nat) (w : Nat) (b : Nat × Nat) : Nat := setBits w b.1 b.2 (clamp lo hi (bits w b.1 b.2))

/-- A write of PT_SHARE: each share held to 1–1,000. -/
def State.sharePut (s : State) (p w mask : Nat) : State :=
  let s := s.plainWrite Reg.PT_SHARE p 0 w mask
  s.setWord Reg.PT_SHARE p 0 ([(9, 0), (21, 12), (33, 24), (45, 36), (57, 48)].foldl (clampField 1 1000) (s.word Reg.PT_SHARE p 0))

/-- Whether a region may be loaded (R360, R362). -/
def State.regionLoadable (s : State) (r : Nat) : Bool :=
  let rs := s.regionRanges r
  let taken := s.partUnits none ++ s.regionUnits (some r)
  decide (1 ≤ s.get Fld.REG_LOC.COUNT r) && rs.all Range.inBounds && rs.all (fun x => !taken.any x.meets) &&
    (!s.is Fld.REG_LOC.MIRROR r || s.get Fld.REG_MIR.MSTACK r != s.get Fld.REG_LOC.STACK r)

/-- LOAD written (R360). -/
def State.regionLoad (s : State) (r : Nat) : State :=
  if s.get Fld.REG_STAT.STATE r != rgEmpty then s.set Fld.PART_ERR.REGION_BUSY 1
  else if s.regionLoadable r then s.set Fld.REG_STAT.STATE rgLoading r
  else s.set Fld.PART_ERR.REGION_BAD 1

/-- SEAL written (R360, R361): the pans of the stack, and of the replica's, read every granule. -/
def State.regionSeal (s : State) (r : Nat) : State :=
  if s.get Fld.REG_STAT.STATE r != rgLoading then s.set Fld.PART_ERR.REGION_BUSY 1
  else
    let s := s.set Fld.REG_STAT.STATE rgSealing r
    (s.regionRanges r).foldl (fun s x => s.charge 17 x.stack true false (x.count * 0x200000)) s

/-- The first granule of a range (by number of the device). -/
def Range.base (r : Range) : Nat := (r.stack * stackSpan + r.first * 0x200000) / 4096

/-- The indices of a region's granules that any of its copies has written. -/
def State.regionWritten (s : State) (rs : List Range) : List Nat :=
  rs.foldl (fun l x => (smRange s.gran x.base (x.count * 512)).foldl (fun l e => setInsert l (e.1 - x.base)) l) []

/-- The reads of a SEAL are the pans' of the region's stack. -/
def sealWho (g : Nat) : Who := ⟨.pan (panOf (4096 * g)), none⟩

/-- Granule i of every copy of a region read and sealed (R248, R361); an unwritten one stays unwritten. -/
def State.sealIndex (s : State) (rs : List Range) (i : Nat) : State :=
  rs.foldl (fun s x =>
    let g := x.base + i
    if (s.granule g).state = .unwritten then s
    else
      let (_, _, s) := s.readLines (sealWho g) (64 * g) 64
      s.sealStored g) s

/-- Whether the copies of granule i of a region differ (R361). -/
def State.copiesDiffer (s : State) (rs : List Range) (i : Nat) : Bool :=
  match rs with
  | [x, y] => s.granCrc (x.base + i) != s.granCrc (y.base + i)
  | _ => false

/-- The granules of a SEAL in order: sealed until the copies differ, and the index where they do. -/
def State.sealUntil (s : State) (rs : List Range) : List Nat → Option Nat × State
  | [] => (none, s)
  | i :: l => if s.copiesDiffer rs i then (some i, s) else (s.sealIndex rs i).sealUntil rs l

/-- REGION_SEAL_DONE (R361). -/
def execRegionSealDone (r : Fin 32) (s : State) : Host.Outcome State Fault Refusal :=
  let rs := s.regionRanges r
  if s.get Fld.REG_STAT.STATE r != rgSealing || !rs.all (fun x => s.stackUp x.stack) then ok s
  else
    match s.sealUntil rs (s.regionWritten rs) with
    | (some i, s) => ok (((s.set Fld.REG_STAT.STATE rgLoading r).set Fld.REG_STAT.MISMATCH 1 r).set Fld.REG_STAT.GRANULE i r)
    | (none, s) => ok ((s.set Fld.REG_STAT.STATE rgReady r).set Fld.REG_STAT.MISMATCH 0 r)

/-- Granules of a SEAL cut short: those the pans had reached, a free choice for each, are sealed. -/
def State.sealSome (s : State) (rs : List Range) : List Nat → State
  | [] => s
  | i :: l =>
    let (b, s) := s.freeChoice
    (if b && !s.copiesDiffer rs i then s.sealIndex rs i else s).sealSome rs l

/-- Whether a partition's map, pending or in force, names a region (R360). -/
def State.regionNamed (s : State) (r : Nat) : Bool :=
  (upFrom 0 16).any (fun p => bit (s.part p).regions r || bit (s.get Fld.PT_REGIONS.MAP p) r)

/-- RELEASE written (R360). -/
def State.regionRelease (s : State) (r : Nat) : State :=
  if s.regionNamed r then s.set Fld.PART_ERR.REGION_BUSY 1
  else
    let rs := s.regionRanges r
    let s := if s.get Fld.REG_STAT.STATE r == rgSealing then s.sealSome rs (s.regionWritten rs) else s
    s.set Fld.REG_STAT.STATE rgEmpty r

/-- REGION_LOCATION_WRITE (R360): REG_LOC, or REG_MIR. -/
def State.regionLocPut (s : State) (r : Nat) (mir : Bool) (w mask : Nat) : State :=
  if s.get Fld.REG_STAT.STATE r != rgEmpty then s.set Fld.PART_ERR.REGION_BUSY 1
  else s.plainWrite (if mir then Reg.REG_MIR else Reg.REG_LOC) r 0 w mask

/-- REGION_LOCATION_WRITE (R360). -/
def execRegionLocationWrite (r : Fin 32) (mir : Bool) (v : Word) (s : State) : Host.Outcome State Fault Refusal :=
  occurs (s.serves 0) s (s.regionLocPut r mir v.toNat fullMask)

/-- REGION_LOAD (R360). -/
def execRegionLoad (r : Fin 32) (s : State) : Host.Outcome State Fault Refusal := occurs (s.serves 0) s (s.regionLoad r)

/-- REGION_SEAL (R360, R361). -/
def execRegionSeal (r : Fin 32) (s : State) : Host.Outcome State Fault Refusal := occurs (s.serves 0) s (s.regionSeal r)

/-- REGION_RELEASE (R360). -/
def execRegionRelease (r : Fin 32) (s : State) : Host.Outcome State Fault Refusal := occurs (s.serves 0) s (s.regionRelease r)

/-- A write of REG_CTRL: LOAD, SEAL and RELEASE in that order (R360). -/
def State.regCtrlPut (s : State) (r w : Nat) : State :=
  let s := if bit w 0 then s.regionLoad r else s
  let s := if bit w 1 then s.regionSeal r else s
  if bit w 2 then s.regionRelease r else s

/-- SEM_SIG (R120, R371). -/
def execSemSig (p : Fin 16) (v : Word) (s : State) : Host.Outcome State Fault Refusal :=
  occurs (s.serves 0) s (s.signal p (bits v.toNat 5 0) (bits v.toNat 63 32))

end Sys2Proof.Machine
end

