-- ==== Sys2Proof/Machine/Power.lean ====
section
/-!
DEFINITION. Power and thermal control: the published plan, the average limiter, housekeeping rounds, throttle,
emergency, shutdown and the analog trip (R434–R449).
-/
namespace Sys2Proof.Machine

/-- The power manager of die d. -/
def State.dpower (s : State) (d : Nat) : DiePower := nth .reset s.power.dies d
/-- The power manager of die d replaced. -/
def State.setDpower (s : State) (d : Nat) (x : DiePower) : State :=
  { s with power := { s.power with dies := setNth s.power.dies d x } }

/-- The stacks a die owns (R14). -/
def stacksOf (d : Nat) : List Nat := upFrom (10 * d) 10

/-- The point a power manager publishes for a base tick it has not published yet (R435, R441, OPP_LIM). -/
def State.wantOpp (s : State) (d : Nat) : Nat :=
  let x := s.dpower d
  if x.vtBad || x.sensorBad || s.age.worn.contains d then 0 else Nat.min (s.get Fld.PWR_DIE.TARGET d) (s.get Fld.OPP_LIM.CEIL d)

/-- B(t) of a base tick published now, in watts (R438). -/
def State.budgetNow (s : State) : Nat :=
  s.get Fld.PWR_CFG.CAP_W - s.get Fld.PWR_CFG.RESERVE_W - s.get Fld.PWR_BUDGET.AVG_CUT

/-- A base tick as published now: no scale below SCALE_MIN (R444). -/
def State.planNow (s : State) (d : Nat) : PlanTick :=
  ⟨s.wantOpp d, (s.dpower d).scale.map (fun x => Nat.max x (s.get Fld.THERM_SCALE.SCALE_MIN)), s.budgetNow⟩

/-- A die's plan for a base tick: what is published, else what would be published now. -/
def State.planAt (s : State) (d t : Nat) : PlanTick := (smFind (s.dpower d).plan t).getD (s.planNow d)

/-- The largest LEN among the RUNNING partitions of a die, at least 1 (R437). -/
def State.lmaxOf (s : State) (d : Nat) : Nat :=
  Nat.max 1 (maxList (((upFrom 0 16).filter (fun p => s.pstate p == stRunning && s.hasDie p d)).map s.stepLen))

/-- A die's plan extended to PLAN_END ≥ BTICK_NUM + 2 × Lmax, past base ticks dropped (R437). -/
def State.publish (s : State) (d : Nat) : State :=
  let x := s.dpower d
  let b := s.btick
  let old := s.get Fld.PWR_DIE.PLAN_END d
  let new := Nat.max old (b + 2 * s.lmaxOf d)
  let from_ := Nat.max (old + 1) b
  let plan := smDrop x.plan 0 b
  let t := s.planNow d
  let s := s.setDpower d { x with plan := plan ++ (upFrom from_ (new + 1 - from_)).map (fun i => (i, t)) }
  s.set Fld.PWR_DIE.PLAN_END new d

/-- Plans discarded when BTICK_NUM jumps; the next base ticks follow what the managers want now. -/
def State.replan (s : State) : State :=
  [0, 1].foldl (fun s d => (s.setDpower d { s.dpower d with plan := [] }).set Fld.PWR_DIE.PLAN_END s.btick d) s

/-- OPP_NEXT: the next planned change of point after the current base tick, zero when none is pending. -/
def State.oppNext (s : State) (d : Nat) : State :=
  let cur := (s.planAt d s.btick).opp
  match (s.dpower d).plan.find? (fun e => decide (s.btick < e.1) && e.2.opp != cur) with
  | some (t, e) => (s.set Fld.OPP_NEXT.AT t d).set Fld.OPP_NEXT.OPP e.opp d
  | none => s.setWord Reg.OPP_NEXT d 0 0

/-- The clock switched to the higher point whose voltage is reached (R436). -/
def State.clockSwitch (s : State) (d : Nat) : State :=
  let x := s.dpower d
  match x.ramp with
  | some o => if s.is Fld.PWR_DIE.EMERG d then s else (s.setDpower d { x with ramp := none }).set Fld.PWR_DIE.OPP o d
  | none => s

/-- A change of a die's point at a base tick boundary (R436): down at once, up once the voltage is reached; an emergency holds. -/
def State.takeOpp (s : State) (d o : Nat) : State :=
  let x := s.dpower d
  if s.is Fld.PWR_DIE.EMERG d then s
  else if o ≤ s.get Fld.PWR_DIE.OPP d then (s.set Fld.PWR_DIE.OPP o d).setDpower d { x with ramp := none }
  else s.setDpower d { x with ramp := some o }

/-- The point of a base tick of a leap tick that reckons, which the plan does not give (R452): OPP(7 − k) in its base tick k. -/
def State.reckonOpp (s : State) : Option Nat :=
  let k := s.tick.leapNs / Nat.max 1 s.periodNs
  if s.age.run.isSome && k < 8 then some (7 - k) else none

/-- A die's point and its stacks' scales as the plan gives them for the base tick that opens (R221, R436, R443, R444). -/
def State.followPlan (s : State) (d : Nat) : State :=
  let x := s.dpower d
  let s := if x.release then (s.set Fld.PWR_DIE.EMERG 0 d).setDpower d { x with release := false } else s.clockSwitch d
  let t := s.planAt d s.btick
  let s := s.takeOpp d (s.reckonOpp.getD t.opp)
  let x := s.dpower d
  let s := s.setDpower d { x with
    reached := x.reached || decide (t.opp ≤ x.mark)
    emScale := x.emScale.map (fun e => if 2 ≤ e && e - 2 ≤ s.btick then 0 else e) }
  let x := s.dpower d
  let s := ((stacksOf d).zip (t.scales.zip x.emScale)).foldl
    (fun s e => if e.2.2 = 0 then s.set Fld.SL_SCALE.SCALE e.2.1 e.1 else s) s
  s.oppNext d

/-- The average limiter of die 0 for the base tick that closed (R439). -/
def State.limitAverage (s : State) (mw : Nat) : State :=
  let n := Nat.max 1 (s.get Fld.PWR_CFG.AVG_TICKS)
  let meas := (mw :: s.power.meas).take n
  let s := { s with power := { s.power with meas := meas, energy := none } }
  let s := s.set Fld.PWR_BUDGET.MEAS_MW mw
  let avg := sumList meas / meas.length
  let cap := 1000 * s.get Fld.PWR_CFG.CAP_W
  let cut := s.get Fld.PWR_BUDGET.AVG_CUT
  if cap < avg then
    let s := if cut = 0 then s.set Fld.PWR_EVT.AVG_LIMIT 1 else s
    s.set Fld.PWR_BUDGET.AVG_CUT (Nat.min 1023 (cut + ceilDiv (avg - cap) 1000))
  else s

/-- Power at a base tick boundary: the measurement or its substitute, the published plans, the plan in force. -/
def State.powerBoundary (s : State) : State :=
  let on := fun (s : State) (d : Nat) => s.runs d && !s.compDown (3 + d)
  let s :=
    if !on s 0 then s
    else
      match s.power.energy with
      | some e => s.limitAverage (e * 1000 / Nat.max 1 s.periodNs)
      | none => (s.limitAverage (s.get Fld.PWR_TEL.ALL_MW 0 + s.get Fld.PWR_TEL.ALL_MW 1 + 22000)).set Fld.PWR_EVT.ASSAY_ABSENT 1
  let s := [0, 1].foldl (fun s d => if on s d then (s.publish d).followPlan d else s) s
  if on s 0 then s.set Fld.PWR_BUDGET.B_W (s.planAt 0 s.btick).b else s

/-- Emergency action on a die (R443). -/
def State.emergency (s : State) (d : Nat) : State :=
  let s := ((s.set Fld.PWR_DIE.OPP 0 d).set Fld.PWR_DIE.EMERG 1 d).setDpower d { s.dpower d with ramp := none, release := false }
  let s := (s.set (if d = 0 then Fld.PWR_EVT.EMERG0 else Fld.PWR_EVT.EMERG1) 1).set Fld.THERM_EVT.EMERG 1
  s.ringHost 3

/-- The channels of a die's and of a stack's temperature sensors (R440). -/
def dieChannels (d : Nat) : List Nat := upFrom (16 * d) 16
/-- The channels of a stack's sensors. -/
def stkChannels (t : Nat) : List Nat := upFrom (32 + 4 * t) 4

/-- Whether a channel is a temperature (R440). -/
def isTempChannel (c : Nat) : Bool := decide (c < 114) || decide (248 ≤ c)

/-- A channel's reading in sixteenths of a degree. -/
def State.reading (s : State) (c : Nat) : Int := toSigned 16 (s.get Fld.HK_CH.VALUE c)

/-- The valid channels among some. -/
def State.validOf (s : State) (cs : List Nat) : List Nat := cs.filter (fun c => s.is Fld.HK_CH.VALID c)

/-- The hottest valid channel among some. -/
def State.hottest (s : State) (cs : List Nat) : Option Nat :=
  (s.validOf cs).foldl (fun m c => match m with
    | none => some c
    | some k => if s.reading k < s.reading c then some c else some k) none

/-- The temperature of the hottest valid channel among some. -/
def State.temp (s : State) (cs : List Nat) : Option Int := (s.hottest cs).map s.reading

/-- Whether a temperature, if any, is at or above a threshold in °C. -/
def atLeast (t : Option Int) (c : Nat) : Bool := match t with | some x => decide ((16 * c : Nat) ≤ x) | none => false
/-- Whether a temperature, if any, is above a threshold in °C. -/
def above (t : Option Int) (c : Nat) : Bool := match t with | some x => decide ((16 * c : Nat) < x) | none => false
/-- Whether a temperature, if any, is at or below a threshold in °C. -/
def atMost (t : Option Int) (c : Nat) : Bool := match t with | some x => decide (x ≤ (16 * c : Nat)) | none => false

/-- A stack's sensors as its registers show them, and HOT with its hysteresis (R211, R441). -/
def State.stackHot (s : State) (t : Nat) (ts : Option Int) (blind : Bool) : State :=
  let s := ((stkChannels t).zip [Fld.STK_TEMP.T0, Fld.STK_TEMP.T1, Fld.STK_TEMP.T2, Fld.STK_TEMP.T3]).foldl
    (fun s e => s.set e.2 (ofSigned 8 (s.reading e.1 >>> 4)) t) s
  let s := match ts with | some v => s.set Fld.STK_STATUS.TEMP_MAX (ofSigned 8 (v >>> 4)) t | none => s
  if blind || above ts (s.get Fld.STK_CFG.HOT_ON_C t) then s.set Fld.STK_STATUS.HOT 1 t
  else if atMost ts (s.get Fld.STK_CFG.HOT_OFF_C t) then s.set Fld.STK_STATUS.HOT 0 t
  else s

/-- The emergency scale of stack t, the i-th of die d, set or released (R442, R444). -/
def State.stackEmergency (s : State) (d t i : Nat) (ts : Option Int) : State :=
  let x := s.dpower d
  if atLeast ts (s.get Fld.THERM_CFG.STK_EMERG_C) then
    (s.set Fld.SL_SCALE.SCALE 32 t).setDpower d { x with emScale := setNth x.emScale i 1 }
  else if x.emScale[i]? = some 1 && ts.isSome then
    s.setDpower d { x with emScale := setNth x.emScale i (s.get Fld.PWR_DIE.PLAN_END d + 3) }
  else s

/-- The scale planned for the i-th stack of die d (R441, R442). -/
def State.stackThrottle (s : State) (d i : Nat) (ts : Option Int) (blind : Bool) : State :=
  let x := s.dpower d
  let low := s.get Fld.THERM_SCALE.SCALE_MIN
  let thr := s.get Fld.THERM_CFG.STK_THR_C
  if blind || atLeast ts thr then
    let s := if x.scale[i]? = some low then s else s.set Fld.THERM_EVT.THROTTLE_STK 1
    s.setDpower d { x with scale := setNth x.scale i low }
  else if atMost ts (thr - s.get Fld.THERM_CFG.HYST_C) then s.setDpower d { x with scale := setNth x.scale i 256 }
  else s

/-- One stack's part of a round (R211, R441, R442, R444). -/
def State.stackRound (s : State) (d t : Nat) : State :=
  let ts := s.temp (stkChannels t)
  let blind := (s.validOf (stkChannels t)).isEmpty
  ((s.stackHot t ts blind).stackEmergency d t (t % 10) ts).stackThrottle d (t % 10) ts blind

/-- The throttle of a die (R442). -/
def State.throttle (s : State) (d : Nat) (t : Option Int) : State :=
  let x := s.dpower d
  let thr := s.get Fld.THERM_CFG.DIE_THR_C
  let target := s.get Fld.PWR_DIE.TARGET d
  if atLeast t thr then
    let low := s.get Fld.OPP_LIM.FLOOR d
    let new := if low < target then target - 1 else target
    let s := s.set Fld.PWR_DIE.TARGET new d
    let (x, s) :=
      match x.reqAt with
      | some _ => ({ x with cool := 0 }, s)
      | none =>
        let m := if low < target then new else low
        ({ x with cool := 0, reqAt := some s.now, mark := m, reached := decide (s.get Fld.PWR_DIE.OPP d ≤ m) },
          s.set Fld.THERM_EVT.THROTTLE_DIE 1)
    let s := s.setDpower d x
    if decide (s.get Fld.THERM_CFG.GRACE_MS * 1000000 ≤ s.now - x.reqAt.getD s.now) && !x.reached then s.emergency d else s
  else
    let x := { x with reqAt := none }
    if atMost t (thr - s.get Fld.THERM_CFG.HYST_C) then
      if s.get Fld.THERM_CFG.RECOVER ≤ x.cool + 1 then
        (s.setDpower d { x with cool := 0 }).set Fld.PWR_DIE.TARGET (if target < s.get Fld.OPP_LIM.CEIL d then target + 1 else target) d
      else s.setDpower d { x with cool := x.cool + 1 }
    else s.setDpower d { x with cool := 0 }

/-- One reading entered: out of its plausible range it is invalid for the round (R440). -/
def State.enterReading (s : State) (r : HkReading) : State :=
  let c := r.channel.val
  let v := toSigned 16 r.value.toNat
  let good := !isTempChannel c || (decide ((-640 : Int) ≤ v) && decide (v ≤ 2400))
  let s := s.set Fld.HK_CH.VALUE r.value.toNat c
  (s.set Fld.HK_CH.VALID (b2n good) c).set Fld.HK_CH.ROUND s.power.round c

/-- The status registers that follow a round: temperatures, unchanged where no sensor is valid (DESIGN CHOICE; log 24); the
regulators' telemetry is free. -/
def State.roundStatus (s : State) : State :=
  let c8 := fun (v : Int) => ofSigned 8 (v >>> 4)
  let s := match s.temp (dieChannels 0) with | some v => s.set Fld.THERM_STAT.DIE0_C (c8 v) | none => s
  let s := match s.temp (dieChannels 1) with | some v => s.set Fld.THERM_STAT.DIE1_C (c8 v) | none => s
  let hot := (upFrom 0 20).foldl (fun (m : Option (Nat × Int)) t =>
    match s.temp (stkChannels t), m with
    | some v, some (k, w) => if w < v then some (t, v) else some (k, w)
    | some v, none => some (t, v)
    | none, m => m) none
  let s := match hot with
    | some (t, v) => (s.set Fld.THERM_STAT.STK_C (c8 v)).set Fld.THERM_STAT.STK_ID t
    | none => s
  let s := if (s.validOf [248, 249]).any (fun c => decide ((560 : Int) < s.reading c)) then s.set Fld.THERM_EVT.INLET_HIGH 1 else s
  [0, 1].foldl (fun s d =>
    let (a, s) := s.freeBelow (2 ^ 32)
    let (b, s) := s.freeBelow (2 ^ 32)
    (s.set Fld.PWR_TEL.CORE_MW a d).set Fld.PWR_TEL.ALL_MW b d) s

/-- The average limiter's recovery: AVG_CUT falls by 1 W a round while the average stays below CAP_W − 5 W (R439). -/
def State.recoverCut (s : State) : State :=
  let n := s.power.meas.length
  if n ≠ 0 && sumList s.power.meas / n < 1000 * (s.get Fld.PWR_CFG.CAP_W - 5) then
    s.set Fld.PWR_BUDGET.AVG_CUT (s.get Fld.PWR_BUDGET.AVG_CUT - 1)
  else s

end Sys2Proof.Machine
end

