-- ==== Sys2Proof/Machine/Age.lean ====
section
/-!
DEFINITION. Claims of leap ticks, ageing and reckoning: drift, the measurement of slack in a leap tick, the new voltage
table, weak rows, the reckoning log (R53, R450–R457).
-/
namespace Sys2Proof.Machine

/-- LEAP_CTRL.STATE values. -/
def leapNone : Nat := 0
def leapScheduled : Nat := 1
def leapActive : Nat := 2

/-- Whether a device claim waits that no leap tick carries. -/
def State.claimWaits (s : State) : Bool := s.is Fld.LEAP_CLAIM.PENDING && !s.tick.claimed

/-- The work of a claim placed in the scheduled leap tick, its length raised for it (R53). -/
def State.carryClaim (s : State) : State :=
  let n := Nat.min 64 (Nat.max (s.get Fld.LEAP_CTRL.LEN) (s.get Fld.LEAP_CLAIM.CLAIM_LEN))
  (({ s with tick := { s.tick with claimed := true } } : State)).set Fld.LEAP_CTRL.LEN n

/-- The device claims a leap tick (R53): one of the given length for a reason. The work joins a claim that no leap tick runs
yet, and a leap tick scheduled in time; a claim made while its leap tick runs is a new one. -/
def State.claimLeap (s : State) (reason len : Nat) : State :=
  let s : State := { s with tick := { s.tick with work := setInsert s.tick.work reason } }
  let at_ := s.btick + Nat.max 256 (s.lmax + 1)
  let st := s.get Fld.LEAP_CTRL.STATE
  if s.is Fld.LEAP_CLAIM.PENDING && !(s.tick.claimed && st == leapActive) then
    let s := s.set Fld.LEAP_CLAIM.CLAIM_LEN (Nat.max len (s.get Fld.LEAP_CLAIM.CLAIM_LEN))
    if s.tick.claimed then s.carryClaim else s
  else
    let s := ((s.set Fld.LEAP_CLAIM.CLAIM_AT at_).set Fld.LEAP_CLAIM.CLAIM_LEN len).set Fld.LEAP_CLAIM.REASON reason
    let s := (s.set Fld.LEAP_CLAIM.PENDING 1).ringHost 2
    let s : State := { s with tick := { s.tick with claimed := false } }
    if st == leapScheduled && decide (s.get Fld.LEAP_AT.AT ≤ at_ + s.get Fld.LEAP_CTRL.DEFER_MAX) then s.carryClaim else s

/-- A partition at rest (STOPPED or QUIESCED): nothing of a step is left. One that the host stops waits for no repair (R293). -/
def State.haltPart (s : State) (p : Nat) (quiesce : Bool) : State :=
  let k := s.part p
  (s.set Fld.STEP_STATE.STATE (if quiesce then stQuiesced else stStopped) p).setPart p { k with
    phase := .idle, startPend := false, resumePend := false, stopReq := false, quiesceReq := false, stopAtBoundary := false
    plan := none, nextPlan := none, abandon := none, inDoubt := false, stoppedFor := if k.stopReq then [] else k.stoppedFor }

/-- Whether a partition may not start: it has cores on a worn die (R454), or on one whose step controller is not loaded
(R478). -/
def State.wornBars (s : State) (p : Nat) : Bool :=
  s.age.worn.any (s.hasDie p) || [0, 1].any (fun d => s.hasDie p d && !nth true s.sec.loaded (1 + d))

/-- Reason of a claim for reckoning, and its length (R451). -/
def reckonReason : Nat := 2
def reckonLen : Nat := 9

/-- A reckoning claimed for a trigger (R451): 1 hours, 2 drift, 3 host request. -/
def State.claimReckoning (s : State) (trigger : Nat) : State :=
  if s.get Fld.AGE_STAT.STATE != 0 then s
  else
    (({ s with age := { s.age with trigger := trigger } } : State).set Fld.AGE_STAT.STATE 1).claimLeap reckonReason reckonLen

/-- The channel of pair p of die d, fresh 0 or stressed 1 (R440). -/
def pairChannel (d p k : Nat) : Nat := 114 + 48 * d + 2 * p + k

/-- The key of pair p of die d. -/
def pairKey (d p : Nat) : Nat := 24 * d + p

/-- Mean of some numbers, 0 of none. -/
def meanInt (l : List Int) : Int := if l.isEmpty then 0 else l.foldl (· + ·) 0 / (l.length : Int)

/-- NOW_PPM of a pair (R450). -/
def AgeSt.now (a : AgeSt) (k : Nat) : Int := meanInt ((smGet [] a.hist k).filterMap id)

/-- BASE_PPM of a pair (R450). -/
def AgeSt.baseOf (a : AgeSt) (k : Nat) : Int := smGet 0 a.base k

/-- A round's drift of pair p of die d (R450). -/
def State.pairDrift (s : State) (d p : Nat) : State :=
  let f := pairChannel d p 0
  let g := pairChannel d p 1
  let fresh := s.get Fld.HK_CH.VALUE f
  let good := s.is Fld.HK_CH.VALID f && s.is Fld.HK_CH.VALID g && fresh != 0
  let x : Int := ((fresh : Int) - (s.get Fld.HK_CH.VALUE g : Int)) * 1000000 / (fresh : Int)
  let k := pairKey d p
  let h := ((if good then some x else none) :: smGet [] s.age.hist k).take 16
  let s : State := { s with age := { s.age with hist := smPut [] s.age.hist k h } }
  if good then
    (s.set Fld.AGE_PAIR.D_PPM (ofSigned 32 x) d p).set Fld.AGE_PAIR.VALID 1 d p
  else s.set Fld.AGE_PAIR.VALID 0 d p

/-- Pairs with a drift of their own. -/
def State.agedPairs (s : State) : List Nat := (upFrom 0 48).filter (fun k => (smGet [] s.age.hist k).any Option.isSome)

/-- The drift after a round, and the trigger of R451. -/
def State.driftRound (s : State) : State :=
  let s := ([0, 1].filter s.runs).foldl (fun s d => (upFrom 0 24).foldl (fun s p => s.pairDrift d p) s) s
  let ks := s.agedPairs
  let s := s.set Fld.AGE_DRIFT.NOW_PPM (ofSigned 16 (meanInt (ks.map s.age.now)))
  let lim : Int := s.get Fld.AGE_CFG.DRIFT_PPM
  if ks.any (fun k => decide (lim ≤ s.age.now k - s.age.baseOf k)) then
    (s.set Fld.AGE_EVT.DRIFT_TRIG 1).claimReckoning 2
  else s

/-- Whether flash may be programmed: no valid die sensor outside 5–85 °C (R457). -/
def State.flashOk (s : State) : Bool :=
  (s.validOf (upFrom 0 32)).all (fun c => decide ((80 : Int) ≤ s.reading c) && decide (s.reading c ≤ 1360))

/-- A row of a stack, and a data lane, as keys of its remap table (R502). -/
def rowKey (bank row : Nat) : Nat := 32768 * bank + row
def laneKey (pch lane : Nat) : Nat := 2 ^ 26 + 32 * pch + lane

/-- Whether two remapped rows or lanes draw on the same spares: rows of one bank, lanes of one pseudo-channel. -/
def sameSpares (a b : Nat) : Bool :=
  if a < 2 ^ 26 then decide (b < 2 ^ 26) && a / 32768 == b / 32768 else decide (2 ^ 26 ≤ b) && a / 32 == b / 32

/-- Whether a spare that serves a row or lane is in use. -/
def StackSt.spareUsed (k : StackSt) (key spare : Nat) : Bool := k.remap.any (fun e => sameSpares e.1 key && e.2 == spare + 1)

/-- A row or lane remapped to a spare; the counts of free spares follow (TEST_SPARES). -/
def State.addRemap (s : State) (t key spare : Nat) : State :=
  let k := s.stack t
  let m := smInsert k.remap key (spare + 1)
  let rows := (m.filter (fun e => decide (e.1 < 2 ^ 26))).length
  let s := s.setStack t { k with remap := m }
  (s.set Fld.TEST_SPARES.LEFT (16384 - rows) t).set Fld.TEST_SPARES.LANES_LEFT (64 - (m.length - rows)) t

/-- A free spare row for a row, if its bank has one. -/
def StackSt.freeSpare (k : StackSt) (key : Nat) : Option Nat := (upFrom 0 16).find? (fun x => !k.spareUsed key x)

/-- The repair that a remapped row of a stack is. -/
def rowRepair (t key spare : Nat) : Repair :=
  { stack := t, pch := key / 32768 / 32, bank := key / 32768 % 32, row := key % 32768, spare := spare, lane := false }

/-- Weak rows of stack t repaired where a spare is free (R455): rows repaired, and the state. -/
def State.repairRows (s : State) (t : Nat) : List Nat → Nat × State
  | [] => (0, s)
  | key :: l =>
    let k := s.stack t
    match k.freeSpare key, smFind k.remap key with
    | some x, none =>
      let s := (s.setStack t { k with weakRows := smErase k.weakRows key }).addRemap t key x
      let s : State := { s with age := { s.age with unlogged := s.age.unlogged ++ [rowRepair t key x] } }
      let (n, s) := s.repairRows t l
      (n + 1, s)
    | _, _ => s.repairRows t l

/-- A stack's part of base tick 8 (R455): its log word, and the state. -/
def State.reckonStack (s : State) (t : Nat) : Nat × State :=
  let weak := if s.stackUp t then
      ((s.stack t).weakRows.filter (fun e => decide (s.get Fld.AGE_CFG.WEAK_REPEAT ≤ e.2))).map Prod.fst
    else []
  let (n, s) := s.repairRows t weak
  let trefi := s.get Fld.STK_CFG.TREFI_10NS t
  let s := if s.get Fld.AGE_CFG.WEAK_TREFI ≤ weak.length - n then s.set Fld.STK_CFG.TREFI_10NS (Nat.max 195 (trefi - 49)) t else s
  (s.get Fld.STK_CFG.TREFI_10NS t + (Nat.min 255 weak.length) <<< 16 + (Nat.min 255 n) <<< 24 + s.get Fld.TEST_SPARES.LEFT t <<< 32, s)

/-- Up to a multiple of 5, and down to a multiple of 10. -/
def ceil5 (x : Rat) : Int := 5 * (x / 5).ceil
def floor10 (x : Rat) : Int := 10 * (x / 10).floor

/-- Slack recorded for a point whose trial fails at a shift of −64 ps. -/
def slackFail : Int := -65

/-- The key of point i of die d. -/
def pointKey (d i : Nat) : Nat := 8 * d + i

/-- The new test voltage and frequency of a point (R452), and whether its frequency is lowered. -/
def reckonPoint (v f vtest : Nat) (sens : Rat) (slack : Int) : Nat × Nat × Bool :=
  let need := (ceil5 ((v : Rat) - (slack : Rat) / sens)).toNat
  let vt := Nat.max need vtest
  if vt ≤ 900 then (vt, f, false)
  else
    let dt := ((vt - 900 : Nat) : Rat) * sens
    (900, (floor10 (1000000 / (1000000 / (f : Rat) + dt))).toNat, true)

/-- Each point's frequency held to that of every point above it (R452), from OPP0 up. -/
def orderFreqs : List Nat → List Nat
  | [] => []
  | f :: l => match orderFreqs l with
    | [] => [f]
    | g :: r => Nat.min f g :: g :: r

/-- A point set in PWR_VT (R453). -/
def State.setVt (s : State) (d i vt f : Nat) : State :=
  ((s.set Fld.PWR_VT.VTEST_MV vt d i).set Fld.PWR_VT.V_MV (vt + 50) d i).set Fld.PWR_VT.FREQ_MHZ f d i

/-- A worn die (R454): OPP0 at 0.95 V and 600 MHz, its partitions STOPPED. -/
def State.wearOut (s : State) (d : Nat) : State :=
  let s : State := { (s.setVt d 0 900 600) with age := { s.age with worn := setInsert s.age.worn d } }
  let s := (s.set Fld.AGE_EVT.WORN 1).set Fld.PWR_DIE.OPP 0 d
  ((upFrom 0 16).filter (fun p => s.hasDie p d)).foldl
    (fun s p => (s.haltPart p false).post { ErrRec.plain 12 with part := some p }) s

/-- A die's table after its slacks are in (R452–R454). -/
def State.reckonDie (s : State) (r : Reckon) (d : Nat) : State :=
  let fl := s.sec.flash
  let got := fun (i : Nat) => smGet 0 r.slack (pointKey d i)
  let new := (upFrom 0 8).map (fun i => reckonPoint (s.get Fld.PWR_VT.V_MV d i) (s.get Fld.PWR_VT.FREQ_MHZ d i)
    (nth 0 fl.vtest (pointKey d i)) (nth 1 fl.sens (pointKey d i)) (got i))
  let freqs := orderFreqs (new.map (fun x => x.2.1))
  let lowered := (upFrom 0 8).filter (fun i => decide (nth 0 freqs i < s.get Fld.PWR_VT.FREQ_MHZ d i))
  let s := (upFrom 0 8).foldl (fun s i => s.setVt d i (nth (0, 0, false) new i).1 (nth 0 freqs i)) s
  let s := lowered.foldl (fun s i => s.set Fld.PWR_VT.DERATED 1 d i) s
  let s := if lowered.isEmpty then s else s.set Fld.AGE_EVT.DERATED 1
  if freqs.any (fun f => decide (f < 600)) || (upFrom 0 8).any (fun i => decide (got i = slackFail)) then s.wearOut d else s

/-- The log body of a reckoning (R456). -/
def State.logBody (s : State) (r : Reckon) (stks : List Nat) : List Nat :=
  let w := s.age.worn
  let status := b2n (w.contains 0) + 2 * b2n (w.contains 1)
  let pts := (upFrom 0 16).map (fun k =>
    let d := k / 8
    let i := k % 8
    s.get Fld.PWR_VT.VTEST_MV d i + s.get Fld.PWR_VT.FREQ_MHZ d i <<< 16 + ofSigned 10 (smGet 0 r.slack k) <<< 32 +
      s.get Fld.PWR_VT.DERATED d i <<< 48)
  [0x524B4E47 + 1 <<< 32 + r.trigger <<< 48 + status <<< 52, s.get Fld.AGE_LAST.SEQ + 1 + s.age.deferred.length + s.get Fld.AGE_STAT.HOURS <<< 32, r.began] ++
    pts ++ stks ++ List.replicate 25 0

/-- Log entries programmed (R456): the newest entry as the registers show it, and the remaps that persist with them (R455). -/
def State.writeLog (s : State) (bodies : List (List Nat)) : State :=
  let fl := s.sec.flash
  let l := fl.log ++ bodies
  let body := l.getLastD []
  let s : State := { s with
    sec := { s.sec with flash := { fl with log := l.drop (l.length - 1024), remaps := fl.remaps ++ s.age.unlogged } }
    age := { s.age with deferred := [], unlogged := [] } }
  let s := s.setWord Reg.AGE_LAST 0 0 (nth 0 body 1)
  (upFrom 0 64).foldl (fun s i => s.setWord Reg.AGE_LOG i 0 (nth 0 body i)) s

/-- Deferred log entries tried again (R457). -/
def State.retryLog (s : State) : State :=
  if !s.age.deferred.isEmpty && s.flashOk then s.writeLog s.age.deferred else s

/-- The end of a reckoning (R450, R456, R457). -/
def State.finishReckoning (s : State) (r : Reckon) (dies stks : List Nat) : State :=
  let body := s.logBody r stks
  let ks := s.agedPairs.filter (fun k => dies.contains (k / 24))
  let base := ks.foldl (fun m k => smPut 0 m k (s.age.now k)) s.age.base
  let s : State := { s with age := { s.age with base := base, run := none, trigger := 0 } }
  let s : State := { s with tick := { s.tick with work := setErase s.tick.work reckonReason } }
  let s := s.set Fld.AGE_DRIFT.BASE_PPM (ofSigned 16 (meanInt (s.agedPairs.map s.age.baseOf)))
  let s :=
    if s.flashOk then s.writeLog (s.age.deferred ++ [body])
    else ({ s with age := { s.age with deferred := s.age.deferred ++ [body] } } : State).set Fld.AGE_EVT.LOG_DEFERRED 1
  ((s.set Fld.AGE_EVT.DONE 1).set Fld.AGE_STAT.STATE 0).ringHost 5

/-- Measurements discarded, and the claim made again (R453). -/
def State.cutReckoning (s : State) (trigger : Nat) : State :=
  let s : State := { s with age := { s.age with run := none } }
  let s : State := { s with tick := { s.tick with work := setErase s.tick.work reckonReason } }
  ((s.set Fld.AGE_EVT.CUT 1).set Fld.AGE_STAT.STATE 0).claimReckoning trigger

/-- Base tick 8 of a reckoning (R452–R457). -/
def State.applyReckoning (s : State) (r : Reckon) : State :=
  let whole := fun (d : Nat) => s.isUp d && (upFrom 0 8).all (fun i => (smFind r.slack (pointKey d i)).isSome)
  let dies := [0, 1].filter whole
  if dies.isEmpty then s.cutReckoning r.trigger
  else
    let s := dies.foldl (fun s d => s.reckonDie r d) s
    let (ws, s) := (upFrom 0 20).foldl (fun (x : List Nat × State) t => let (w, s) := x.2.reckonStack t; (x.1 ++ [w], s)) ([], s)
    let s : State := { s with parts := s.parts.map (fun k => { k with nextPlan := none }) }
    let s := s.finishReckoning r dies ws
    if dies.length = 2 then s else (s.set Fld.AGE_EVT.CUT 1).claimReckoning r.trigger

/-- The slack of a point measured on a die (R452): a free value from −64 to 255, or a failing trial. -/
def State.measure (s : State) (d i : Nat) : State :=
  match s.age.run with
  | none => s
  | some r =>
    let (v, s) := s.freeBelow 321
    let x : Int := (v : Int) + slackFail
    { s with age := { s.age with run := some { r with slack := smInsert r.slack (pointKey d i) x } } }

/-- Base tick k of a leap tick that reckons (R452). -/
def State.reckonTick (s : State) (k : Nat) : State :=
  match s.age.run with
  | none => s
  | some r =>
    if k < 8 then [0, 1].foldl (fun s d => if s.isUp d then s.measure d (7 - k) else s) s
    else if k = 8 then s.applyReckoning r
    else s

/-- A reckoning begins with its leap tick (R452): both dies go to OPP7. -/
def State.beginReckoning (s : State) : State :=
  if s.tick.claimed && s.tick.work.contains reckonReason then
    let s := ({ s with age := { s.age with run := some ⟨s.age.trigger, [], s.btick⟩ } } : State).set Fld.AGE_STAT.STATE 2
    (([0, 1].filter s.isUp).foldl (fun s d => s.takeOpp d 7) s).reckonTick 0
  else s

/-- RECKONING_REQUEST (R451). -/
def execReckoningRequest (s : State) : Host.Outcome State Fault Refusal := occurs (s.serves 0) s (s.claimReckoning 3)

/-- RECKONING_HOURS_DUE (R451). -/
def execReckoningHoursDue (s : State) : Host.Outcome State Fault Refusal :=
  occurs (s.isUp 0 && decide (s.get Fld.AGE_CFG.INTERVAL_H ≤ s.get Fld.AGE_STAT.HOURS - s.get Fld.AGE_LAST.HOURS)) s (s.claimReckoning 1)

/-- HOURS_CHECKPOINT (R451): every 24 powered hours. -/
def execHoursCheckpoint (s : State) : Host.Outcome State Fault Refusal :=
  let h := s.get Fld.AGE_STAT.HOURS
  occurs (s.isUp 0 && s.flashOk && decide (s.sec.flash.hours + 24 ≤ h)) s
    { s with sec := { s.sec with flash := { s.sec.flash with hours := h } } }

/-- Nanoseconds of an hour. -/
def hourNs : Nat := 3600000000000

/-- Powered time (R451): hours in which VDD_CORE of a die is on. -/
def State.ageNs (s : State) (n : Nat) : State :=
  if s.mod.power.clocked then
    let x := s.age.ns + n
    ({ s with age := { s.age with ns := x % hourNs } } : State).count Fld.AGE_STAT.HOURS (x / hourNs)
  else s

end Sys2Proof.Machine
end

