-- ==== Sys2Proof/Machine/Wire.lean ====
section
/-!
DEFINITION. The sublinks of the ports and their send queues: which frame leaves next, and when (R407, R408, R411, R414,
R415).
-/
namespace Sys2Proof.Machine

/-- The die of a port (R407). -/
def dieOfPort (p : Nat) : Nat := p / 2

/-- Sublinks of a breakout setting (R408). -/
def sublinks (b : Nat) : Nat := if b = 1 then 2 else if b = 2 then 4 else 1

/-- Whether sublink j of a port is up. -/
def State.linkUp (s : State) (p j : Nat) : Bool := bit (s.get Fld.PORT_STAT.UP p) j

/-- The breakout of a port: the one it trained at while a sublink is up or training, as a running port retrains in leap ticks
only (R409), else the register's. -/
def State.breakout (s : State) (p : Nat) : Nat :=
  if s.get Fld.PORT_STAT.UP p = 0 && s.get Fld.PORT_STAT.TRAINING p = 0 then s.get Fld.PORT_CFG.BREAKOUT p else nth 0 s.net.lanes p

/-- The indices of a die's up links (R407). -/
def State.upLinks (s : State) (d : Nat) : List Nat := (upFrom 0 8).filter (fun k => s.linkUp (2 * d + k / 4) (k % 4))

/-- The group, link and peer rank of a data queue pair (R411). -/
def dataQp (q : Nat) : Option (Nat × Nat × Nat) :=
  let n := q % 65536
  if 0x1000 ≤ n && n < 0x3000 then some (bits (n - 0x1000) 12 9, bits n 8 6, bits n 5 0) else none

/-- The sublink a packet of queue pair q leaves by, numbered 4 × port + sublink: that of a data pair, or the management link
(R411). -/
def State.sublinkOf (s : State) (q : Nat) : Nat :=
  match dataQp q with
  | some (_, k, _) => 8 * (q / 65536) + k
  | none =>
    match s.upLinks 0 with
    | k :: _ => k
    | [] => 8 + (s.upLinks 1).headD 0

/-- The port a packet of queue pair q leaves by (R411). -/
def State.portOf (s : State) (q : Nat) : Nat := s.sublinkOf q / 4

/-- The rate of a port's sublinks in Mb/s (R408). -/
def State.linkRate (s : State) (p : Nat) : Rat := 400000 / (sublinks (s.breakout p) : Rat)

/-- A queue pair's rates, the sublink's at first (R414). -/
def State.qpRates (s : State) (q : Nat) : Rat × Rat :=
  (s.qp q).rates.getD (s.linkRate (s.portOf q), s.linkRate (s.portOf q))

/-- The queue pair of a frame, if it is a RoCEv2 packet. -/
def Sent.qp : Sent → Option Nat
  | .sync _ _ => none
  | .arpReply _ _ => none
  | .cnp q => some q
  | .packet q _ _ => some q
  | .ack q _ => some q
  | .nak q _ _ => some q
  | .readReply q _ _ => some q

/-- The payload bytes of a SEND: 136 for a forwarded message (R430), else a free number of one packet. -/
def Msg.payload : Msg → Nat
  | .message _ _ _ _ _ => 136
  | .write _ l => l.length
  | .read _ _ => 0
  | .readPiece _ _ _ _ _ => 0
  | .publish _ _ _ _ _ => Config.sendBytes 0 % 4097
  | .finished _ _ _ _ => Config.sendBytes 1 % 4097
  | .abort _ _ _ _ => Config.sendBytes 2 % 4097
  | .vote _ _ _ => Config.sendBytes 3 % 4097
  | .decide _ _ _ => Config.sendBytes 4 % 4097
  | .ask _ _ => Config.sendBytes 5 % 4097
  | .reply _ _ => Config.sendBytes 6 % 4097
  | .dma _ _ => Config.sendBytes 7 % 4097
  | .dmaReply _ _ => Config.sendBytes 8 % 4097
  | .resetNotice _ => Config.sendBytes 9 % 4097

/-- The RoCEv2 payload bytes of a frame. -/
def Sent.payload : Sent → Nat
  | .packet _ _ m => m.payload
  | .readReply _ _ l => l.length
  | _ => 0

/-- Whether a frame on a management queue pair carries forwarded DMA (R415, R431). -/
def Sent.forwards : Sent → Bool
  | .packet _ _ (.write _ _) => true
  | .packet _ _ (.read _ _) => true
  | .readReply _ _ _ => true
  | _ => false

/-- The class of a frame (R415): 0 PTP messages and ARP replies, 1 management queue pairs, 2 data and forwarded DMA. -/
def Sent.cls (m : Sent) : Nat :=
  match m.qp with
  | none => 0
  | some q => if (dataQp q).isSome || m.forwards then 2 else 1

/-- The sublink a frame leaves by. -/
def State.txLink (s : State) (m : Sent) : Nat :=
  match m with
  | .sync p _ => 4 * p
  | .arpReply p ip => 4 * p + (ip + 2 ^ 32 - s.get Fld.PORT_IP.IP p) % 2 ^ 32 % 4
  | _ => s.sublinkOf (m.qp.getD 0)

/-- The flow of a frame in the weighted round robin, and its weight (R415): a data queue pair with its partition's ETH share,
or forwarded DMA with FWD_W. -/
def State.txFlow (s : State) (m : Sent) : Nat × Nat :=
  match m.qp.bind (fun q => (dataQp q).map (fun x => (q, x.1))) with
  | some (q, g) => (q, nth 100 (s.part (s.get Fld.GRP_CFG.PART g)).shares 4)
  | none => (131072, s.get Fld.ETH_CFG.FWD_W)

/-- Whether a frame still has to leave: a packet while its queue pair keeps it, any other while its sublink is up. -/
def State.txLive (s : State) (m : Sent) : Bool :=
  match m with
  | .packet q psn _ => (s.qp q).unacked.any (fun e => e.1 == psn)
  | _ => s.linkUp (s.txLink m / 4) (s.txLink m % 4)

/-- What has been sent since, taken into the queues; what need not leave any more is dropped. -/
def State.txTake (s : State) : State :=
  let new := (s.sent.drop s.tx.seen).map (fun m => (⟨m, m.payload⟩ : TxMsg))
  { s with tx := { s.tx with seen := s.sent.length, queue := (s.tx.queue ++ new).filter (fun e => s.txLive e.what) } }

/-- The picoseconds until a queue pair may send again (R415: no queue pair exceeds its rc). -/
def State.txWait (s : State) (m : Sent) : Nat := match m.qp with | some q => smGet 0 s.tx.pace q | none => 0

/-- The packets a flow has sent in its sublink's round of the weighted round robin. -/
def State.txTurns (s : State) (l : Nat) (m : Sent) : Nat := smGet 0 s.tx.turns (262144 * l + (s.txFlow m).1)

/-- Whether a frame of class 2 has a turn left in the round. -/
def State.txTurn (s : State) (l : Nat) (m : Sent) : Bool := decide (s.txTurns l m < (s.txFlow m).2)

/-- The frame that sublink l sends next t picoseconds on (R415): by class; among the flows of class 2 that have a turn left, or
among all when none has, the one whose frame has waited longest (the order within a round is the model's, log 39). -/
def State.txPick (s : State) (l t : Nat) : Option TxMsg :=
  let here := s.tx.queue.filter (fun e => s.txLink e.what == l && decide (s.txWait e.what ≤ t))
  let of := fun (c : Nat) => here.filter (fun e => e.what.cls == c)
  ((of 0).head?.or (of 1).head?).or (((of 2).find? (fun e => s.txTurn l e.what)).or (of 2).head?)

/-- The packets sent in a round forgotten once a flow of sublink l sends that had no turn left. -/
def State.txRound (s : State) (l : Nat) (m : Sent) : SMap Nat :=
  if m.cls == 2 && !s.txTurn l m then s.tx.turns.filter (fun e => e.1 / 262144 != l) else s.tx.turns

/-- One packet of a queued frame leaves sublink l, t picoseconds on: at the sublink's rate with 82 bytes of overhead (R408), at
most 4,096 bytes of payload, and not faster than its queue pair's rc. -/
def State.txPacket (s : State) (l t : Nat) (e : TxMsg) : State :=
  let b := Nat.min 4096 e.left
  let cost := 20 * sublinks (s.breakout (l / 4)) * (b + 82)
  let turns := s.txRound l e.what
  let key := 262144 * l + (s.txFlow e.what).1
  let turns := if e.what.cls = 2 then smPut 0 turns key (smGet 0 turns key + 1) else turns
  let pace := match e.what.qp with
    | some q => smPut 0 s.tx.pace q (t + ((8000000 * (b + 82) : Nat) / (s.qpRates q).1 : Rat).ceil.toNat)
    | none => s.tx.pace
  let queue := if e.left ≤ 4096 then s.tx.queue.erase e else s.tx.queue.map (fun x => if x = e then { e with left := e.left - b } else x)
  let wire := if e.left ≤ 4096 then s.tx.wire ++ [(l, e.what)] else s.tx.wire
  let s : State := { s with tx := { s.tx with queue := queue, wire := wire, busy := smPut 0 s.tx.busy l (t + cost), turns := turns, pace := pace } }
  let s := s.count Fld.PORT_TX.BYTES b (l / 4)
  match e.what.qp.bind dataQp with
  | some (g, _, _) => s.account (some (s.get Fld.GRP_CFG.PART g)) 10 b
  | none => s

/-- Sublink l over t picoseconds, at most n packets. -/
def State.txSend (s : State) (l t : Nat) : Nat → State
  | 0 => s
  | n + 1 =>
    let waits := (s.tx.queue.filter (fun e => s.txLink e.what == l)).map (fun e => s.txWait e.what)
    match waits with
    | [] => s
    | w :: ws =>
      let at_ := Nat.max (smGet 0 s.tx.busy l) (ws.foldl Nat.min w)
      if t ≤ at_ then s
      else match s.txPick l at_ with
        | some e => (s.txPacket l at_ e).txSend l t n
        | none => s

/-- Every up sublink sends for t picoseconds (R415). -/
def State.transmit (s : State) (t : Nat) : State :=
  let s := s.txTake
  let n := sumList (s.tx.queue.map (fun e => e.left / 4096 + 1))
  let s := ((upFrom 0 16).filter (fun l => s.linkUp (l / 4) (l % 4))).foldl (fun s l => s.txSend l t n) s
  let less := fun (m : SMap Nat) => (m.map (fun e => (e.1, e.2 - t))).filter (fun e => e.2 != 0)
  { s with tx := { s.tx with busy := less s.tx.busy, pace := less s.tx.pace } }

end Sys2Proof.Machine
end

