-- ==== Sys2Proof/Machine/Tick.lean ====
section
/-!
DEFINITION. Time: nanoseconds passing between commands, base tick boundaries, the tick registers, leap ticks and the
discipline of TICK_COUNT by PTP (R29–R32, R50–R56, R512).
-/
namespace Sys2Proof.Machine

/-- A sluice after n nanoseconds (R217): its level, and how long it stood at or below zero. -/
def sluiceRise (rate cap level : Int) (n : Nat) : Int × Nat :=
  let up := level + rate * n
  let new := if cap < up then (if cap < level then level else cap) else up
  let low := if 0 < level then 0 else if rate ≤ 0 then n else Nat.min n (((-level) / rate).toNat + 1)
  (new, low)

/-- Whether a request of sluice sl waits in a stack. -/
def StackSt.waits (k : StackSt) (sl : Nat) : Bool := k.queue.any (fun e => e.2.any (fun r => r.sluice == sl))

/-- Stack t after n nanoseconds: sluice levels, stalls and the stack bucket (R217, R218, SL_STALL). -/
def State.refill (s : State) (t n : Nat) : State :=
  if !s.runs (dieOfStack t) then s
  else
    let k := s.stack t
    let scale := s.get Fld.SL_SCALE.SCALE t
    let rise := fun (i : Nat) =>
      sluiceRise ((625 * nth 0 k.rate i * scale : Nat) : Int) ((nth 1 k.depth i * 1000000 * 10240 : Nat) : Int) (nth 0 k.level i) n
    let s := ((upFrom 0 17).filter k.waits).foldl (fun s i => s.count Fld.SL_STALL.NS (rise i).2 t i) s
    let cap : Int := 16 * 1000000 * 10240
    let b := k.bucket + ((160000 * s.get Fld.STK_PWR.PWR_CAP t * n : Nat) : Int)
    s.setStack t { k with level := (upFrom 0 17).map (fun i => (rise i).1), bucket := if cap < b then cap else b }

/-- Core c after n nanoseconds: CYCLES counts clock cycles, their fraction kept in thousandths. -/
def State.clockCore (s : State) (c n : Nat) : State :=
  if !s.runs (dieOfCore c) then s
  else
    let k := s.core c
    let x := k.cyc + n * s.mhz (dieOfCore c)
    let s := s.setCore c { k with cyc := x }
    if k.run = .running || k.run = .tickWait || k.run = .ended then s.count Fld.CYCLES.COUNT (x / 1000 - k.cyc / 1000) c else s

/-- The pans after n nanoseconds: one that has a batch in hand counts the clocks of the operating point it runs at (R250, R261). -/
def State.clockPans (s : State) (n : Nat) : State :=
  { s with pans := s.pans.map (fun e =>
      if s.runs (dieOfStack (panStack e.1)) then
        (e.1, { e.2 with run := e.2.run.map (fun r => { r with clocks := r.clocks + n * r.mhz }) })
      else e) }

/-- The engine classes whose units work for a partition, as ACC indices with a partition each (R367). -/
def State.working (s : State) : List (Nat × Nat) :=
  let xe := (upFrom 0 12).filterMap (fun c => match s.partOf c with
    | some p => if s.anyReq (fun r => r.agent = .xe c) then some (2, p) else none
    | none => none)
  let pip := (upFrom 0 12).filterMap (fun c => match s.partOf c with
    | some p => if s.batches.any (fun b => b.core == c && (!b.await.isEmpty || !b.words.isEmpty)) then some (3, p) else none
    | none => none)
  let pan := s.pans.filterMap (fun e => match e.2.run with
    | some r => (s.batch r.batch).map (fun b => (4, b.part))
    | none => none)
  let coll := (s.colls.filter (fun x => x.started)).map (fun x => (5, x.part))
  xe ++ pip ++ pan ++ coll

/-- How far n nanoseconds of TICK_COUNT slew it (R32): at most SLEW_MAX_PPM, and no more than the offset left. -/
def State.slewStep (s : State) (n : Nat) : Nat :=
  Nat.min ((s.tick.slewFrac + n * s.get Fld.TICK_DISC.SLEW_MAX_PPM) / 1000000) s.tick.slew.natAbs

/-- The base tick in force ended: its energy is still to enter every partition's counter (R368). -/
def State.endTick (s : State) : State :=
  if s.tick.bound = 0 then s
  else { s with parts := s.parts.map (fun k => { k with owed := k.owed ++ [(s.tick.bound - 1, s.now)] }) }

/-- The slew of TICK_COUNT over n nanoseconds of it (R32). -/
def State.slewBy (s : State) (n : Nat) : State :=
  let k := s.tick
  if k.slew = 0 then s
  else
    let d := s.slewStep n
    let left := if 0 < k.slew then k.slew - d else k.slew + d
    { s with tick := { k with
      slew := left, slewFrac := if left = 0 then 0 else (k.slewFrac + n * s.get Fld.TICK_DISC.SLEW_MAX_PPM) % 1000000 } }

/-- Nanoseconds of reference time in n of TICK_COUNT: the clocks of the dies are not disciplined (R32). -/
def State.refNs (s : State) (n : Nat) : Nat :=
  if 0 < s.tick.slew then n - s.slewStep n else n + s.slewStep n

/-- n nanoseconds pass in which no base tick boundary falls. -/
def State.passNs (s : State) (n : Nat) : State :=
  if n = 0 then s
  else
    let s := s.set Fld.TICK_COUNT.COUNT (s.now + n)
    let s := (upFrom 0 20).foldl (fun s t => s.refill t n) s
    let s := (upFrom 0 12).foldl (fun s c => s.clockCore c (s.refNs n)) s
    let s := s.clockPans (s.refNs n)
    let s := (s.transmit (1000 * n)).working.foldl (fun s e => s.account (some e.2) e.1 n) s
    let s := (s.slewBy n).ageNs n
    let s : State := if s.inLeap then { s with tick := { s.tick with leapNs := s.tick.leapNs + n } } else s
    s.goOn

/-- Nanoseconds to the next base tick boundary (R30, R512). -/
def State.toBoundary (s : State) : Nat := s.periodNs - s.now % s.periodNs

/-- The rake of stack t at a base tick boundary (R298): credit in lines, debt in granules. -/
def State.rakeCredit (s : State) (t : Nat) : State :=
  if !s.runs (dieOfStack t) || !(s.mod.power = .on) then s
  else
    let k := s.stack t
    let c := k.rakeCarry + s.get Fld.RAKE_CFG.LINES_PER_TICK t
    let debt := s.get Fld.RAKE_DEBT.GRANULES t + c / 64
    let max := s.get Fld.RAKE_CFG.DEBT_MAX t
    (s.setStack t { k with rakeCarry := c % 64 }).set Fld.RAKE_DEBT.GRANULES (Nat.min debt max) t

/-- Entries of ERR_POISON whose mirror repair starts at this boundary (R293). -/
def State.dueRepairs (s : State) : State :=
  let due := (upFrom 0 16).filter (fun e =>
    s.is Fld.ERR_POISON.VALID e && s.get Fld.ERR_POISON.PATH e == 0 &&
      (match s.sharedAt (4096 * s.get Fld.ERR_POISON.GRANULE e) with
       | some r => s.mappersRest r
       | none => false))
  { s with repairDue := due }

/-- Doorbell notices that found their gateway mailbox FULL sent again (R430). -/
def State.resendNotices (s : State) : State :=
  s.net.notices.foldl (fun s n => s.doorNotice n) { s with net := { s.net with notices := [] } }

/-- The HOST sluice of stack t renews its postponements at every base tick boundary (R213). -/
def State.renewHost (s : State) (t : Nat) : State :=
  let k := s.stack t
  s.setStack t { k with deferLeft := setNth k.deferLeft 16 (s.get Fld.SL_CFG.REF_DEFER t 16) }

/-- A base tick boundary reached by counting (R30, R213, R298, R437, R293, R430, R452). -/
def State.boundary (s : State) : State :=
  let b := s.now / s.periodNs
  let s := s.endTick.set Fld.BTICK_NUM.NUM b
  let s : State := { s with tick := { s.tick with bound := b + 1, boundAt := s.now } }
  let s := (upFrom 0 20).foldl (fun s t => s.renewHost t) s
  let s := (upFrom 0 20).foldl (fun s t => s.rakeCredit t) s
  let s := s.powerBoundary.dueRepairs.resendNotices
  if s.inLeap then s.reckonTick (s.tick.leapNs / Nat.max 1 s.periodNs) else s

/-- Whether TICK_COUNT runs: while the module has standby power (R29). -/
def PowerMode.ticks : PowerMode → Bool
  | .dark => false
  | _ => true

/-- BASE_TICK_BOUNDARY (R30): time passes to the next boundary. -/
def execBaseTickBoundary (s : State) : Host.Outcome State Fault Refusal := occurs s.mod.power.ticks s (s.passNs s.toBoundary).boundary

/-- What the host does with its own memory (R276, R280): whether it writes a byte, where and which, are free values (log 11). -/
def State.hostActs (s : State) : State :=
  match s.freeChoice with
  | (true, s) =>
    let (a, s) := s.freeBelow (2 ^ 64)
    let (v, s) := s.freeBelow 256
    { s with host := smPoke s.host a 1 v }
  | (false, s) => s

/-- One nanosecond of an idle block, in which the host may write a byte of its memory. -/
def State.idleNs (s : State) : State :=
  let s := s.hostActs
  if !s.mod.power.ticks then s else if s.toBoundary = 1 then (s.passNs 1).boundary else s.passNs 1

/-- Time passes to a moment between now and the next boundary; none where the moment does not lie there. -/
def State.advanceTo (s : State) (at_ : Nat) : Option State :=
  if s.now ≤ at_ && decide (at_ < s.now + s.toBoundary) then some (s.passNs (at_ - s.now)) else none

/-- REFRESH_DUE (R211, R212): once per interval in each pseudo-channel of a stack that is UP. A micro-operation lasts at most
2 µs (R254): a refresh past what falls due in that time comes after its boundary. -/
def execRefreshDue (t : Fin 20) (u : Fin 32) (s : State) : Host.Outcome State Fault Refusal :=
  let k := s.stack t
  if s.get Fld.STK_STATUS.STATE t != 2 || (s.panBusy t u && decide (2000 < smGet 0 k.fresh u * s.refInterval t)) then ok s
  else if smGet 0 k.refNext u ≤ s.now then ok (s.refreshFalls t u)
  else
    match s.advanceTo (smGet 0 k.refNext u) with
    | some s => ok (s.refreshFalls t u)
    | none => ok s

/-- BTICK_NUM set by R30 where TICK_COUNT or the period changed otherwise than by counting: no boundary occurs (R512). -/
def State.renumber (s : State) : State :=
  let s := s.set Fld.BTICK_NUM.NUM (s.now / s.periodNs)
  let s : State := { s with
    tick := { s.tick with bound := 0 }
    parts := s.parts.map (fun k => { k with lastTick := 0 }) }
  s.replan

/-- A period in microseconds in force (R31). -/
def State.takePeriod (s : State) (us : Nat) : State := (s.set Fld.TICK_PERIOD.PERIOD_US us).renumber

/-- A write of TICK_PERIOD (R31). One that waits for the next leap tick leaves the register at the period in force (DEDUCED: "takes
effect ... at the start of the next leap tick"; log 37). -/
def State.tickPeriodPut (s : State) (us : Nat) : State :=
  if us < 100 || 100000 < us then s.set Fld.TICK_ERR.PERIOD_BAD 1
  else if s.noneRunning then ({ s with tick := { s.tick with pendPeriod := none } } : State).takePeriod us
  else { s with tick := { s.tick with pendPeriod := some us } }

/-- TICK_PERIOD_WRITE (R31). -/
def execTickPeriodWrite (v : Word) (s : State) : Host.Outcome State Fault Refusal :=
  ok (s.tickPeriodPut (bits v.toNat 16 0))

/-- Whether TICK_COUNT may be set now (R32): no partition RUNNING or STOPPING, or at the start of a leap tick. -/
def State.maySetCount (s : State) : Bool := s.noneRunning || (s.inLeap && s.tick.leapNs == 0)

/-- The moments that intervals in progress count from, moved with TICK_COUNT: a change of the count shortens or lengthens none of
them (DEDUCED: R32 and R512 name the count and its boundaries only; log 37). -/
def State.retime (s : State) (v : Nat) : State :=
  let f := fun (x : Nat) => x + v - s.now
  { s with
    stks := s.stks.map (fun k => { k with refNext := k.refNext.map (fun e => (e.1, f e.2)) })
    parts := s.parts.map (fun k => { k with tickAt := f k.tickAt, askAt := f k.askAt })
    colls := s.colls.map (fun x => { x with began := f x.began })
    net := { s.net with
      syncAt := s.net.syncAt.map f
      qps := s.net.qps.map (fun e => (e.1, { e.2 with
        errorAt := f e.2.errorAt, ackFrom := f e.2.ackFrom, ccFrom := f e.2.ccFrom, lastCnp := e.2.lastCnp.map f })) }
    power := { s.power with roundAt := f s.power.roundAt, dies := s.power.dies.map (fun x => { x with reqAt := x.reqAt.map f }) }
    link := { s.link with run := s.link.run.map (fun r => { r with began := f r.began }) }
    tick := { s.tick with lostAt := s.tick.lostAt.map f }
    sec := { s.sec with upd := s.sec.upd.map (fun u => { u with began := f u.began }) } }

/-- TICK_COUNT set (R32, R512). A leap tick that starts here measures from the new value. -/
def State.setCount (s : State) (v : Nat) : State := ((s.retime v).set Fld.TICK_COUNT.COUNT v).renumber

/-- TICK_COUNT_WRITE (R32). -/
def execTickCountWrite (v : Word) (s : State) : Host.Outcome State Fault Refusal :=
  if s.maySetCount then ok (s.setCount v.toNat) else ok (s.set Fld.TICK_ERR.COUNT_REFUSED 1)

/-- A write of TICK_DISC (R63). Without DISC_EN nothing is slewed or stepped any more (R29, R32). -/
def State.tickDiscPut (s : State) (w mask : Nat) : State :=
  let s := s.plainWrite Reg.TICK_DISC 0 0 w mask
  let s := s.set Fld.TICK_DISC.SLEW_MAX_PPM (clamp 1 200 (s.get Fld.TICK_DISC.SLEW_MAX_PPM))
  if s.is Fld.TICK_DISC.DISC_EN then s else { s with tick := { s.tick with slew := 0, slewFrac := 0, pendStep := none } }

/-- Whether [b, b + n) meets the base ticks of a SCHEDULED leap tick, and any window while one is ACTIVE (R52): its base ticks
may have been renumbered at its start, and it ends at a boundary that has not occurred. -/
def State.leapMeets (s : State) (b n : Nat) : Bool :=
  let st := s.get Fld.LEAP_CTRL.STATE
  let a := s.get Fld.LEAP_AT.AT
  st == leapActive || st == leapScheduled && decide (b < a + s.get Fld.LEAP_CTRL.LEN) && decide (a < b + n)

/-- A write of LEAP_AT (R50). -/
def State.leapAtPut (s : State) (v mask : Nat) : State :=
  if s.get Fld.LEAP_CTRL.STATE != leapNone then s else s.plainWrite Reg.LEAP_AT 0 0 v mask

/-- LEAP_AT_WRITE (R50). -/
def execLeapAtWrite (v : Word) (s : State) : Host.Outcome State Fault Refusal := ok (s.leapAtPut v.toNat fullMask)

/-- An arm of LEAP_AT (R50, R53): refused, or the leap tick SCHEDULED, with a waiting claim's work if it comes in time. -/
def State.leapArm (s : State) : State :=
  let at_ := s.get Fld.LEAP_AT.AT
  let late := decide (at_ < s.btick + s.lmax + 1)
  let busy := s.get Fld.LEAP_CTRL.STATE != leapNone
  let defer := s.claimWaits && decide (s.get Fld.LEAP_CLAIM.CLAIM_AT + s.get Fld.LEAP_CTRL.DEFER_MAX < at_)
  if late || busy || defer then
    let s := if late then s.set Fld.TICK_ERR.LEAP_LATE 1 else s
    let s := if busy then s.set Fld.TICK_ERR.LEAP_BUSY 1 else s
    if defer then s.set Fld.TICK_ERR.LEAP_DEFER 1 else s
  else
    let s := (s.set Fld.LEAP_CTRL.STATE leapScheduled).set Fld.LEAP_CTRL.ARM 1
    if s.claimWaits then s.carryClaim else s

/-- CANCEL (R51). -/
def State.leapCancel (s : State) : State :=
  let st := s.get Fld.LEAP_CTRL.STATE
  if st == leapNone then s
  else if st == leapScheduled && !s.tick.claimed then (s.set Fld.LEAP_CTRL.STATE leapNone).set Fld.LEAP_CTRL.ARM 0
  else s.set Fld.TICK_ERR.CANCEL_REFUSED 1

/-- A write of LEAP_CTRL (R50, R51, R63): LEN and DEFER_MAX, then CANCEL, then ARM. -/
def State.leapCtrlPut (s : State) (v mask : Nat) : State :=
  let m := mergeMask mask v (s.word Reg.LEAP_CTRL 0 0)
  let s := if s.get Fld.LEAP_CTRL.STATE == leapNone then s.set Fld.LEAP_CTRL.LEN (clamp 1 64 (bits m 6 0)) else s
  let s := s.set Fld.LEAP_CTRL.DEFER_MAX (bits m 31 16)
  let s := if bit (v &&& mask) 9 then s.leapCancel else s
  if bit (v &&& mask) 8 then s.leapArm else s

/-- LEAP_ARM (R50): a write of LEAP_CTRL with ARM set. -/
def execLeapArm (v : Word) (s : State) : Host.Outcome State Fault Refusal :=
  occurs (bit v.toNat 8) s (s.leapCtrlPut v.toNat fullMask)

/-- LEAP_CANCEL (R51): a write of LEAP_CTRL with CANCEL set. -/
def execLeapCancel (v : Word) (s : State) : Host.Outcome State Fault Refusal :=
  occurs (bit v.toNat 9) s (s.leapCtrlPut v.toNat fullMask)

/-- LEAP_CLAIM_DEADLINE (R53): the device schedules the claimed leap tick itself. -/
def execLeapClaimDeadline (s : State) : Host.Outcome State Fault Refusal :=
  let at_ := s.get Fld.LEAP_CLAIM.CLAIM_AT
  if s.claimWaits && s.get Fld.LEAP_CTRL.STATE == leapNone && decide (at_ ≤ s.btick + s.lmax + 1) && decide (s.btick < at_) then
    let s := ((s.set Fld.LEAP_AT.AT at_).set Fld.LEAP_CTRL.LEN (clamp 1 64 (s.get Fld.LEAP_CLAIM.CLAIM_LEN)))
    let s := (s.set Fld.LEAP_CTRL.STATE leapScheduled).set Fld.LEAP_CTRL.ARM 1
    ok { s with tick := { s.tick with claimed := true } }
  else ok s

/-- Whether a base tick boundary by counting stands at the present moment. -/
def State.atBoundary (s : State) : Bool := s.tick.bound == s.btick + 1 && s.tick.boundAt == s.now

end Sys2Proof.Machine
end

