-- ==== Sys2Proof/Machine/Almanac.lean ====
section
/-!
DEFINITION. The almanac: its layout, its validation and installation, the cost of an item, the list schedule and the
energy of a plan (R58–R60, R351, R353, R363).
-/
namespace Sys2Proof.Machine

/-- n bytes at a read through verified granules, or none when a granule is open, bad or poisoned. -/
def State.readVerified (s : State) (p a n : Nat) : Option Nat × State :=
  let (m, f, s) := s.computeGranules (scWho p) false false none (granulesOf a n)
  (if f.isSome then none else some (fromGranules m a n), s)

/-- An item of 64 bytes. -/
def AlmItem.of (r : Nat) : AlmItem :=
  let d := dw r
  { kind := d 0 7 0, optional := d 0 8 8 == 1, expert := d 0 9 9 == 1, unit := d 0 23 16, path := d 0 26 24
    deps := [d 1 15 0, d 1 31 16, d 1 47 32, d 1 63 48], body := d 2 41 0, cycFix := d 3 31 0, cycTok := d 3 47 32
    cycPage := d 3 63 48, eFix := d 4 31 0, eTok := d 4 47 32, ePage := d 4 63 48, bFix := d 5 31 0, bTok := d 5 47 32
    bPage := d 5 63 48, alt := d 6 15 0, xover := d 6 31 16, expertId := d 6 47 32, bodyLen := d 7 31 0 }

/-- Whether an interval lies wholly in a partition's own ranges. -/
def State.ownAll (s : State) (p a n : Nat) : Bool := n == 0 || s.reach p a (a + n - 1) == .own

/-- Whether an item's UNIT belongs to the partition (R58). A mapped region counts with the stack of its own location; the
stack of a mirror copy does not count (DESIGN CHOICE: R58 says "a unit of a region mapped into it"; log 15). -/
def State.unitOk (s : State) (p : Nat) (i : AlmItem) : Bool :=
  if i.kind = kPan then
    (s.part p).ranges.any (fun r => r.stack == i.unit && r.count != 0) ||
      (setBitsOf (s.part p).regions 32).any (fun r => s.get Fld.REG_LOC.STACK r == i.unit)
  else if i.kind = kColl then s.hasDie p i.unit
  else (s.coresOf p).contains i.unit

/-- Whether an item's body lies where its kind may have it (R58, R65). -/
def State.bodyOk (s : State) (p : Nat) (i : AlmItem) : Bool :=
  if i.kind = kBlock then
    (match s.reach p i.body (i.body + i.bodyLen - 1) with | .own | .shared => true | _ => false) &&
      i.body % 64 == 0 && i.bodyLen % 8 == 0 && decide (8 ≤ i.bodyLen) && decide (i.bodyLen ≤ 0x100000)
  else i.bodyLen == 0 || s.reach p i.body (i.body + i.bodyLen - 1) != .none

/-- The checks of R58 on one item at index n of its array. -/
def State.itemOk (s : State) (p : Nat) (items : List AlmItem) (n id : Nat) (i : AlmItem) : Bool :=
  decide (1 ≤ i.kind) && decide (i.kind ≤ 4) && id == n && i.deps.all (fun d => d == 0xFFFF || decide (d < n)) &&
    s.unitOk p i && s.bodyOk p i &&
    (i.alt == 0xFFFF || (match items[i.alt]? with
      | some j => j.expert && j.expertId == i.expertId
      | none => false))

/-- An entry read from its 32 bytes, with its item array checked (R58). -/
def State.loadEntry (s : State) (p entries r : Nat) : Option AlmEntry × State :=
  let d := dw r
  let n := d 0 9 0 + 1
  let at_ := d 1 41 0
  if !s.ownAll p at_ (64 * n) then (none, s)
  else
    match s.readVerified p at_ (64 * n) with
    | (none, s) => (none, s)
    | (some v, s) =>
      let raws := cutBits 512 v n
      let items := raws.map AlmItem.of
      let good := crc32c (bytesOf (64 * n) v) == d 2 63 32 && decide (d 0 41 32 < entries) &&
        ((upFrom 0 n).zip (raws.zip items)).all (fun e => s.itemOk p items e.1 (dw e.2.1 0 41 32) e.2.2)
      (if good then some ⟨d 0 16 16 == 1, d 0 17 17 == 1, d 0 18 18 == 1, d 0 41 32, d 2 15 0, d 2 31 16, items⟩ else none, s)

/-- The entries of a table, all or none. -/
def State.loadEntries (s : State) (p entries : Nat) : List Nat → Option (List AlmEntry) × State
  | [] => (some [], s)
  | r :: rs =>
    match s.loadEntry p entries r with
    | (none, s) => (none, s)
    | (some e, s) =>
      let (l, s) := s.loadEntries p entries rs
      (l.map (e :: ·), s)

/-- An almanac read and validated (R58). -/
def State.loadAlmanac (s : State) (p base : Nat) : Option Almanac × State :=
  if !s.ownAll p base 64 then (none, s)
  else
    match s.readVerified p base 64 with
    | (none, s) => (none, s)
    | (some h, s) =>
      let d := dw h
      let n := d 0 57 48 + 1
      let at_ := d 1 41 0
      if d 0 31 0 != 0x414C4D4E || d 0 47 32 != 1 || d 2 15 0 == 0 || !s.ownAll p at_ (32 * n) then (none, s)
      else
        match s.readVerified p at_ (32 * n) with
        | (none, s) => (none, s)
        | (some v, s) =>
          if crc32c (bytesOf (32 * n) v) != d 2 63 32 then (none, s)
          else
            let (l, s) := s.loadEntries p n (cutBits 256 v n)
            (l.map (fun es => ⟨base, d 2 15 0, es⟩), s)

/-- ALM_NEXT installed or refused, VALID cleared either way (R47, R58). The truth value says whether it was installed. -/
def State.installAlmanac (s : State) (p : Nat) : Bool × State :=
  let base := 64 * s.get Fld.ALM_NEXT.BASE p
  let first := s.get Fld.ALM_NEXT.FIRST p
  let s := s.set Fld.ALM_NEXT.VALID 0 p
  match s.loadAlmanac p base with
  | (some a, s) =>
    if first < a.entries.length then
      let s := s.setPart p { s.part p with alm := some a, entry := first }
      (true, (s.set Fld.ALM_CUR.BASE (base / 64) p).set Fld.ALM_CUR.ENTRY first p)
    else (false, s.set Fld.STEP_ERR.ALM_BAD 1 p)
  | (none, s) => (false, s.set Fld.STEP_ERR.ALM_BAD 1 p)

/-- The predicted tokens of an expert item for T admitted tokens (R353). -/
def State.predicted (s : State) (p : Nat) (i : AlmItem) (t : Nat) : Nat :=
  let k := s.part p
  let (g, _) := s.group p i.expertId
  let routed := match g with | some (_, _, _, rk) => rk * t | none => 0
  match k.serve.history.find? (fun h => h.1 == i.expertId) with
  | some (_, pan, mxu, all) =>
    let r := ceilDiv ((if i.kind = kPan then pan else mxu) * t) all
    if all = 0 then routed else r + ceilDiv (r * bits k.svSpec 47 32) 1000
  | none => routed

/-- The tokens of an item's token terms (R351, R353). -/
def State.itemTokens (s : State) (p : Nat) (pl : Plan) (i : AlmItem) : Nat :=
  if i.expert then s.predicted p i pl.tokens else pl.tokens

/-- The pages of an item's page terms. -/
def Plan.itemPages (pl : Plan) (i : AlmItem) : Nat := if i.kind = kPan then smGet 0 pl.pagesBy i.unit else pl.pages

/-- The cost bound of an item in cycles (R60). -/
def State.itemCycles (s : State) (p : Nat) (pl : Plan) (i : AlmItem) : Nat :=
  i.cycFix + i.cycTok * s.itemTokens p pl i + i.cycPage * pl.itemPages i

/-- The list schedule of R59 and R60, times in ns × MHz: ends by item, free times by unit, finish and last issue. -/
def State.sched (s : State) (p : Nat) (pl : Plan) (t0 : Nat) :
    List (Nat × AlmItem) → SMap Nat → SMap Nat → Nat → Nat → Nat × Nat
  | [], _, _, fin, lst => (fin, lst)
  | (n, i) :: l, ends, free, fin, lst =>
    if !pl.items.contains n then s.sched p pl t0 l ends free fin lst
    else
      let start := maxList (t0 :: smGet t0 free i.unitKey :: i.deps.map (fun d => smGet t0 ends d))
      let e := start + 1000 * s.itemCycles p pl i
      s.sched p pl t0 l (smInsert ends n e) (smInsert free i.unitKey e) (Nat.max fin e) (Nat.max lst start)

/-- The energy terms of a plan (R60): nJ at REF_MV, in-stack and external bytes. -/
def State.planEnergy (s : State) (p : Nat) (pl : Plan) (items : List AlmItem) : Nat × Nat × Nat :=
  (((upFrom 0 items.length).zip items).filter (fun e => pl.items.contains e.1)).foldl
    (fun a e =>
      let i := e.2
      let t := s.itemTokens p pl i
      let g := pl.itemPages i
      let b := 64 * (i.bFix + i.bTok * t + i.bPage * g)
      (a.1 + i.eFix + i.eTok * t + i.ePage * g, a.2.1 + (if i.path = 0 then b else 0), a.2.2 + (if i.path = 1 then b else 0)))
    (0, 0, 0)

/-- The dies whose planned point a partition's admission uses (R49): those with its cores. -/
def State.partDies (s : State) (p : Nat) : List Nat := [0, 1].filter (s.hasDie p)

/-- The lowest planned point of a window (R49), with the slowest frequency and the highest voltage it gives. -/
def State.minOpp (s : State) (p b n : Nat) : Nat × Nat × Nat :=
  let opps := (s.partDies p).map (fun d => (d, (upFrom b n).foldl (fun m t => Nat.min m (s.planAt d t).opp) 7))
  (opps.foldl (fun m e => Nat.min m e.2) 7,
    opps.foldl (fun m e => let f := s.get Fld.PWR_VT.FREQ_MHZ e.1 e.2; if m = 0 then f else Nat.min m f) 0,
    opps.foldl (fun m e => Nat.max m (s.get Fld.PWR_VT.V_MV e.1 e.2)) 0)

/-- What admission compares a plan with: scaled clock, limits and energy (R46, R60, R363). -/
structure Limits where
  opp : Nat
  mhz : Nat
  mv : Nat
  t0 : Nat
  /-- The finish limit in ns × 256 × 10^6. -/
  limit : Nat
  last : Nat
  /-- The energy share as a fraction: nJ × PWR, over the sum of PWR. -/
  share : Nat
  shareDiv : Nat
  refMv : Nat
  deriving DecidableEq, Repr

/-- The start delay of a window (R39): after a step with a collective phase, across dies, else on one die; at least
10 µs for a retry after an overrun. -/
def State.startDelay (s : State) (p : Nat) (coll late : Bool) : Nat :=
  let d := if coll then 20000 else if (s.partDies p).length = 2 then 6000 else 4000
  if late then Nat.max 10000 d else d

/-- The limits of an admission for the window that opens at base tick b with retry number k. -/
def State.limits (s : State) (p b k t0 : Nat) : Limits :=
  let n := s.stepLen p
  let w := n * s.periodNs
  let (opp, mhz, mv) := s.minOpp p b n
  let run := (upFrom 0 16).filter (fun q => q == p || s.pstate q == stRunning)
  let pwr := fun q => nth 1 (s.part q).shares 0
  { opp := opp, mhz := Nat.max 1 mhz, mv := mv, t0 := t0
    limit := (w * 1000000 - w * s.get Fld.TICK_DISC.SLEW_MAX_PPM) * Nat.max 64 (256 - k * s.get Fld.STEP_CFG.RETRY_TRIM p)
    last := w - ceilDiv (n * s.get Fld.TICK_PERIOD.PERIOD_US * s.get Fld.STEP_CFG.EVE_PM p) 1000 * 1000
    share := sumList ((upFrom b n).map (fun t => s.periodNs * (s.planAt 0 t).b)) * pwr p
    shareDiv := Nat.max 1 (sumList (run.map pwr))
    refMv := match (s.part p).alm with | some a => a.refMv | none => 1 }

/-- Whether a plan fits the limits (R60), and its finish in ns × MHz. -/
def State.fits (s : State) (p : Nat) (l : Limits) (items : List AlmItem) (pl : Plan) : Bool × Nat :=
  let t0 := l.t0 * l.mhz
  let (fin, lst) := s.sched p pl t0 ((upFrom 0 items.length).zip items) [] [] t0 t0
  let (e, inB, exB) := s.planEnergy p pl items
  let r2 := l.refMv * l.refMv
  (decide (fin * 256000000 ≤ l.limit * l.mhz) && decide (lst ≤ l.last * l.mhz) &&
    decide ((e * l.mv * l.mv * 10000 + (inB * 32 + exB * 80) * r2) * l.shareDiv ≤ l.share * r2 * 10000), fin)

end Sys2Proof.Machine
end

