-- ==== Sys2Proof/Machine/Serve.lean ====
section
/-!
DEFINITION. The serving loop: geometry records, the sequence table and its installation, requests, candidates,
reservation, pre-emption, swap and restore, output rings (R303–R308, R313, R323–R351).
-/
namespace Sys2Proof.Machine

/-- Bits [hi:lo] of word i of a record replaced. -/
def dwSet (raw i hi lo v : Nat) : Nat := setBits raw (64 * i + hi) (64 * i + lo) v

/-- Bytes of a cache element (R303). -/
def Geom.elem (g : Geom) : Nat := if g.fmt = 3 || g.fmt = 4 then 1 else 2
/-- Tokens of a page (R303). -/
def Geom.tp (g : Geom) : Nat := 65536 / (2 ^ g.kvhLog2 * g.dh * g.elem)
/-- Page-table entries of a windowed geometry (R308). -/
def Geom.ring (g : Geom) : Nat := ceilDiv g.window g.tp + 1
/-- Units of the cache region of a stack (R304). -/
def Geom.units (g : Geom) : Nat := 2 * g.layers * g.ns
/-- The page-table index of a logical page (R307). -/
def Geom.index (g : Geom) (j : Nat) : Nat := if g.window = 0 then j else j % g.ring
/-- Slots a sequence of n positions needs (R337). -/
def Geom.slots (g : Geom) (n : Nat) : Nat :=
  let k := ceilDiv n g.tp
  if g.window = 0 then k else Nat.min k g.ring
/-- The page of layer l and kind κ of a slot (R305). -/
def Geom.page (g : Geom) (stack pch slot l κ : Nat) : Nat :=
  stack * stackSpan + (g.c0 + (2 * l + κ) * g.ns + slot) * 0x200000 + pch * 0x10000
/-- Bytes of a slot's swap image (R340). -/
def Geom.stride (g : Geom) : Nat := g.layers * 2 * 65536 + ceilDiv (g.layers * 2 * 16 * 8) 4096 * 4096

/-- A geometry record (R303). -/
def Geom.of (r : Nat) : Geom :=
  let d := dw r
  { layers := d 0 7 0 + 1, fmt := d 0 10 8, kvhLog2 := d 0 14 12, dh := if d 0 16 16 = 1 then 64 else 128, ns := d 0 47 32
    c0 := d 0 63 48, stks := d 1 19 0, window := d 1 63 32 }

/-- Whether a geometry record is accepted (R303, R304). -/
def State.geomOk (s : State) (p r : Nat) : Bool :=
  let g := Geom.of r
  let d := dw r
  let zero := allZero [d 0 11 11, d 0 15 15, d 0 31 17, d 1 31 20, r >>> 128]
  zero && decide (1 ≤ g.fmt) && decide (g.fmt ≤ 4) && decide (g.kvhLog2 ≤ 4) && decide (16 ≤ g.tp) && decide (1 ≤ g.ns) &&
    decide (g.c0 + g.units ≤ stackUnits) && g.stks != 0 &&
    (setBitsOf g.stks 20).all (fun t => (upFrom g.c0 g.units).all (s.owns p t))

/-- Entry states of the sequence table (R325). -/
def seqState (e : Nat) : Nat := dw e 0 1 0
/-- Whether an entry is live. -/
def seqLive (e : Nat) : Bool := seqState e != 0
/-- SWAPPED. -/
def seqSwapped (e : Nat) : Bool := dw e 0 3 3 == 1
/-- CLASS. -/
def seqClass (e : Nat) : Nat := dw e 0 10 8
/-- VARIANT. -/
def seqVariant (e : Nat) : Nat := dw e 0 19 12
/-- REQ_ID. -/
def seqReq (e : Nat) : Nat := dw e 0 63 32
/-- LEN. -/
def seqLen (e : Nat) : Nat := dw e 1 31 0
/-- PROMPT_LEN. -/
def seqPrompt (e : Nat) : Nat := dw e 1 63 32
/-- WAIT_STEPS. -/
def seqWait (e : Nat) : Nat := dw e 2 63 48
/-- GENERATED. -/
def seqGen (e : Nat) : Nat := dw e 3 31 0
/-- MAX_NEW. -/
def seqMax (e : Nat) : Nat := dw e 3 63 32
/-- The page table of geometry g. -/
def seqPt (e g : Nat) : Nat := 64 * (if g = 0 then dw e 4 41 6 else dw e 5 41 6)
/-- ALLOC of geometry g. -/
def seqAlloc (e g : Nat) : Nat := if g = 0 then dw e 6 15 0 else dw e 6 31 16
/-- ALLOC of geometry g set. -/
def seqSetAlloc (e g v : Nat) : Nat := if g = 0 then dwSet e 6 15 0 v else dwSet e 6 31 16 v
/-- SP_STACK. -/
def seqStack (e : Nat) : Nat := dw e 6 36 32
/-- The pseudo-channel of pan i of the spread (R313, R325). -/
def seqPan (e i : Nat) : Nat := (dw e 6 41 37 + i % (dw e 6 46 42 + 1)) % 32
/-- Pans in the spread. -/
def seqSpread (e : Nat) : Nat := dw e 6 46 42 + 1
/-- The pseudo-channels of the spread. -/
def seqPans (e : Nat) : List Nat := (upFrom 0 (seqSpread e)).map (seqPan e)

/-- Page-table entries (R307). -/
def ptValid (x : Nat) : Bool := bit x 31
/-- Whether an entry names a slot. -/
def ptHere (x : Nat) : Bool := bit x 31 && !bit x 30
/-- Whether an entry's page is in the swap pool. -/
def ptSwapped (x : Nat) : Bool := bit x 31 && bit x 30
/-- The swap-pool index of a swapped entry. -/
def ptImage (x : Nat) : Nat := bits x 29 0
/-- An entry for a slot. -/
def ptSlot (stack pch slot : Nat) : Nat := slot + pch <<< 16 + stack <<< 21 + 2 ^ 31
/-- Whether an entry names slot (stack, pch). -/
def ptOn (x stack pch : Nat) : Bool := ptHere x && bits x 20 16 == pch && bits x 25 21 == stack

/-- The base of a copy of the table. -/
def ServeSt.copyBase (k : ServeSt) (copy : Nat) : Nat := k.tableBase + copy * 64 * 2 ^ k.capLog2

/-- A copy of the table read: its entries. -/
def State.readTable (s : State) (p copy : Nat) : List Nat × State :=
  let k := (s.part p).serve
  let (v, _, s) := s.readLines (scWho p) (k.copyBase copy / 64) (2 ^ k.capLog2)
  (cutBits 512 v (2 ^ k.capLog2), s)

/-- An entry of a copy written. -/
def State.writeEntry (s : State) (p copy i e : Nat) : State :=
  s.writeOpen (scWho p) ((s.part p).serve.copyBase copy + 64 * i) 64 e

/-- Entries of the page table of geometry g, for PT0_CAP (R325, R329): a windowed geometry uses RING of them (R308), and the table
of geometry 0 has PT0_CAP. -/
def ptEntries (cap g : Nat) (x : Geom) : Nat :=
  if x.window = 0 then cap else if g = 0 then Nat.max cap x.ring else x.ring

/-- Entries in the page table of geometry g of a sequence entry that may be valid. -/
def ptLength (gs : List Geom) (e g : Nat) : Nat :=
  match gs[g]? with
  | some x => ptEntries (dw e 4 63 48) g x
  | none => 0

/-- The page tables of the live entries of a table: key 2 × index + geometry. -/
def State.readPts (s : State) (p : Nat) (gs : List Geom) : List (Nat × Nat) → SMap (List Nat) × State
  | [] => ([], s)
  | (i, e) :: l =>
    let rd := fun (s : State) (g : Nat) =>
      let n := ptLength gs e g
      let (v, _, s) := s.readBytes (scWho p) (seqPt e g) (4 * n)
      (cutBits 32 v n, s)
    let (a, s) := rd s 0
    let (b, s) := rd s 1
    let (m, s) := s.readPts p gs l
    (smInsert (smInsert m (2 * i + 1) b) (2 * i) a, s)

/-- The live entries of a table, with their indices. -/
def liveOf (t : List Nat) : List (Nat × Nat) := ((upFrom 0 t.length).zip t).filter (fun e => seqLive e.2)

/-- Whether an entry of the variant table has VALID (R350). -/
def State.variantOk (s : State) (p v : Nat) : Bool × State :=
  let k := (s.part p).serve
  if k.nvar ≤ v then (false, s)
  else
    let (x, _, s) := s.readBytes (scWho p) (k.varBase + 16 * v) 8
    (bit x 0, s)

/-- The conditions of R329 on lengths and ranges: reason of refusal, 0 when they hold. -/
def State.placeReason (s : State) (p prompt plen mx pt0 cap pt1 : Nat) : Nat :=
  let gs := (s.part p).serve.geoms
  let tp := match gs with | g :: _ => g.tp | [] => 0
  let size := fun (g : Nat) => match gs[g]? with | some x => 4 * ptEntries cap g x | none => 0
  let inReach := fun (a n : Nat) => n == 0 || (match s.reach p a (a + n - 1) with | .own | .shared => true | _ => false)
  if plen = 0 || mx = 0 then 2
  else if cap * tp < plen + mx then 4
  else if !inReach prompt (4 * plen) || !s.ownAll p pt0 (size 0) || (gs.length == 2 && !s.ownAll p pt1 (size 1)) then 2
  else 0

/-- Reserved bits of a sequence-table entry that are not zero (R325). -/
def seqReserved (e : Nat) : Bool :=
  !allZero [dw e 0 2 2, dw e 0 7 5, dw e 0 11 11, dw e 0 31 28, dw e 2 47 42, dw e 4 5 0, dw e 4 47 42, dw e 5 5 0,
    dw e 5 63 42, dw e 6 63 52, dw e 7 15 9]

/-- Whether a page-table entry of geometry g is legal (R326). -/
def State.ptOk (s : State) (p g x : Nat) : Bool :=
  let k := (s.part p).serve
  match k.geoms[g]? with
  | none => !ptValid x
  | some ge =>
    if !ptValid x then true
    else if ptSwapped x then decide (ptImage x < nth 0 k.swapCap g)
    else decide (bits x 15 0 < ge.ns) && decide (bits x 25 21 < 20) && bit ge.stks (bits x 25 21) && bits x 29 26 == 0

/-- Whether a list names something twice. -/
def hasDup : List Nat → Bool
  | [] => false
  | x :: l => l.contains x || hasDup l

/-- The slots or images of geometry g that page tables name, each as one number. -/
def namedIn (pts : SMap (List Nat)) (g : Nat) : List Nat :=
  (pts.filter (fun e => e.1 % 2 == g)).flatMap (fun e => e.2.filter ptValid |>.map (fun x => if ptSwapped x then bits x 30 0 else bits x 25 0 + 2 ^ 31))

/-- The variants of live entries are valid. -/
def State.variantsOk (s : State) (p : Nat) : List (Nat × Nat) → Bool × State
  | [] => (true, s)
  | (_, e) :: l =>
    let (a, s) := s.variantOk p (seqVariant e)
    let (b, s) := s.variantsOk p l
    (a && b, s)

/-- The ring directory read (R330), no ring enabled where the link runs as a PCIe endpoint (R387). A ring whose SIZE_LOG2 lies outside 4–15 is not enabled. The producer count of a
ring is the one the device last wrote after its slots. -/
def State.readDir (s : State) (p : Nat) : List Ring :=
  let dir := 32 * s.get Fld.SV_OUTDIR.HOST p
  (upFrom 0 16).map (fun r =>
    let a := s.hostRead (dir + 32 * r) 8
    let w := s.hostRead (dir + 32 * r + 8) 8
    let z := bits w 3 0
    { host := a, sizeLog2 := z, vector := bits w 13 8, vecEn := bit w 16, en := bit w 31 && decide (4 ≤ z) && !s.pcieOnly
      prod := s.hostRead (a + 256 * 2 ^ z) 8 })

/-- The directory taken. -/
def State.takeDir (s : State) (p : Nat) : State :=
  let k := s.part p
  (s.setPart p { k with serve := { k.serve with rings := s.readDir p, reloadDir := false } }).account (some p) 9 512

/-- The registers an INSTALL captures. -/
def State.captured (s : State) (p : Nat) (gs : List Geom) : ServeSt :=
  { (s.part p).serve with
    geoms := gs, tableBase := 4096 * s.get Fld.SV_TABLE.BASE p, capLog2 := s.get Fld.SV_TABLE.CAP_LOG2 p
    stepRec := 64 * s.get Fld.SV_STEPREC.DPA p, expg := 8 * s.get Fld.SV_EXPG.BASE p, ngroup := s.get Fld.SV_EXPG.NGROUP p
    ncount := s.get Fld.SV_EXPN.NCOUNT p, varBase := 16 * s.get Fld.SV_VAR.BASE p, nvar := s.get Fld.SV_VAR.NVAR p
    swapPool := [4096 * s.get Fld.SV_SWAP0.HOST p, 4096 * s.get Fld.SV_SWAP1.HOST p]
    swapCap := [s.get Fld.SV_SWAPCAP.CAP0 p, s.get Fld.SV_SWAPCAP.CAP1 p], consumed := 0, events := [], cancelled := []
    dirty := [], paths := [], history := [], chosen := [], foreseen := [] }

/-- The counts of SV_STAT for a table. -/
def State.serveCounts (s : State) (p : Nat) (t : List Nat) : State :=
  let live := liveOf t
  (s.set Fld.SV_STAT.LIVE live.length p).set Fld.SV_STAT.SWAPPED (live.filter (fun e => seqSwapped e.2)).length p

/-- A partition left IDLE (R304): one that was STOPPED or QUIESCED too (DEDUCED: the rule names the state it leaves, and makes no
difference between them), so that it runs again by a START. -/
def State.idlePart (s : State) (p : Nat) : State :=
  (s.set Fld.STEP_STATE.STATE stIdle p).setPart p { s.part p with startPend := false, resumePend := false, stoppedFor := [] }

/-- INSTALL written (R326). -/
def State.install (s : State) (p : Nat) : State :=
  if !s.atRest p then s.set Fld.SERVE_ERR.TABLE_BAD 1 p
  else
    let s := s.set Fld.SV_STAT.INSTALLED 0 p
    let n := if s.is Fld.SV_GEOM.TWO p then 2 else 1
    let (v, _, s) := s.readBytes (scWho p) (64 * s.get Fld.SV_GEOM.BASE p) (64 * n)
    let raws := cutBits 512 v n
    if !raws.all (s.geomOk p) then (s.set Fld.SERVE_ERR.GEOM_BAD 1 p).idlePart p
    else
      let s := s.setPart p { s.part p with serve := s.captured p (raws.map Geom.of) }
      let k := (s.part p).serve
      if !s.ownAll p k.tableBase (2 * 64 * 2 ^ k.capLog2) then s.set Fld.SERVE_ERR.TABLE_BAD 1 p
      else
        let (t, s) := s.readTable p 0
        let live := liveOf t
        let (pts, s) := s.readPts p k.geoms live
        let (vars, s) := s.variantsOk p live
        let good := live.all (fun e => !seqReserved e.2 && seqState e.2 != 3 &&
            s.placeReason p (dw e.2 2 41 0) (seqPrompt e.2) (seqMax e.2) (seqPt e.2 0) (dw e.2 4 63 48) (seqPt e.2 1) == 0) &&
          vars && pts.all (fun e => e.2.all (s.ptOk p (e.1 % 2))) && !hasDup (namedIn pts 0) && !hasDup (namedIn pts 1)
        if !good then s.set Fld.SERVE_ERR.TABLE_BAD 1 p
        else
          let s := (((upFrom 0 t.length).zip t).foldl (fun s e => s.writeEntry p 1 e.1 e.2) s)
          let s := ((s.set Fld.SV_STAT.COPY 0 p).set Fld.SV_STAT.INSTALLED 1 p).serveCounts p t
          s.takeDir p

/-- INSTALL (R326). -/
def execInstall (p : Fin 16) (s : State) : Host.Outcome State Fault Refusal := occurs (s.serves 0) s (s.install p)

/-- RELOAD_DIR written (R330): it acts at the next step boundary. -/
def State.reloadDir (s : State) (p : Nat) : State :=
  let k := s.part p
  s.setPart p { k with serve := { k.serve with reloadDir := true } }

/-- RELOAD_DIR (R330). -/
def execReloadDir (p : Fin 16) (s : State) : Host.Outcome State Fault Refusal := occurs (s.serves 0) s (s.reloadDir p)

/-- A write of SV_CTRL. -/
def State.svCtrlPut (s : State) (p w : Nat) : State :=
  let s := if bit w 1 then s.reloadDir p else s
  if bit w 0 then s.install p else s

/-- The request ring's base and size in force: SV_REQ and SV_REQCFG act at the step boundary (R8). -/
def PartSt.reqBase (k : PartSt) : Nat := 64 * bits k.svReq 63 6
/-- Entries of the request ring in force (R328). -/
def PartSt.reqSize (k : PartSt) : Nat := 2 ^ bits k.svReqCfg 3 0

/-- Whether the serving loop of a partition takes requests: a SERVE step runs and the table is installed. -/
def State.serving (s : State) (p : Nat) : Bool :=
  (s.part p).phase = .active && s.is Fld.SV_STAT.INSTALLED p &&
    (match s.entryOf p (s.part p).entry with | some e => e.serve | none => false)

/-- The request entry admission reads next, if the ring holds one and the step's allowance does (R328). -/
def State.nextRequest (s : State) (p : Nat) : Option Nat :=
  let k := s.part p
  let base := k.reqBase
  let n := k.reqSize
  let head := s.get Fld.SV_HEAD.HEAD p + k.serve.consumed
  let tail := s.hostRead (base + 64 * n) 8
  if s.serving p && !s.pcieOnly && decide (head < tail) && decide (k.serve.consumed < bits k.svCfg 31 24) then
    some (s.hostRead (base + 64 * (head % n)) 64)
  else none

/-- A request entry consumed, with an event record to post at the commit if any. -/
def State.consume (s : State) (p : Nat) (ev : Option (List Nat)) : State :=
  let k := s.part p
  (s.setPart p { k with serve := { k.serve with consumed := k.serve.consumed + 1, events := k.serve.events ++ ev.toList } }).account (some p) 9 64

/-- An event record (R332): its first three words, BTICK filled in when it is posted. -/
def eventRec (type reason seq req arg : Nat) : List Nat := [type + reason <<< 8 + seq <<< 16 + req <<< 32, 0, arg]

/-- REJECT with a reason. -/
def rejectRec (r reason : Nat) : Option (List Nat) := some (eventRec 1 reason (dw r 0 31 16) (dw r 0 63 32) 0)

/-- Whether a request's OPC is illegal or a field it does not use is not zero (R329). -/
def reqBad (r : Nat) : Bool :=
  let d := dw r
  if d 0 7 0 = 1 then
    !allZero [d 0 15 8, d 1 63 42, d 3 7 0, d 3 11 11, d 3 23 20, d 3 63 28, d 4 5 0, d 4 47 42, d 5 5 0, d 5 63 42, r >>> 384]
  else if d 0 7 0 = 2 then !allZero [d 0 15 8, r >>> 64]
  else true

/-- SUBMIT (R329). -/
def execSubmit (p : Fin 16) (s : State) : Host.Outcome State Fault Refusal :=
  match s.nextRequest p with
  | none => ok s
  | some r =>
    if dw r 0 7 0 != 1 || reqBad r then ok s
    else
      let d := dw r
      let k := (s.part p).serve
      let i := d 0 31 16
      let copy := 1 - s.get Fld.SV_STAT.COPY p
      let (old, _, s) := s.readBytes (scWho p) (k.copyBase copy + 64 * i) 64
      let why := s.placeReason p (d 1 41 0) (d 2 31 0) (d 2 63 32) (64 * d 4 41 6) (d 4 63 48) (64 * d 5 41 6)
      let (v, s) := s.variantOk p (d 3 19 12)
      let reason := if 2 ^ k.capLog2 ≤ i then 2 else if seqLive old then 1 else if why ≠ 0 then why else if !v then 3 else 0
      if reason ≠ 0 then ok (s.consume p (rejectRec r reason))
      else
        let e := 1 + d 3 10 8 <<< 8 + d 3 19 12 <<< 12 + d 3 27 24 <<< 20 + d 3 27 24 <<< 24 + d 0 63 32 <<< 32
        let e := dwSet (dwSet (dwSet e 1 63 32 (d 2 31 0)) 2 41 0 (d 1 41 0)) 3 63 32 (d 2 63 32)
        let e := dwSet (dwSet (dwSet e 4 63 0 (d 4 63 0)) 5 63 0 (d 5 63 0)) 7 8 0 256
        let s := s.writeEntry p copy i e
        let clear := fun (s : State) (g : Nat) =>
          if k.geoms.length ≤ g then s else s.writeOpen (scWho p) (seqPt e g) (4 * ptLength k.geoms e g) 0
        let s := clear (clear s 0) 1
        let q := s.part p
        ok ((s.setPart p { q with serve := { q.serve with dirty := setInsert q.serve.dirty i } }).consume p none)

/-- CANCEL (R329, R347). -/
def execCancel (p : Fin 16) (s : State) : Host.Outcome State Fault Refusal :=
  match s.nextRequest p with
  | none => ok s
  | some r =>
    if dw r 0 7 0 != 2 || reqBad r then ok s
    else
      let k := (s.part p).serve
      let i := dw r 0 31 16
      let (e, _, s) := s.readBytes (scWho p) (k.copyBase (1 - s.get Fld.SV_STAT.COPY p) + 64 * i) 64
      if decide (i < 2 ^ k.capLog2) && seqLive e && seqReq e == dw r 0 63 32 then
        let q := s.part p
        ok ((s.setPart p { q with serve := { q.serve with cancelled := setInsert q.serve.cancelled i } }).consume p none)
      else ok (s.consume p (rejectRec r 5))

/-- BAD_REQUEST (R329). -/
def execBadRequest (p : Fin 16) (s : State) : Host.Outcome State Fault Refusal :=
  match s.nextRequest p with
  | none => ok s
  | some r => if reqBad r then ok ((s.set Fld.SERVE_ERR.REQ_BAD 1 p).consume p (rejectRec r 2)) else ok s

/-- A row's result as the cores wrote it (R335): present, accepted tokens, DONE, the tokens. -/
def rowResult (r : ServeRow) (v : Nat) : Option (Nat × Bool × List Nat) :=
  let a := dw v 4 3 0
  if dw v 4 15 15 = 0 || r.depth < a || (r.final && a != 0) then none
  else some (a, dw v 4 8 8 == 1, cutBits 32 (v >>> 384) 16)

/-- The update of a decode row's depth (R349), THRESH, LOW and PROBE in force. -/
def depthUpdate (thresh low probe : Nat) (e a d' : Nat) : Nat :=
  let d := dw e 0 23 20
  let init := dw e 0 27 24
  if d = 0 then
    if init = 0 then e
    else
      let n := dw e 7 31 24 + 1
      if probe ≤ n then dwSet (dwSet (dwSet (dwSet e 0 23 20 init) 7 31 24 0) 7 8 0 thresh) 7 23 16 (low - 1)
      else dwSet e 7 31 24 n
  else if d' = 0 then e
  else
    let avg : Int := dw e 7 8 0
    let new := avg + (((a * 256 / d' : Nat) : Int) - avg) >>> 3
    let lows := if new < thresh then dw e 7 23 16 + 1 else 0
    let e := dwSet (dwSet e 7 8 0 new.toNat) 7 23 16 lows
    if low ≤ lows then dwSet (dwSet (dwSet e 0 23 20 0) 7 23 16 0) 7 31 24 0 else e

/-- What the commit of a serving step makes of one entry. -/
structure SeqOut where
  entry : Nat
  /-- Token record: NTOK, DONE, LIMIT, tokens. -/
  token : Option (Nat × Bool × Bool × List Nat)
  events : List (List Nat)
  ended : Bool
  tokens : Nat

/-- A row applied to its entry (R346). -/
def rowCommit (thresh low probe : Nat) (e : Nat) (r : ServeRow) (res : Nat × Bool × List Nat) : SeqOut :=
  let (a, dn, toks) := res
  let finish := fun (e n : Nat) (toks : List Nat) =>
    let lim := decide (seqMax e ≤ seqGen e)
    let isOver := dn || lim
    { entry := if isOver then dwSet e 0 1 0 0 else e, token := some (n, isOver, lim && !dn, toks.take n), events := []
      ended := isOver, tokens := n }
  if r.prefill && !r.final then
    { entry := dwSet e 1 31 0 (seqLen e + r.ntok), token := none, events := [], ended := false, tokens := 0 }
  else if r.final then
    let e := dwSet (dwSet (dwSet (dwSet e 1 31 0 (seqPrompt e)) 0 1 0 2) 3 31 0 1) 7 63 32 (nth 0 toks 0)
    finish e 1 toks
  else
    let e := dwSet (dwSet (dwSet e 1 31 0 (seqLen e + a + 1)) 3 31 0 (seqGen e + a + 1)) 7 63 32 (nth 0 toks a)
    finish (depthUpdate thresh low probe e a r.depth) (a + 1) toks

/-- The row of a plan that a sequence has, with its place among the rows. -/
def Plan.rowOf (pl : Plan) (seq : Nat) : Option (Nat × ServeRow) :=
  ((upFrom 0 pl.rows.length).zip pl.rows).find? (fun r => r.2.seq == seq)

/-- What the commit of plan pl makes of one live entry of the working copy (R340–R347): cancellation, swaps, its row with result res,
or its wait. `fresh` is an entry that this step created, `pts` holds its page tables. -/
def entryOut (k : PartSt) (pl : Plan) (fresh : Bool) (pts : SMap (List Nat)) (seq e : Nat) (res : Option (Nat × Bool × List Nat)) : SeqOut :=
  let ws := pl.swaps.filter (fun w => w.seq == seq)
  let outs := ws.filter (fun w => !w.restore)
  let ins := ws.filter (fun w => w.restore)
  let gone := fun (ev : List Nat) => (⟨dwSet e 0 1 0 0, none, [ev], true, 0⟩ : SeqOut)
  if k.serve.cancelled.contains seq then
    gone (eventRec 2 0 seq (seqReq e) (sumList (pts.map (fun q => (q.2.filter ptHere).length))))
  else if ws.any (fun w => w.bad) then gone (eventRec 6 0 seq (seqReq e) 0)
  else
    let evs := (if outs.isEmpty then [] else [eventRec 3 0 seq (seqReq e) outs.length]) ++
      (if ins.isEmpty then [] else [eventRec 4 0 seq (seqReq e) ins.length])
    let swappedLeft := sumList (pts.map (fun q => (q.2.filter ptSwapped).length)) - ins.length
    let e := if !outs.isEmpty then dwSet e 0 3 3 1 else if !ins.isEmpty && swappedLeft = 0 then dwSet e 0 3 3 0 else e
    match pl.rowOf seq with
    | none =>
      if fresh then ⟨e, none, evs, false, 0⟩
      else
        let w := Nat.min 65535 (seqWait e + 1)
        let starve := w == bits k.svCfg 47 32 && dw e 0 4 4 == 0
        let e := dwSet e 2 63 48 w
        ⟨if starve then dwSet e 0 4 4 1 else e, none, if starve then evs ++ [eventRec 5 0 seq (seqReq e) 0] else evs, false, 0⟩
    | some (_, r) =>
      let e := dwSet (dwSet e 2 63 48 0) 0 4 4 0
      match res with
      | none => ⟨e, none, evs, false, 0⟩
      | some res =>
        let o := rowCommit (bits k.svSpec 8 0) (bits k.svSpec 19 12) (bits k.svSpec 27 20) e r res
        { o with events := evs ++ o.events }

/-- The page-table entry a swap leaves at its commit (R340, R341). -/
def Swap.ptEntry (w : Swap) : Nat := if w.restore then ptSlot w.stack w.pch w.slot else w.image + 3 <<< 30

/-- The result an admission made during a step counts on for a row (R337; log 15): every draft accepted, no stop token. -/
def ServeRow.expected (r : ServeRow) : Nat × Bool × List Nat := (if r.prefill then 0 else r.depth, false, [])

/-- A live entry and its page tables as the commit of plan pl is expected to leave them, where the entry stays live (R337). -/
def foresee (k : PartSt) (pl : Plan) (old : List Nat) (pts : SMap (List Nat)) (seq e : Nat) : Option ((Nat × Nat) × SMap (List Nat)) :=
  let mine := pts.filter (fun q => q.1 / 2 == seq)
  let o := entryOut k pl (!seqLive (nth 0 old seq)) mine seq e ((pl.rowOf seq).map (fun r => r.2.expected))
  if o.ended then none
  else
    some ((seq, o.entry), (pl.swaps.filter (fun w => w.seq == seq)).foldl (fun m w =>
      smInsert m (2 * seq + w.geom) (setNth (smGet [] m (2 * seq + w.geom)) w.page w.ptEntry)) mine)

/-- The data of an admission of a serving step: live entries and page tables of the working copy, the plan, the swap
budget left, sequences out of this admission as victims, whether a pool had no free image, and the choices taken so far, of the
step and partition `step`. -/
structure Adm where
  ents : SMap Nat
  pts : SMap (List Nat)
  plan : Plan
  left : Nat
  out : List Nat
  poolFull : Bool
  step : Nat
  picks : Nat
  deriving DecidableEq, Repr

/-- What an admission needs of the partition: geometries, swap capacities, the spread's width, configuration in force. -/
structure AdmCfg where
  geoms : List Geom
  caps : List Nat
  spread : Nat
  swapOn : Bool
  chunk : Nat
  deriving DecidableEq, Repr

/-- Free slots of geometry g on a pan (R337). -/
def Adm.freeSlots (a : Adm) (g : Nat) (x : Geom) (stack pch : Nat) : List Nat :=
  let used := (a.pts.filter (fun e => e.1 % 2 == g)).flatMap (fun e => (e.2.filter (fun y => ptOn y stack pch)).map (fun y => bits y 15 0)) ++
    (a.plan.swaps.filter (fun w => w.restore && w.geom == g && w.stack == stack && w.pch == pch)).map (fun w => w.slot)
  (upFrom 0 x.ns).filter (fun k => !used.contains k)

/-- Free images of geometry g's pool (R339). -/
def Adm.freeImages (a : Adm) (c : AdmCfg) (g : Nat) : List Nat :=
  let used := (a.pts.filter (fun e => e.1 % 2 == g)).flatMap (fun e => (e.2.filter ptSwapped).map ptImage) ++
    (a.plan.swaps.filter (fun w => !w.restore && w.geom == g)).map (fun w => w.image)
  (upFrom 0 (nth 0 c.caps g)).filter (fun k => !used.contains k)

/-- One of several numbers, chosen freely: the spec does not say which free slot or image is taken. The choice is of the step and
the place in its admission, so that a retried step makes it again (R184; log 15). -/
def Adm.pick (a : Adm) (l : List Nat) : Nat × Adm :=
  (nth 0 l (Config.slotChoice a.step a.picks % Nat.max 1 l.length), { a with picks := a.picks + 1 })

/-- A free slot for logical page j of a sequence in geometry g (R313). -/
def Adm.place (a : Adm) (g : Nat) (x : Geom) (e j : Nat) : Option (Nat × Nat × Nat × Adm) :=
  let t := seqStack e
  let pans := (upFrom 0 (seqSpread e)).map (fun i => seqPan e (dw e 6 51 47 + j + i))
  match pans.find? (fun u => !(a.freeSlots g x t u).isEmpty) with
  | some u => let (k, a) := a.pick (a.freeSlots g x t u); some (t, u, k, a)
  | none => none

/-- An entry of a sequence's page table set. -/
def Adm.setPt (a : Adm) (seq g i v : Nat) : Adm :=
  let l := smGet [] a.pts (2 * seq + g)
  let l := l ++ List.replicate (i + 1 - l.length) 0
  { a with pts := smInsert a.pts (2 * seq + g) (setNth l i v) }

/-- Logical pages of a sequence given slots, one by one. -/
def Adm.takePages (a : Adm) (seq g : Nat) (x : Geom) (e : Nat) : List Nat → Option Adm
  | [] => some a
  | j :: l =>
    match a.place g x e j with
    | none => none
    | some (t, u, k, a) =>
      let a := a.setPt seq g (x.index j) (ptSlot t u k)
      ({ a with plan := { a.plan with reserved := a.plan.reserved ++ [(seq, g, x.index j)] } } : Adm).takePages seq g x e l

/-- Every geometry's pages for n tokens more taken, or the first geometry that falls short (R337). -/
def Adm.takeAll (a : Adm) (seq n : Nat) : List (Nat × Geom) → Except Nat Adm
  | [] => .ok a
  | (g, x) :: l =>
    let e := smGet 0 a.ents seq
    let need := x.slots (seqLen e + n)
    let have_ := seqAlloc e g
    match a.takePages seq g x e (upFrom have_ (need - have_)) with
    | none => .error g
    | some b => ({ b with ents := smInsert b.ents seq (seqSetAlloc e g (Nat.max need have_)) } : Adm).takeAll seq n l

/-- The newest logical page that uses an index of a page table (R308). -/
def newestPage (x : Geom) (e i : Nat) : Nat :=
  if x.window = 0 then i
  else
    let last := (Nat.max 1 (seqLen e) - 1) / x.tp
    if i ≤ last then i + (last - i) / x.ring * x.ring else i

/-- The swapped pages of a sequence: geometry, page-table index, pool image, in ascending order of the logical page (R341), those
of geometry 0 before those of geometry 1 (DESIGN CHOICE: the rule orders them within a geometry; log 15). -/
def Adm.swappedPages (a : Adm) (gs : List (Nat × Geom)) (seq : Nat) : List (Nat × Nat × Nat) :=
  gs.flatMap (fun e =>
    let l := smGet [] a.pts (2 * seq + e.1)
    let byPage := ((upFrom 0 l.length).zip l).foldl (fun m q =>
      if ptSwapped q.2 then smInsert m (newestPage e.2 (smGet 0 a.ents seq) q.1) (e.1, q.1, ptImage q.2) else m) ([] : SMap (Nat × Nat × Nat))
    byPage.map Prod.snd)

/-- Slots for swapped pages as far as the budget allows (R341), or the geometry that falls short. -/
def Adm.takeRestores (a : Adm) (c : AdmCfg) (seq : Nat) : List (Nat × Nat × Nat) → Except Nat Adm
  | [] => .ok a
  | (g, i, img) :: l =>
    match c.geoms[g]? with
    | none => .ok a
    | some x =>
      if a.left < x.stride then .ok a
      else
        let e := smGet 0 a.ents seq
        match a.place g x e (newestPage x e i) with
        | none => .error g
        | some (t, u, k, b) =>
          let w : Swap := { seq := seq, geom := g, page := i, stack := t, pch := u, slot := k, image := img, restore := true
                            ran := false, bad := false }
          ({ b with left := b.left - x.stride, plan := { b.plan with swaps := b.plan.swaps ++ [w] } } : Adm).takeRestores c seq l

/-- The spread of a sequence at its first reservation (R338), if the geometries share a stack: where none is named by every
geometry's STACKS, no slot can be the sequence's (R307, R320), and the reservation fails. -/
def Adm.fixSpread (a : Adm) (c : AdmCfg) (seq : Nat) : Option Adm :=
  let e := smGet 0 a.ents seq
  if seqAlloc e 0 ≠ 0 || seqAlloc e 1 ≠ 0 then some a
  else
    match c.geoms with
    | [] => none
    | x :: _ =>
      let stks := (upFrom 0 20).filter (fun t => c.geoms.all (fun g => bit g.stks t))
      let count := fun (t u : Nat) => (a.freeSlots 0 x t u).length
      let onStack := fun (t : Nat) => sumList ((upFrom 0 32).map (count t))
      let best := fun (f : Nat → Nat) (l : List Nat) => l.foldl (fun m k => match m with
        | none => some k
        | some b => if f b < f k then some k else some b) none
      (best onStack stks).map (fun t =>
        let run := fun (u : Nat) => sumList ((upFrom 0 c.spread).map (fun i => count t ((u + i) % 32)))
        let u := (best run (upFrom 0 32)).getD 0
        let e := dwSet (dwSet (dwSet (dwSet e 6 36 32 t) 6 41 37 u) 6 46 42 (c.spread - 1)) 6 51 47 (seq % c.spread)
        { a with ents := smInsert a.ents seq e })

/-- The slot a pre-emption takes next (R339): sequence, page-table index. -/
def Adm.victim (a : Adm) (g : Nat) (x : Geom) (cls : Nat) (stack : Nat) (pans : List Nat) : Option (Nat × Nat) :=
  let taken := fun (seq i : Nat) => a.plan.swaps.any (fun w => w.seq == seq && w.geom == g && w.page == i)
  let here := fun (seq : Nat) =>
    let l := smGet [] a.pts (2 * seq + g)
    ((upFrom 0 l.length).zip l).filter (fun q => pans.any (fun u => ptOn q.2 stack u) && !taken seq q.1)
  let cands := a.ents.filter (fun e =>
    seqLive e.2 && decide (seqClass e.2 < cls) && !a.plan.rows.any (fun r => r.seq == e.1) &&
      !a.plan.swaps.any (fun w => w.restore && w.seq == e.1) && !(here e.1).isEmpty)
  let held := fun (seq : Nat) => ((smGet [] a.pts (2 * seq + g)).filter ptHere).length
  let best := cands.foldl (fun (m : Option (Nat × Nat)) e => match m with
    | none => some e
    | some b =>
      if seqClass e.2 < seqClass b.2 || (seqClass e.2 == seqClass b.2 && held b.1 < held e.1) then some e else some b) none
  match best with
  | none => none
  | some (seq, e) =>
    let i := (here seq).foldl (fun (m : Option Nat) q => match m with
      | none => some q.1
      | some b => if newestPage x e b < newestPage x e q.1 then some q.1 else some b) none
    i.map (fun i => (seq, i))

/-- Slots taken from lower classes for the shortfall of a candidate (R339, R343). -/
def Adm.preempt (a : Adm) (c : AdmCfg) (g : Nat) (x : Geom) (cls stack : Nat) (pans : List Nat) : Nat → Adm
  | 0 => a
  | n + 1 =>
    match a.victim g x cls stack pans with
    | none => a
    | some (seq, i) =>
      if a.left < x.stride then a
      else
        match a.freeImages c g with
        | [] => { a with poolFull := true }
        | imgs =>
          let (img, a) := a.pick imgs
          let y := nth 0 (smGet [] a.pts (2 * seq + g)) i
          let w : Swap := { seq := seq, geom := g, page := i, stack := bits y 25 21, pch := bits y 20 16, slot := bits y 15 0
                            image := img, restore := false, ran := false, bad := false }
          ({ a with left := a.left - x.stride, out := setInsert a.out seq
                    plan := { a.plan with swaps := a.plan.swaps ++ [w] } } : Adm).preempt c g x cls stack pans n

/-- The number of slots a candidate lacks in a geometry. -/
def Adm.shortfall (a : Adm) (g : Nat) (x : Geom) (e need : Nat) : Nat :=
  need - sumList ((seqPans e).map (fun u => (a.freeSlots g x (seqStack e) u).length))

/-- The swapped pages a restore takes slots for: as many as the budget covers (R341). -/
def withinBudget (c : AdmCfg) : Nat → List (Nat × Nat × Nat) → List (Nat × Nat × Nat)
  | _, [] => []
  | left, q :: l =>
    let z := match c.geoms[q.1]? with | some x => x.stride | none => 0
    if left < z then [] else q :: withinBudget c (left - z) l

/-- Slots a candidate of n tokens, or a restore, needs in geometry g beyond those it holds (R337, R341). -/
def Adm.needs (a : Adm) (c : AdmCfg) (gs : List (Nat × Geom)) (seq n : Nat) (restore : Bool) (g : Nat) (x : Geom) : Nat :=
  let e := smGet 0 a.ents seq
  if restore then ((withinBudget c a.left (a.swappedPages gs seq)).filter (fun q => q.1 == g)).length
  else x.slots (seqLen e + n) - seqAlloc e g

/-- A reservation (R337, R339): taken, or refused with whatever it pre-empted, for every geometry that falls short. -/
def Adm.reserve (a : Adm) (c : AdmCfg) (seq n : Nat) (restore : Bool) : Bool × Adm :=
  let gs := (upFrom 0 c.geoms.length).zip c.geoms
  match if restore then some a else a.fixSpread c seq with
  | none => (false, a)
  | some b =>
    match if restore then b.takeRestores c seq (b.swappedPages gs seq) else b.takeAll seq n gs with
    | .ok d => (!(restore && d.plan.swaps.length == a.plan.swaps.length), d)
    | .error _ =>
      if !c.swapOn then (false, a)
      else
        let e := smGet 0 b.ents seq
        (false, gs.foldl (fun d q =>
          d.preempt c q.1 q.2 (seqClass e) (seqStack e) (seqPans e) (b.shortfall q.1 q.2 e (b.needs c gs seq n restore q.1 q.2))) a)

/-- Pages the row of a sequence reads in geometry g: logical pages (R311). -/
def rowPages (x : Geom) (len n : Nat) : List Nat :=
  let first := if x.window = 0 then 0 else (len + 1 - x.window) / x.tp
  let last := (len + n - 1) / x.tp
  upFrom first (last + 1 - first)

/-- The plan with a row's tokens and pages added. -/
def Adm.addRow (a : Adm) (c : AdmCfg) (r : ServeRow) : Adm :=
  let e := smGet 0 a.ents r.seq
  let gs := (upFrom 0 c.geoms.length).zip c.geoms
  let stks := gs.flatMap (fun q => (rowPages q.2 (seqLen e) r.ntok).map (fun j =>
    bits (nth 0 (smGet [] a.pts (2 * r.seq + q.1)) (q.2.index j)) 25 21))
  let by_ := stks.foldl (fun m t => smPut 0 m t (smGet 0 m t + 1)) a.plan.pagesBy
  let pl := a.plan
  { a with plan := { pl with rows := pl.rows ++ [r], tokens := pl.tokens + r.ntok, seqs := pl.seqs + 1
                             pages := pl.pages + stks.length, pagesBy := by_ } }

/-- The kind of a candidate in the order of R336: decode, restore, prefill. -/
def candKind (e : Nat) : Nat := if seqSwapped e then 1 else if seqState e = 2 then 0 else 2

/-- Whether one candidate comes before another (R336). -/
def candBefore (x y : Nat × Nat) : Bool :=
  let a := x.2
  let b := y.2
  if seqClass a ≠ seqClass b then decide (seqClass b < seqClass a)
  else if seqWait a ≠ seqWait b then decide (seqWait b < seqWait a)
  else if candKind a ≠ candKind b then decide (candKind a < candKind b)
  else decide (x.1 < y.1)

/-- A candidate put in its place among others. -/
def candInsert (x : Nat × Nat) : List (Nat × Nat) → List (Nat × Nat)
  | [] => [x]
  | y :: l => if candBefore x y then x :: y :: l else y :: candInsert x l

/-- The row a candidate would take within the token budget left, if it is offered (R336). -/
def candRow (chunk left seq e : Nat) : Option ServeRow :=
  if seqState e = 2 then
    let d := Nat.min (dw e 0 23 20) (seqMax e - seqGen e - 1)
    if d + 1 ≤ left then some ⟨seq, false, false, d, d + 1⟩ else none
  else
    let c := Nat.min chunk (seqPrompt e - seqLen e)
    if c ≤ left then some ⟨seq, true, seqLen e + c == seqPrompt e, 0, c⟩
    else
      let c := left / 16 * 16
      if c < 16 then none else some ⟨seq, true, false, 0, c⟩

/-- The candidates offered in order until one does not fit or a bound is reached (R60, R336). The truth value says that
admission goes on. -/
def State.admitSeqs (s : State) (p : Nat) (l : Limits) (en : AlmEntry) (c : AdmCfg) (ringFree : Nat) :
    List (Nat × Nat) → Adm → Bool × Adm
  | [], a => (true, a)
  | (seq, e) :: cs, a =>
    let outs := (a.plan.rows.filter (fun r => !r.prefill || r.final)).length
    if Nat.min en.seqMax 256 ≤ a.plan.rows.length || en.tokMax ≤ a.plan.tokens || ringFree ≤ outs then (true, a)
    else if a.out.contains seq then s.admitSeqs p l en c ringFree cs a
    else if seqSwapped e then
      if !c.swapOn then s.admitSeqs p l en c ringFree cs a
      else
        let (okay, b) := a.reserve c seq 0 true
        if okay && !(s.fits p l en.items b.plan).1 then (false, a)
        else s.admitSeqs p l en c ringFree cs b
    else
      match candRow c.chunk (en.tokMax - a.plan.tokens) seq e with
      | none => s.admitSeqs p l en c ringFree cs a
      | some r =>
        match a.reserve c seq r.ntok false with
        | (false, b) => s.admitSeqs p l en c ringFree cs b
        | (true, b) =>
          let b := b.addRow c r
          if (s.fits p l en.items b.plan).1 then s.admitSeqs p l en c ringFree cs b else (false, a)

/-- The OPTIONAL items offered in ascending order until one does not fit (R60). -/
def State.admitItems (s : State) (p : Nat) (l : Limits) (en : AlmEntry) : List Nat → Plan → Plan
  | [], pl => pl
  | i :: is, pl =>
    let t := { pl with items := setInsert pl.items i }
    if (s.fits p l en.items t).1 then s.admitItems p l en is t else pl

/-- The free slots of ring 0 (R333). -/
def State.ringFree (s : State) (p r : Nat) : Nat :=
  match (s.part p).serve.rings[r]? with
  | some x => if x.en then 2 ^ x.sizeLog2 - (x.prod + 2 ^ 64 - s.hostRead (x.host + 256 * 2 ^ x.sizeLog2 + 64) 8) % 2 ^ 64 else 0
  | none => 0

/-- The copies of the table made equal where they differ (R323). -/
def State.syncCopies (s : State) (p : Nat) : State :=
  let k := (s.part p).serve
  let copy := s.get Fld.SV_STAT.COPY p
  let s := k.dirty.foldl (fun s i =>
    let (e, _, s) := s.readBytes (scWho p) (k.copyBase copy + 64 * i) 64
    s.writeEntry p (1 - copy) i e) s
  let q := s.part p
  s.setPart p { q with serve := { q.serve with dirty := [] } }

/-- What an admission did written to memory: the allocations and the spread of entries of the working copy (R325, R338), and the
page tables. -/
def State.writeAdm (s : State) (p : Nat) (old a : Adm) : State :=
  let copy := 1 - s.get Fld.SV_STAT.COPY p
  let changed := a.ents.filter (fun e => smFind old.ents e.1 != some e.2)
  let s := changed.foldl (fun s e => s.writeOpen (scWho p) ((s.part p).serve.copyBase copy + 64 * e.1 + 48) 8 (dw e.2 6 63 0)) s
  let s := a.plan.reserved.foldl (fun s r =>
    let e := smGet 0 a.ents r.1
    s.writeOpen (scWho p) (seqPt e r.2.1 + 4 * r.2.2) 4 (nth 0 (smGet [] a.pts (2 * r.1 + r.2.1)) r.2.2)) s
  let s := if a.poolFull then s.set Fld.SERVE_ERR.POOL_FULL 1 p else s
  let q := s.part p
  s.setPart p { q with serve := { q.serve with dirty := changed.foldl (fun l e => setInsert l e.1) q.serve.dirty } }

/-- A plan with the mandatory items of an entry and nothing else. -/
def AlmEntry.mandatory (en : AlmEntry) (entry b k : Nat) : Plan :=
  { entry := entry, opens := b, retry := k
    items := ((upFrom 0 en.items.length).zip en.items).filterMap (fun e => if e.2.optional then none else some e.1)
    tokens := 0, seqs := 0, pages := 0, pagesBy := [], fin := 0, opp := 0, rows := [], reserved := [], swaps := [] }

/-- The live entries and page tables an admission counts with: those of the working copy, or, while a serving step runs, what its
commit is expected to leave of them (R337). -/
def State.admitView (s : State) (p : Nat) : List (Nat × Nat) × SMap (List Nat) × State :=
  let copy := s.get Fld.SV_STAT.COPY p
  let (t, s) := s.readTable p (1 - copy)
  let live := liveOf t
  let (pts, s) := s.readPts p (s.part p).serve.geoms live
  match s.serving p, (s.part p).plan with
  | true, some pl =>
    let (old, s) := s.readTable p copy
    let ahead := live.filterMap (fun e => foresee (s.part p) pl old pts e.1 e.2)
    (ahead.map Prod.fst, ahead.foldl (fun m x => x.2.foldl (fun m q => smInsert m q.1 q.2) m) [], s)
  | _, _ => (live, pts, s)

/-- An entry without the token it emitted last, which no admission looks at. -/
def noToken (e : Nat × Nat) : Nat × Nat := (e.1, dwSet e.2 7 63 32 0)

/-- Records of ring 0 that a partition's step in progress may still write (R333). -/
def State.recordsDue (s : State) (p : Nat) : Nat :=
  match s.serving p, (s.part p).plan with
  | true, some pl => (pl.rows.filter (fun r => !r.prefill || r.final)).length
  | _, _ => 0

/-- Whether the entries an admission counted on are those the commit left (R337; log 15). -/
def State.foreseenHolds (s : State) (p : Nat) : Bool × State :=
  let (t, s) := s.readTable p (1 - s.get Fld.SV_STAT.COPY p)
  ((liveOf t).map noToken == (s.part p).serve.foreseen, s)

/-- The admission of a window (R60): its plan. -/
def State.admitWindow (s : State) (p entry b k t0 : Nat) (en : AlmEntry) : Plan × State :=
  let l := s.limits p b k t0
  let base := { en.mandatory entry b k with opp := l.opp }
  let opts := ((upFrom 0 en.items.length).zip en.items).filterMap (fun e => if e.2.optional then some e.1 else none)
  let done := fun (s : State) (pl : Plan) => ({ pl with fin := (s.fits p l en.items pl).2 * 65536 / (l.mhz * Nat.max 1 (s.windowNs p)) }, s)
  if !en.serve || !s.is Fld.SV_STAT.INSTALLED p then done s (s.admitItems p l en opts base)
  else
    let q := s.part p
    let (live, pts, s) := s.admitView p
    let c : AdmCfg := { geoms := q.serve.geoms, caps := q.serve.swapCap, spread := bits q.svPlace 4 0 + 1
                        swapOn := bits q.svCfg 63 48 != 0 && !s.pcieOnly, chunk := bits q.svCfg 20 8 }
    let a : Adm := { ents := live, pts := pts, plan := base, left := bits q.svCfg 63 48 * 1048576, out := [], poolFull := false
                     step := 16 * (s.get Fld.COMMIT_NUM.COMMITS p + b2n (s.serving p)) + p, picks := 0 }
    let (more, b) := s.admitSeqs p l en c (s.ringFree p 0 - s.recordsDue p) (live.foldl (fun l x => candInsert x l) []) a
    let s := s.writeAdm p a b
    let r := s.part p
    let s := s.setPart p { r with serve := { r.serve with foreseen := b.ents.map noToken } }
    done s (if more then s.admitItems p l en opts b.plan else b.plan)

/-- The records of a plan's rows written to the step record before the window's first issue (R334). -/
def State.writeStepRecord (s : State) (p : Nat) (pl : Plan) : State :=
  let k := (s.part p).serve
  let copy := 1 - s.get Fld.SV_STAT.COPY p
  let hd := (s.get Fld.COMMIT_NUM.COMMITS p + 1) % 2 ^ 64 + (pl.rows.length + pl.tokens <<< 16) <<< 64
  let s := s.writeRaw (scWho p) k.stepRec 64 hd
  (pl.rows.foldl (fun (x : Nat × Nat × State) r =>
    let (i, off, s) := x
    let (e, _, s) := s.readBytes (scWho p) (k.copyBase copy + 64 * r.seq) 64
    let w0 := r.seq + b2n r.prefill <<< 16 + b2n r.final <<< 17 + r.depth <<< 20 + seqVariant e <<< 24
    let w1 := seqLen e + r.ntok <<< 32
    let w2 := off + (if r.prefill then 0 else dw e 7 63 32) <<< 32
    (i + 1, off + r.ntok, s.writeRaw (scWho p) (k.stepRec + 64 + 128 * i) 32 (w0 + w1 <<< 64 + w2 <<< 128))) (0, 0, s)).2.2

/-- The swap of a plan that runs next. -/
def Plan.nextSwap (pl : Plan) (restore : Bool) : Option Swap := pl.swaps.find? (fun w => w.restore == restore && !w.ran)

/-- A swap's outcome entered in the plan of the step. -/
def State.swapRan (s : State) (p : Nat) (w : Swap) (bad : Bool) : State :=
  let k := s.part p
  s.setPart p { k with plan := k.plan.map (fun pl => { pl with
    swaps := pl.swaps.map (fun x => if x = w then { x with ran := true, bad := bad } else x) }) }

/-- Bytes of swap images moved (SV_CNT_SWAP, R367). -/
def State.swapMoved (s : State) (p n : Nat) : State := (s.count Fld.SV_CNT_SWAP.BYTES n p).account (some p) 9 n

/-- The pages of a slot in the order of R340. -/
def Geom.pagesOf (g : Geom) (w : Swap) : List Nat :=
  (upFrom 0 (2 * g.layers)).map (fun q => g.page w.stack w.pch w.slot (q / 2) (q % 2))

/-- Pages copied to a pool image, and whether one had an uncorrectable line (R340, R342). -/
def State.swapPagesOut (s : State) (p img : Nat) : List (Nat × Nat) → Bool × State
  | [] => (false, s)
  | (i, a) :: l =>
    let (v, bad, s) := s.readBytes (scWho p) a 65536
    let s := (s.traffic (scWho p) false false a 65536).hostWrite (img + 65536 * i) 65536 v
    let (b, s) := s.swapPagesOut p img l
    (bad.isSome || b, s)

/-- The record of a granule in a swap image (R340). -/
def granRecord (x : Gran) : Nat :=
  x.crc.toNat + (match x.state with | .unwritten => 0 | .shut => 1 | .opened => 2) <<< 32

/-- SWAP_OUT (R340, R342). -/
def execSwapOut (p : Fin 16) (s : State) : Host.Outcome State Fault Refusal :=
  let k := s.part p
  match k.phase, s.inEve p, k.plan.bind (fun pl => pl.nextSwap false) with
  | .active, false, some w =>
    match k.serve.geoms[w.geom]? with
    | none => ok s
    | some g =>
      if !s.stackUp w.stack || s.pcieOnly then ok s
      else
        let img := nth 0 k.serve.swapPool w.geom + w.image * g.stride
        let pages := g.pagesOf w
        let recs := pages.flatMap (fun a => (upFrom (a / 4096) 16).map (fun h => granRecord (s.granule h)))
        let (bad, s) := s.swapPagesOut p img ((upFrom 0 pages.length).zip pages)
        let s := s.hostWriteList (img + 65536 * pages.length) (recs.flatMap (bytesOf 8))
        ok ((s.swapMoved p g.stride).swapRan p w bad)
  | _, _, _ => ok s

/-- Granules of an image written back, and whether a sealed one differs from its record (R341, R342). -/
def State.swapGranIn (s : State) (p img recs : Nat) : List (Nat × Nat) → Bool × State
  | [] => (false, s)
  | (i, a) :: l =>
    let v := s.hostRead (img + 4096 * i) 4096
    let r := s.hostRead (recs + 8 * i) 8
    let bad := bits r 33 32 == 1 && crc32c (bytesOf 4096 v) != bits r 31 0
    let s := (s.writeOpen (scWho p) a 4096 v).traffic (scWho p) false true a 4096
    let (b, s) := s.swapGranIn p img recs l
    (bad || b, s)

/-- RESTORE (R341, R342). -/
def execRestore (p : Fin 16) (s : State) : Host.Outcome State Fault Refusal :=
  let k := s.part p
  match k.phase, s.inEve p, k.plan.bind (fun pl => pl.nextSwap true) with
  | .active, false, some w =>
    match k.serve.geoms[w.geom]? with
    | none => ok s
    | some g =>
      if !s.stackUp w.stack || s.pcieOnly then ok s
      else
        let img := nth 0 k.serve.swapPool w.geom + w.image * g.stride
        let grans := (g.pagesOf w).flatMap (fun a => (upFrom 0 16).map (fun h => a + 4096 * h))
        let (bad, s) := s.swapGranIn p img (img + 4096 * grans.length) ((upFrom 0 grans.length).zip grans)
        ok ((s.swapMoved p g.stride).swapRan p w bad)
  | _, _, _ => ok s

/-- A record of at most 256 bytes put in the next slot of an output ring, the producer index kept in the device until
the end of the commit (R330, R333). -/
def State.ringPut (s : State) (p r : Nat) (l : List Byte) : State :=
  let k := s.part p
  match k.serve.rings[r]? with
  | some x =>
    if x.en && s.ringFree p r != 0 then
      let s := s.hostWriteList (x.host + 256 * (x.prod % 2 ^ x.sizeLog2)) l
      let x := { x with prod := (x.prod + 1) % 2 ^ 64 }
      (s.setPart p { k with serve := { k.serve with rings := setNth k.serve.rings r x } }).account (some p) 9 l.length
    else s.set Fld.SERVE_ERR.RING_OVF 1 p
  | none => s.set Fld.SERVE_ERR.RING_OVF 1 p

/-- The producer indices of rings written, with a signal of each ring that received a record (R37, R330). -/
def State.ringsDone (s : State) (p : Nat) (before : List Ring) : State :=
  ((upFrom 0 16).zip (before.zip (s.part p).serve.rings)).foldl (fun s e =>
    let x := e.2.2
    if e.2.1.prod = x.prod then s
    else
      let s := s.hostWrite (x.host + 256 * 2 ^ x.sizeLog2) 8 x.prod
      if x.vecEn then s.msix x.vector else s) s

end Sys2Proof.Machine
end

