-- ==== Sys2Proof/Machine/Steps.lean ====
section
/-!
DEFINITION. Steps: starting and stopping a partition, windows and the eve, blocks, the busy sample, commit, the vote,
abandonment and retry (R33–R48, R52, R60, R65–R68, R119, R346, R347, R349, R367–R369, R427).
-/
namespace Sys2Proof.Machine

/-- Whether partition p's own side of a step is ready: no engine busy at the tick, and die 1's report in (R36, R40). -/
def State.ownReady (s : State) (p : Nat) : Bool :=
  let k := s.part p
  k.phase = .ready && (k.die1Ready || !(s.hasDie p 0 && s.hasDie p 1))

/-- This device's READY made known (R427): sent to the leader, or counted by it. -/
def State.castReady (s : State) (p : Nat) : State :=
  if !s.votes p then s
  else
    let k := s.part p
    let g := s.leadGroup p
    if !s.leads p then s.sendDev (s.memberDev g 0) (.vote g k.openTick true)
    else
      let others := upFrom 1 (s.get Fld.GRP_CFG.MEMBERS g - 1)
      if others.all (fun r => k.heard.contains r) then s.decideVote p true else s

/-- The tick base a window of p that opens at a boundary would carry. -/
def State.tickOf (s : State) (at_ : Nat) : Nat := at_ / Nat.max 1 s.periodNs

/-- A plan put in force in an open window (R60, R334): the records of the admission, and items that may issue. -/
def State.activate (s : State) (p : Nat) (pl : Plan) : State :=
  let k := s.part p
  let s := s.setPart p { k with
    phase := .active, plan := some pl, nextPlan := none, issued := [], done := [], die1Ready := false, heard := []
    decision := none, inDoubt := false, abandon := none
    serve := { k.serve with chosen := [], paths := [] } }
  let s := s.setWord Reg.ADMIT_REC p 0 (pl.tokens % 65536 + (pl.seqs % 65536) <<< 16 + Nat.min 0xFFFF pl.fin <<< 32)
  let s := (s.set Fld.STEP_STATE.OPP pl.opp p).set Fld.ALM_CUR.ENTRY pl.entry p
  let s := match s.stepEntry p with
    | some e => if e.serve && s.is Fld.SV_STAT.INSTALLED p then s.writeStepRecord p pl else s
    | none => s
  s.issueAll p ((s.planItems p).length + 1)

/-- The cores of a partition that a fault stopped are IDLE again when its next window opens (DEDUCED from R44, R45: the retry
runs there, and the spec names no other end of FAULTED; log 5). -/
def State.endFaulted (s : State) (p : Nat) : State :=
  ((s.coresOf p).filter (fun c => (s.core c).run = .faulted)).foldl (fun s c => s.setCore c { s.core c with run := .idle }) s

/-- A window opened at a boundary, unless a stop or a leap tick forbids it (R33, R52, R292). -/
def State.openWindow (s : State) (p at_ : Nat) : State :=
  let k := s.part p
  let b := s.tickOf at_
  if k.stopAtBoundary then s.haltPart p false
  else if s.leapMeets b (s.stepLen p) then
    (s.set Fld.STEP_STATE.STATE stHeld p).setPart p { k with phase := .idle, startPend := false, resumePend := false, nextPlan := none }
  else
    let s := ((s.endFaulted p).set Fld.STEP_STATE.STATE stRunning p).setPart p { k with
      phase := .opening, startPend := false, resumePend := false, openAt := at_, openTick := b
      eve := false, eveStalled := false, plan := none, abandon := none, passed := false }
    match k.nextPlan with
    | some pl =>
      if pl.opens = b && pl.entry = k.entry && pl.retry = s.get Fld.STEP_STATE.RETRY_COUNT p then
        if (match s.stepEntry p with | some e => e.serve | none => false) && s.is Fld.SV_STAT.INSTALLED p then
          match s.foreseenHolds p with
          | (true, s) => s.activate p pl
          | (false, s) => s.setPart p { s.part p with nextPlan := none }
        else s.activate p pl
      else s
    | none => s

/-- The window that opened at a tick taken, or, where it has passed meanwhile or the tick's number no longer stands (R512), the
next one left to its boundary. -/
def State.reopen (s : State) (p at_ : Nat) : State :=
  if at_ ≤ s.now && s.now < at_ + s.windowNs p then s.openWindow p at_ else s.set Fld.STEP_STATE.STATE stRunning p

/-- A write of STEP_CFG (R63). -/
def State.stepCfgPut (s : State) (p w mask : Nat) : State :=
  let old := s.word Reg.STEP_CFG p 0
  let m := mergeMask mask w old
  let len := bits m 9 0
  let ph := bits m 25 16
  let moved := len != bits old 9 0 || ph != bits old 25 16
  if len < ph || (moved && s.pstate p == stRunning) then s.set Fld.STEP_ERR.CFG_REFUSED 1 p
  else
    let m := setBits m 41 32 (clamp 10 500 (bits m 41 32))
    let m := setBits m 63 56 (Nat.min 64 (bits m 63 56))
    s.setWord Reg.STEP_CFG p 0 (mergeMask (keptMask (fun _ => true) Reg.STEP_CFG) m 0)

/-- STEP_CFG_WRITE (R63). -/
def execStepCfgWrite (p : Fin 16) (v : Word) (s : State) : Host.Outcome State Fault Refusal :=
  occurs (s.serves 0) s (s.stepCfgPut p v.toNat fullMask)

/-- START written (R58). -/
def State.start (s : State) (p : Nat) : State :=
  if s.pstate p != stIdle || s.wornBars p then s
  else
    let s := if s.is Fld.ALM_NEXT.VALID p then (s.installAlmanac p).2 else s
    let k := s.part p
    if k.alm.isNone then s
    else
      ((s.set Fld.COMMIT_NUM.COMMITS 0 p).set Fld.STEP_STATE.RETRY_COUNT 0 p).setPart p { k with
        startPend := true, stopReq := false, quiesceReq := false, stoppedFor := [], stopAtBoundary := false, lastColl := false
        retryLate := false }

/-- START (R58). -/
def execStart (p : Fin 16) (s : State) : Host.Outcome State Fault Refusal := occurs (s.serves 0) s (s.start p)

/-- Whether a step of p is in progress, its abandonment or commit included. -/
def State.stepping (s : State) (p : Nat) : Bool :=
  let k := s.part p
  k.phase = .active || k.phase = .ready || k.phase = .abandoning

/-- STOP or QUIESCE written (R47). A QUIESCE of a partition already STOPPED makes it QUIESCED: STEP_CTRL gives it "as STOP,
then QUIESCED with all engines idle" (DEDUCED; log 5). -/
def State.stop (s : State) (p : Nat) (quiesce : Bool) : State :=
  let k := s.part p
  let st := s.pstate p
  if st == stRunning || st == stStopping || st == stHeld then
    if s.stepping p then
      (s.set Fld.STEP_STATE.STATE stStopping p).setPart p { k with stopReq := true, quiesceReq := k.quiesceReq || quiesce }
    else s.haltPart p quiesce
  else if k.startPend || k.resumePend then s.haltPart p quiesce
  else if quiesce && st == stStopped then s.set Fld.STEP_STATE.STATE stQuiesced p
  else s

/-- STOP (R47). -/
def execStop (p : Fin 16) (s : State) : Host.Outcome State Fault Refusal := occurs (s.serves 0) s (s.stop p false)
/-- QUIESCE (R47). -/
def execQuiesce (p : Fin 16) (s : State) : Host.Outcome State Fault Refusal := occurs (s.serves 0) s (s.stop p true)

/-- RESUME written (R45, R48). -/
def State.resumePart (s : State) (p : Nat) : State :=
  let k := s.part p
  if (s.pstate p == stStopped || s.pstate p == stQuiesced) && k.alm.isSome && !s.wornBars p then
    ((s.set Fld.STEP_STATE.RETRY_COUNT 0 p).set Fld.STEP_STATE.RETRY_EXHAUSTED 0 p).setPart p { k with
      resumePend := true, stoppedFor := [], stopAtBoundary := false, stopReq := false, quiesceReq := false, lastColl := false
      retryLate := false }
  else s

/-- RESUME (R45). -/
def execResume (p : Fin 16) (s : State) : Host.Outcome State Fault Refusal := occurs (s.serves 0) s (s.resumePart p)

/-- A write of STEP_CTRL. -/
def State.stepCtrlPut (s : State) (p w : Nat) : State :=
  let s := if bit w 0 then s.start p else s
  let s := if bit w 1 then s.stop p false else s
  let s := if bit w 2 then s.stop p true else s
  if bit w 3 then s.resumePart p else s

/-- ADMISSION (R60): the plan of the open window, or of the next one while a step runs. The plan of a serving window made during a
step counts with what the commit of that step is expected to leave (R337), and stands if the commit leaves that; else it is made
again once the window is open (DESIGN CHOICE: the spec does not say how an admission counts with lengths not committed yet; log 15). -/
def execAdmission (p : Fin 16) (s : State) : Host.Outcome State Fault Refusal :=
  let k := s.part p
  if !s.isUp 0 then ok s
  else
    match k.phase with
    | .opening =>
      match s.stepEntry p with
      | some e =>
        let (pl, s) := s.admitWindow p k.entry k.openTick (s.get Fld.STEP_STATE.RETRY_COUNT p) (s.startDelay p k.lastColl k.retryLate) e
        ok (s.activate p pl)
      | none => ok s
    | .active =>
      match s.stepEntry p with
      | some cur =>
        match s.entryOf p cur.next, s.pstate p == stRunning with
        | some e, true =>
          let b := k.openTick + s.stepLen p
          if (e.serve && k.nextPlan.isSome) || s.leapMeets b (s.stepLen p) then ok s
          else
            let (pl, s) := s.admitWindow p cur.next b 0 (s.startDelay p cur.hasColl false) e
            ok (s.setPart p { s.part p with nextPlan := some pl })
        | _, _ => ok s
      | none => ok s
    | _ => ok s

/-- EVE_BEGIN (R34, R35): time passes to the eve of the open window. -/
def execEveBegin (p : Fin 16) (s : State) : Host.Outcome State Fault Refusal :=
  let k := s.part p
  if !s.isUp 0 || k.eve || !(k.phase = .active || k.phase = .opening) then ok s
  else
    match s.advanceTo (k.openAt + s.windowNs p - s.eveNs p) with
    | some s => ok (s.setPart p { s.part p with eve := true })
    | none => ok s

/-- A core at the start of a block (R66, R70, R135, R509): the arguments in X1–X7, VL, VROW and SR_SEED at their start
values, both accumulator banks zero, the instruction buffer empty. -/
def CoreSt.startBlock (k : CoreSt) (c n : Nat) (i : AlmItem) (args : List Nat) : CoreSt :=
  { k with
    x := args.map (BitVec.ofNat 64) ++ List.replicate (32 - args.length) 0, pc := i.body, body := i.body, bodyLen := i.bodyLen
    item := n, run := .running, vl := 0, vrow := 512
    seed := BitVec.ofNat 64 (seedOf ([nth 0 args 1, c, nth 0 args 5].flatMap (bytesOf 8))), acc0 := [], acc1 := []
    ibuf := [], semWait := none, cycStart := k.cyc }

/-- BLOCK_START (R65, R66): the BLOCK item of core c that may issue starts. -/
def execBlockStart (c : Fin 12) (s : State) : Host.Outcome State Fault Refusal :=
  match s.partOf c with
  | none => ok s
  | some p =>
    let k := s.core c
    match (s.planItems p).find? (fun e => e.2.kind == kBlock && e.2.unit == c.val && !(s.part p).issued.contains e.1) with
    | none => ok s
    | some (n, i) =>
      if k.run != .idle || s.inEve p || !s.itemReady p n i || !s.isUp (dieOfCore c) then ok s
      else
        let pl := (s.part p).plan.getD (AlmEntry.mandatory ⟨false, false, false, 0, 0, 0, []⟩ 0 0 0)
        let serve := match s.stepEntry p with | some e => e.serve | none => false
        let args := [0, s.get Fld.COMMIT_NUM.COMMITS p + 1, pl.tokens, pl.seqs, pl.entry, n, s.get Fld.STEP_STATE.RETRY_COUNT p,
          if serve then (s.part p).serve.stepRec else 0]
        ok ((s.setCore c (k.startBlock c n i args)).issued p n)

/-- Whether every engine instruction of core c's block is complete (R67). -/
def State.engineIdle (s : State) (c : Nat) : Bool :=
  let k := s.core c
  !k.queue.any (fun e => e.item.isNone) && k.ftq.isEmpty && !s.anyReq (fun r => r.ofCore c && r.agent != .scalar c) &&
    !s.batches.any (fun b => b.core == c && b.item.isNone)

/-- A block's end recorded, its item complete (R67, BLK_LAST). -/
def State.endBlock (s : State) (c p : Nat) : State :=
  let k := s.core c
  let cyc := (k.cyc - k.cycStart) / 1000
  let bound := match (s.part p).plan, s.planItem p k.item with
    | some pl, some i => s.itemCycles p pl i
    | _, _ => 0
  let isOver := decide (bound < cyc)
  let s := s.setWord Reg.BLK_LAST c 0 (cyc % 2 ^ 32 + (k.item % 1024) <<< 32 + b2n isOver <<< 48)
  let s := if isOver then s.count Fld.BLK_OVER_CNT.COUNT 1 c else s
  (s.setCore c { k with run := .idle }).itemComplete p k.item

/-- BLOCK_END (R67). -/
def execBlockEnd (c : Fin 12) (s : State) : Host.Outcome State Fault Refusal :=
  match s.partOf c with
  | none => ok s
  | some p =>
    if (s.core c).run = .ended && s.engineIdle c && (s.part p).phase = .active && s.isUp (dieOfCore c) then ok (s.endBlock c p)
    else ok s

/-- RC_INV (R86). -/
def execRcInv (c : Fin 12) (s : State) : Host.Outcome State Fault Refusal := occurs (s.serves (dieOfCore c)) s (s.invalidate c)

/-- TRF_CLEAR written (R74): only while the core is unassigned or idle. -/
def State.trfClear (s : State) (c : Nat) : State :=
  let k := s.core c
  if k.run = .idle then s.setCore c { k with trf := [], trfBad := [], trfCe := [] } else s

/-- TRF_CLEAR (R74). -/
def execTrfClear (c : Fin 12) (s : State) : Host.Outcome State Fault Refusal := occurs (s.serves (dieOfCore c)) s (s.trfClear c)

/-- CLR_CNT (R75). -/
def execClrCnt (c : Fin 12) (s : State) : Host.Outcome State Fault Refusal :=
  occurs (s.serves (dieOfCore c)) s (s.set Fld.ECC_STAT.TRF_CE 0 c)

/-- A write of CORE_CTRL: RC_INV, TRF_CLEAR, CLR_CNT. -/
def State.coreCtrlPut (s : State) (c w : Nat) : State :=
  let s := if bit w 0 then s.invalidate c else s
  let s := if bit w 1 then s.trfClear c else s
  if bit w 2 then s.set Fld.ECC_STAT.TRF_CE 0 c else s

/-- The stores a core still holds performed before the next window (R272, R106: a domain that is down faults). -/
def State.drainStores (s : State) (c p : Nat) : State :=
  let k := s.core c
  k.stq.foldl (fun s e => s.performStore c p e) (s.setCore c { k with stq := [] })

/-- The first busy engine of a partition, in the order of R43: its class and unit. -/
def State.busyEngine (s : State) (p : Nat) : Option (Nat × Nat) :=
  let cs := s.coresOf p
  let has := fun (c : Nat) (g : Eng) => (s.core c).queue.any (fun e => e.eng = g)
  let first := fun (cls : Nat) (f : Nat → Bool) => (cs.find? f).map (fun c => (cls, c))
  let scalar := first 6 (fun c => (s.core c).run = .running)
  let mxu := first 0 (fun c => has c .mxu || !(s.core c).ftq.isEmpty)
  let ve := first 1 (fun c => has c .ve)
  let xe := first 2 (fun c => has c .xe || s.anyReq (fun r => r.agent = .xe c))
  let pip := first 3 (fun c => has c .pip || s.anyReq (fun r => r.agent = .pip c) ||
    s.batches.any (fun b => b.core == c && b.item.isNone && (!b.await.isEmpty || !b.words.isEmpty)))
  let pans := (s.batches.filter (fun b => b.part == p)).flatMap (fun b => b.pans)
  let pan := if pans.isEmpty then none else some (4, panStack (pans.foldl Nat.min (nth 0 pans 0)))
  let dies := (s.colls.filter (fun x => x.part == p)).map (fun x => x.die)
  let coll := if dies.isEmpty then none else some (5, dies.foldl Nat.min 1)
  scalar <|> mxu <|> ve <|> xe <|> pip <|> pan <|> coll

/-- Whether a transfer the step controller runs for a partition is unfinished: a swap, or its traffic (R36, R340). -/
def State.swapsLeft (s : State) (p : Nat) : Bool :=
  (match (s.part p).plan with | some pl => pl.swaps.any (fun w => !w.ran) | none => false) ||
    s.anyReq (fun r => r.agent = .sc 0 && r.sluice == p)

/-- Fields that act at partition p's step boundary, and the budgets renewed there (R8, R213, R217, R299, R356). -/
def State.takeFields (s : State) (p : Nat) : State :=
  let sh := s.word Reg.PT_SHARE p 0
  let k := s.part p
  let s := s.setPart p { k with
    shares := [bits sh 9 0, bits sh 21 12, bits sh 33 24, bits sh 45 36, bits sh 57 48]
    acctEvery := s.get Fld.PT_ACCT.EVERY p, acctEn := s.is Fld.PT_ACCT.EN p, stepCfg := s.word Reg.STEP_CFG p 0
    svCfg := s.word Reg.SV_CFG p 0, svSpec := s.word Reg.SV_SPEC p 0, svPlace := s.word Reg.SV_PLACE p 0
    svReq := s.word Reg.SV_REQ p 0, svReqCfg := s.word Reg.SV_REQCFG p 0 }
  let s := if k.serve.reloadDir then s.takeDir p else s
  let s := (s.coresOf p).foldl (fun s c => s.setCore c { s.core c with cfg := s.word Reg.CORE_CFG c 0 }) s
  (upFrom 0 20).foldl (fun s t =>
    let s := s.sluiceTake t p
    let x := s.stack t
    s.setStack t { x with deferLeft := setNth x.deferLeft p (s.get Fld.SL_CFG.REF_DEFER t p), forced := smErase x.forced p }) s

/-- What every step boundary of a partition clears (R72, R86, R119). -/
def State.clearStep (s : State) (p : Nat) : State :=
  let s := (upFrom 0 64).foldl (fun s i => s.set Fld.SEM_VAL.COUNT 0 p i) s
  let s := s.setPart p { s.part p with semq := [] }
  (s.coresOf p).foldl (fun s c =>
    let x := s.core c
    s.setCore c { x with rc := [], td := x.td.map (fun t => { t with valid := false }), semWait := none
                         run := if x.run = .halted || x.run = .faulted then x.run else .idle }) s

/-- Whether the boundary in force is a step boundary of partition p (R33, R512). -/
def State.stepDue (s : State) (p : Nat) : Bool :=
  let n := s.stepLen p
  s.tick.bound == s.btick + 1 && (s.btick + n - s.get Fld.STEP_CFG.PHASE p) % n == 0

/-- What acts at a step boundary: changes due in ascending partition number (R357), then partition p's fields. -/
def State.boundaryOf (s : State) (p : Nat) : State :=
  let s := (upFrom 0 (p + 1)).foldl (fun s q => if s.stepDue q && s.is Fld.PT_STAT.PENDING q then s.applyChange q else s) s
  (s.clearStep p).takeFields p

/-- The blocks of a partition at the tick (R67, R68): those in tick-wait end, and those whose work is complete. -/
def State.settleBlocks (s : State) (p : Nat) : State :=
  (s.coresOf p).foldl (fun s c =>
    let k := s.core c
    if k.run = .tickWait || (k.run = .ended && s.engineIdle c) then s.endBlock c p else s) s

/-- The first item of the plan that is not complete: its unit as R43 records it, and whether the eve held it. -/
def State.leftItem (s : State) (p : Nat) : Option (Nat × Nat × Bool) :=
  match (s.planItems p).find? (fun e => !(s.part p).done.contains e.1) with
  | none => none
  | some (n, i) =>
    let cls := if i.kind = kBlock then 6 else if i.kind = kXfer then 2 else if i.kind = kPan then 4 else 5
    some (cls, i.unit, s.inEve p && s.itemReady p n i)

/-- The queued stores of a step that no engine kept busy at its tick performed (R272), then READY (R36): a store that faults
abandons the step on its tick (R44). -/
def State.readyStep (s : State) (p : Nat) : State :=
  let s := (s.coresOf p).foldl (fun s c => s.drainStores c p) s
  if (s.part p).phase = .active then
    let s := s.setPart p { s.part p with phase := .ready }
    if s.ownReady p then s.castReady p else s
  else s

/-- The tick of a step (R36, R43): the busy sample, then ready to commit or abandoned. All work of a step must be complete
(R36), so an item of the plan that is not complete, or a swap (R340), is an overrun also while no engine of R36 is busy; an
item is recorded with its own class and unit, held in the eve as EVE_STALL, and a swap with CLASS and UNIT zero, as R43 has it
where its search finds none (DEDUCED: R43 names no such row; log 5). -/
def State.tickStep (s : State) (p : Nat) : State :=
  let s := s.settleBlocks p
  let busy := s.busyEngine p
  let left := s.leftItem p
  let s := s.setPart p { s.part p with tickAt := s.tick.boundAt, passed := true }
  match busy, left with
  | none, none => if s.swapsLeft p then s.beginAbandon p ⟨.overrun, 0, 0, false⟩ else s.readyStep p
  | _, _ =>
    let held := match left with | some (_, _, h) => h | none => false
    let (cls, unit) := match busy, left with
      | some b, _ => b
      | none, some (c, u, _) => (c, u)
      | none, none => (0, 0)
    s.beginAbandon p ⟨if (s.part p).eveStalled || (busy.isNone && held) then .eveStall else .overrun, cls, unit, false⟩

/-- STEP_TICK (R33, R36): the boundary of partition p. -/
def execStepTick (p : Fin 16) (s : State) : Host.Outcome State Fault Refusal :=
  let k := s.part p
  if !s.isUp 0 || !s.stepDue p || k.lastTick == s.btick + 1 then ok s
  else
    let s := s.setPart p { k with lastTick := s.btick + 1 }
    match k.phase with
    | .active => ok ((s.tickStep p).boundaryOf p)
    | .ready => ok (s.boundaryOf p)
    | .abandoning => ok ((s.setPart p { s.part p with tickAt := s.tick.boundAt, passed := true }).boundaryOf p)
    | .opening => ok ((s.boundaryOf p).openWindow p s.tick.boundAt)
    | .idle =>
      let s := s.boundaryOf p
      let k := s.part p
      let waits := k.startPend || k.resumePend || s.pstate p == stRunning || s.pstate p == stHeld
      if waits && !k.inDoubt then
        if s.inLeap && s.pstate p == stHeld then ok (s.setPart p { k with lastTick := 0 }) else ok (s.openWindow p s.tick.boundAt)
      else ok s

/-- DIE1_READY_REPORT (R40): in time, the partition is ready; later, it is discarded. -/
def execDie1ReadyReport (p : Fin 16) (s : State) : Host.Outcome State Fault Refusal :=
  let k := s.part p
  if k.phase = .ready && !k.die1Ready && s.hasDie p 0 && s.hasDie p 1 && s.isUp 0 && s.isUp 1 && decide (s.now ≤ k.tickAt + 2000) then
    let s := s.setPart p { k with die1Ready := true }
    ok (s.castReady p)
  else ok s

/-- XDIE_TIMEOUT (R40, R43): 2 µs after the tick without die 1's report. -/
def execXdieTimeout (p : Fin 16) (s : State) : Host.Outcome State Fault Refusal :=
  let k := s.part p
  if k.phase = .ready && !k.die1Ready && s.hasDie p 0 && s.hasDie p 1 then
    let go := fun (s : State) => let (c, u) := (s.busyEngine p).getD (0, 0); s.beginAbandon p ⟨.xdieTimeout, c, u, false⟩
    if k.tickAt + 2000 ≤ s.now then ok (go s)
    else match s.advanceTo (k.tickAt + 2000) with
      | some s => ok (go s)
      | none => ok s
  else ok s

/-- A token record (R331). -/
def tokenRecord (seq e : Nat) (t : Nat × Bool × Bool × List Nat) : List Byte :=
  let w0 := seqReq e + seq <<< 32 + t.1 <<< 48 + b2n t.2.1 <<< 56 + b2n t.2.2.1 <<< 57
  bytesOf 8 w0 ++ bytesOf 8 (seqLen e + seqGen e <<< 32) ++ (t.2.2.2 ++ List.replicate (16 - t.2.2.2.length) 0).flatMap (bytesOf 4) ++
    List.replicate 48 0#8

/-- The pages of a sequence that has ended freed (R346, R347): each page-table entry that was VALID cleared (R307). -/
def State.freePages (s : State) (p e : Nat) (pts : SMap (List Nat)) : State :=
  pts.foldl (fun s q => ((upFrom 0 q.2.length).zip q.2).foldl (fun s x =>
    if ptValid x.2 then s.writeOpen (scWho p) (seqPt e (q.1 % 2) + 4 * x.1) 4 0 else s) s) s

/-- A row's result read from the step record (R335), where the sequence has a row: none where it is absent. -/
def State.readResult (s : State) (p : Nat) (pl : Plan) (seq : Nat) : Option (Nat × Bool × List Nat) × State :=
  match pl.rowOf seq with
  | none => (none, s)
  | some (i, r) =>
    let (v, _, s) := s.readBytes (scWho p) ((s.part p).serve.stepRec + 64 + 128 * i) 128
    (if r.prefill && !r.final then some r.expected else rowResult r v, s)

/-- One live entry of the working copy at a commit (R340–R347): the entry it becomes and its records, with its page tables, SERVE_ERR
and the deferral count. -/
def State.commitEntry (s : State) (p : Nat) (pl : Plan) (fresh : Bool) (seq e : Nat) : SeqOut × State :=
  let k := s.part p
  let ws := pl.swaps.filter (fun w => w.seq == seq)
  let (pts, s) := s.readPts p k.serve.geoms [(seq, e)]
  let (res, s) := s.readResult p pl seq
  let o := entryOut k pl fresh pts seq e res
  let cancelled := k.serve.cancelled.contains seq
  let bad := ws.any (fun w => w.bad)
  let s := if o.ended then s.freePages p e pts
    else ws.foldl (fun s w => s.writeOpen (scWho p) (seqPt e w.geom + 4 * w.page) 4 w.ptEntry) s
  let s := if bad && !cancelled then s.set Fld.SERVE_ERR.SWAP_BAD 1 p else s
  let row := (pl.rowOf seq).isSome
  let s := if row && res.isNone && !cancelled && !bad then s.set Fld.SERVE_ERR.RESULT_BAD 1 p else s
  (o, if !row && !fresh && !cancelled && !bad then s.bump Fld.SV_CNT_DEF.DEFERRED 1 p else s)

/-- The live entries of a commit, one by one: what changed, the token records and the events. -/
def State.commitEntries (s : State) (p : Nat) (pl : Plan) (old : List Nat) :
    List (Nat × Nat) → List (Nat × Nat × SeqOut) × State
  | [] => ([], s)
  | (seq, e) :: l =>
    let (o, s) := s.commitEntry p pl (!seqLive (nth 0 old seq)) seq e
    let (r, s) := s.commitEntries p pl old l
    ((seq, e, o) :: r, s)

/-- The serving part of a commit (R328, R331, R332, R346): the copies exchange, the records are put in their rings. -/
def State.serveCommit (s : State) (p : Nat) (pl : Plan) : State :=
  let k := s.part p
  let copy := s.get Fld.SV_STAT.COPY p
  let (old, s) := s.readTable p copy
  let (work, s) := s.readTable p (1 - copy)
  let (outs, s) := s.commitEntries p pl old (liveOf work)
  let s := outs.foldl (fun s o => if o.2.1 = o.2.2.entry then s else s.writeEntry p (1 - copy) o.1 o.2.2.entry) s
  let s := outs.foldl (fun s o => match o.2.2.token with
    | some t => s.ringPut p 0 (tokenRecord o.1 o.2.2.entry t)
    | none => s) s
  let evs := k.serve.events ++ outs.flatMap (fun o => o.2.2.events)
  let s := evs.foldl (fun s w => s.ringPut p 1 ([nth 0 w 0, s.btick, nth 0 w 2, 0, 0, 0, 0, 0].flatMap (bytesOf 8))) s
  let new := outs.foldl (fun t o => setNth t o.1 o.2.2.entry) work
  let s := (s.set Fld.SV_STAT.COPY (1 - copy) p).serveCounts p new
  let s := s.count Fld.SV_CNT_TOK.TOKENS (sumList (outs.map (fun o => o.2.2.tokens))) p
  let s := s.bump Fld.SV_CNT_DEF.SWAPPED_OUT (pl.swaps.filter (fun w => !w.restore && !w.bad)).length p
  let head := s.get Fld.SV_HEAD.HEAD p + k.serve.consumed
  let s := s.set Fld.SV_HEAD.HEAD head p
  let s := if k.serve.consumed = 0 then s
    else s.hostWrite (k.reqBase + 64 * k.reqSize + 64) 8 head
  let changed := (outs.filter (fun o => o.2.1 != o.2.2.entry)).map Prod.fst
  let q := s.part p
  (s.setPart p { q with serve := { q.serve with
    consumed := 0, events := [], cancelled := [], dirty := changed.foldl setInsert q.serve.dirty, paths := []
    history := q.serve.paths.map (fun x => (x.1, x.2.1, x.2.2, pl.tokens)) } }).syncCopies p

/-- The base ticks due at the commit of the step whose tick was at time at_ (R368, R463): all that ended by then but the last two. -/
def PartSt.energyDue (k : PartSt) (at_ : Nat) : List Nat :=
  let done := k.owed.filter (fun e => decide (e.2 ≤ at_))
  (done.take (done.length - 2)).map Prod.fst

/-- One base tick's figure added to the energy counted: none of it arrived, or an invalid one, clears ENERGY_VALID (R463, R368). -/
def PartSt.addFigure (k : PartSt) (t : Nat) : PartSt :=
  match k.figs.find? (fun f => f.1 == t) with
  | some f => { k with accNJ := k.accNJ + f.2.1, figs := k.figs.erase f, energyBad := k.energyBad || !f.2.2 }
  | none => { k with energyBad := true }

/-- The figures due at a commit added (R368, R463). -/
def State.takeEnergy (s : State) (p at_ : Nat) : State :=
  let k := s.part p
  let due := k.energyDue at_
  let k := due.foldl PartSt.addFigure k
  let owed := k.owed.drop due.length
  s.setPart p { k with owed := owed, figs := k.figs.filter (fun f => owed.any (fun e => e.1 == f.1)) }

/-- The last signed record of which every tick lies at or before base tick b (R369): the last issued, or the one before it. -/
def State.recordBy (s : State) (b : Nat) : Nat :=
  let q := s.get Fld.ASY_REC_SEQ.SEQ
  if b < s.word Reg.ASY_REC 3 0 then q - 1 else q

/-- The accounting snapshot of a commit (R368), and the record due (R369). -/
def State.accountCommit (s : State) (p : Nat) : State :=
  let at_ := (s.part p).tickAt
  let last := ((s.part p).energyDue at_).getLast?.getD (s.tickOf at_ - 3)
  let s := s.takeEnergy p at_
  let k := s.part p
  let now := setNth k.acc 11 (k.accNJ / 1000000)
  let s := (upFrom 0 12).foldl (fun s i => s.setWord Reg.ACC p i (nth 0 now i)) s
  let s := s.set Fld.PT_STAT.ENERGY_VALID (b2n !k.energyBad) p
  let step := s.get Fld.COMMIT_NUM.COMMITS p
  let k := { k with acc := now, accCommits := k.accCommits + 1, accFirst := if k.accCommits = 0 then step else k.accFirst }
  if k.acctEn && k.acctEvery ≤ k.accCommits then
    let w0 := 1 + p <<< 8 + b2n (!k.energyBad) <<< 16 + (k.accAbandons % 2 ^ 32) <<< 32
    let d := fun (i : Nat) => nth 0 now i - nth 0 k.accSince i
    let ws := [w0, k.accFirst, step, last] ++ (upFrom 0 12).map d ++ [s.recordBy last]
    (s.setPart p { k with accSince := now, accCommits := 0, accAbandons := 0 }).ringPut p 3 (ws.flatMap (bytesOf 8))
  else s.setPart p k

/-- The next entry of a committed step: ALM_NEXT's, or NEXT (R47, R58). -/
def State.nextEntry (s : State) (p : Nat) : State :=
  let k := s.part p
  let nxt := match s.stepEntry p with | some e => e.next | none => 0
  let s := s.setPart p { k with entry := nxt }
  if s.is Fld.ALM_NEXT.VALID p then
    let (got, s) := s.installAlmanac p
    if got then s.setPart p { s.part p with nextPlan := none } else s
  else s

/-- The commit stamp of a partition written (R496). -/
def State.stampCommit (s : State) (p : Nat) : State :=
  let x : Stamp := ⟨s.get Fld.COMMIT_NUM.COMMITS p, s.get Fld.STEP_STATE.GEN p, s.get Fld.SV_STAT.COPY p⟩
  { s with mod := { s.mod with stamps := setNth s.mod.stamps p x } }

/-- COMMIT (R37): everything a step makes visible, then the next window or a stop. -/
def execCommit (p : Fin 16) (s : State) : Host.Outcome State Fault Refusal :=
  let k := s.part p
  let voted := !s.votes p || k.decision = some true
  if !s.ownReady p || !voted || !s.isUp 0 then ok s
  else
    let e := s.stepEntry p
    let train := match e with | some e => e.train | none => false
    let coll := match e with | some e => e.hasColl | none => false
    let serve := match e with | some e => e.serve | none => false
    let s := (s.set Fld.STEP_STATE.RETRY_COUNT 0 p).count Fld.COMMIT_NUM.COMMITS 1 p
    let s := if train then s.set Fld.STEP_STATE.GEN (1 - s.get Fld.STEP_STATE.GEN p) p else s
    let rings := k.serve.rings
    let s := match k.plan with
      | some pl => if serve && s.is Fld.SV_STAT.INSTALLED p then s.serveCommit p pl else s
      | none => s
    let s := k.staging.foldl (fun s r => s.ringPut p r.ring r.bytes) s
    let s := ((s.accountCommit p).ringsDone p rings).stampCommit p
    let s := s.setPart p { s.part p with
      staging := [], phase := .idle, plan := none, lastColl := coll, retryLate := false, die1Ready := false, decision := none
      heard := [], inDoubt := false }
    let s := s.nextEntry p
    let k := s.part p
    if k.stopReq then ok (s.haltPart p k.quiesceReq)
    else ok (s.reopen p k.tickAt)

/-- Whether every engine of an abandoned step has stopped (R42): pans and the traffic of the step. -/
def State.stepStopped (s : State) (p : Nat) : Bool := !s.pans.any (fun e => match e.2.run with
  | some r => (match s.batch r.batch with | some b => b.part == p | none => false)
  | none => false)

/-- What an abandonment discards (R42, R82, R272): queues, tiles, accumulators, stores, batches, phases, swaps, staged outputs. -/
def State.discardStep (s : State) (p : Nat) : State :=
  let s := (s.coresOf p).foldl (fun s c =>
    let x := s.core c
    let s := s.setCore c { x with
      queue := [], ftq := [], stq := [], semWait := none, acc0 := [], acc1 := []
      run := if x.run = .faulted || x.run = .halted then x.run else .idle }
    if x.run = .tickWait then s.setCore c { s.core c with run := .idle } else s) s
  let mine := s.batches.filter (fun b => b.part == p)
  let s : State := { s with
    batches := s.batches.filter (fun b => b.part != p), colls := s.colls.filter (fun x => x.part != p)
    pans := s.pans.filterMap (fun e =>
      let y := { e.2 with queue := e.2.queue.filter (fun q => !mine.any (fun b => b.id == q.1)) }
      if y = PanSt.reset then none else some (e.1, y)) }
  let s : State := { s with stks := s.stks.map (fun k => { k with
    queue := k.queue.filterMap (fun e =>
      let l := e.2.filter (fun r => r.sluice != p)
      if l.isEmpty then none else some (e.1, l)) }) }
  s.setPart p { s.part p with staging := [] }

/-- The reservations and table changes of an abandoned step undone (R328, R337): its own, and those of an admission it made for the
next window. -/
def State.undoServe (s : State) (p : Nat) : State :=
  let k := s.part p
  let copy := s.get Fld.SV_STAT.COPY p
  let s := (k.plan.toList ++ k.nextPlan.toList).foldl (fun s pl => pl.reserved.foldl (fun s r =>
    let (e, _, s) := s.readBytes (scWho p) ((s.part p).serve.copyBase (1 - copy) + 64 * r.1) 64
    s.writeOpen (scWho p) (seqPt e r.2.1 + 4 * r.2.2) 4 0) s) s
  let q := s.part p
  (s.setPart p { q with serve := { q.serve with consumed := 0, events := [], cancelled := [], paths := [], chosen := [] } }).syncCopies p

/-- The records of an abandonment (R43, R45): OVERRUN_REC with the base tick it began in, LAST_CAUSE, RESTART_NUM. -/
def State.recordAbandon (s : State) (p : Nat) (a : Abandon) : State :=
  let s := s.setWord Reg.OVERRUN_REC p 0 ((s.part p).abandonTick % 2 ^ 48 + a.cls <<< 48 + a.unit <<< 52 + a.cause.code <<< 60)
  let s := s.set Fld.STEP_STATE.LAST_CAUSE a.cause.code p
  if a.cause = .fault then s.count Fld.RESTART_NUM.FAULTS 1 p else s.count Fld.RESTART_NUM.OVERRUNS 1 p

/-- ABANDONMENT_COMPLETE (R42–R47): the engines have stopped; the retry, or the stop. The retry runs in the window that the
tick of the abandoned step opened, or, where that tick has still to come, in the one it opens (R44, R45). -/
def execAbandonmentComplete (p : Fin 16) (s : State) : Host.Outcome State Fault Refusal :=
  let k := s.part p
  match k.phase, k.abandon with
  | .abandoning, some a =>
    if !s.stepStopped p || !s.isUp 0 then ok s
    else
      let s := (s.discardStep p).recordAbandon p a
      let s := if s.is Fld.SV_STAT.INSTALLED p then s.undoServe p else s
      let fault := a.cause = .fault
      let s := s.setPart p { s.part p with
        plan := none, nextPlan := none, abandon := none, phase := .idle, accAbandons := k.accAbandons + 1, lastColl := false
        retryLate := !fault, inDoubt := false, decision := none, heard := [] }
      let n := s.get Fld.STEP_STATE.RETRY_COUNT p
      if k.stopReq then ok (s.haltPart p k.quiesceReq)
      else if a.stop || k.stopAtBoundary then ok (s.haltPart p false)
      else if bits k.stepCfg 51 48 ≤ n then
        let s := s.haltPart p false
        let s := (s.set Fld.STEP_ERR.RETRY_EXHAUSTED 1 p).set Fld.STEP_STATE.RETRY_EXHAUSTED 1 p
        ok ((s.post { ErrRec.plain 12 with part := some p.val }).ringHost 0)
      else
        let s := s.set Fld.STEP_STATE.RETRY_COUNT (n + 1) p
        ok (if k.passed then s.reopen p k.tickAt else s)
  | _, _ => ok s

end Sys2Proof.Machine
end

