-- ==== Sys2Proof/Machine/Mbx.lean ====
section
/-!
DEFINITION. Mailboxes, doorbells and MSI-X (R373–R385, R404, R429): ownership, delivery, taking, rings, and the messages
that the device's own processors send.
-/
namespace Sys2Proof.Machine

/-- Sender classes (R378). -/
def clHost : Nat := 0
def clCore : Nat := 1
def clStep : Nat := 2
def clPower : Nat := 3
def clSec : Nat := 4
def clRemote : Nat := 6

/-- The identity of an instance of a class (R378). -/
def ident (cls inst : Nat) : Nat := cls <<< 12 + inst

/-- The class of an identity. -/
def idClass (who : Nat) : Nat := bits who 15 12

/-- The partition of a core's identity, where that core belongs to it. -/
def State.idPart (s : State) (who : Nat) : Option Nat :=
  let p := bits who 11 8
  if idClass who == clCore && s.partOf (bits who 3 0) == some p then some p else none

/-- Whether an identity may write a mailbox's data words and S_CTRL (R381: a core only where MB_CFG names its partition). -/
def State.maySend (s : State) (who m : Nat) : Bool :=
  if idClass who == clCore then
    match s.idPart who with
    | some p => s.is Fld.MB_CFG.SRC_EN m && s.get Fld.MB_CFG.SRC_P m == p
    | none => false
  else decide (idClass who ≤ 7)

/-- Whether an identity may read a mailbox as its receiver (R381). -/
def State.mayTake (s : State) (who m : Nat) : Bool :=
  if idClass who == clCore then
    match s.idPart who with
    | some p => s.get Fld.MB_CFG.RCV m == 1 + p
    | none => false
  else decide (idClass who ≤ 7)

/-- Whether an identity may access doorbell set r (R381). -/
def State.mayDoor (s : State) (who r : Nat) : Bool :=
  if idClass who == clCore then
    match s.idPart who with
    | some p => r == 1 + p
    | none => false
  else decide (idClass who ≤ 7)

/-- Whether an identity may ring the bits of a set (R381: a core also bit 16 + p of the host's). -/
def State.mayRing (s : State) (who r bitsSet : Nat) : Bool :=
  s.mayDoor who r || (idClass who == clCore && r == 0 &&
    (match s.idPart who with | some p => (setBitsOf bitsSet 32).all (· == 16 + p) | none => false))

/-- A write to a mailbox completed without effect (R374). -/
def State.dropWrite (s : State) (m : Nat) : State := s.bump Fld.S_STAT.DROPS 1 m

/-- Ownership for a write by an identity (R374): none where the write is to be dropped. -/
def State.ownBox (s : State) (who m : Nat) : Option State :=
  if s.is Fld.S_STAT.OWNED m then if s.get Fld.S_STAT.OWNER m == who then some s else none
  else if s.is Fld.R_PEEK.FULL m then none
  else some ((s.set Fld.S_STAT.OWNED 1 m).set Fld.S_STAT.OWNER who m)

/-- A data word as its owner writes it; R_DATA shows the same words. -/
def State.putBoxWord (s : State) (m i w : Nat) : State := (s.setWord Reg.MB_DATA m i w).setWord Reg.MB_RDATA m i w

/-- A write of a data word (R374). -/
def State.boxWrite (s : State) (who m i w : Nat) : State :=
  match s.ownBox who m with
  | some s => s.putBoxWord m i w
  | none => s.dropWrite m

/-- MAILBOX_DATA_WRITE (R374). -/
def execMailboxDataWrite (who : BitVec 16) (m : Fin 64) (i : Fin 16) (v : Word) (s : State) : Host.Outcome State Fault Refusal :=
  occurs (s.serves 0 && s.maySend who.toNat m) s (s.boxWrite who.toNat m i v.toNat)

/-- The die a processor's receiver code names, and its firmware component (R373, R477). -/
def rcvComp (rcv : Nat) : Option (Nat × Nat) :=
  if rcv = 17 then some (0, 1)
  else if rcv = 18 then some (1, 2)
  else if rcv = 19 then some (0, 3)
  else if rcv = 20 then some (1, 4)
  else none

/-- Whether a component drains (R486). -/
def State.compDrains (s : State) (c : Nat) : Bool :=
  match s.sec.upd with
  | some u => u.comp == c && (u.phase == 1 || u.phase == 2)
  | none => false

/-- Whether a receiver's domain is in reset, update or power-down (R383): of the host, whether its link is not trained (a tethered
device hands the host's messages to the gateway, R429). -/
def State.rcvDown (s : State) (rcv : Nat) : Bool :=
  match rcvComp rcv with
  | some (d, c) => !s.isUp d || s.compDown c
  | none =>
    if 1 ≤ rcv && rcv ≤ 16 then (s.coresOf (rcv - 1)).any (fun c => !s.isUp (dieOfCore c))
    else if rcv = 21 then !s.isUp 0
    else rcv == 0 && s.get Fld.ETH_DEV.MODE != mdTethered && !s.is Fld.CXLC_LINK.UP

/-- Whether a receiver's domain drains (R383). -/
def State.rcvDrains (s : State) (rcv : Nat) : Bool :=
  match rcvComp rcv with
  | some (_, c) => s.compDrains c
  | none => false

/-- A mailbox's words. -/
def State.boxWords (s : State) (m : Nat) : List Nat := (upFrom 0 16).map (fun i => s.get Fld.MB_DATA.DATA m i)

/-- FULL, LEN and SENDER of a mailbox, in both of their registers. -/
def State.putPeek (s : State) (m full len sender : Nat) : State :=
  let s := ((s.set Fld.R_PEEK.FULL full m).set Fld.R_PEEK.LEN len m).set Fld.R_PEEK.SENDER sender m
  ((s.set Fld.R_CTRL.FULL full m).set Fld.R_CTRL.LEN len m).set Fld.R_CTRL.SENDER sender m

/-- Delivery at this device (R376): the words past LEN cleared, SENDER stamped, FULL set, the doorbell rung. -/
def State.deliver (s : State) (m len sender : Nat) : State :=
  let rcv := s.get Fld.MB_CFG.RCV m
  let s := (upFrom len (16 - len)).foldl (fun s i => s.putBoxWord m i 0) s
  let s : State := { s.putPeek m 1 len sender with delivered := s.delivered.filter (· != m) ++ [m] }
  if rcv ≤ 21 then s.ring rcv (2 ^ s.get Fld.MB_CFG.DB m) else s

/-- A message handed to the forwarder (R384, R418, R429, R430): RESULT 6 until the reply, or 5 where there is no way. -/
def State.forward (s : State) (m len sender : Nat) : State :=
  let mode := s.get Fld.ETH_DEV.MODE
  let home := s.get Fld.MB_CFG.RCV m == 0
  if mode == mdStandalone then s.set Fld.S_STAT.RESULT 5 m
  else
    let dev := if mode == mdTethered then 0 else s.get Fld.MB_CFG.DEV m
    if !s.net.mgmt || (s.qp (mgmtQp dev)).error then (s.set Fld.S_STAT.RESULT 5 m).set Fld.ETH_ERR.FWD_FAIL 1
    else
      let s := s.set Fld.S_STAT.RESULT 6 m
      let s : State := { s with net := { s.net with fwd := setInsert s.net.fwd m } }
      s.sendDev dev (.message m (if home then s.homeBox else m) len sender (s.boxWords m))

/-- Whether the messages of a mailbox leave this device (R384, R429). -/
def State.leaves (s : State) (m : Nat) : Bool :=
  let rcv := s.get Fld.MB_CFG.RCV m
  rcv == 22 || (rcv == 0 && s.get Fld.ETH_DEV.MODE == mdTethered)

/-- GO of a mailbox's owner (R375, R376). -/
def State.go (s : State) (who m : Nat) : State :=
  let len := s.get Fld.S_CTRL.LEN m
  let rcv := s.get Fld.MB_CFG.RCV m
  if len < 8 || 16 < len then s.set Fld.S_STAT.RESULT 3 m
  else if s.rcvDrains rcv then s.set Fld.S_STAT.RESULT 4 m
  else if s.is Fld.R_PEEK.FULL m then s.set Fld.S_STAT.RESULT 2 m
  else if s.leaves m then s.forward m len who
  else (s.deliver m len who).set Fld.S_STAT.RESULT 1 m

/-- Ownership of a mailbox ended (R374). -/
def State.disown (s : State) (m : Nat) : State := s.set Fld.S_STAT.OWNED 0 m

/-- Whether a device processor's message may enter a mailbox: no owner and nothing delivered. -/
def State.boxFree (s : State) (m : Nat) : Bool := !s.is Fld.S_STAT.OWNED m && !s.is Fld.R_PEEK.FULL m

/-- A message of a device processor entered and sent. -/
def State.boxSend (s : State) (who m : Nat) (ws : List Nat) : State :=
  let s := (s.set Fld.S_STAT.OWNED 1 m).set Fld.S_STAT.OWNER who m
  let s := ((upFrom 0 ws.length).zip ws).foldl (fun s e => s.putBoxWord m e.1 e.2) s
  (s.set Fld.S_CTRL.LEN (clamp 8 16 ws.length) m).go who m

/-- Waiting messages of the device's processors sent, each once its mailbox is free. -/
def State.flushFrom (s : State) : List (Nat × Nat × List Nat) → State
  | [] => s
  | (who, m, ws) :: l =>
    if s.boxFree m then (s.boxSend who m ws).flushFrom l
    else ({ s with mod := { s.mod with outbox := s.mod.outbox ++ [(who, m, ws)] } } : State).flushFrom l

/-- Waiting messages of the device's processors sent where they can be. -/
def State.flush (s : State) : State := ({ s with mod := { s.mod with outbox := [] } } : State).flushFrom s.mod.outbox

/-- A message of a device processor (R378): sent now, or once its mailbox is free. -/
def State.say (s : State) (who m : Nat) (ws : List Nat) : State :=
  ({ s with mod := { s.mod with outbox := s.mod.outbox ++ [(who, m, ws)] } } : State).flush

/-- A write of S_CTRL (R374, R375): LEN, then GO, then ABORT. A GO to a domain that is down changes nothing (R383). -/
def State.sctrlPut (s : State) (who m w mask : Nat) : State :=
  let v := w &&& mask
  let abort := bit v 9
  match s.ownBox who m with
  | some t =>
    if bit v 8 && s.rcvDown (s.get Fld.MB_CFG.RCV m) then s.set Fld.MBX_ERR.DOWN_REFUSED 1
    else
      let t := t.plainWrite Reg.S_CTRL m 0 w mask
      let t := if bit v 8 then t.go who m else t
      if abort then (t.disown m).flush else t
  | none =>
    if abort && idClass who == clHost && s.is Fld.S_STAT.OWNED m then (s.disown m).flush
    else s.dropWrite m

/-- MAILBOX_GO (R375): a write of S_CTRL with GO set. -/
def execMailboxGo (who : BitVec 16) (m : Fin 64) (v : Word) (s : State) : Host.Outcome State Fault Refusal :=
  occurs (s.serves 0 && s.maySend who.toNat m && bit v.toNat 8) s (s.sctrlPut who.toNat m v.toNat fullMask)

/-- MAILBOX_ABORT (R374): a write of S_CTRL with ABORT set and LEN as it stands. -/
def execMailboxAbort (who : BitVec 16) (m : Fin 64) (s : State) : Host.Outcome State Fault Refusal :=
  occurs (s.serves 0 && s.maySend who.toNat m) s (s.sctrlPut who.toNat m (s.get Fld.S_CTRL.LEN m + 2 ^ 9) fullMask)

/-- A read of R_CTRL (R377): FULL and ownership clear as one act. -/
def State.takeBox (s : State) (m : Nat) : State :=
  if s.is Fld.R_PEEK.FULL m then
    let s := (s.set Fld.R_PEEK.FULL 0 m).set Fld.R_CTRL.FULL 0 m
    let s : State := { s with delivered := s.delivered.filter (· != m) }
    (s.disown m).flush
  else s

/-- MAILBOX_TAKE (R377). -/
def execMailboxTake (who : BitVec 16) (m : Fin 64) (s : State) : Host.Outcome State Fault Refusal :=
  occurs (s.serves 0 && s.mayTake who.toNat m) s (s.takeBox m)

/-- A write of DB_RING (R379, R383). -/
def State.ringPutDoor (s : State) (r w : Nat) : State :=
  if s.rcvDown r then s.set Fld.MBX_ERR.DOWN_REFUSED 1 else s.ring r (bits w 31 0)

/-- DB_RING (R379). -/
def execDbRing (who : BitVec 16) (r : Fin 22) (v : Word) (s : State) : Host.Outcome State Fault Refusal :=
  occurs (s.serves 0 && s.mayRing who.toNat r (bits v.toNat 31 0)) s (s.ringPutDoor r v.toNat)

/-- A W1C write of DB_PEND (R379). -/
def State.pendPut (s : State) (r w mask : Nat) : State := (s.plainWrite Reg.DB_PEND r 0 w mask).dbSum r

/-- DB_PEND_CLEAR (R379). -/
def execDbPendClear (who : BitVec 16) (r : Fin 22) (v : Word) (s : State) : Host.Outcome State Fault Refusal :=
  occurs (s.serves 0 && s.mayDoor who.toNat r) s (s.pendPut r v.toNat fullMask)

/-- A write of DB_MASK (R379): a pending bit that it unmasks signals. -/
def State.maskPut (s : State) (r w mask : Nat) : State :=
  let old := s.get Fld.DB_MASK.MASK r
  let s := s.plainWrite Reg.DB_MASK r 0 w mask
  let opened := old &&& (0xFFFFFFFF - s.get Fld.DB_MASK.MASK r) &&& s.get Fld.DB_PEND.PEND r
  (s.dbSignal r opened).dbSum r

/-- DB_MASK_WRITE (R379). -/
def execDbMaskWrite (who : BitVec 16) (r : Fin 22) (v : Word) (s : State) : Host.Outcome State Fault Refusal :=
  occurs (s.serves 0 && s.mayDoor who.toNat r) s (s.maskPut r v.toNat fullMask)

/-- A vector unmasked (R404): one message for every signal it held. -/
def State.unmask (s : State) (vec : Nat) : State :=
  let n := smGet 0 s.msixHeld vec
  let s := (s.set Fld.MSIX_CTRL.MASK 0 vec).set Fld.MSIX_PBA.PENDING (s.get Fld.MSIX_PBA.PENDING &&& (2 ^ 64 - 1 - 2 ^ vec))
  { s with msixHeld := smErase s.msixHeld vec, msixSent := smPut 0 s.msixSent vec (smGet 0 s.msixSent vec + n) }

/-- MSIX_UNMASK (R404). -/
def execMsixUnmask (vec : Fin 64) (s : State) : Host.Outcome State Fault Refusal := ok (s.unmask vec)

/-- Mailboxes of a sender's domain freed when it resets (R374, R383): messages not delivered are counted. -/
def State.freeBoxes (s : State) (gone : Nat → Bool) : State :=
  (upFrom 0 64).foldl (fun s m =>
    if s.is Fld.S_STAT.OWNED m && gone (s.get Fld.S_STAT.OWNER m) then
      let s := s.disown m
      if s.is Fld.R_PEEK.FULL m then s else (s.bump Fld.MBX_DROP.ABORTED 1).set Fld.MBX_ERR.OWNER_ABORT 1
    else s) s

/-- The oldest delivered message of a receiver with a command it knows (R483), if that command is the one given. -/
def State.command (s : State) (rcv : Nat) (known : List Nat) (code : Nat) : Option Nat :=
  let codeOf := fun (m : Nat) => bits (s.get Fld.MB_DATA.DATA m 0) 15 0
  (s.delivered.find? (fun m => s.get Fld.MB_CFG.RCV m == rcv && known.contains (codeOf m))).filter (fun m => codeOf m == code)

end Sys2Proof.Machine
end

