-- ==== Sys2Proof/Machine/Link.lean ====
section
/-!
DEFINITION. The CXL host link: HDM decoders, CXL.mem, bias, snoops and the host DMA engine (R386–R406, R287, R390).
-/
namespace Sys2Proof.Machine

/-- The answer to an access from outside. -/
def State.reply (s : State) (a : Answer) : State := { s with answer := some a }

/-- A CXLC_ERR bit set, with the event vector when it becomes set (R404). -/
def State.cxlErr (s : State) (f : Fld) : State :=
  if s.is f then s else (s.set f 1).msix (s.get Fld.CXLC_CFG.EVT_VEC)

/-- The host's access. -/
def hostWho : Who := ⟨.host, none⟩

/-- An HDM decoder. -/
def State.hdm (s : State) (n : Nat) : Hdm := nth ⟨false, false, 0, 0, 0⟩ s.link.hdm n

/-- The DPA of a host address (R391): that of the first committed decoder whose range holds it. -/
def State.hpaToDpa (s : State) (a : Nat) : Option Nat :=
  (s.link.hdm.find? (fun h => h.on && decide (h.base ≤ a) && decide (a < h.base + h.size))).map (fun h => h.dpa + (a - h.base))

/-- The DPA of a CXL.mem request (R387, R391). -/
def State.cxlAddr (s : State) (a : Nat) : Option Nat := if s.pcieOnly then none else s.hpaToDpa a

/-- The first DPA a decoder would map: the end of the decoder below, plus its skip (R391). -/
def State.hdmStart (s : State) (n skip : Nat) : Nat :=
  if n = 0 then skip else (s.hdm (n - 1)).dpa + (s.hdm (n - 1)).size + skip

/-- 256 MiB, the unit of the decoders (R391). -/
def hdmUnit : Nat := 0x10000000

/-- Whether a commit of decoder n is accepted (R391). -/
def State.hdmOk (s : State) (n base size skip iw : Nat) : Bool :=
  (upFrom 0 n).all (fun i => (s.hdm i).on) && base % hdmUnit == 0 && size % hdmUnit == 0 && skip % hdmUnit == 0 &&
    decide (0 < size) && iw == 0 && decide (s.hdmStart n skip + size ≤ 0x1E000000000)

/-- HDM_DECODER_COMMIT (R391). -/
def execHdmDecoderCommit (i : Fin 4) (base size skip : BitVec 64) (iw : BitVec 4) (s : State) :
    Host.Outcome State Fault Refusal :=
  let h := s.hdm i
  let new : Hdm :=
    if s.hdmOk i base.toNat size.toNat skip.toNat iw.toNat then ⟨true, false, base.toNat, size.toNat, s.hdmStart i skip.toNat⟩
    else { h with on := false, error := true }
  if h.on || s.pcieOnly || !s.serves 0 then ok s else ok { s with link := { s.link with hdm := setNth s.link.hdm i new } }

/-- A page's bias set. -/
def State.setBias (s : State) (page b : Nat) : State := { s with link := { s.link with bias := smPut 0 s.link.bias page b } }

/-- The time one page of a bias command takes (R397), in nanoseconds. -/
def State.biasNs (s : State) (r : BiasRun) : Nat :=
  if r.toHost then 10
  else match s.bias r.page with
    | 0 => 10
    | 1 => 200
    | _ => 40000

/-- The next page of a bias command changed, at the time it is done (R396, R397). -/
def State.biasStep (s : State) (r : BiasRun) : State :=
  let t := r.began + s.biasNs r
  let s := s.setBias r.page (if r.toHost then Nat.max 1 (s.bias r.page) else 0)
  let s := s.set Fld.BIAS_STAT.DONE (s.get Fld.BIAS_STAT.DONE + 1)
  { s with link := { s.link with run := some { r with page := r.page + 1, left := r.left - 1, began := t } } }

/-- Pages of a bias command that are done by now, at most n of them; all of them where time does not count. -/
def State.biasRun (s : State) (force : Bool) : Nat → State
  | 0 => s
  | n + 1 =>
    match s.link.run with
    | some r => if r.left = 0 || !(force || decide (r.began + s.biasNs r ≤ s.now)) then s else (s.biasStep r).biasRun force n
    | none => s

/-- The bias command brought up to the present. -/
def State.biasNow (s : State) : State := s.biasRun false (match s.link.run with | some r => r.left | none => 0)

/-- Whether the last command has returned a page to device bias. -/
def State.biasTaken (s : State) (page : Nat) : Bool :=
  let f := s.get Fld.BIAS_CMD.FIRST
  !s.is Fld.BIAS_CMD.TO && decide (f ≤ page) && decide (page < f + s.get Fld.BIAS_STAT.DONE)

/-- A host access's effect on the bias of its page (R395, R396, R397). -/
def State.touchBias (s : State) (dpa : Nat) (caching : Bool) : State :=
  if !caching then s
  else
    let s := s.biasNow
    let page := dpa / 0x200000
    let s :=
      if s.bias page = 0 then
        let s := s.bump Fld.CXLC_CNT.FLIPS_H 1
        if s.biasTaken page then s.bump Fld.BIAS_STAT.REFLIP 1 else s
      else s
    s.setBias page 2

/-- A poisoned answer (CXLC_CNT.POISON_RD). -/
def State.poisonOut (s : State) : State := (s.bump Fld.CXLC_CNT.POISON_RD 1).reply .poison

/-- A CXL.mem write dropped and counted (R390, R392). -/
def State.dropMem (s : State) (f : Fld) : State := ((s.bump f 1).cxlErr Fld.CXLC_ERR.DROPPED).reply .done

/-- The counter of a CXL.mem write that is dropped (R390, R392), if it is. -/
def State.memDrop (s : State) (dpa : Nat) : Option Fld :=
  if !s.link.active then some Fld.CXLC_DROP.NOT_ACTIVE
  else if !s.serves 0 || !s.stackUp (dpa / stackSpan) then some Fld.CXLC_DROP.DOWN
  else
    match placeOf dpa with
    | .data t o =>
      let sealing := (upFrom 0 32).any (fun r => s.get Fld.REG_STAT.STATE r == rgSealing && s.regionHas r t (o >>> 21))
      let listed := (upFrom 0 16).any (fun e => s.is Fld.ERR_POISON.VALID e && s.get Fld.ERR_POISON.GRANULE e == dpa / 4096)
      if sealing || ((s.sharedAt dpa).isSome && !listed) then some Fld.CXLC_DROP.REGION else none
    | _ => some Fld.CXLC_DROP.UNMAPPED

/-- Whether a CXL.mem read returns poisoned data whatever its line holds (R390, R392). -/
def State.memBlind (s : State) (dpa : Nat) : Bool :=
  !s.link.active || !s.serves 0 || !s.stackUp (dpa / stackSpan) ||
    (match placeOf dpa with | .data _ _ => false | _ => true)

/-- CXL_MEM_READ (R392, R394, R395) of the line at a host address. -/
def execCxlMemRead (addr : BitVec 64) (caching : Bool) (s : State) : Host.Outcome State Fault Refusal :=
  match s.cxlAddr addr.toNat with
  | none => ok s
  | some a =>
    let a := a / 64 * 64
    let s := s.count Fld.CXLC_BYTES_OUT.BYTES 64
    if s.memBlind a then ok s.poisonOut
    else
      let s := (s.touchBias a caching).traffic hostWho false false a 64
      match s.readLine hostWho (a / 64) with
      | (some v, s) => ok (s.reply (.line v))
      | (none, s) => ok s.poisonOut

/-- The runs of set bits of a byte mask: first byte and length of each. -/
def maskRuns (m : Nat) : List (Nat × Nat) :=
  (setBitsOf m 64).foldr (fun i l => match l with
    | (j, n) :: r => if i + 1 = j then (i, n + 1) :: r else (i, 1) :: (j, n) :: r
    | [] => [(i, 1)]) []

/-- CXL_MEM_WRITE (R392, R283, R290) of the enabled bytes of a line. -/
def execCxlMemWrite (addr : BitVec 64) (caching : Bool) (data : Line) (mask : BitVec 64) (s : State) :
    Host.Outcome State Fault Refusal :=
  match s.cxlAddr addr.toNat with
  | none => ok s
  | some a =>
    let a := a / 64 * 64
    let s := s.count Fld.CXLC_BYTES_IN.BYTES 64
    match s.memDrop a with
    | some f => ok (s.dropMem f)
    | none =>
      let s := (s.touchBias a caching).traffic hostWho false true a 64
      let s := if mask = 0 then s
        else (s.writeLineWith hostWho (a / 64) (mask = BitVec.allOnes 64) mask.getLsbD (fun m => (maskRuns mask.toNat).foldl
          (fun m r => smPoke m (a + r.1) r.2 (bits data.toNat (8 * (r.1 + r.2) - 1) (8 * r.1))) m)).openGranule (a / 4096)
      ok (s.reply .done)

/-- The poison pattern written into a line (R393). -/
def State.poisonLine (s : State) (ln : Nat) : State :=
  let x := s.granule (ln / 64)
  let b := BitVec.ofNat 64 (2 ^ (ln % 64))
  let s : State := { s with ecc := smErase s.ecc ln, metaFlip := smErase s.metaFlip ln, flipped := smErase s.flipped ln }
  (s.unread (ln / 64)).setGranule (ln / 64) { x with
    valid := x.valid ||| b, poison := x.poison ||| b, state := if x.state = .unwritten then .opened else x.state }

/-- CXL_MEM_POISON_WRITE (R393). -/
def execCxlMemPoisonWrite (addr : BitVec 64) (s : State) : Host.Outcome State Fault Refusal :=
  match s.cxlAddr addr.toNat with
  | none => ok s
  | some a =>
    let a := a / 64 * 64
    let s := s.count Fld.CXLC_BYTES_IN.BYTES 64
    match s.memDrop a with
    | some f => ok (s.dropMem f)
    | none => ok (((s.traffic hostWho false true a 64).poisonLine (a / 64)).reply .done)

/-- A write of BIAS_CMD (R397): with GO it starts the change of a range of pages, or is refused; no pages complete at once. -/
def State.biasPut (s : State) (w mask : Nat) : State :=
  let m := mergeMask mask w (s.word Reg.BIAS_CMD 0 0)
  let first := bits m 19 0
  let n := bits m 39 20
  if s.is Fld.BIAS_STAT.BUSY || decide (983040 < first + n) then s.cxlErr Fld.CXLC_ERR.BIAS_BAD
  else
    let s := s.setWord Reg.BIAS_CMD 0 0 (bits m 40 0)
    if bit (w &&& mask) 63 then
      let s := s.set Fld.BIAS_STAT.DONE 0
      if n = 0 then s.msix (s.get Fld.CXLC_CFG.EVT_VEC)
      else
      let s := (s.set Fld.BIAS_CMD.GO 1).set Fld.BIAS_STAT.BUSY 1
      { s with link := { s.link with run := some ⟨first, n, bit m 40, s.now⟩ } }
    else s

/-- BIAS_TO_DEVICE (R397): a write of BIAS_CMD with TO 0 and GO. -/
def execBiasToDevice (v : Word) (s : State) : Host.Outcome State Fault Refusal :=
  occurs (s.serves 0 && bit v.toNat 63 && !bit v.toNat 40) s (s.biasPut v.toNat fullMask)

/-- BIAS_TO_HOST (R396, R397): a write of BIAS_CMD with TO 1 and GO. -/
def execBiasToHost (v : Word) (s : State) : Host.Outcome State Fault Refusal :=
  occurs (s.serves 0 && bit v.toNat 63 && bit v.toNat 40) s (s.biasPut v.toNat fullMask)

/-- BIAS_COMMAND_DONE (R397, R404): the pages left change, BUSY and GO clear, the event vector is sent. -/
def execBiasCommandDone (s : State) : Host.Outcome State Fault Refusal :=
  match s.link.run with
  | none => ok s
  | some r =>
    let s := s.biasRun true r.left
    let s : State := { s with link := { s.link with run := none } }
    ok (((s.set Fld.BIAS_STAT.BUSY 0).set Fld.BIAS_CMD.GO 0).msix (s.get Fld.CXLC_CFG.EVT_VEC))

/-- HOST_SNOOP (R399). -/
def execHostSnoop (_addr : BitVec 64) (s : State) : Host.Outcome State Fault Refusal :=
  occurs (!s.pcieOnly) s (s.reply .rspIHitI)

/-- The jobs of a host DMA channel. -/
def State.jobs (s : State) (ch : Nat) : List HdmaJob := nth [] s.link.jobs ch

/-- The jobs of a channel replaced; CH_STAT.BUSY follows the descriptors outstanding. -/
def State.setJobs (s : State) (ch : Nat) (l : List HdmaJob) : State :=
  let s : State := { s with link := { s.link with jobs := setNth s.link.jobs ch l } }
  s.set Fld.CH_STAT.BUSY (b2n (s.is Fld.CH_CFG.EN ch && s.get Fld.CH_HEAD.HEAD ch != s.get Fld.CH_TAIL.TAIL ch)) ch

/-- A write of CH_TAIL (R400). -/
def State.tailPut (s : State) (ch w mask : Nat) : State :=
  let s := s.plainWrite Reg.CH_TAIL ch 0 w mask
  s.setJobs ch (s.jobs ch)

/-- HDMA_TAIL_WRITE (R400). -/
def execHdmaTailWrite (ch : Fin 4) (v : Word) (s : State) : Host.Outcome State Fault Refusal :=
  occurs (s.serves 0) s (s.tailPut ch v.toNat fullMask)

/-- Host address of a channel's ring. -/
def State.chBase (s : State) (ch : Nat) : Nat := 256 * s.get Fld.CH_BASE.HOST ch
/-- Descriptors of a channel's ring. -/
def State.chSize (s : State) (ch : Nat) : Nat := 2 ^ s.get Fld.CH_CFG.SIZE_LOG2 ch

/-- STATUS codes (R400). -/
def hdOk : Nat := 0
def hdRange : Nat := 1
def hdPoison : Nat := 2
def hdDown : Nat := 3
def hdRegion : Nat := 4
def hdUnreachable : Nat := 5
def hdBad : Nat := 6

/-- Bits of descriptor word 2 that the table does not list (R400). -/
def hdReserved (w2 w3 : Nat) : Bool :=
  bits w2 39 33 != 0 || bits w2 47 46 != 0 || bits w2 63 50 != 0 || bits w3 31 8 != 0

/-- Whether n bytes from a lie in one stack's data region (R401). -/
def inOneStack (a n : Nat) : Bool :=
  n == 0 || (match placeOf a, placeOf (a + n - 1) with | .data t _, .data t' _ => t == t' | _, _ => false)

/-- The granules that ERR_POISON lists. -/
def State.poisonList (s : State) : List Nat :=
  ((upFrom 0 16).filter (fun e => s.is Fld.ERR_POISON.VALID e)).foldl (fun l e => setInsert l (s.get Fld.ERR_POISON.GRANULE e)) []

/-- The granules of region r that n bytes from a touch: the first, and how many. -/
def State.regionTouch (s : State) (r a n : Nat) : Nat × Nat :=
  let b := s.get Fld.REG_LOC.STACK r * stackSpan / 4096 + 512 * s.get Fld.REG_LOC.FIRST r
  let lo := Nat.max b (a / 4096)
  (lo, if n = 0 then 0 else Nat.min (b + 512 * s.get Fld.REG_LOC.COUNT r) ((a + n - 1) / 4096 + 1) - lo)

/-- Whether n bytes from a touch a shared region that takes no bulk write (R360, R401): one in SEALING, or one in READY in a granule
that ERR_POISON does not list. -/
def State.touchesRegion (s : State) (a n : Nat) : Bool :=
  (upFrom 0 32).any (fun r =>
    let st := s.get Fld.REG_STAT.STATE r
    let (lo, k) := s.regionTouch r a n
    (st == rgSealing && k != 0) ||
      (st == rgReady && (s.poisonList.filter (fun g => decide (lo ≤ g) && decide (g < lo + k))).length != k))

/-- The checks of a descriptor in their order (R401): its STATUS, 0 when it passes. -/
def State.hdCheck (s : State) (w0 w1 w2 w3 : Nat) : Nat :=
  let n := bits w2 31 0
  let out := bit w2 32
  let dpa := if out then w0 else w1
  if hdReserved w2 w3 || w0 % 64 != 0 || w1 % 64 != 0 || n % 64 != 0 then hdBad
  else if !inOneStack dpa n then hdRange
  else if !out && s.touchesRegion dpa n then hdRegion
  else hdOk

/-- Lines copied from a stack to the host (R401): a poisoned one arrives with its indication, its bytes free. -/
def State.linesOut (s : State) (w : Who) (dpa host : Nat) : Nat → Bool × State
  | 0 => (false, s)
  | n + 1 =>
    let (bad, s) := s.linesOut w dpa host n
    match s.readLine w (dpa / 64 + n) with
    | (some v, s) => (bad, s.hostWrite (host + 64 * n) 64 v)
    | (none, s) => (true, ({ s with free := s.free + 1 } : State).hostWrite (host + 64 * n) 64 (Config.freeLine s.free).toNat)

/-- The stack-side address of a descriptor. -/
def HdmaJob.dpa (j : HdmaJob) : Nat := if bit (nth 0 j.words 2) 32 then nth 0 j.words 0 else nth 0 j.words 1

/-- n bytes more of a job moved (R401): a poisoned line sets STATUS 2 and stops nothing. -/
def State.hdMove (s : State) (ch : Nat) (j : HdmaJob) (n : Nat) : HdmaJob × State :=
  let w : Who := ⟨.hdma ch, none⟩
  let src := nth 0 j.words 0 + j.moved
  let dst := nth 0 j.words 1 + j.moved
  let k := { j with moved := j.moved + n, left := j.left - n }
  if bit (nth 0 j.words 2) 32 then
    let (bad, s) := (s.traffic w false false src n).linesOut w src dst (n / 64)
    ({ k with status := if bad then hdPoison else j.status }, s)
  else (k, ((s.traffic w false true dst n).count Fld.CXLC_BYTES_IN.BYTES n).writeOpen w dst n (s.hostRead src n))

/-- How far a job has moved when n more of its 4 KiB boundaries are reached (R402): bytes. -/
def HdmaJob.reach (j : HdmaJob) (n : Nat) : Nat :=
  let a := j.dpa + j.moved
  if n = 0 then 0 else Nat.min j.left ((a / 4096 + n) * 4096 - a)

/-- A job started (R401, R402): how many of its 4 KiB boundaries it reaches before anything else happens is a free value (log 11). -/
def State.hdStart (s : State) (ch : Nat) (j : HdmaJob) : HdmaJob × State :=
  if !s.stackUp (j.dpa / stackSpan) && j.left != 0 then ({ j with status := hdDown, left := 0 }, s)
  else
    let (k, s) := s.freeBelow (j.left / 4096 + 3)
    if j.reach k = 0 then (j, s) else s.hdMove ch j (j.reach k)

/-- HDMA_DESCRIPTOR (R360, R400, R401, R403, R431): the next descriptor of a channel is read, checked and started, or sent to the
device it names. One that a shared region turns away is counted. -/
def execHdmaDescriptor (ch : Fin 4) (s : State) : Host.Outcome State Fault Refusal :=
  let js := s.jobs ch
  let i := (s.get Fld.CH_HEAD.HEAD ch + js.length) % 2 ^ 32
  if !s.isUp 0 || s.pcieOnly || !s.is Fld.CH_CFG.EN ch || i == s.get Fld.CH_TAIL.TAIL ch then ok s
  else
    let at_ := s.chBase ch + 32 * (i % s.chSize ch)
    let ws := (upFrom 0 4).map (fun k => s.hostRead (at_ + 8 * k) 8)
    let w2 := nth 0 ws 2
    let dev := bits w2 45 40
    if bit w2 49 && !js.isEmpty then ok s
    else if dev != 0 then
      let bad := hdReserved w2 (nth 0 ws 3)
      let reach := s.get Fld.ETH_DEV.MODE == mdGateway && s.net.mgmt && !(s.qp (mgmtQp dev)).error
      let status := if bad then hdBad else if reach then hdOk else hdUnreachable
      let s := if status = hdOk then s.sendDev dev (.dma ch ws) else s
      ok (s.setJobs ch (js ++ [⟨status, 0, 0, bit w2 48, dev, status == hdOk, ws⟩]))
    else
      match s.hdCheck (nth 0 ws 0) (nth 0 ws 1) w2 (nth 0 ws 3) with
      | 0 =>
        let (j, s) := s.hdStart ch ⟨hdOk, 0, bits w2 31 0, bit w2 48, 0, false, ws⟩
        ok (s.setJobs ch (js ++ [j]))
      | st =>
        let s := if st = hdRegion then s.bump Fld.CXLC_DROP.REGION 1 else s
        ok (s.setJobs ch (js ++ [⟨st, 0, 0, bit w2 48, 0, false, ws⟩]))

/-- The first job of a channel completed with a STATUS (R401, R404): STATUS and DONE_64, the head index, the vector. -/
def State.hdFinish (s : State) (ch : Nat) (j : HdmaJob) (status : Nat) : State :=
  let head := s.get Fld.CH_HEAD.HEAD ch
  let at_ := s.chBase ch + 32 * (head % s.chSize ch)
  let s := s.hostWrite (at_ + 24) 8 (status + (j.moved / 64) <<< 32)
  let s := s.set Fld.CH_HEAD.HEAD (head + 1) ch
  let s := s.hostWrite (s.chBase ch + 32 * s.chSize ch) 8 (s.get Fld.CH_HEAD.HEAD ch)
  let s := if status = 0 then s else s.set Fld.CH_STAT.LAST_ERR status ch
  let s := s.setJobs ch ((s.jobs ch).drop 1)
  if j.int then s.msix (s.get Fld.CH_CFG.VEC ch) else s

/-- HDMA_DESCRIPTOR_DONE (R401): the bytes left of the channel's first descriptor move, or its stack has gone down; once every byte is
performed, or its reply has come, it completes. -/
def execHdmaDescriptorDone (ch : Fin 4) (s : State) : Host.Outcome State Fault Refusal :=
  match s.jobs ch with
  | j :: l =>
    if !s.isUp 0 || s.pcieOnly then ok s
    else if j.left != 0 then
      let (k, s) := if s.stackUp (j.dpa / stackSpan) then s.hdMove ch j j.left else ({ j with status := hdDown, left := 0 }, s)
      ok (s.setJobs ch (k :: l))
    else if !j.awaits && !s.anyReq (fun r => r.agent = .hdma ch) then ok (s.hdFinish ch j j.status) else ok s
  | [] => ok s

/-- A channel stopped (R402): EN clears, the descriptor under way takes STATUS 6, later ones stay untouched. -/
def State.stopChannel (s : State) (ch : Nat) : State :=
  let s := s.set Fld.CH_CFG.EN 0 ch
  match s.jobs ch with
  | j :: _ => (s.hdFinish ch j hdBad).setJobs ch []
  | [] => s.setJobs ch []

/-- HDMA_CHANNEL_STOP (R402). -/
def execHdmaChannelStop (ch : Fin 4) (s : State) : Host.Outcome State Fault Refusal :=
  occurs (s.serves 0 && s.is Fld.CH_CFG.EN ch) s (s.stopChannel ch)

/-- A write of CH_CFG (R400, R402). -/
def State.chCfgPut (s : State) (ch w mask : Nat) : State :=
  let was := s.is Fld.CH_CFG.EN ch
  let m := mergeMask mask w (s.word Reg.CH_CFG ch 0)
  let s := if was && !bit m 16 then s.stopChannel ch else s
  let s := s.plainWrite Reg.CH_CFG ch 0 w mask
  let n := s.get Fld.CH_CFG.SIZE_LOG2 ch
  let s := if n < 4 then s.set Fld.CH_CFG.SIZE_LOG2 4 ch else s
  s.setJobs ch (s.jobs ch)

end Sys2Proof.Machine
end

