-- ==== Sys2Proof/Machine/Eth.lean ====
section
/-!
DEFINITION. The network ports: links, PTP, ARP, queue pairs and their congestion control, groups, forwarded messages and
forwarded DMA (R29, R32, R56, R407–R420, R429–R431).
-/
namespace Sys2Proof.Machine

/-- LOCKED and the other states of TICK_SYNC. -/
def syFree : Nat := 0
def syAcquiring : Nat := 1
def syLocked : Nat := 2
def syHoldover : Nat := 3

/-- The state of TICK_SYNC after a sync message of an offset (R56): LOCKED after 16 in a row within 1 µs. -/
def State.syncState (s : State) (off : Int) : State :=
  let n := if off.natAbs ≤ 1000 then s.tick.goodSyncs + 1 else 0
  let s : State := { s with tick := { s.tick with goodSyncs := Nat.min 16 n, lostAt := none } }
  let s := s.set Fld.TICK_SYNC.STATE (if 16 ≤ n then syLocked else syAcquiring)
  s.set Fld.TICK_SYNC.OFFSET_NS (ofSigned 32 off)

/-- The discipline loop's correction of an offset (R32): slewed, or stepped when it is large and may be. A step that waits for
a leap tick is not refused, so COUNT_REFUSED is not set (DEDUCED: R32 sets it for a TICK_COUNT write that its condition turns
away; log 37). -/
def State.discipline (s : State) (off : Int) : State :=
  let big := decide (1000 * s.get Fld.TICK_DISC.STEP_THRESH_US < off.natAbs)
  if big && s.maySetCount then
    ({ s with tick := { s.tick with slew := 0, slewFrac := 0, pendStep := none } } : State).setCount (ofSigned 64 ((s.now : Int) + off))
  else { s with tick := { s.tick with slew := off, pendStep := if big then some off else none } }

/-- PTP_MESSAGE (R416, R32, R56): a sync on sublink 0 of the port TICK_DISC names, with the measured offset in ns. -/
def execPtpMessage (port : Fin 4) (offset : Int) (s : State) : Host.Outcome State Fault Refusal :=
  if s.isUp 0 && s.isUp (dieOfPort port) && s.is Fld.TICK_DISC.DISC_EN && s.get Fld.TICK_DISC.PORT == port.val &&
      !s.is Fld.PTP_CFG.ROLE && s.linkUp port 0 then
    ok ((s.syncState offset).discipline offset)
  else ok s

/-- Something that falls due at a time: done if the time has passed, or once it comes before the next base tick
boundary. -/
def State.dueAt (s : State) (at_ : Nat) (f : State → State) : Host.Outcome State Fault Refusal :=
  if at_ ≤ s.now then ok (f s)
  else match s.advanceTo at_ with
    | some t => ok (f t)
    | none => ok s

/-- PTP lost (R56, R491). -/
def State.losePtp (s : State) : State :=
  let st := s.get Fld.TICK_SYNC.STATE
  if st == syLocked || st == syAcquiring then
    ({ s with tick := { s.tick with goodSyncs := 0, lostAt := some s.now } } : State).set Fld.TICK_SYNC.STATE syHoldover
  else s

/-- PTP_LOSS (R56): HOLDOVER from LOCKED, and from ACQUIRING as well (DEDUCED: R56 names no state for it), its two seconds
counted in TICK_COUNT (DEDUCED; log 37). -/
def execPtpLoss (s : State) : Host.Outcome State Fault Refusal := ok s.losePtp

/-- HOLDOVER_EXPIRY (R56): two seconds after the loss. -/
def execHoldoverExpiry (s : State) : Host.Outcome State Fault Refusal :=
  match s.tick.lostAt with
  | some t =>
    let out := fun (s : State) =>
      (({ s with tick := { s.tick with lostAt := none } } : State).set Fld.TICK_SYNC.STATE syFree).set Fld.TICK_ERR.SYNC_LOST 1
    if s.get Fld.TICK_SYNC.STATE != syHoldover then ok s else s.dueAt (t + 2000000000) out
  | none => ok s

/-- A Sync sent, and when the next is due (R417). -/
def State.sendSync (s : State) (p : Nat) : State :=
  let next := s.now + 1000000000 / 2 ^ s.get Fld.PTP_CFG.SYNC_LOG2
  ({ s with net := { s.net with syncAt := setNth s.net.syncAt p next } } : State).send (.sync p s.now)

/-- PTP_SYNC_SEND (R417): every 2^−SYNC_LOG2 s. -/
def execPtpSyncSend (port : Fin 4) (s : State) : Host.Outcome State Fault Refusal :=
  if s.isUp 0 && s.isUp (dieOfPort port) && s.is Fld.PTP_CFG.ROLE && bit (s.get Fld.PTP_CFG.MASTER_PORTS) port && s.linkUp port 0 then
    s.dueAt (nth 0 s.net.syncAt port) (fun s => s.sendSync port)
  else ok s

/-- DROPPED_FRAME (R409): any other frame on an up sublink. -/
def execDroppedFrame (port : Fin 4) (_why : Nat) (s : State) : Host.Outcome State Fault Refusal :=
  occurs (s.isUp (dieOfPort port) && s.get Fld.PORT_STAT.UP port != 0) s (s.count Fld.PORT_ERR_CNT.DROP 1 port)

/-- ARP_REQUEST (R408, R409): answered where an up sublink has the address, else dropped. -/
def execArpRequest (port : Fin 4) (ip : BitVec 32) (s : State) : Host.Outcome State Fault Refusal :=
  if !s.isUp (dieOfPort port) || s.get Fld.PORT_STAT.UP port == 0 then ok s
  else if (upFrom 0 4).any (fun j => s.linkUp port j && (s.get Fld.PORT_IP.IP port + j) % 2 ^ 32 == ip.toNat) then
    ok (s.send (.arpReply port ip.toNat))
  else ok (s.count Fld.PORT_ERR_CNT.DROP 1 port)

/-- The breakout of a port kept while it runs (R409). -/
def State.holdLanes (s : State) (p : Nat) : State := { s with net := { s.net with lanes := setNth s.net.lanes p (s.breakout p) } }

/-- The sublinks of a port train, at the breakout its register names (R408, R409). -/
def State.portTrains (s : State) (p : Nat) : State :=
  let s : State := { s with net := { s.net with lanes := setNth s.net.lanes p (s.get Fld.PORT_CFG.BREAKOUT p) } }
  (s.set Fld.PORT_STAT.UP 0 p).set Fld.PORT_STAT.TRAINING (2 ^ sublinks (s.get Fld.PORT_CFG.BREAKOUT p) - 1) p

/-- Every enabled port of a running die whose training firmware is loaded trains (R409, R476). -/
def State.portsTrain (s : State) : State :=
  ((upFrom 0 4).filter (fun p => s.is Fld.PORT_CFG.EN p && s.isUp (dieOfPort p) && nth true s.sec.loaded 5)).foldl (fun s p => s.portTrains p) s

/-- LINK_UP (R409, R411): a sublink of an enabled port trains; a die 0 link establishes the management pairs. -/
def execLinkUp (port : Fin 4) (lane : Fin 4) (s : State) : Host.Outcome State Fault Refusal :=
  let d := dieOfPort port
  if s.isUp d && s.mod.power = .on && nth true s.sec.loaded 5 && s.is Fld.PORT_CFG.EN port && decide (lane.val < sublinks (s.breakout port)) then
    let s := (s.holdLanes port).set Fld.PORT_STAT.UP (s.get Fld.PORT_STAT.UP port ||| 2 ^ lane.val) port
    let s := s.set Fld.PORT_STAT.TRAINING (s.get Fld.PORT_STAT.TRAINING port &&& (15 - 2 ^ lane.val)) port
    if d = 0 then ok { s with net := { s.net with mgmt := true } } else ok s
  else ok s

/-- Every sublink of every port down (R491). -/
def State.portsDown (s : State) : State :=
  (upFrom 0 4).foldl (fun s p => (s.set Fld.PORT_STAT.UP 0 p).set Fld.PORT_STAT.TRAINING 0 p) s

/-- The four addresses of device d (R418). -/
def State.devAddrs (s : State) (d : Nat) : List Nat :=
  [s.get Fld.ETH_DT0.ADDR0 d, s.get Fld.ETH_DT0.ADDR1 d, s.get Fld.ETH_DT1.ADDR2 d, s.get Fld.ETH_DT1.ADDR3 d]

/-- The devices a group's words name, in rank order. -/
def State.groupDevs (s : State) (g n : Nat) : List Nat := (upFrom 0 n).map (s.memberDev g)

/-- A list with each number once, in order. -/
def asSet (l : List Nat) : List Nat := l.foldl setInsert []

/-- Whether GRP_CFG may be written with EN = 1 (R419, R420). -/
def State.groupOk (s : State) (g w : Nat) : Bool :=
  let n := bits w 6 0
  let rank := bits w 13 8
  let p := bits w 19 16
  let devs := s.groupDevs g n
  let me := s.get Fld.ETH_DEV.DEV_NUM
  decide (1 ≤ n) && decide (n ≤ 64) && decide (rank < n) && s.memberDev g rank == me &&
    (asSet devs).length == devs.length && devs.all (fun d => decide (d < 64)) &&
    devs.all (fun d => d == me || (s.devAddrs d).any (· != 0)) && s.pstate p != stRunning &&
    (s.groupsOf p).all (fun h => asSet (s.groupDevs h (s.get Fld.GRP_CFG.MEMBERS h)) == asSet devs)

/-- The data queue pairs of group g as established (R411). -/
def State.openPairs (s : State) (g : Nat) : State :=
  { s with net := { s.net with qps := s.net.qps.filter (fun e => match dataQp e.1 with | some (h, _, _) => h != g | none => true) } }

/-- A write of GRP_CFG (R411, R419): refused while EN is set, or where it would enable a bad table. -/
def State.grpCfgPut (s : State) (g w mask : Nat) : State :=
  let m := mergeMask mask w (s.word Reg.GRP_CFG g 0)
  if s.is Fld.GRP_CFG.EN g || (bit m 31 && !s.groupOk g m) then s.set Fld.ETH_ERR.TABLE_BAD 1
  else
    let s := s.plainWrite Reg.GRP_CFG g 0 w mask
    if s.is Fld.GRP_CFG.EN g then s.openPairs g else s

/-- A write of a word of GRP_MAP (R419). -/
def State.grpMapPut (s : State) (g i w mask : Nat) : State :=
  if s.is Fld.GRP_CFG.EN g then s.set Fld.ETH_ERR.TABLE_BAD 1 else s.plainWrite Reg.GRP_MAP g i w mask

/-- GROUP_ENABLE (R419): a write of GRP_CFG with EN set. -/
def execGroupEnable (g : Fin 16) (v : Word) (s : State) : Host.Outcome State Fault Refusal :=
  occurs (s.serves 0 && bit v.toNat 31) s (s.grpCfgPut g v.toNat fullMask)

/-- The data queue pair of die d for group g, link k and peer rank r (R411). -/
def qpOf (d g k r : Nat) : Nat := 65536 * d + 0x1000 + g * 0x200 + k * 0x40 + r

/-- Whether a queue pair exists (R411). -/
def State.qpExists (s : State) (q : Nat) : Bool :=
  match dataQp q with
  | some (g, _, r) => decide (q < 131072) && s.is Fld.GRP_CFG.EN g && decide (r < s.get Fld.GRP_CFG.MEMBERS g) && r != s.get Fld.GRP_CFG.RANK g
  | none => s.net.mgmt && decide (0x100 ≤ q) && decide (q < 0x140) && q != mgmtQp (s.get Fld.ETH_DEV.DEV_NUM)

/-- g of R414. -/
def State.ccGain (s : State) : Rat := (s.get Fld.ETH_CC.G_1024 : Rat) / 1024

/-- A CNP's effect on a queue pair (R414): rates in Mb/s. -/
def State.onCnp (s : State) (q : Nat) : State :=
  let x := s.qp q
  let rc := (s.qpRates q).1
  let cut := rc * (1 - x.alpha / 2)
  s.setQp q { x with rates := some (if cut < 1000 then 1000 else cut, rc), alpha := (1 - s.ccGain) * x.alpha + s.ccGain, stage := 0, ccFrom := s.now }

/-- CNP_RECEIVE (R414). -/
def execCnpReceive (port : Fin 4) (qp : Nat) (s : State) : Host.Outcome State Fault Refusal :=
  occurs (s.isUp (dieOfPort port) && s.get Fld.PORT_STAT.UP port != 0 && s.qpExists qp) s
    ((s.onCnp qp).count Fld.PORT_EVT.CNP_RCVD 1 port)

/-- The rate timer of a queue pair (R414). -/
def State.onTimer (s : State) (q : Nat) : State :=
  let x := s.qp q
  let (rc, rt) := s.qpRates q
  let top := s.linkRate (s.portOf q)
  let up := rt + 10 * (s.get Fld.ETH_CC.AI_10MBPS : Rat)
  let rt' := if x.stage < 5 then rt else if top < up then top else up
  s.setQp q { x with
    alpha := (1 - s.ccGain) * x.alpha, stage := if x.stage < 5 then x.stage + 1 else x.stage, rates := some ((rc + rt') / 2, rt')
    ccFrom := s.now }

/-- CC_TIMER (R414): TIMER_US have passed without a CNP. -/
def execCcTimer (qp : Nat) (s : State) : Host.Outcome State Fault Refusal :=
  if s.qpExists qp then s.dueAt ((s.qp qp).ccFrom + 1000 * s.get Fld.ETH_CC.TIMER_US) (fun s => s.onTimer qp) else ok s

/-- Packets of a queue pair sent again from the oldest not acknowledged (R413). -/
def State.resend (s : State) (q : Nat) : State :=
  let l := (s.qp q).unacked
  let s := (s.setQp q { s.qp q with ackFrom := s.now }).count Fld.PORT_ERR_CNT.RETX l.length (s.portOf q)
  l.foldl (fun s e => s.send (.packet q e.1 e.2)) s

/-- The packets of a queue pair up to a PSN acknowledged (R413). -/
def State.acked (s : State) (q psn : Nat) : State :=
  let x := s.qp q
  if x.unacked.any (fun e => e.1 == psn) then
    s.setQp q { x with unacked := (x.unacked.dropWhile (fun e => e.1 != psn)).drop 1, tries := 0, ackFrom := s.now }
  else s

/-- Whether PSN a lies before b, in the 24-bit sequence. -/
def psnBefore (a b : Nat) : Bool := let d := (b + 2 ^ 24 - a) % 2 ^ 24; decide (0 < d) && decide (d < 2 ^ 23)

/-- QP_RESET_NOTICE (R413): the other end of a queue pair is in ERROR; this end restarts with it. -/
def execQpResetNotice (dev : Fin 64) (qp : Nat) (s : State) : Host.Outcome State Fault Refusal :=
  occurs (s.isUp 0 && s.qpExists (mgmtQp dev) && s.qpExists qp) s (s.setQp qp { s.qp qp with error := true, errorAt := s.now })

/-- QP_RESTART (R413): a data pair at its partition's step boundary, a management pair 1 ms after its error. -/
def execQpRestart (qp : Nat) (s : State) : Host.Outcome State Fault Refusal :=
  let x := s.qp qp
  if !x.error then ok s
  else
    match dataQp qp with
    | some (g, _, _) => occurs (s.atBoundary && s.stepDue (s.get Fld.GRP_CFG.PART g) && decide (x.errorAt < s.now)) s (s.setQp qp .reset)
    | none => s.dueAt (x.errorAt + 1000000) (fun s => s.setQp qp .reset)

/-- The outcome of delivering a forwarded message here (R375, R430), as a RESULT code, 7 for DOWN. -/
def State.landMessage (s : State) (dev m len : Nat) (ws : List Nat) : Nat × State :=
  let rcv := s.get Fld.MB_CFG.RCV m
  if s.rcvDown rcv then (7, s)
  else if len < 8 || 16 < len then (3, s)
  else if s.rcvDrains rcv then (4, s)
  else if s.is Fld.R_PEEK.FULL m then (2, s)
  else
    let s := ((upFrom 0 16).zip ws).foldl (fun s e => s.putBoxWord m e.1 e.2) s
    (1, s.deliver m len (ident clRemote dev))

/-- FORWARDED_MESSAGE (R429, R430). -/
def execForwardedMessage (msg : FwdMsg) (s : State) : Host.Outcome State Fault Refusal :=
  let mode := s.get Fld.ETH_DEV.MODE
  if !s.isUp 0 || !s.qpExists (mgmtQp msg.dev) || !(mode == mdGateway || (mode == mdTethered && msg.dev.val == 0)) then ok s
  else
    let (r, s) := s.landMessage msg.dev msg.mailbox msg.len (msg.words.map BitVec.toNat)
    ok (s.sendDev msg.dev (.reply msg.src r))

/-- FORWARD_REPLY (R430): the sender's RESULT; a notice that found its mailbox FULL waits for the next base tick. -/
def execForwardReply (reply : FwdReply) (s : State) : Host.Outcome State Fault Refusal :=
  let m := reply.src
  let r := reply.result.val
  if !s.net.fwd.contains m then ok s
  else
    let s : State := { s with net := { s.net with fwd := setErase s.net.fwd m } }
    if m < 64 then ok (s.set Fld.S_STAT.RESULT (if r = 7 then 5 else r) m)
    else if r = 2 then ok { s with net := { s.net with notices := s.net.notices ++ [s.get Fld.DB_PEND.PEND 0] } }
    else ok s

/-- FORWARDED_DMA_REQUEST (R403, R431): a tethered device checks a descriptor of device 0 and replies. -/
def execForwardedDmaRequest (req : FwdDma) (s : State) : Host.Outcome State Fault Refusal :=
  if !s.isUp 0 || s.get Fld.ETH_DEV.MODE != mdTethered || !s.qpExists (mgmtQp 0) then ok s
  else
    let w := fun (i : Nat) => (nth 0#64 req.words i).toNat
    let n := bits (w 2) 31 0
    let a := if bit (w 2) 32 then w 0 else w 1
    let st := s.hdCheck (w 0) (w 1) (w 2) (w 3)
    let st := if st = hdOk && n != 0 && !s.stackUp (a / stackSpan) then hdDown else st
    let s : State := if st = hdOk then { s with net := { s.net with ranges := s.net.ranges ++ [⟨req.id, a, n, n, !bit (w 2) 32⟩] } } else s
    ok (s.sendDev 0 (.dmaReply req.id st))

/-- The pieces of a forwarded write (R431). -/
def fwdPieces (a : Nat) (l : List Byte) : List (Nat × List Byte) :=
  let ps := chunks 65536 l
  ((upFrom 0 ps.length).zip ps).map (fun e => (a + 65536 * e.1, e.2))

/-- The READs of a forwarded read (R431). -/
def State.askPieces (s : State) (dev a n : Nat) : State :=
  (upFrom 0 (ceilDiv n 65536)).foldl (fun s i => s.sendDev dev (.read (a + 65536 * i) (Nat.min 65536 (n - 65536 * i)))) s

/-- FORWARDED_DMA_REPLY (R431): after a pass the gateway moves the data; the outcome is the descriptor's STATUS. -/
def execForwardedDmaReply (reply : FwdDmaReply) (s : State) : Host.Outcome State Fault Refusal :=
  let ch := reply.ch.val
  let js := s.jobs ch
  match js.find? (fun j => j.awaits), s.isUp 0 with
  | some j, true =>
    let w := fun (i : Nat) => nth 0 j.words i
    let n := bits (w 2) 31 0
    let st := if reply.status.val = 7 then hdUnreachable else reply.status.val
    let (moved, s) :=
      if st ≠ hdOk then (0, s)
      else if bit (w 2) 32 then (n, (s.askPieces j.dev (w 0) n).hostWriteList (w 1) (bytesOf n (ofBytes reply.data)))
      else (n, (fwdPieces (w 1) (smPeekList s.host (w 0) n)).foldl (fun s e => s.sendDev j.dev (.write e.1 e.2)) s)
    let done := { j with awaits := false, status := st, moved := moved }
    let s := s.setJobs ch (js.map (fun x => if x = j then done else x))
    match s.jobs ch with
    | x :: _ => if x = done then ok (s.hdFinish ch done st) else ok s
    | [] => ok s
  | _, _ => ok s

end Sys2Proof.Machine
end

