-- ==== Sys2Proof/Machine/Coll.lean ====
section
/-!
DEFINITION. Collective phases: their descriptors, publications, pieces, completion and failure, and the packets of queue
pairs (R278, R412, R413, R421–R426).
-/
namespace Sys2Proof.Machine

/-- Phase operations (R421). -/
def opGather : Nat := 1
def opReduceScatter : Nat := 2
def opAllReduce : Nat := 3
def opAllToAll : Nat := 4

/-- COLL_REC codes (R425). -/
def clDesc : Nat := 1
def clScratch : Nat := 2
def clSrcData : Nat := 3
def clRemoteErr : Nat := 4
def clPeerLost : Nat := 5
def clLink : Nat := 6
def clDown : Nat := 7

/-- The access of a die's collective engine for partition p. -/
def collWho (d p : Nat) : Who := ⟨.coll d, some p⟩

/-- First index and count that rank ρ holds of each dimension (R201, R203). -/
def Desc.blockAt (d : Desc) (rho : Nat) : List (Nat × Nat) :=
  (upFrom 0 d.rank).map (fun i =>
    let e := nth 0 d.ext i
    match d.dist, nth 0 d.shd i with
    | true, 1 => (rho % d.ga * ceilDiv e d.ga, shardExtent e d.ga (rho % d.ga))
    | true, 2 => (rho / d.ga * ceilDiv e d.gb, shardExtent e d.gb (rho / d.ga))
    | _, _ => (0, e))

/-- The index vectors of a block in logical order, dimension 0 fastest (R193). -/
def indexVecs : List Nat → List (List Nat)
  | [] => [[]]
  | e :: es => (indexVecs es).flatMap (fun t => (upFrom 0 e).map (fun k => k :: t))

/-- The logical index in a block of a global index vector, if it lies there. -/
def indexIn : List (Nat × Nat) → List Nat → Option Nat
  | [], [] => some 0
  | (o, e) :: bs, g :: gs =>
    if o ≤ g && g < o + e then (indexIn bs gs).map (fun r => (g - o) + e * r) else none
  | _, _ => none

/-- The group fields of a phase's descriptors. -/
def CollPhase.srcD (x : CollPhase) : Desc := Desc.of x.src.toNat
/-- The DST descriptor of a phase. -/
def CollPhase.dstD (x : CollPhase) : Desc := Desc.of x.dst.toNat

/-- The elements of DST that member r's SRC supplies: index in DST, index in r's SRC, in logical order (R422). -/
def State.needOf (s : State) (x : CollPhase) (r : Nat) : List (Nat × Nat) :=
  let me := s.get Fld.GRP_CFG.RANK x.group
  let db := x.dstD.blockAt me
  let sb := x.srcD.blockAt r
  let vs := indexVecs (db.map Prod.snd)
  ((upFrom 0 vs.length).zip vs).filterMap (fun e => (indexIn sb ((db.zip e.2).map (fun b => b.1.1 + b.2))).map (fun m => (e.1, m)))

/-- Bytes that this device reads of member r's SRC, packed. -/
def State.needBytes (s : State) (x : CollPhase) (r : Nat) : Nat := ceilDiv ((s.needOf x r).length * x.srcD.width) 8

/-- The bytes of a piece (R423). -/
def pieceBytes : Nat := 65536

/-- The ranks on the line of rank ρ over an axis of a GA × GB grid (R419): 0 A, 1 B, 2 the whole group. -/
def lineOf (ga n rho axis : Nat) : List Nat :=
  (upFrom 0 n).filter (fun r => if axis = 0 then r / ga == rho / ga else if axis = 1 then r % ga == rho % ga else true)

/-- Dimensions whose sharding differs between two descriptors, as (SRC, DST) codes. -/
def shdDiffs (a b : Desc) : List (Nat × Nat) :=
  (upFrom 0 4).filterMap (fun i =>
    let p := (nth 0 a.shd i, nth 0 b.shd i)
    if p.1 = p.2 then none else some p)

/-- The axis of a phase and whether its sharding is the required one (R422): 0 A, 1 B, 2 the whole group. -/
def phaseAxis (op axis : Nat) (a b : Desc) : Option Nat :=
  if op = opAllReduce then
    if shdDiffs a b = [] && axis ≤ 2 && !(axis == 2 && a.shd.any (· != 0)) && !(axis < 2 && a.shd.contains (axis + 1)) then some axis
    else none
  else if axis ≠ 0 then none
  else
    match shdDiffs a b with
    | [(u, v)] =>
      if op = opGather && v = 0 then some (u - 1)
      else if op = opReduceScatter && u = 0 then some (v - 1)
      else none
    | [(u, 0), (0, v)] => if op = opAllToAll && u = v then some (u - 1) else none
    | [(0, v), (u, 0)] => if op = opAllToAll && u = v then some (u - 1) else none
    | _ => none

/-- Reserved bits of a phase descriptor (R421). -/
def phaseReserved (raw : Nat) : Bool :=
  let op := dw raw 0 2 0
  dw raw 0 3 3 != 0 || dw raw 0 11 10 != 0 || dw raw 0 63 13 != 0 || dw raw 1 63 42 != 0 || dw raw 2 63 42 != 0 ||
    dw raw 3 63 42 != 0 || bits raw 511 256 != 0 || (dw raw 0 9 8 != 0 && op != opAllReduce) ||
    (dw raw 0 12 12 != 0 && !(op == opReduceScatter || op == opAllReduce)) ||
    (dw raw 3 41 0 != 0 && !(op == opReduceScatter || op == opAllReduce))

/-- Whether an operation reduces. -/
def opReduces (op : Nat) : Bool := op == opReduceScatter || op == opAllReduce

/-- Whether the descriptors of a phase suit its operation (R422). -/
def State.phaseFits (s : State) (p op axis group : Nat) (ra rb : Nat) : Bool :=
  let a := Desc.of ra
  let b := Desc.of rb
  s.createOk p ra && s.createOk p rb && a.dist && b.dist && a.group == group && b.group == group && a.ga == b.ga &&
    a.rank == b.rank && a.ext == b.ext && a.kind == b.kind && opRead a && b.mode != mdRead &&
    (if opReduces op then a.kind == kdData && decide (a.fmt ≤ 2) && decide (b.fmt ≤ 2) else a.width == b.width) && (phaseAxis op axis a b).isSome &&
    (let la := s.localDesc a
     let lb := s.localDesc b
     (op == opAllReduce && ra == rb) || la.count == 0 || lb.count == 0 ||
       decide (la.hi < lb.lo) || decide (lb.hi < la.lo))

/-- The 64 bytes at an address of a partition, if it may read them and they are not poisoned. -/
def State.phaseLine (s : State) (d p a : Nat) : Option Nat × State :=
  if a % 64 = 0 && s.scalarReach p a 64 false then
    let (v, bad, s) := (s.traffic (collWho d p) false false a 64).readBytes (collWho d p) a 64
    (if bad.isSome then none else some v, s)
  else (none, s)

/-- A phase made of its descriptors, or the code that fails it and the group it names (R421, R422, R425). -/
def State.loadPhase (s : State) (x : CollPhase) : Except (Nat × Option Nat) CollPhase × State :=
  match s.phaseLine x.die x.part x.dpa with
  | (none, s) => (.error (clDesc, none), s)
  | (some raw, s) =>
    let op := dw raw 0 2 0
    let g := dw raw 0 7 4
    let axis := dw raw 0 9 8
    if op < 1 || 4 < op || phaseReserved raw then (.error (clDesc, some g), s)
    else if !s.is Fld.GRP_CFG.EN g || s.get Fld.GRP_CFG.PART g != x.part then (.error (clDesc, some g), s)
    else
      match s.phaseLine x.die x.part (dw raw 1 41 0) with
      | (none, s) => (.error (clDesc, some g), s)
      | (some ra, s) =>
        match s.phaseLine x.die x.part (dw raw 2 41 0) with
        | (none, s) => (.error (clDesc, some g), s)
        | (some rb, s) =>
          if !s.phaseFits x.part op axis g ra rb then (.error (clDesc, some g), s)
          else
            let a := Desc.of ra
            let n := (s.localDesc (Desc.of rb)).count
            let sc := dw raw 3 41 0
            let scOk := !opReduces op || n == 0 ||
              (match placeOf sc, placeOf (sc + 4 * n - 1) with
               | .sbuf d lo, .sbuf d' hi => d == x.die && d' == x.die && s.sbHas x.part d lo hi
               | _, _ => false)
            if !scOk then (.error (clScratch, some g), s)
            else
              let ax := (phaseAxis op axis a (Desc.of rb)).getD 2
              let line := lineOf a.ga (s.get Fld.GRP_CFG.MEMBERS g) (s.get Fld.GRP_CFG.RANK g) ax
              (.ok { x with
                started := true, began := s.now, key := (s.part x.part).openTick, op := op, group := g
                redop := dw raw 0 12 12, src := BitVec.ofNat 512 ra, dst := BitVec.ofNat 512 rb, scratch := sc, line := line }, s)

/-- The members of a phase's line other than this device. -/
def State.others (s : State) (x : CollPhase) : List Nat := x.line.filter (fun r => r != s.get Fld.GRP_CFG.RANK x.group)

/-- A message to every other member of a phase's line. -/
def State.tellLine (s : State) (x : CollPhase) (m : Msg) : State :=
  (s.others x).foldl (fun s r => s.sendDev (s.memberDev x.group r) m) s

/-- A value, or a free one of some width. -/
def State.orFree (s : State) (v : Option Nat) (n : Nat) : Nat × State :=
  match v with
  | some x => (x, s)
  | none => s.freeBelow n

/-- A phase fails (R425, R155, R44): COLL_REC, the abort to its line, the fault of its core or the abandonment. The group and
the peer rank of a failure that has none are free. -/
def State.failPhase (s : State) (x : CollPhase) (code : Nat) (peer : Option Nat) (addr : Nat)
    (group : Option Nat := if x.started then some x.group else none) : State :=
  let s : State := { s with colls := s.colls.filter (fun y => y != x) }
  let s := s.count Fld.COLL_CNT.FAULTS 1 x.die
  let s :=
    if s.is Fld.COLL_REC.VALID x.die then s
    else
      let (r, s) := s.orFree peer 64
      let (g, s) := s.orFree group 16
      s.setWord Reg.COLL_REC x.die 0 (1 + code <<< 1 + g <<< 4 + x.tag <<< 8 + (r % 64) <<< 10 + x.part <<< 16)
  let s := if x.started then s.tellLine x (.abort x.group x.tag x.key (s.get Fld.GRP_CFG.RANK x.group)) else s
  let shared := code == clSrcData && (s.sharedAt addr).isSome
  let s :=
    if shared then
      let k := s.part x.part
      s.setPart x.part { k with stoppedFor := setInsert k.stoppedFor (addr / 4096) }
    else s
  match x.item with
  | some _ => s.beginAbandon x.part ⟨.fault, 5, x.die, shared⟩
  | none => s.coreFaultAs x.core .xe x.pc ⟨cfCollFault, addr, none⟩ x.die 5 x.die shared

/-- A phase replaced. -/
def State.setPhase (s : State) (x y : CollPhase) : State := { s with colls := s.colls.map (fun z => if z = x then y else z) }

/-- Elements of a row that lie side by side, written: bytes they share with others keep the other bits; those that end the row take
its unused last bits with them, as zero (R192). -/
def State.putRun (s : State) (w : Who) (ends : Bool) (row width c n v : Nat) : State :=
  let lo := c * width
  let a := row + lo / 8
  let len := (lo + n * width - 1) / 8 - lo / 8 + 1
  let sh := lo % 8
  let old := smBytes s.mem a len
  let mask := if ends then 2 ^ (8 * len) - 2 ^ sh else (2 ^ (n * width) - 1) <<< sh
  let new := (old &&& (2 ^ (8 * len) - 1 - mask % 2 ^ (8 * len))) ||| (v <<< sh)
  (s.lineTraffic w false true a len).writeOpen w a len new

/-- Elements of a row that lie side by side added into a REDUCE array, whose granules are left open (R188, R197). -/
def State.addRun (s : State) (w : Who) (f row c n v : Nat) : State :=
  let a := row + c * fmtBits f / 8
  ((s.lineTraffic w false true a (n * fmtBits f / 8)).addPiece w f a a n v).2

/-- Elements by DST index gathered into runs of one row: row, column, values. -/
def rowRuns (e0 : Nat) (l : List (Nat × Nat)) : List (Nat × Nat × List Nat) :=
  l.foldr (fun x acc =>
    let r := x.1 / Nat.max 1 e0
    let c := x.1 % Nat.max 1 e0
    match acc with
    | (r', c', vs) :: t => if r = r' && c + 1 = c' then (r, c, x.2 :: vs) :: t else (r, c, [x.2]) :: acc
    | [] => [(r, c, [x.2])]) []

/-- Elements written to DST by their logical index. -/
def State.putElems (s : State) (x : CollPhase) (l : List (Nat × Nat)) : State :=
  let d := s.localDesc x.dstD
  let rows := d.rowAddrs (s.writeBase x.part d)
  let e0 := nth 0 d.ext 0
  let w := collWho x.die x.part
  (rowRuns e0 l).foldl (fun s r =>
    let a := nth 0 rows r.1
    let v := joinBits d.width r.2.2
    if d.mode = mdReduce then s.addRun w d.fmt a r.2.1 r.2.2.length v
    else s.putRun w (r.2.1 + r.2.2.length == e0) a d.width r.2.1 r.2.2.length v) s

/-- DST elements combined into SCRATCH (R422, R423): added in FP32, or their maximum. -/
def State.reduceElems (s : State) (x : CollPhase) (first : Bool) (l : List (Nat × Nat)) : State :=
  let f := x.srcD.fmt
  l.foldl (fun s e =>
    let a := x.scratch + 4 * e.1
    let v := (narrow 0 (decodeFmt f e.2)).1
    let old := smBytes s.mem a 4
    let new := if first then v else if x.redop = 1 then (narrow 0 (fvMax (of32 old) (of32 v))).1 else (f32Add old v).1
    s.writeRaw (collWho x.die x.part) a 4 new) s

/-- Elements that have come, taken into DST or SCRATCH. -/
def State.takeElems (s : State) (x : CollPhase) (first : Bool) (l : List (Nat × Nat)) : State :=
  if opReduces x.op then s.reduceElems x first l else s.putElems x l

/-- DST granules that a phase writes in full sealed (R423); those of a REDUCE array stay open (R197). -/
def State.sealDst (s : State) (x : CollPhase) : State :=
  let d := s.localDesc x.dstD
  if d.mode = mdReduce then s
  else
  let rows := d.rowAddrs (s.writeBase x.part d)
  let cover := fun (g : Nat) =>
    sumList (rows.map (fun a => Nat.min (a + d.rowBytes) (4096 * g + 4096) - Nat.max a (4096 * g)))
  (d.granules (s.writeBase x.part d)).foldl (fun s g => if cover g = 4096 then s.sealGranule g (s.granCrcWritten g) else s) s

/-- SCRATCH rounded into DST (R170, R423). -/
def State.roundDst (s : State) (x : CollPhase) : State :=
  let n := (s.localDesc x.dstD).count
  s.putElems x ((upFrom 0 n).map (fun i => (i, (narrow x.dstD.fmt (of32 (smBytes s.mem (x.scratch + 4 * i) 4))).1)))

/-- Whether everything of member r has come. -/
def State.allOf (s : State) (x : CollPhase) (r : Nat) : Bool :=
  x.heard.contains r && decide (ceilDiv (s.needBytes x r) pieceBytes ≤ (smGet [] x.got r).length)

/-- The granules of a phase here: of SRC as it is read, of DST as it is written. -/
def State.phaseGranules (s : State) (x : CollPhase) : List Nat :=
  let a := s.localDesc x.srcD
  let b := s.localDesc x.dstD
  a.granules (s.readBase x.part a) ++ b.granules (s.writeBase x.part b)

/-- Whether a local stack of a phase is down (R425). -/
def State.phaseDown (s : State) (x : CollPhase) : Bool := (s.phaseGranules x).any (fun g => !s.answers (4096 * g))

/-- What completes a phase's DST (R423): the last piece, and for an in-place ALL_REDUCE also every member's end of reading. -/
def State.settlePhase (s : State) (x : CollPhase) : State :=
  let os := s.others x
  let waits := x.op == opAllReduce && x.src == x.dst
  if x.put || !os.all (s.allOf x) || (waits && !os.all x.readBy.contains) then s
  else if s.phaseDown x then s.failPhase x clDown none 0
  else
    let s := s.setPhase x { x with put := true }
    (if opReduces x.op then s.roundDst x else s).sealDst x

/-- The requests for a member's pieces (R423), dealt round robin over the die's up links. -/
def State.requestPieces (s : State) (x : CollPhase) (r : Nat) : State :=
  let ups := s.upLinks x.die
  let n := ceilDiv (s.needBytes x r) pieceBytes
  (upFrom 0 n).foldl (fun s i =>
    s.sendOn (qpOf x.die x.group (nth 0 ups (i % Nat.max 1 ups.length)) r) (.readPiece x.group x.tag x.key r i)) s

/-- A member's publication taken by a running phase (R423). -/
def State.hearPub (s : State) (x : CollPhase) (r : Nat) : State :=
  if x.heard.contains r || !(s.others x).contains r then s
  else
    let y := { x with heard := setInsert x.heard r }
    let s := (s.setPhase x y).requestPieces y r
    let s := if s.needBytes y r = 0 then s.sendDev (s.memberDev x.group r) (.finished x.group x.tag x.key (s.get Fld.GRP_CFG.RANK x.group)) else s
    s.settlePhase y

/-- The running phase of die d, group g and tag. -/
def State.phaseAt (s : State) (d g tag : Nat) : Option CollPhase :=
  s.colls.find? (fun x => x.started && x.die == d && x.group == g && x.tag == tag)

/-- A started phase (R423): this device's own part taken, its footprint published, early publications taken. -/
def State.beginPhase (s : State) (x y : CollPhase) : State :=
  let me := s.get Fld.GRP_CFG.RANK y.group
  let d := s.localDesc y.srcD
  let s := s.setPhase x y
  let (img, f, s) := s.getImage (collWho y.die y.part) none y.part d
  match f.filter (fun e => e.code != cfDomainDown) with
  | some e => s.failPhase y clSrcData none e.addr
  | none =>
    if (s.others y) != [] && (s.upLinks y.die).isEmpty then s.failPhase y clLink none 0
    else if s.phaseDown y then s.failPhase y clDown none 0
    else
      let vals := cutBits d.width img d.count
      let s := s.takeElems y true ((s.needOf y me).map (fun e => (e.1, nth 0 vals e.2)))
      let words := (upFrom 0 8).map (fun i => bits y.src.toNat (64 * i + 63) (64 * i))
      let s := s.tellLine y (.publish y.group y.tag y.key me words)
      let early := s.net.pubs.filter (fun b => b.die == y.die && b.group == y.group && b.tag == y.tag && b.btick == y.key)
      let s : State := { s with net := { s.net with pubs := s.net.pubs.filter (fun b => !early.contains b) } }
      let s := s.settlePhase y
      early.foldl (fun s b => match s.phaseAt y.die y.group y.tag with
        | some z => s.hearPub z b.rank
        | none => s) s

/-- COLL_PHASE_START (R423, R424): the oldest hand-off of a die starts when fewer than 8 of its phases run. -/
def execCollPhaseStart (d : Fin 2) (s : State) : Host.Outcome State Fault Refusal :=
  let running := (s.colls.filter (fun x => x.die == d.val && x.started)).length
  match s.colls.find? (fun x => x.die == d.val && !x.started) with
  | none => ok s
  | some x =>
    if 8 ≤ running || !s.isUp d || (s.part x.part).phase != .active then ok s
    else
      match s.loadPhase x with
      | (.error c, s) => ok (s.failPhase x c.1 none 0 c.2)
      | (.ok y, s) => ok (s.beginPhase x y)

/-- PUBLICATION_RECEIVE (R423): taken by the phase of its key, or kept until that phase starts. -/
def execPublicationReceive (d : Fin 2) (pub : Publication) (s : State) : Host.Outcome State Fault Refusal :=
  if !s.isUp d then ok s
  else
    match s.phaseAt d pub.group pub.tag with
    | some x => if x.key == pub.btick.toNat then ok (s.hearPub x pub.rank) else ok s
    | none =>
      let b : Pub := ⟨d, pub.group, pub.tag, pub.btick.toNat, pub.rank⟩
      ok { s with net := { s.net with pubs := s.net.pubs.filter (· != b) ++ [b] } }

/-- The elements of a member's stream that lie wholly in pieces that have come, and touch piece i: place in the stream. -/
def doneElems (w n : Nat) (got : List Nat) (i : Nat) : List Nat :=
  let per := 8 * pieceBytes
  (upFrom 0 n).filter (fun k =>
    let a := k * w / per
    let b := (k * w + w - 1) / per
    (a == i || b == i) && got.contains a && got.contains b)

/-- The READ of a piece answered: its response acknowledges it and what was sent before it on its queue pair (R413). -/
def State.pieceAnswered (s : State) (x : CollPhase) (r i : Nat) : State :=
  let hit := fun (u : Nat × Msg) => match u.2 with
    | .readPiece g tag key r' i' => g == x.group && tag == x.tag && key == x.key && r' == r && i' == i
    | _ => false
  s.net.qps.foldl (fun s e => match e.1 / 65536 == x.die, e.2.unacked.find? hit with
    | true, some u => s.acked e.1 u.1
    | _, _ => s) s

/-- RDMA_PIECE_DONE (R423): the elements that a piece completes are written to DST or added into SCRATCH. -/
def execRdmaPieceDone (d : Fin 2) (piece : Piece) (s : State) : Host.Outcome State Fault Refusal :=
  let r := piece.rank.val
  match s.phaseAt d piece.group piece.tag with
  | none => ok s
  | some x =>
    let got := smGet [] x.got r
    let total := s.needBytes x r
    let len := Nat.min pieceBytes (total - pieceBytes * piece.index)
    if !s.isUp d || !x.heard.contains r || got.contains piece.index || len = 0 || piece.data.length != len then ok s
    else if s.phaseDown x then ok (s.failPhase x clDown none 0)
    else
      let w := x.srcD.width
      let need := s.needOf x r
      let got' := setInsert got piece.index
      let m := smPokeList (smGet [] x.arrived r) (pieceBytes * piece.index) piece.data
      let y := { x with got := smPut [] x.got r got', arrived := smPut [] x.arrived r m }
      let l := (doneElems w need.length got' piece.index).map (fun k =>
        ((nth (0, 0) need k).1, (smBytes m (k * w / 8) ((w + 14) / 8) >>> (k * w % 8)) % 2 ^ w))
      let port := 2 * d.val + (s.upLinks d).headD 0 / 4
      let s := ((((s.setPhase x y).pieceAnswered x r piece.index).count Fld.PORT_RX.BYTES piece.data.length port).account (some x.part) 10 piece.data.length).takeElems y false l
      let s := if s.allOf y r then s.sendDev (s.memberDev x.group r) (.finished x.group x.tag x.key (s.get Fld.GRP_CFG.RANK x.group)) else s
      ok (s.settlePhase y)

/-- A phase's local part complete (R278, R155): its tag or its item is free. -/
def State.endPhase (s : State) (x : CollPhase) : State :=
  let s : State := { s with colls := s.colls.filter (fun y => y != x) }
  let s := s.count Fld.COLL_CNT.PHASES 1 x.die
  match x.item with
  | some n => s.itemComplete x.part n
  | none => s

/-- COLL_PHASE_LOCAL_COMPLETE (R278, R423): of the i-th running phase of a die. -/
def execCollPhaseLocalComplete (d : Fin 2) (i : Nat) (s : State) : Host.Outcome State Fault Refusal :=
  match (s.colls.filter (fun x => x.die == d.val && x.started))[i]? with
  | none => ok s
  | some x =>
    if s.isUp d && x.put && (s.others x).all x.readBy.contains && !s.anyReq (fun q => q.agent = .coll d && q.sluice == x.part) then
      ok (s.endPhase x)
    else ok s

/-- COLL_TIMEOUT (R425): of the i-th running phase of a die, COLL_TIMEOUT_US after it started. -/
def execCollTimeout (d : Fin 2) (i : Nat) (s : State) : Host.Outcome State Fault Refusal :=
  match (s.colls.filter (fun x => x.die == d.val && x.started))[i]? with
  | none => ok s
  | some x =>
    let due := x.began + 1000 * s.get Fld.ETH_TMO.COLL_TIMEOUT_US
    match (s.others x).find? (fun r => !x.heard.contains r) with
    | none => ok s
    | some r =>
      if !s.isUp d then ok s else s.dueAt due (fun s => s.failPhase x clPeerLost (some r) 0)

/-- COLL_ABORT_RECEIVE (R425). -/
def execCollAbortReceive (d : Fin 2) (g : Fin 16) (tag : Fin 4) (peer : Fin 64) (s : State) : Host.Outcome State Fault Refusal :=
  match s.phaseAt d g tag with
  | some x => if s.isUp d && (s.others x).contains peer.val then ok (s.failPhase x clRemoteErr (some peer.val) 0) else ok s
  | none => ok s

/-- The device a mailbox's forwarded messages go to. -/
def State.fwdDev (s : State) (m : Nat) : Nat :=
  if s.get Fld.ETH_DEV.MODE == mdTethered then 0 else s.get Fld.MB_CFG.DEV m

/-- A queue pair enters ERROR (R413, R425, R430, R431). -/
def State.qpFail (s : State) (q : Nat) : State :=
  let s := (s.setQp q { s.qp q with error := true, errorAt := s.now, unacked := [] }).set Fld.ETH_ERR.QP_ERROR 1
  match dataQp q with
  | some (g, _, r) =>
    let s := s.sendDev (s.memberDev g r) (.resetNotice q)
    (s.colls.filter (fun x => x.started && x.die == q / 65536 && x.group == g && x.line.contains r)).foldl
      (fun s x => s.failPhase x clPeerLost (some r) 0) s
  | none =>
    let d := q - 0x100
    let lost := s.net.fwd.filter (fun m => decide (m < 64) && s.fwdDev m == d)
    let s := lost.foldl (fun s m => (s.set Fld.S_STAT.RESULT 5 m).set Fld.ETH_ERR.FWD_FAIL 1) s
    let s : State := { s with net := { s.net with fwd := s.net.fwd.filter (fun m => !lost.contains m) } }
    (upFrom 0 4).foldl (fun s ch => s.setJobs ch ((s.jobs ch).map (fun j =>
      if j.awaits && j.dev == d then { j with awaits := false, status := hdUnreachable } else j))) s

/-- A retransmission, or ERROR after RETRY of them without progress (R413). -/
def State.retry (s : State) (q : Nat) : State :=
  let x := s.qp q
  if s.get Fld.ETH_TMO.RETRY ≤ x.tries then s.qpFail q else (s.setQp q { x with tries := x.tries + 1 }).resend q

/-- ACK_TIMEOUT (R413): no acknowledgement within ACK_TIMEOUT_US. -/
def execAckTimeout (qp : Nat) (s : State) : Host.Outcome State Fault Refusal :=
  let x := s.qp qp
  if s.qpExists qp && !x.error && !x.unacked.isEmpty then
    s.dueAt (x.ackFrom + 1000 * s.get Fld.ETH_TMO.ACK_TIMEOUT_US) (fun s => s.retry qp)
  else ok s

/-- SEQUENCE_NAK (R413): packets before its PSN are acknowledged, the others sent again. -/
def execSequenceNak (qp : Nat) (psn : BitVec 24) (s : State) : Host.Outcome State Fault Refusal :=
  let x := s.qp qp
  if !s.qpExists qp || x.error || !x.unacked.any (fun e => e.1 == psn.toNat) then ok s
  else
    let l := x.unacked.dropWhile (fun e => e.1 != psn.toNat)
    let s := s.setQp qp { x with unacked := l, tries := if l.length < x.unacked.length then 0 else x.tries }
    ok (s.retry qp)

/-- A sublink goes down (R423): pieces asked for on the link are asked for on another; with none left the die's phases fail. -/
def State.linkFalls (s : State) (port lane : Nat) : State :=
  if !s.linkUp port lane then s
  else
    let d := dieOfPort port
    let k := (port % 2) * 4 + lane
    let s := (s.holdLanes port).set Fld.PORT_STAT.UP (s.get Fld.PORT_STAT.UP port &&& (15 - 2 ^ lane)) port
    let s := s.set Fld.ETH_ERR.LINK_DOWN 1
    match s.upLinks d with
    | [] => (s.colls.filter (fun x => x.started && x.die == d && s.others x != [])).foldl (fun s x => s.failPhase x clLink none 0) s
    | k' :: _ =>
      let moved := s.net.qps.filter (fun e => e.1 / 65536 == d && (match dataQp e.1 with | some (_, j, _) => j == k | none => false))
      moved.foldl (fun s e => match dataQp e.1 with
        | some (g, _, r) =>
          let s := s.setQp e.1 { s.qp e.1 with unacked := [] }
          e.2.unacked.foldl (fun s u => s.sendOn (qpOf d g k' r) u.2) s
        | none => s) s

/-- LINK_DOWN (R423). -/
def execLinkDown (port : Fin 4) (lane : Fin 4) (s : State) : Host.Outcome State Fault Refusal := ok (s.linkFalls port lane)

/-- A write of PORT_CFG (R408, R409): a port newly enabled trains; the sublinks of one disabled go down (DEDUCED: no sublink of a
port that is not enabled is up; log 39). -/
def State.portCfgPut (s : State) (p w mask : Nat) : State :=
  let on := s.is Fld.PORT_CFG.EN p
  let s := s.plainWrite Reg.PORT_CFG p 0 w mask
  let s := if 2 < s.get Fld.PORT_CFG.BREAKOUT p then s.set Fld.PORT_CFG.BREAKOUT 0 p else s
  if !s.is Fld.PORT_CFG.EN p then ((upFrom 0 4).foldl (fun s j => s.linkFalls p j) s).set Fld.PORT_STAT.TRAINING 0 p
  else if !on && s.isUp (dieOfPort p) && s.mod.power = .on && nth true s.sec.loaded 5 then s.portTrains p
  else s

/-- Negative acknowledgements: sequence error, invalid request, remote access error, remote operational error. -/
def nakSeq : Nat := 0
def nakInvalid : Nat := 1
def nakAccess : Nat := 2
def nakOper : Nat := 3

/-- Whether an address belongs to another device of the table (R412). -/
def State.knownSource (s : State) (a : Nat) : Bool :=
  a != 0 && (upFrom 0 64).any (fun d => d != s.get Fld.ETH_DEV.DEV_NUM && (s.devAddrs d).contains a)

/-- The running phase whose published footprint holds n bytes at an address, for a reader (R412, R423). -/
def State.readablePhase (s : State) (d g r a n : Nat) : Option CollPhase :=
  s.colls.find? (fun x => x.started && x.die == d && x.group == g && (s.others x).contains r &&
    (let e := s.localDesc x.srcD
     let off := s.readBase x.part e - e.base
     e.count != 0 && decide (e.lo + (off : Int) ≤ (a : Int)) && decide ((a : Int) + (n : Int) ≤ e.hi + (off : Int) + 1)))

/-- A READ of a published footprint served (R412, R423): its granules are verified, a failing one fails the phase. -/
def State.serveRead (s : State) (q psn d g r a n : Nat) : State :=
  match s.readablePhase d g r a n with
  | none => s.send (.nak q psn nakAccess)
  | some x =>
    let w : Who := ⟨.roce q, some x.part⟩
    match s.computeGranules w false x.srcD.unchecked none (granulesOf a n) with
    | (m, none, s) => s.send (.readReply q psn (bytesOf n (fromGranules m a n)))
    | (_, some e, s) =>
      (s.send (.nak q psn (if e.code = cfPoison then nakAccess else nakOper))).failPhase x (if e.code = cfDomainDown then clDown else clSrcData) none e.addr

/-- The accepted forwarded range that holds n bytes at an address, by its place in the list (R412, R431). -/
def State.fwdRange (s : State) (write : Bool) (a n : Nat) : Option Nat :=
  s.net.ranges.findIdx? (fun r => r.toStack == write && decide (r.addr ≤ a) && decide (a + n ≤ r.addr + r.len))

/-- n bytes of a forwarded range moved; the range ends with its last byte. -/
def State.useRange (s : State) (i n : Nat) : State :=
  let l := s.net.ranges
  let l' := match l[i]? with
    | some r => if r.left ≤ n then l.eraseIdx i else setNth l i { r with left := r.left - n }
    | none => l
  { s with net := { s.net with ranges := l' } }

/-- The access of forwarded DMA to this device: a HOST sluice access (R431). -/
def fwdWho (q : Nat) : Who := ⟨.roce q, none⟩

/-- The leader's answer to a member in doubt (R428): the outcome that GRP_LOG holds, if it holds one. -/
def State.answerAsk (s : State) (dev g b : Nat) : State :=
  match (upFrom 0 16).find? (fun i => s.get Fld.GRP_LOG.OUTCOME g i != 0 && s.get Fld.GRP_LOG.BTICK g i == b) with
  | some i => s.sendDev dev (.decide g b (s.get Fld.GRP_LOG.OUTCOME g i == 1))
  | none => s

/-- An accepted packet carried out (R412, R428, R431): the reply. -/
def State.servePacket (s : State) (q psn : Nat) (op : PktOp) : State :=
  let mgmt := (dataQp q).isNone
  let fromZero := mgmt && q == mgmtQp 0 && s.get Fld.ETH_DEV.MODE == mdTethered
  match op with
  | .ack => s
  | .send => if mgmt then s.send (.ack q psn) else s.send (.nak q psn nakInvalid)
  | .ask g b => if mgmt then (s.send (.ack q psn)).answerAsk (q % 65536 - 0x100) g b.toNat else s.send (.nak q psn nakInvalid)
  | .finished g tag r =>
    if !mgmt then s.send (.nak q psn nakInvalid)
    else
      let s := s.send (.ack q psn)
      (s.colls.filter (fun x => x.started && x.group == g.val && x.tag == tag.val && (s.others x).contains r.val)).foldl
        (fun s x =>
          let y := { x with readBy := setInsert x.readBy r.val }
          (s.setPhase x y).settlePhase y) s
  | .read a n =>
    match dataQp q with
    | some (g, _, r) => s.serveRead q psn (q / 65536) g r a.toNat n.toNat
    | none =>
      match fromZero, s.fwdRange false a.toNat n.toNat with
      | true, some i =>
        if !s.stackUp (a.toNat / stackSpan) then s.send (.nak q psn nakOper)
        else
          let s := (s.lineTraffic (fwdWho q) false false a.toNat n.toNat).useRange i n.toNat
          match s.readBytes (fwdWho q) a.toNat n.toNat with
          | (v, none, s) => s.send (.readReply q psn (bytesOf n.toNat v))
          | (_, some _, s) => s.send (.nak q psn nakAccess)
      | _, _ => s.send (.nak q psn nakAccess)
  | .write a l =>
    match fromZero, s.fwdRange true a.toNat l.length with
    | true, some i =>
      if !s.stackUp (a.toNat / stackSpan) then s.send (.nak q psn nakOper)
      else
        let s := (s.lineTraffic (fwdWho q) false true a.toNat l.length).useRange i l.length
        (s.writeOpen (fwdWho q) a.toNat l.length (ofBytes l)).send (.ack q psn)
    | _, _ => s.send (.nak q psn nakAccess)

/-- A congestion notice for a CE-marked packet, at most one per CNP_GAP_US (R414). -/
def State.noticeCe (s : State) (port q : Nat) : State :=
  let x := s.qp q
  let due := match x.lastCnp with | some t => decide (t + 1000 * s.get Fld.ETH_CC.CNP_GAP_US ≤ s.now) | none => true
  if due then ((s.setQp q { x with lastCnp := some s.now }).send (.cnp q)).count Fld.PORT_EVT.CNP_SENT 1 port else s

/-- The queue pair a packet names at a port. -/
def packetQp (k : Packet) (port : Nat) : Nat :=
  let n := k.qpn.toNat % 65536
  if 0x1000 ≤ n then 65536 * dieOfPort port + n else n

/-- The bytes a packet brings. -/
def pktBytes : PktOp → Nat
  | .write _ l => l.length
  | _ => 0

/-- ROCE_PACKET_RECEIVE (R409, R412, R413, R414). -/
def execRocePacketReceive (port : Fin 4) (pkt : Packet) (s : State) : Host.Outcome State Fault Refusal :=
  let q := packetQp pkt port
  if !s.isUp (dieOfPort port) || s.get Fld.PORT_STAT.UP port == 0 then ok s
  else if !s.knownSource pkt.src.toNat || !s.qpExists q || (s.qp q).error || 65536 ≤ pkt.qpn.toNat then
    ok (s.count Fld.PORT_ERR_CNT.DROP 1 port)
  else
    let s := s.count Fld.PORT_RX.BYTES (pktBytes pkt.op) port
    let s := if pkt.ce then s.noticeCe port q else s
    let want := (s.qp q).expect
    let psn := pkt.psn.toNat
    match pkt.op with
    | .ack => ok (s.acked q psn)
    | op =>
      if psn = want then ok ((s.setQp q { s.qp q with expect := (want + 1) % 2 ^ 24 }).servePacket q psn op)
      else if psnBefore psn want then
        match op with
        | .read _ _ => ok (s.servePacket q psn op)
        | _ => ok (s.send (.ack q psn))
      else ok (s.send (.nak q want nakSeq))

end Sys2Proof.Machine
end

