-- ==== Sys2Proof/Machine/Vote.lean ====
section
/-!
DEFINITION. The vote of a step with collective phases, and a member in doubt (R41, R427, R428).
-/
namespace Sys2Proof.Machine

/-- The partition that group g votes for, where g is its vote group and its step is of the window given (R420, R427). -/
def State.voteOf (s : State) (g b : Nat) : Option Nat :=
  let p := s.get Fld.GRP_CFG.PART g
  if s.isUp 0 && s.is Fld.GRP_CFG.EN g && s.votes p && s.leadGroup p == g && (s.part p).openTick == b && s.stepping p then some p
  else none

/-- A decision in force for partition p's step (R427): an ABANDON begins the abandonment with GROUP_VOTE (R43). -/
def State.heedVote (s : State) (p : Nat) (commit : Bool) : State :=
  let s := s.setPart p { s.part p with decision := some commit }
  let (c, u) := (s.busyEngine p).getD (0, 0)
  if commit then s else s.beginAbandon p ⟨.groupVote, c, u, false⟩

/-- The leader decides ABANDON, for itself as well (R427). -/
def State.refuseStep (s : State) (p : Nat) : State :=
  if (s.part p).decision.isSome then s else (s.decideVote p false).heedVote p false

/-- The window b for which group g's leader is asked while its partition runs no step of that window (R41, R55): HELD by a
leap tick, or stopped, it holds no READY of its own, so it decides ABANDON, once. -/
def State.refuseIdle (s : State) (g b : Nat) : State :=
  let p := s.get Fld.GRP_CFG.PART g
  let logged := (upFrom 0 16).any (fun i => s.get Fld.GRP_LOG.OUTCOME g i != 0 && s.get Fld.GRP_LOG.BTICK g i == b)
  if s.isUp 0 && s.is Fld.GRP_CFG.EN g && s.leadGroup p == g && s.leads p && !logged &&
      !(s.stepping p && (s.part p).openTick == b) then s.sendDecision g b false
  else s

/-- VOTE_READY (R427): a member's outcome reaches the leader. -/
def execVoteReady (g : Fin 16) (rank : Fin 64) (btick : BitVec 48) (ready : Bool) (s : State) : Host.Outcome State Fault Refusal :=
  match s.voteOf g btick.toNat with
  | none => if rank.val = 0 || s.get Fld.GRP_CFG.MEMBERS g ≤ rank.val then ok s else ok (s.refuseIdle g btick.toNat)
  | some p =>
    let k := s.part p
    if !s.leads p || rank.val = 0 || s.get Fld.GRP_CFG.MEMBERS g ≤ rank.val || k.decision.isSome then ok s
    else if !ready then ok (s.refuseStep p)
    else
      let s := s.setPart p { k with heard := setInsert k.heard rank.val }
      ok (if s.ownReady p then s.castReady p else s)

/-- VOTE_DEADLINE (R41, R427): 15 µs after the tick. -/
def execVoteDeadline (g : Fin 16) (s : State) : Host.Outcome State Fault Refusal :=
  let k := s.part (s.get Fld.GRP_CFG.PART g)
  match s.voteOf g k.openTick with
  | none => ok s
  | some p =>
    if !s.leads p || k.decision.isSome || k.phase != .ready then ok s
    else s.dueAt (k.tickAt + 15000) (fun s => s.refuseStep p)

/-- VOTE_DECISION (R427): the leader's decision reaches a member. -/
def execVoteDecision (g : Fin 16) (btick : BitVec 48) (commit : Bool) (s : State) : Host.Outcome State Fault Refusal :=
  match s.voteOf g btick.toNat with
  | none => ok s
  | some p => if s.leads p || (s.part p).decision.isSome then ok s else ok (s.heedVote p commit)

/-- A member in doubt (R428): its partition is HELD. -/
def State.doubt (s : State) (p : Nat) : State :=
  let s := (s.setPart p { s.part p with inDoubt := true, askAt := s.now + 20000 }).set Fld.STEP_STATE.STATE stHeld p
  (s.set Fld.ETH_ERR.VOTE_INDOUBT 1).ringHost 0

/-- VOTE_INDOUBT (R428): 20 µs after the tick. -/
def execVoteIndoubt (g : Fin 16) (s : State) : Host.Outcome State Fault Refusal :=
  let k := s.part (s.get Fld.GRP_CFG.PART g)
  match s.voteOf g k.openTick with
  | none => ok s
  | some p =>
    if s.leads p || k.decision.isSome || k.inDoubt || !s.ownReady p then ok s
    else s.dueAt (k.tickAt + 20000) (fun s => s.doubt p)

/-- A member in doubt asks its leader (R428). -/
def State.askLeader (s : State) (p g : Nat) : State :=
  let k := s.part p
  (s.setPart p { k with askAt := s.now + 20000 }).sendDev (s.memberDev g 0) (.ask g k.openTick)

/-- VOTE_REQUERY (R428): a member in doubt asks its leader again, every 20 µs. -/
def execVoteRequery (g : Fin 16) (s : State) : Host.Outcome State Fault Refusal :=
  let k := s.part (s.get Fld.GRP_CFG.PART g)
  match s.voteOf g k.openTick with
  | none => ok s
  | some p => if k.inDoubt && k.decision.isNone then s.dueAt k.askAt (fun s => s.askLeader p g) else ok s

/-- A write of GRP_RESOLVE (R428): with GO, the host's outcome for a step in doubt. -/
def State.resolvePut (s : State) (g w mask : Nat) : State :=
  let s := s.plainWrite Reg.GRP_RESOLVE g 0 w mask
  if !bit (w &&& mask) 63 then s
  else
    match s.voteOf g (s.get Fld.GRP_RESOLVE.BTICK g) with
    | none => s
    | some p => if (s.part p).inDoubt && (s.part p).decision.isNone then s.heedVote p (s.is Fld.GRP_RESOLVE.COMMIT g) else s

/-- GRP_RESOLVE (R428). -/
def execGrpResolve (g : Fin 16) (v : Word) (s : State) : Host.Outcome State Fault Refusal :=
  occurs (s.serves 0) s (s.resolvePut g v.toNat fullMask)

end Sys2Proof.Machine
end

