-- ==== Sys2Proof/Machine/Rounds.lean ====
section
/-!
DEFINITION. Housekeeping rounds, orderly shutdown and the end of thermal hold (R440–R447, R450).
-/
namespace Sys2Proof.Machine

/-- The step of a partition lost at once, its pans included (R42, R446). -/
def State.loseStep (s : State) (p : Nat) : State :=
  let mine := (s.batches.filter (fun b => b.part == p)).map (fun b => b.id)
  let s : State := { s with pans := s.pans.filterMap (fun e =>
    let gone := match e.2.run with | some r => mine.contains r.batch | none => false
    let y := if gone then { e.2 with run := none } else e.2
    if y = PanSt.reset then none else some (e.1, y)) }
  s.discardStep p

/-- A partition put in STOPPED by an orderly shutdown (R446). -/
def State.shutPart (s : State) (p : Nat) : State :=
  if s.pstate p != stRunning && s.pstate p != stStopping && s.pstate p != stHeld then s
  else
    let k := s.part p
    let s :=
      if s.stepping p then
        let (c, u) := (s.busyEngine p).getD (0, 0)
        let s := (s.loseStep p).recordAbandon p ⟨.fault, c, u, true⟩
        let s := if (match s.stepEntry p with | some e => e.serve | none => false) && s.is Fld.SV_STAT.INSTALLED p then s.undoServe p else s
        s.setPart p { s.part p with accAbandons := k.accAbandons + 1, lastColl := false, retryLate := false, decision := none, heard := [] }
      else s
    let s := (s.haltPart p k.quiesceReq).set Fld.STEP_STATE.STATE stStopped p
    ((s.set Fld.STEP_STATE.LAST_CAUSE 3 p).set Fld.STEP_ERR.FAULT 1 p).post { ErrRec.plain 12 with part := some p }

/-- The collective phases that run or wait, aborted (R446): started ones tell their lines. -/
def State.abortPhases (s : State) : State :=
  let l := s.colls
  l.foldl (fun s x =>
    let s : State := { s with colls := s.colls.filter (fun y => y != x) }
    if x.started then s.tellLine x (.abort x.group x.tag x.key (s.get Fld.GRP_CFG.RANK x.group)) else s) s

/-- Stacks that are UP put into self-refresh, and taken out of it (R446, R447, R491, R493). -/
def State.stacksSleep (s : State) : State :=
  (upFrom 0 20).foldl (fun s t => if s.get Fld.STK_STATUS.STATE t == 2 then s.set Fld.STK_STATUS.STATE 3 t else s) s

/-- Stacks in self-refresh UP again. -/
def State.stacksWake (s : State) : State :=
  (upFrom 0 20).foldl (fun s t => if s.get Fld.STK_STATUS.STATE t == 3 then s.stackRuns t else s) s

/-- Orderly shutdown (R446): phases aborted, steps lost, channels stopped, thermal hold, THERM_SHUT, DB3. -/
def State.shutdown (s : State) (cause ch : Nat) : State :=
  let s := s.abortPhases
  let s := (upFrom 0 16).foldl (fun s p => s.shutPart p) s
  let s := (upFrom 0 4).foldl (fun s c => if s.is Fld.CH_CFG.EN c then s.stopChannel c else s) s
  let s := s.stacksSleep
  let s := (s.set Fld.THERM_STAT.HOLD 1).set Fld.THERM_EVT.SHUTDOWN 1
  let c := ofSigned 8 (s.reading ch >>> 4)
  let s := s.setWord Reg.THERM_SHUT 0 0 (cause + ch <<< 8 + c <<< 16 + (s.btick % 2 ^ 32) <<< 32)
  s.ringHost 3

/-- Nanoseconds of an upward ramp of a die's voltage at 10 mV/µs (R436), 40 µs at most. -/
def State.rampNs (s : State) (d o : Nat) : Nat :=
  Nat.min 40000 (100 * (s.get Fld.PWR_VT.V_MV d o - s.get Fld.PWR_VT.V_MV d (s.get Fld.PWR_DIE.OPP d)))

/-- OPP_CLOCK_SWITCH (R436): the raised voltage is reached and the clock switches to the higher point. -/
def execOppClockSwitch (d : Fin 2) (s : State) : Host.Outcome State Fault Refusal :=
  match (s.dpower d).ramp with
  | some o => if s.runs d then s.dueAt (s.tick.boundAt + s.rampNs d o) (fun s => s.clockSwitch d) else ok s
  | none => ok s

/-- FAST_POWER_CHECK (R442): the input power averaged over the last 1 ms, in mW. -/
def execFastPowerCheck (mw : Nat) (s : State) : Host.Outcome State Fault Refusal :=
  let high := decide (1000 * s.get Fld.PWR_CFG.FAST_W < mw)
  if !(s.isUp 0 && s.mod.power = .on) then ok s
  else
    let s : State := { s with power := { s.power with fast := high } }
    if high then
      ok (([0, 1].foldl (fun s d => if s.isUp d && !s.is Fld.PWR_DIE.EMERG d then s.emergency d else s) s).set Fld.PWR_EVT.FAST_LIMIT 1)
    else ok s

/-- The policy of a die's power manager after a round (R441, R442). -/
def State.round (s : State) (d : Nat) : State :=
  let cs := dieChannels d
  let bad := decide ((s.validOf cs).length < 8)
  let x := s.dpower d
  let s := (if bad then s.set Fld.THERM_EVT.SENSOR_BAD 1 else s).setDpower d { x with sensorBad := bad }
  let t := s.temp cs
  let off := atLeast t (s.get Fld.THERM_CFG.DIE_OFF_C)
  let stkOff := (stacksOf d).find? (fun k => atLeast (s.temp (stkChannels k)) (s.get Fld.THERM_CFG.STK_OFF_C))
  if s.is Fld.THERM_STAT.HOLD then s
  else if off then s.shutdown 1 ((s.hottest cs).getD 0)
  else
    match stkOff with
    | some k => s.shutdown 2 ((s.hottest (stkChannels k)).getD 0)
    | none =>
      let s :=
        if atLeast t (s.get Fld.THERM_CFG.DIE_EMERG_C) || s.power.fast then s.emergency d
        else if s.is Fld.PWR_DIE.EMERG d && atMost t (s.get Fld.THERM_CFG.DIE_THR_C - s.get Fld.THERM_CFG.HYST_C) then
          s.setDpower d { s.dpower d with release := true }
        else s
      (stacksOf d).foldl (fun s k => s.stackRound d k) (s.throttle d t)

/-- A housekeeping round over the readings of its scan (R440–R442, R450): the first after power-up decides nothing. -/
def State.housekeep (s : State) (readings : List HkReading) : State :=
  let s : State := { s with power := { s.power with round := s.power.round + 1, roundAt := s.now } }
  let s := (readings.foldl (fun s r => s.enterReading r) s).roundStatus
  if s.power.round ≤ 1 then s
  else
    let s := [0, 1].foldl (fun s d => if s.runs d && !s.compDown (3 + d) then s.round d else s) (if s.runs 0 && !s.compDown 3 then s.recoverCut else s)
    if s.isUp 0 then s.driftRound else s

/-- HOUSEKEEPING_ROUND (R440): once every 8 ms. -/
def execHousekeepingRound (readings : List HkReading) (s : State) : Host.Outcome State Fault Refusal :=
  if !(s.mod.power = .on) then ok s
  else s.dueAt (if s.power.round = 0 then s.now else s.power.roundAt + 8000000) (fun s => s.housekeep readings)

/-- THERM_RESUME (R447). -/
def State.thermResume (s : State) : State :=
  let dies := (s.validOf (upFrom 0 32)).all (fun c => decide (s.reading c ≤ 85 * 16))
  let stks := (s.validOf (upFrom 32 80)).all (fun c => decide (s.reading c ≤ 80 * 16))
  if dies && stks then (if s.is Fld.THERM_STAT.HOLD then (s.set Fld.THERM_STAT.HOLD 0).stacksWake else s)
  else s.set Fld.THERM_EVT.RESUME_REFUSED 1

/-- THERM_RESUME (R447). -/
def execThermResume (s : State) : Host.Outcome State Fault Refusal := occurs s.mod.power.clocked s s.thermResume


end Sys2Proof.Machine
end

