-- ==== Sys2Proof/Machine/Assay.lean ====
section
/-!
DEFINITION. Measurement registers and the assay die: ticks, apportionment, records, rings and the seal (R458–R475, R482).
-/
namespace Sys2Proof.Machine

/-- The 64 bytes of a measurement register. -/
def State.mreg (s : State) (i : Nat) : List Byte := (upFrom 0 8).flatMap (fun w => bytesOf 8 (s.get Fld.MREG.VALUE i w))

/-- A measurement register extended with an event code and a digest (R482). -/
def State.extend (s : State) (i code : Nat) (digest : List Byte) : State :=
  let v := ofBytes (shake256 (s.mreg i ++ bytesOf 8 code ++ digest) 64)
  (upFrom 0 8).foldl (fun s w => s.set Fld.MREG.VALUE (bits v (64 * w + 63) (64 * w)) i w) s

/-- An extend whose event code and digest the spec does not state: both are free values. -/
def State.extendOpen (s : State) (i : Nat) : State :=
  let (k, s) := s.freeBelow (2 ^ 64)
  let (d, s) := s.freeBelow (2 ^ 512)
  s.extend i k (bytesOf 64 d)

/-- Bytes written into a mirror of 64-bit words. -/
def State.putWords (s : State) (r : Reg) (k : Option Nat) (l : List Byte) : State :=
  let ws := (chunks 8 l).map ofBytes
  ((upFrom 0 ws.length).zip ws).foldl (fun s e => match k with
    | some k => s.setWord r k e.1 e.2
    | none => s.setWord r e.1 0 e.2) s

/-- A body with its signature, zeros to 4,096 bytes (R456, R465, R469). -/
def sealed (body : List Byte) : List Byte :=
  let sig := (Config.signature body ++ List.replicate 3309 0#8).take 3309
  body ++ sig ++ List.replicate (4096 - 3309 - body.length) 0#8

/-- The mirror's registers as the assay die pushes them (R475). -/
def State.mirror (s : State) : State :=
  let k := s.asy
  let s := ((s.set Fld.ASY_STATE.STATE (if k.on then 2 else 0)).set Fld.ASY_STATE.FW_VER k.fwVer).set Fld.ASY_STATE.CAL_ID k.calId
  let s := (s.set Fld.ASY_SEAL.SEAL_COUNT k.count).set Fld.ASY_SEAL.LOG_USED k.slog.length
  let s := (s.set Fld.ASY_SEAL.LOG_FULL (b2n (1024 ≤ k.slog.length))).set Fld.ASY_SEAL.PENDING (b2n k.sealing.isSome)
  let s := (s.set Fld.ASY_CFG.RECORD_TICKS k.recTicks).set Fld.ASY_CFG.IDLE_MW k.idle
  let c := fun (ch : Nat) => ofSigned 8 (s.reading ch >>> 4)
  (s.set Fld.ASY_TEMP.T0 (c 112)).set Fld.ASY_TEMP.T1 (c 113)

/-- What R461 makes of a tick: e0 after the rule for A = 0, each account's idle part, and each account's energy. -/
structure Shares where
  e0 : Nat
  idle : List Nat
  part : List Nat
  deriving DecidableEq, Repr

/-- The weight of partition p in a tick, 0 while a message is missing (R462). -/
def AsyTick.weight (x : AsyTick) (p : Nat) : Nat :=
  match x.w0, x.w1 with
  | some a, some b => nth 0 a p + nth 0 b p
  | _, _ => 0

/-- The apportionment of a tick over accounts 0–16 (R461). -/
def apportion (idleMw : Nat) (x : AsyTick) : Shares :=
  let ps := upFrom 0 16
  let share := fun (p : Nat) => if nth false x.resident p then nth 0 x.share p else 0
  let sum := sumList (ps.map share)
  let act := sumList (ps.map x.weight)
  let e0 := if act = 0 then x.nj else Nat.min x.nj (idleMw * (x.dur / 1000))
  let ed := x.nj - e0
  let idle := ps.map (fun p => if sum = 0 then 0 else e0 * share p / sum)
  let part := ps.map (fun p => nth 0 idle p + (if act = 0 then 0 else ed * x.weight p / act))
  { e0 := e0, idle := idle ++ [e0 - sumList idle], part := part ++ [x.nj - sumList part] }

/-- Whether a tick's weights are late, and whether the tick is valid (R462). -/
def AsyTick.late (x : AsyTick) : Bool := x.w0.isNone || x.w1.isNone
def AsyTick.valid (x : AsyTick) (calOk : Bool) : Bool := !x.late && !x.range && !x.fault && calOk

/-- FLAGS of a tick (R464). -/
def AsyTick.flags (x : AsyTick) (calOk : Bool) : Nat :=
  b2n (x.valid calOk) + b2n x.late <<< 1 + b2n x.range <<< 2 + b2n x.tempOut <<< 3 + b2n x.fault <<< 4

/-- The words of a tick entry (R464). -/
def tickEntry (x : AsyTick) (a : Shares) (calOk : Bool) : List Nat :=
  [x.t + x.flags calOk <<< 48, x.dur % 2 ^ 32 + (x.nj * 1000 / Nat.max 1 x.dur % 2 ^ 32) <<< 32, x.nj, a.e0] ++
    (upFrom 0 16).map (fun p => x.weight p % 2 ^ 40 + nth 0 x.share p <<< 40 + b2n (nth false x.resident p) <<< 50) ++
    [nth 0 a.part 16, 0, 0, 0]

/-- SHAKE256 of a body, 32 bytes. -/
def digest32 (l : List Byte) : List Byte := shake256 l 32

/-- The 96 words of a record's body (R465). -/
def recordBody (k : AsySt) (r : AsyRec) : List Nat :=
  let valid := r.invalid = 0 && !r.gap && !r.moved
  let flags := b2n valid + b2n r.tempOut <<< 1 + b2n r.gap <<< 2 + b2n (0 < k.dropped) <<< 3 + b2n (k.count != k.lastSeal) <<< 4 +
    b2n r.partial_ <<< 5
  let words := fun (l : List Byte) => (chunks 8 l).map ofBytes
  let sd := match k.slog.getLast? with | some b => digest32 b | none => List.replicate 32 0#8
  let total := sumList (r.accts.map (fun a => a.1))
  [0x41535259 + 1 <<< 32 + flags <<< 48, k.seq, r.first, r.last, k.count + k.fwVer <<< 32, k.calId + k.idle <<< 32, total, r.gapNJ,
    r.invalid + (k.dropped % 2 ^ 32) <<< 32] ++ words k.prevRec ++ words (digest32 (r.entries.flatten.flatMap (bytesOf 8))) ++ words sd ++
    [0, 0, 0] ++ r.accts.flatMap (fun a => [a.1, a.2.1, a.2.2.1, a.2.2.2]) ++ [0, 0, 0, 0]

/-- A record or seal entry that waits for its ring; beyond 64 the oldest is lost (R467). -/
def AsySt.queueRec (k : AsySt) (l : List Byte) : AsySt :=
  let q := k.recQ ++ [l]
  { k with recQ := q.drop (q.length - 64) }

/-- The filling record issued (R465). -/
def State.issueRecord (s : State) : State :=
  let k := s.asy
  match k.filling with
  | none => s
  | some r =>
    let body := (recordBody k r).flatMap (bytesOf 8)
    let l := sealed body
    let s : State := { s with asy := { (k.queueRec l) with
      filling := none, fresh := false, seq := k.seq + 1, prevRec := digest32 body, lastSeal := k.count, dropped := 0 } }
    (s.putWords Reg.ASY_REC none l).set Fld.ASY_REC_SEQ.SEQ k.seq

/-- An empty record that begins with tick t (R465). -/
def AsySt.newRecord (k : AsySt) (t : Nat) : AsyRec :=
  { first := if k.fresh then t else t / k.recTicks * k.recTicks, last := t, entries := [], accts := List.replicate 17 (0, 0, 0, 0)
    invalid := 0, gapNJ := 0, gap := false, tempOut := false, moved := k.count != k.lastSeal, partial_ := k.fresh }

/-- A record with one more tick. -/
def AsyRec.add (r : AsyRec) (x : AsyTick) (a : Shares) (calOk : Bool) : AsyRec :=
  { r with
    last := x.t, entries := r.entries ++ [tickEntry x a calOk]
    accts := ((upFrom 0 17).zip r.accts).map (fun e =>
      (e.2.1 + nth 0 a.part e.1, e.2.2.1 + nth 0 a.idle e.1, e.2.2.2.1 + (if e.1 < 16 then x.weight e.1 else 0),
        e.2.2.2.2 + b2n (nth false x.resident e.1)))
    invalid := r.invalid + b2n (!x.valid calOk), gapNJ := r.gapNJ + x.gap.getD 0, gap := r.gap || x.gap.isSome
    tempOut := r.tempOut || x.tempOut }

/-- PWR shares and resident bits of a tick for which no message of die 0 came: free values, as the spec does not say what stands
in their place (R460, R462). -/
def State.openShares (s : State) (x : AsyTick) : AsyTick × State :=
  if x.w0.isSome then (x, s)
  else
    let (l, s) := (upFrom 0 16).foldl (fun (e : List (Nat × Bool) × State) _ =>
      let (a, s) := e.2.freeBelow 1001
      let (b, s) := s.freeChoice
      (e.1 ++ [(a, b)], s)) ([], s)
    ({ x with share := l.map Prod.fst, resident := l.map Prod.snd }, s)

/-- A tick apportioned: its figures, its entry, its place in a record (R461–R465). A record whose last ticks fall in an absence
is issued when the first tick of a later span closes, LAST_BTICK at the last tick measured and VALID by the ticks it holds
(DESIGN CHOICE: R19 and R465 do not say how it is closed; log 27). -/
def State.closeTick (s : State) (x : AsyTick) : State :=
  let (x, s) := s.openShares x
  let k := s.asy
  let a := apportion k.idle x
  let entry := tickEntry x a k.calOk
  let n := Nat.max 1 k.recTicks
  let s :=
    match k.filling with
    | some r => if r.last / n = x.t / n then s else s.issueRecord
    | none => s
  let k := s.asy
  let r := ((k.filling.getD (k.newRecord x.t))).add x a k.calOk
  let q := k.tickQ ++ [entry.flatMap (bytesOf 8)]
  let isOver := q.length - 8192
  let s : State := { s with asy := { k with
    filling := some r, figs := k.figs ++ [(x.t, a.part, x.valid k.calOk)], tickQ := q.drop isOver, dropped := k.dropped + isOver } }
  let s := s.bump Fld.ASY_FAULT.DROPS isOver
  let s := s.putWords Reg.ASY_TENT (some (x.t % 16)) (entry.flatMap (bytesOf 8))
  let s := ((s.set Fld.ASY_TICK.BTICK x.t).set Fld.ASY_TICK.FLAGS (x.flags k.calOk)).set Fld.ASY_TICK_E.E_NJ x.nj
  if (x.t + 1) % n = 0 then s.issueRecord else s

/-- Measured energy added to the lifetime total (ASY_E_TOTAL). -/
def State.addEnergy (s : State) (nj : Nat) : State :=
  let x := s.asy.njLeft + nj
  ({ s with asy := { s.asy with njLeft := x % 1000000 } } : State).count Fld.ASY_E_TOTAL.MJ (x / 1000000)

/-- Slots put in a ring while it has room (R467): the entries left, and the producer index. -/
def State.fillRing (s : State) (base slot size prod : Nat) : List (List Byte) → List (List Byte) × Nat × State
  | [] => ([], prod, s)
  | l :: r =>
    let cons := s.hostRead (base + slot * size + 64) 8
    if (prod + 2 ^ 64 - cons) % 2 ^ 64 < size then
      let s := s.hostWriteList (base + slot * (prod % size)) (l ++ List.replicate (slot - l.length) 0#8)
      let s := s.hostWrite (base + slot * size) 8 ((prod + 1) % 2 ^ 64)
      let s := if slot = 4096 && ofBytes (l.take 4) = 0x41535259 then s.ringHost 4 else s
      s.fillRing base slot size ((prod + 1) % 2 ^ 64) r
    else (l :: r, prod, s)

/-- Entries and records relayed to the host's rings (R467). -/
def State.relay (s : State) : State :=
  match s.asy.rings with
  | none => s
  | some g =>
    if !s.isUp 0 || s.pcieOnly || !(s.mod.power = .on) then s
    else
      let (recs, rp, s) := s.fillRing (4096 * g.recAt) 4096 (2 ^ g.recLog2) g.recProd s.asy.recQ
      let (tents, tp, s) := s.fillRing (4096 * g.tickAt) 256 (2 ^ g.tickLog2) g.tickProd s.asy.tickQ
      { s with asy := { s.asy with recQ := recs, tickQ := tents, rings := some { g with recProd := rp, tickProd := tp } } }

/-- PWR shares, and which partitions are resident (R461). -/
def State.pwrShares (s : State) : List Nat := (upFrom 0 16).map (fun p => nth 0 (s.part p).shares 0)
def State.residents (s : State) : List Bool :=
  (upFrom 0 16).map (fun p => s.get Fld.PT_CORES.CORES p != 0 || (s.part p).ranges.any (fun r => r.count != 0))

/-- Whether die d's weights stand at zero: dormancy, or its power manager's restart (R486, R491). -/
def State.zeroWeights (s : State) (d : Nat) : Bool :=
  !(s.mod.power = .on) || (match s.sec.upd with | some u => u.comp == 3 + d && decide (2 ≤ u.phase) | none => false)

/-- The tick that a mark closes (R459, R491). -/
def State.newTick (s : State) (t : Nat) (r : MeterReading) : AsyTick :=
  let z := fun (d : Nat) => if s.zeroWeights d then some (List.replicate 16 0) else none
  { t := t, nj := r.nj, dur := r.dur, range := r.range, tempOut := r.tempOut, fault := r.fault, w0 := z 0, w1 := z 1
    share := s.pwrShares, resident := s.residents, gap := s.asy.gapNJ }

/-- Whether the sideband brings marks: not in Standby, and not without standby power. -/
def PowerMode.marks : PowerMode → Bool
  | .asleep 3 | .dark => false
  | _ => true

/-- The period that the assay die uses (R460): taken from the marks, once two have come. -/
def State.markNs (s : State) : Nat := if s.asy.period = 0 then s.periodNs else s.asy.period

/-- Whether the inlet reads outside 10–45 °C (R458): the higher of its valid channels, which die 0 sends with its weights. -/
def State.inletOut (s : State) : Bool :=
  match s.temp [248, 249] with
  | some v => decide (v < 160) || decide (720 < v)
  | none => false

/-- TICK_MARK (R459–R462): the boundary's mark, with what the meter measured since the last one. -/
def execTickMark (r : MeterReading) (s : State) : Host.Outcome State Fault Refusal :=
  let k := s.asy
  if !k.on || !s.mod.power.marks || !s.atBoundary || (k.cur == some s.btick && k.markAt == s.now) then ok s
  else
    let s := s.addEnergy r.nj
    let s := if r.fault then s.bump Fld.ASY_FAULT.FAULTS 1 else s
    let s := k.ticks.foldl (fun s x => s.closeTick x) ({ s with asy := { s.asy with ticks := [] } } : State)
    let late := decide (k.markAt + 2 * s.markNs < s.now)
    let k := s.asy
    let k' : AsySt :=
      match k.cur with
      | some t =>
        if k.gap || late then { k with gapNJ := some (k.gapNJ.getD 0 + r.nj) }
        else { k with ticks := [s.newTick t r], gapNJ := none }
      | none => { k with gapNJ := some (k.gapNJ.getD 0 + r.nj) }
    let measured := k'.ticks.length = 1
    let s : State := { s with
      asy := { k' with cur := some s.btick, gap := false, markAt := s.now, period := if k.cur.isSome && !late then s.now - k.markAt else k.period }
      power := { s.power with energy := if measured then some r.nj else none } }
    ok s.mirror.relay

/-- ASSAY_GAP (R460): two periods without a mark. -/
def execAssayGap (s : State) : Host.Outcome State Fault Refusal :=
  let k := s.asy
  if k.on && !k.gap && k.cur.isSome && decide (k.markAt + 2 * s.markNs ≤ s.now) then
    ok { s with asy := { k with gap := true } }
  else ok s

/-- WEIGHT_MESSAGE (R460, R462): die d's weights, and from die 0 the shares and resident bits, for the tick just closed. -/
def execWeightMessage (d : Fin 2) (w : List Nat) (s : State) : Host.Outcome State Fault Refusal :=
  let k := s.asy
  let ws := (upFrom 0 16).map (fun p => nth 0 w p % 2 ^ 40)
  if !k.on || !s.isUp d then ok s
  else
    match k.ticks with
    | [x] =>
      if d.val = 0 then
        if x.w0.isSome then ok s
        else ok { s with asy := { k with ticks := [{ x with
          w0 := some ws, share := s.pwrShares, resident := s.residents, tempOut := x.tempOut || s.inletOut }] } }
      else if x.w1.isSome then ok s
      else ok { s with asy := { k with ticks := [{ x with w1 := some ws }] } }
    | _ => ok s

/-- ASSAY_FIGURES (R463): the oldest tick's figures reach the step controllers. -/
def execAssayFigures (s : State) : Host.Outcome State Fault Refusal :=
  match s.asy.figs with
  | [] => ok s
  | (t, fs, v) :: l =>
    let s : State := { s with asy := { s.asy with figs := l } }
    if !s.asy.on || !s.isUp 0 then ok s
    else ok ((upFrom 0 16).foldl (fun s p => let q := s.part p; s.setPart p { q with figs := q.figs ++ [(t, nth 0 fs p, v)] }) s)

/-- STATUS values of the device's processors (R483, R489). -/
def stOk : Nat := 0
def stBadArg : Nat := 1
def stBusy : Nat := 2
def stDenied : Nat := 3
def stNoId : Nat := 4
def stVerifyFail : Nat := 5
def stFlashTemp : Nat := 6

/-- A message's word. -/
def State.boxWord (s : State) (m i : Nat) : Nat := s.get Fld.MB_DATA.DATA m i

/-- The reply to a command, from its word 0 (R483, R489). -/
def replyWords (w0 status : Nat) (more : List Nat) : List Nat :=
  let l := (w0 % 2 ^ 32 + status <<< 32) :: more
  l ++ List.replicate (8 - l.length) 0

/-- Whether a command's sender is of class 0 or 6 (R483, R489). -/
def State.senderMay (s : State) (m : Nat) : Bool :=
  let c := idClass (s.get Fld.R_PEEK.SENDER m)
  c == clHost || c == clRemote

/-- Replies of the power manager of die 0, and of the security core. -/
def State.pmReply (s : State) (w0 status : Nat) : State := s.say (ident clPower 0) 38 (replyWords w0 status [])
def State.secReply (s : State) (w0 status : Nat) (more : List Nat) : State := s.say (ident clSec 0) 41 (replyWords w0 status more)

/-- Receiver codes of the power manager of die 0 and of the security core (R373). -/
def rcvPm0 : Nat := 19
def rcvSec : Nat := 21

/-- The commands of the power manager of die 0 (R467, R489), and of the security core (R483). -/
def pmCodes : List Nat := [0x0A01, 0x0B01, 0x0B02]
def secCodes : List Nat := [0x0101, 0x0103, 0x0201, 0x0202, 0x0301, 0x0302]

/-- ASSAY_RING_CONFIG (R467): command 0x0A01 to the power manager of die 0. -/
def execAssayRingConfig (s : State) : Host.Outcome State Fault Refusal :=
  match s.command rcvPm0 pmCodes 0x0A01, s.isUp 0 && !s.compDown 3 with
  | some m, true =>
    let w := fun (i : Nat) => s.boxWord m i
    let may := s.senderMay m
    let a := bits (w 3) 3 0
    let b := bits (w 3) 11 8
    let good := w 1 % 4096 == 0 && w 2 % 4096 == 0 && decide (4 ≤ a) && decide (4 ≤ b)
    let w0 := w 0
    let s := s.takeBox m
    if !may then ok (s.pmReply w0 stDenied)
    else if !good then ok (s.pmReply w0 stBadArg)
    else
      let s : State := { s with asy := { s.asy with rings := some ⟨w 1 / 4096, a, 0, w 2 / 4096, b, 0⟩ } }
      ok (s.relay.pmReply w0 stOk)
  | _, _ => ok s

/-- A seal event begun (R468, R470): it waits for its entry. -/
def State.beginSeal (s : State) (e : SealEvent) : State := ({ s with asy := { s.asy with sealing := some e } } : State).mirror

/-- ASSAY_FIRMWARE_INSTALL (R468, R471): through the assay chain. -/
def execAssayFirmwareInstall (digest : BitVec 256) (ver : BitVec 16) (s : State) : Host.Outcome State Fault Refusal :=
  occurs (s.asy.on && s.asy.attached && s.asy.sealing.isNone) s (s.beginSeal ⟨1, digest.toNat, ver.toNat, 0, 0⟩)

/-- CALIBRATION_CHANGE (R468, R471): through the assay chain. -/
def execCalibrationChange (digest : BitVec 256) (cal : BitVec 32) (idle : BitVec 25) (ticks : BitVec 16) (s : State) :
    Host.Outcome State Fault Refusal :=
  occurs (s.asy.on && s.asy.attached && s.asy.sealing.isNone) s (s.beginSeal ⟨2, digest.toNat, cal.toNat, idle.toNat, ticks.toNat⟩)

/-- ASSAY_DEBUG_ATTACH (R468, R470): the assay chain is to leave bypass. -/
def execAssayDebugAttach (s : State) : Host.Outcome State Fault Refusal :=
  occurs (s.asy.on && s.asy.sealing.isNone) s (s.beginSeal ⟨3, 0, 0, 0, 0⟩)

/-- ISLAND_POWER_RETURN (R468, R473): after a loss of standby power. -/
def execIslandPowerReturn (s : State) : Host.Outcome State Fault Refusal :=
  occurs s.asy.lost s (({ s with asy := { s.asy with on := true, lost := false } } : State).beginSeal ⟨4, 0, 0, 0, 0⟩)

/-- ASSAY_WATCHDOG (R472): the assay die is absent. -/
def execAssayWatchdog (s : State) : Host.Outcome State Fault Refusal :=
  if s.asy.on then
    let s := ({ s with asy := { s.asy with on := false, gap := true } } : State).bump Fld.ASY_FAULT.FAULTS 1
    ok (s.set Fld.ASY_STATE.STATE 0)
  else ok s

/-- ASSAY_DIE_RETURN (R472). -/
def execAssayDieReturn (s : State) : Host.Outcome State Fault Refusal :=
  occurs (!s.asy.on && !s.asy.lost) s ({ s with asy := { s.asy with on := true } } : State).mirror

/-- The body of a seal-log entry (R469): the event, the counter after it, the entry number, TICK. -/
def sealBody (k : AsySt) (e : SealEvent) (count tick : Nat) : List Byte :=
  let prev := match k.slog.getLast? with | some b => shake256 b 8 | none => List.replicate 8 0#8
  bytesOf 8 (0x5345414C + e.event <<< 32) ++ bytesOf 8 (count + k.slog.length <<< 32) ++ bytesOf 32 e.digest ++ bytesOf 8 tick ++ prev

/-- SEAL_ENTRY_PROGRAMMED (R468–R471, R482): the pending event is complete. Whether a new image or calibration verifies under the
metrology key is a free choice: an image that fails is not run, a calibration that fails makes ticks invalid (R471). -/
def execSealEntryProgrammed (s : State) : Host.Outcome State Fault Refusal :=
  let k := s.asy
  let temps := (s.validOf [112, 113]).all (fun c => decide ((80 : Int) ≤ s.reading c) && decide (s.reading c ≤ 1360))
  match k.sealing with
  | some e =>
    if !k.on || !temps then ok s
    else
      let count := if e.event = 4 then k.count else (k.count + 1) % 2 ^ 32
      let body := sealBody k e count (if k.markAt = 0 then 0 else s.now)
      let full := decide (1024 ≤ k.slog.length)
      let l := sealed body
      let (good, s) := s.freeChoice
      let k' := { k with
        sealing := none, count := count, slog := if full then k.slog else k.slog ++ [body]
        attached := k.attached || e.event == 3, fwVer := if e.event = 1 && good then e.ver else k.fwVer
        calOk := if e.event = 2 then good else k.calOk
        calId := if e.event = 2 then e.ver else k.calId, idle := if e.event = 2 then e.idle else k.idle
        recTicks := if e.event = 2 then e.ticks else k.recTicks
        filling := k.filling.map (fun r => { r with moved := true }) }
      let s : State := { s with asy := if full then k' else k'.queueRec l }
      let s := if full then s else s.putWords Reg.ASY_SENT (some (k.slog.length % 8)) l
      let s := if e.event = 4 || !s.isUp 0 then s else s.extendOpen 13
      ok s.mirror.relay
  | none => ok s

end Sys2Proof.Machine
end

