-- ==== Sys2Proof/Machine/Reset.lean ====
section
/-!
DEFINITION. Boot, resets and power states: what each event stops and keeps, the commands of the power manager of die 0, and
the reset reports (R386, R390, R448, R476–R482, R488–R501).
-/
namespace Sys2Proof.Machine

/-- Whether a Kept across entry lists D1, D2, a die reset, a warm reset, a cold reset, a loss of standby power (R9, R10); q:
the field's partition was quiesced. -/
def keptD1 (q : Bool) : Kept → Bool
  | .none => false
  | .d12q => q
  | _ => true
def keptD2 (q : Bool) : Kept → Bool
  | .none | .d1 => false
  | .d12q => q
  | _ => true
def keptDie : Kept → Bool
  | .die | .warm | .cold | .standby => true
  | _ => false
def keptWarm : Kept → Bool
  | .warm | .cold | .standby => true
  | _ => false
def keptCold : Kept → Bool
  | .cold | .standby => true
  | _ => false
def keptStandby : Kept → Bool
  | .standby => true
  | _ => false

/-- The TICK, PART and SERVE registers of a partition's sub-blocks that a reset ending the partition clears (R62, R327, R372). -/
def partRegs : List Reg :=
  [Reg.STEP_CFG, Reg.STEP_CTRL, Reg.STEP_STATE, Reg.ALM_NEXT, Reg.ALM_CUR, Reg.COMMIT_NUM, Reg.RESTART_NUM, Reg.ADMIT_REC,
    Reg.SV_CFG, Reg.SV_SPEC, Reg.SV_TABLE, Reg.SV_GEOM, Reg.SV_REQ, Reg.SV_REQCFG, Reg.SV_OUTDIR, Reg.SV_SWAP0, Reg.SV_SWAP1,
    Reg.SV_SWAPCAP, Reg.SV_STEPREC, Reg.SV_EXPG, Reg.SV_EXPN, Reg.SV_VAR, Reg.SV_PLACE, Reg.SV_CTRL, Reg.SV_STAT, Reg.SV_HEAD,
    Reg.SV_CNT_TOK, Reg.SV_CNT_DEF, Reg.SV_CNT_SWAP, Reg.PT_CORES, Reg.PT_SB, Reg.PT_REGIONS, Reg.PT_SHARE, Reg.PT_ACCT,
    Reg.PT_STAT, Reg.SEM_SIG, Reg.PT_RANGE, Reg.SEM_VAL, Reg.ACC]

/-- Whether a register belongs to a partition's sub-blocks. -/
def isPartReg (r : Reg) : Bool := partRegs.any (fun x => x.base == r.base)

/-- The partition a quiesced-kept register instance belongs to, if any. -/
def State.ownerOf (s : State) (r : Reg) (i j : Nat) : Option Nat :=
  if isPartReg r then some i
  else if r.home = .core then s.partOf i
  else if r.base = Reg.GRP_CFG.base || r.base = Reg.GRP_MAP.base || r.base = Reg.GRP_LOG.base then some (s.get Fld.GRP_CFG.PART i)
  else if r.home = .stack && j < 16 then some j
  else none

/-- Whether the partition a register instance belongs to is quiesced (R10). Where it belongs to no partition the spec does not say
what "its partition was quiesced" means: the model keeps the fields of a HOST sluice and of other such registers, and returns
those of a core assigned to no partition to reset (DESIGN CHOICE, log 29). -/
def State.quiesced (s : State) (r : Reg) (i j : Nat) : Bool :=
  match s.ownerOf r i j with
  | some p => s.pstate p == stQuiesced
  | none => r.home != .core

/-- The image a loader runs of a component (R478): slot A or B, and the image. -/
def FlashSt.choose (f : FlashSt) (c : Nat) : Option (Bool × Image) :=
  let a := (nth none f.slots (2 * c)).filter (fun x => x.good)
  let b := (nth none f.slots (2 * c + 1)).filter (fun x => x.good)
  match a, b with
  | some x, some y => if x.version < y.version then some (true, y) else some (false, x)
  | some x, none => some (false, x)
  | none, some y => some (true, y)
  | none, none => none

/-- The valid record of a TYPE. -/
def FlashSt.record (f : FlashSt) (t : Nat) : Option Image := (nth none f.records (t - 1)).filter (fun x => x.good)

/-- The record of a TYPE in force: none passes its DEV_ID check where the identity was not reconstructed (R480, R481). -/
def State.record (s : State) (t : Nat) : Option Image := if s.sec.idOk then s.sec.flash.record t else none

/-- The digests a boot measures: the components' images, then the records, 0 for none. -/
def FlashSt.digests (f : FlashSt) : List Nat :=
  (upFrom 0 6).map (fun c => match f.choose c with | some x => x.2.digest | none => 0) ++
    (upFrom 1 6).map (fun t => match f.record t with | some x => x.digest | none => 0)

/-- A component loaded (R478): its slot, its version, SIG_FAIL for a slot that does not verify. -/
def State.loadComp (s : State) (c : Nat) : State :=
  let f := s.sec.flash
  let bad := [2 * c, 2 * c + 1].any (fun i => match nth none f.slots i with | some x => !x.good | none => false)
  let s := if bad then s.set Fld.SEC_ERR.SIG_FAIL 1 else s
  let got := f.choose c
  let s : State := { s with sec := { s.sec with loaded := setNth s.sec.loaded c got.isSome } }
  match got with
  | some (b, x) =>
    let a := s.get Fld.SEC_SLOT.ACTIVE
    let a := setBits a c c (b2n b)
    (s.set Fld.SEC_SLOT.ACTIVE a).set Fld.SEC_VER.VERSION x.version c
  | none => s

/-- A free MREG extend repeated. -/
def State.extendMany (s : State) (i : Nat) : Nat → State
  | 0 => s
  | n + 1 => (s.extendOpen i).extendMany i n

/-- Steps 1 to 4 of a boot of the security core (R478–R482, R487): the identity, whose reconstruction from the PUF is a free choice
(R481), components, records, measurements. -/
def State.bootSec (s : State) : State :=
  let f := s.sec.flash
  let s := (upFrom 0 16).foldl (fun s i => (upFrom 0 8).foldl (fun s w => s.set Fld.MREG.VALUE 0 i w) s) s
  let (puf, s) := s.freeChoice
  let s : State := { s with sec := { s.sec with idOk := puf } }
  let s := (upFrom 0 6).foldl (fun s c => s.loadComp c) s
  let bad := (upFrom 1 6).filter (fun t => (s.record t).isNone)
  let s := s.set Fld.SEC_REC.BAD (sumList (bad.map (fun t => 2 ^ (t - 1))))
  let s := if puf then s else s.set Fld.SEC_ERR.PUF_FAIL 1
  let s := if f.records.any (fun r => match r with | some x => !x.good || !puf | none => false) then s.set Fld.SEC_ERR.REC_BAD 1 else s
  let s := ([0, 1, 2, 3, 4, 5, 6, 7, 8, 9, 9, 10, 11, 13] : List Nat).foldl (fun s i => s.extendOpen i) s
  let s := s.extendMany 8 f.remaps.length
  let s := if s.is Fld.SEC_DBG.ATTACHED then
      let (d, s) := s.freeBelow (2 ^ 512)
      s.extend 15 0x0F (bytesOf 64 d)
    else s
  let (v, s) := s.freeBelow 65536
  let s := (s.set Fld.SEC_STATE.ROM_VER v).set Fld.SEC_STATE.ID_OK (b2n puf)
  let s := (s.set Fld.SEC_STATE.CERT_OK (b2n (s.record 3).isSome)).set Fld.SEC_STATE.STATE (if nth true s.sec.loaded 0 then 1 else 3)
  let s := if (s.record 3).isSome then ((upFrom 0 f.cert.length).zip f.cert).foldl (fun s e => s.setWord Reg.SEC_CERT e.1 0 e.2) s else s
  { s with sec := { s.sec with measured := f.digests, upd := none, stage := none } }

/-- The fabric record in force (R418, R480): ETH_DEV and the device table; a tethered device's mailboxes of R429. -/
def State.bootFabric (s : State) : State :=
  let f := s.sec.flash
  if (s.record 5).isNone then s
  else
    let s := (s.set Fld.ETH_DEV.MODE f.mode).set Fld.ETH_DEV.DEV_NUM f.devNum
    let s := (upFrom 0 64).foldl (fun s d =>
      let w := fun (i : Nat) => nth 0 f.table (4 * d + i) % 2 ^ 32
      (s.setWord Reg.ETH_DT0 d 0 (w 0 + w 1 <<< 32)).setWord Reg.ETH_DT1 d 0 (w 2 + w 3 <<< 32)) s
    if f.mode = mdTethered then
      (upFrom 48 8).foldl (fun s m => (s.set Fld.MB_CFG.RCV 21 m).set Fld.MB_CFG.DB 0 m) s
    else s

/-- The blocks whose RWL fields a boot policy may give (R480): PWR, THERM, STK and AGE. -/
def policyBlock (r : Reg) : Bool :=
  [Reg.PWR_CFG, Reg.OPP_LIM, Reg.THERM_CFG, Reg.THERM_SCALE, Reg.STK_CFG, Reg.STK_PWR, Reg.AGE_CFG].any (fun x => x.base == r.base)

/-- The boot policy in force for the registers homed on some dies (R480, R494). -/
def State.bootPolicy (s : State) (ds : List Nat) : State :=
  if (s.record 6).isNone then s
  else
    s.sec.flash.policy.foldl (fun s e =>
      match regAt e.1 with
      | some (r, i, j) => if policyBlock r && ds.contains (r.homeDie i) then s.setWord r i j e.2 else s
      | none => s) s

/-- The voltage tables loaded at a power-up (R434, R435, R457): from the newest log entry, else from the record. -/
def State.bootVolts (s : State) : State :=
  let f := s.sec.flash
  let good := (s.record 1).isSome && f.vtest.all (fun v => decide (v + 50 ≤ 950))
  let cal := (s.record 4).isSome
  let s := [0, 1].foldl (fun s d => s.setDpower d { s.dpower d with vtBad := !good || !cal || !nth true s.sec.loaded (3 + d) }) s
  let s := if good then s else [0, 1].foldl (fun s d => s.set Fld.PWR_VT.V_MV 950 d 0) (s.set Fld.PWR_EVT.VT_BAD 1)
  match f.log.getLast? with
  | some body =>
    let s := (if good then upFrom 0 16 else []).foldl (fun s k =>
      let w := nth 0 body (3 + k)
      (s.setVt (k / 8) (k % 8) (bits w 11 0) (bits w 26 16)).set Fld.PWR_VT.DERATED (bits w 48 48) (k / 8) (k % 8)) s
    let s := (upFrom 0 20).foldl (fun s t => s.set Fld.STK_CFG.TREFI_10NS (bits (nth 0 body (19 + t)) 8 0) t) s
    let s := (upFrom 0 64).foldl (fun s i => s.setWord Reg.AGE_LOG i 0 (nth 0 body i)) s
    s.setWord Reg.AGE_LAST 0 0 (nth 0 body 1)
  | none =>
    if !good then s
    else (upFrom 0 16).foldl (fun s k => (s.set Fld.PWR_VT.VTEST_MV (nth 0 f.vtest k) (k / 8) (k % 8)).set Fld.PWR_VT.V_MV (nth 0 f.vtest k + 50) (k / 8) (k % 8)) s

/-- The key of a repair entry in its stack's remap table. -/
def Repair.key (r : Repair) : Nat :=
  if r.lane then laneKey r.pch r.row else rowKey (32 * r.pch + r.bank) r.row

/-- One repair applied, or skipped and counted (R503). -/
def State.applyRepair (s : State) (r : Repair) : State :=
  let k := s.stack r.stack
  if k.spareUsed r.key r.spare || (smFind k.remap r.key).isSome then s.count Fld.TEST_REP.CONFLICT 1 r.stack
  else s.addRemap r.stack r.key r.spare

/-- The soft repairs of every stack reloaded (R457, R503). -/
def State.bootRepairs (s : State) : State :=
  let f := s.sec.flash
  let s : State := { s with stks := s.stks.map (fun k => { k with remap := [] }) }
  let s := (upFrom 0 20).foldl (fun s t => (s.set Fld.TEST_SPARES.LEFT 16384 t).set Fld.TEST_SPARES.LANES_LEFT 64 t) s
  let s := if (s.record 2).isSome then f.repairs.foldl (fun s r => s.applyRepair r) s else s
  f.remaps.foldl (fun s r => s.applyRepair r) s

/-- The stacks that train at a boot: with PHY engines and a stack repair map (R478, R480). -/
def State.stacksTrain (s : State) : Bool := nth true s.sec.loaded 5 && (s.record 2).isSome

/-- The host link as it trains at a power-up or warm reset (R387, R418): the mode Flex Bus negotiation reaches, the width and the rate
are free values (the host's side of the negotiation, log 7); a tethered device has no host link. -/
def State.trainLink (s : State) : State :=
  if s.sec.flash.mode = mdTethered && (s.record 5).isSome then s
  else
    let (cxl, s) := s.freeChoice
    let (w, s) := s.freeBelow 3
    let (v, s) := s.freeBelow 2
    (((s.set Fld.CXLC_LINK.UP 1).set Fld.CXLC_LINK.CXL (b2n cxl)).set Fld.CXLC_LINK.WIDTH (4 * 2 ^ w)).set Fld.CXLC_LINK.SPEED (1 + v)

/-- BULK_CLEAR_DONE (R287, R390, R479): the end of a power-up or cold reset. -/
def execBulkClearDone (s : State) : Host.Outcome State Fault Refusal :=
  if s.link.active || !(s.mod.power = .on) || !(s.isUp 0 && s.isUp 1) then ok s
  else
    let s := s.bootSec
    let s := ((s.bootFabric.bootPolicy [0, 1]).bootVolts).bootRepairs
    let s := (s.set Fld.AGE_STAT.HOURS s.sec.flash.hours).trainLink
    let up := s.stacksTrain
    let s := (upFrom 0 20).foldl (fun s t => s.set Fld.STK_STATUS.STATE (if up then 2 else 4) t) s
    let s : State := { s with mem := [], gran := [], ecc := [], metaFlip := [], flipped := [], csumBad := [], link := { s.link with active := true } }
    ok s.mirror

/-- Partitions that a reset of some dies ends (R495). -/
def State.endedBy (s : State) (ds : List Nat) : List Nat :=
  if ds.contains 0 then upFrom 0 16 else (upFrom 0 16).filter (fun p => s.hasDie p 1)

/-- Whether a partition has something to end: it is configured. -/
def State.configured (s : State) (p : Nat) : Bool :=
  s.pstate p != stIdle || s.get Fld.PT_CORES.CORES p != 0 || (s.part p).ranges.any (fun r => r.count != 0)

/-- A commit that its ready report lets the commit sequencer finish across a reset of die 1 (R496). -/
def State.finishCommit (s : State) (p : Nat) : State :=
  if s.ownReady p && (s.part p).die1Ready then
    if h : p < 16 then
      match execCommit ⟨p, h⟩ s with
      | .next t => t
      | _ => s
    else s
  else s

/-- A partition ended by a reset (R495): its step lost, its cores unassigned, its sub-blocks at their Reset values. -/
def State.endPart (s : State) (p : Nat) : State :=
  let s := s.loseStep p
  let s := (s.coresOf p).foldl (fun s c => s.assignCore c none) s
  let s := s.resetCsrs (fun r i _ _ => !(isPartReg r && i == p))
  s.setPart p .reset

/-- Reads in flight between two dies, and the pan reports, that a reset discards (R500). -/
def State.dropCounts (s : State) (ds : List Nat) : Nat × Nat :=
  let cross := fun (t : Nat) (r : Req) => match r.agent.die with
    | some d => d != dieOfStack t && (ds.contains d || ds.contains (dieOfStack t)) && !r.isWrite
    | none => false
  let idl := sumList ((upFrom 0 20).map (fun t => sumList ((s.stack t).queue.map (fun e => (e.2.filter (cross t)).length))))
  let pan := sumList (s.batches.map (fun b => (b.pans.filter (fun u => ds.contains b.die || ds.contains (dieOfStack (u / 32)))).length))
  (idl, pan)

/-- The first request of core c waiting at a stack of some dies. -/
def State.cutReq (s : State) (ds : List Nat) (f : Req → Bool) : Option Req :=
  (upFrom 0 20).findSome? (fun t =>
    if ds.contains (dieOfStack t) then (s.stack t).queue.findSome? (fun e => e.2.find? f) else none)

/-- The engine of a request's agent. -/
def Agent.eng : Agent → FaultEng
  | .xe _ => .xe
  | .pip _ => .pip
  | .fetch _ => .fetch
  | _ => .scalar

/-- Agents left running whose requests a reset die will not answer fail (R260, R498). -/
def State.failNeighbours (s : State) (ds : List Nat) : State :=
  let s := ((upFrom 0 12).filter (fun c => !ds.contains (dieOfCore c))).foldl (fun s c =>
    match s.cutReq ds (fun r => r.ofCore c) with
    | some r => s.coreFault c r.agent.eng (s.core c).pc ⟨cfDomainDown, r.dpa, some (r.dpa / stackSpan)⟩
    | none => s) s
  let bs := s.batches.filter (fun b => !ds.contains b.die &&
    (b.pans.any (fun u => ds.contains (dieOfStack (u / 32))) || b.await.any (fun t => ds.contains (dieOfStack t))))
  let s := bs.foldl (fun s b => match b.item with
    | some _ => s.beginAbandon b.part ⟨.fault, 4, ((b.pans.map (fun u => u / 32)).find? (fun t => ds.contains (dieOfStack t))).getD 0, false⟩
    | none => s.coreFault b.core .pip b.pc ⟨cfDomainDown, 0, none⟩) s
  let ps := s.colls.filter (fun x => !ds.contains x.die &&
    ((s.cutReq ds (fun r => r.agent = .coll x.die && r.sluice == x.part)).isSome ||
      (x.started && (s.phaseGranules x).any (fun g => match placeOf (4096 * g) with
        | .data t _ => ds.contains (dieOfStack t)
        | .sbuf d _ => ds.contains d
        | _ => false))))
  let qs := s.colls.filter (fun x => ds.contains x.die)
  let s := (ps ++ qs).foldl (fun s x => if s.colls.contains x then s.failPhase x clDown none 0 else s) s
  (upFrom 0 4).foldl (fun s ch =>
    let cut := fun (t : Nat) => ds.contains (dieOfStack t) && ((s.stack t).queue.any (fun e => e.2.any (fun r => r.agent = .hdma ch)))
    s.setJobs ch ((s.jobs ch).map (fun j =>
      let t := j.dpa / stackSpan
      if !j.awaits && ((j.left != 0 && ds.contains (dieOfStack t)) || cut t) then { j with status := hdDown, left := 0 } else j))) s

/-- A stack's controller after a reset of its die: full sluices, nothing waiting; repairs and weak rows stay (R217, R494). -/
def StackSt.restart (k : StackSt) : StackSt := { StackSt.reset with remap := k.remap, weakRows := k.weakRows }

/-- The shared buffer of a die at zero. -/
def State.zeroSbuf (s : State) (d : Nat) : State :=
  let a := 0x20000000000 + d * 0x1000000000
  { s with mem := smDrop s.mem a 0x3000000, gran := smDrop s.gran (a / 4096) 0x3000
           ecc := smDrop s.ecc (a / 64) 0xC0000, metaFlip := smDrop s.metaFlip (a / 64) 0xC0000 }

/-- What a die holds beside its registers, lost in a reset or power-down: cores, stack controllers, pans (R494). -/
def State.clearDie (s : State) (d : Nat) : State :=
  let s := (upFrom (6 * d) 6).foldl (fun s c => s.setCore c .reset) s
  let s := (stacksOf d).foldl (fun s t => s.setStack t (s.stack t).restart) s
  let gone := (s.batches.filter (fun b => b.die == d)).map Batch.id
  let s : State := { s with
    pans := s.pans.filterMap (fun e =>
      let y := { e.2 with queue := e.2.queue.filter (fun q => !gone.contains q.1) }
      if dieOfStack (e.1 / 32) = d || y = PanSt.reset then none else some (e.1, y))
    batches := s.batches.filter (fun b => b.die != d)
    sealing := s.sealing.filter (fun e => dieOfStack (e.1 / 32) != d)
    power := { s.power with dies := setNth s.power.dies d { DiePower.reset with vtBad := (s.dpower d).vtBad } } }
  s.zeroSbuf d

/-- What die 0's units hold beside their registers, lost with its reset (R402, R453, R467, R494). -/
def State.clearDie0 (s : State) : State :=
  let s := if s.age.run.isSome then s.set Fld.AGE_EVT.CUT 1 else s
  let slot := fun (f : FlashSt) (r : StageRun) =>
    let b := bit (s.get Fld.SEC_SLOT.ACTIVE) r.comp
    { f with slots := setNth f.slots (2 * r.comp + b2n (!b)) (some { r.image with good := false }) }
  { s with
    tick := { TickSt.reset with bound := s.tick.bound, boundAt := s.tick.boundAt }
    power := { s.power with meas := [], energy := none, round := 0 }
    age := { s.age with hist := [], run := none, trigger := 0 }
    asy := { s.asy with rings := none }
    net := { NetSt.reset with lanes := s.net.lanes }, delivered := [], repairDue := [], colls := []
    link := { s.link with run := none, jobs := List.replicate 4 [] }
    mod := { s.mod with outbox := [], idlTest := false, idl := .up, margins := [] }
    sec := { s.sec with upd := none, stage := none, flash := match s.sec.stage with | some r => slot s.sec.flash r | none => s.sec.flash } }

/-- Whether an identity's domain lies on some dies (R374, R378). -/
def identOn (ds : List Nat) (who : Nat) : Bool :=
  let c := idClass who
  if c = clCore then ds.contains (dieOfCore (bits who 3 0))
  else if c = clStep || c = clPower then ds.contains (bits who 0 0)
  else if c = clSec then ds.contains 0
  else false

/-- Stacks held in self-refresh (R488); one that failed to train stays DOWN but through a warm reset (R505). -/
def State.holdStacks (s : State) (ds : List Nat) (warm : Bool) (down : Nat → Bool) : State :=
  (ds.flatMap stacksOf).foldl (fun s t => s.set Fld.STK_STATUS.STATE (if down t && !warm then 4 else 3) t) s

/-- A reset of some dies begins (R494–R500): keep says which fields homed there keep their values. -/
def State.beginReset (s : State) (ds : List Nat) (scope cause : Nat) (keep : Kept → Bool) : State :=
  let b := s.btick
  let down := fun (t : Nat) => s.get Fld.STK_STATUS.STATE t == 4
  let (idl, pan) := s.dropCounts ds
  let s := if ds.contains 0 then s else (s.endedBy ds).foldl (fun s p => s.finishCommit p) s
  let ended := (s.endedBy ds).filter s.configured
  let s := s.failNeighbours ds
  let s := (s.endedBy ds).foldl (fun s p => s.endPart p) s
  let s := s.freeBoxes (identOn ds)
  let s := s.resetCsrs (fun r i _ f => !ds.contains (r.homeDie i) || keep f.kept)
  let s := ds.foldl (fun s d => s.clearDie d) s
  let s := if ds.contains 0 then s.clearDie0 else s
  let s : State := { s with net := { s.net with qps := s.net.qps.filter (fun e => !(decide (65536 ≤ e.1) && ds.contains 1)) } }
  let s := s.holdStacks ds (scope == 3) down
  { s with
    dieUp := (upFrom 0 2).map (fun d => nth false s.dieUp d && !ds.contains d)
    mod := { s.mod with
      resets := s.mod.resets ++ [⟨scope, cause, b, sumList (ended.map (fun p => 2 ^ p)), Nat.min 0xFFFF idl, Nat.min 0xFFFF pan, 0⟩]
      outbox := s.mod.outbox.filter (fun e => !identOn ds e.1) } }

/-- A die reset (R488, R495). -/
def State.dieReset (s : State) (d cause : Nat) : State := s.beginReset [d] (1 + d) cause keptDie

/-- A warm reset (R398, R488, R494). -/
def State.warmReset (s : State) (cause : Nat) : State :=
  let s := s.beginReset [0, 1] 3 cause keptWarm
  { s with
    link := { s.link with hdm := LinkSt.reset.hdm, bias := [] }, msixHeld := []
    mod := { s.mod with power := .on, wakeAt := 0, exitReq := false } }

/-- Whether the module takes a warm reset: not in Standby, after a trip, or without power. -/
def PowerMode.warmable : PowerMode → Bool
  | .on | .entering _ | .asleep 1 | .asleep 2 | .leaving _ => true
  | _ => false

/-- DIE_RESET (R488, R495). -/
def execDieReset (d : Fin 2) (s : State) : Host.Outcome State Fault Refusal :=
  occurs (nth false s.dieUp d && s.mod.power.clocked) s (s.dieReset d 1)

/-- WARM_RESET (R488). -/
def execWarmReset (s : State) : Host.Outcome State Fault Refusal := occurs s.mod.power.warmable s (s.warmReset 1)

/-- CXL_RESET (R386): a warm reset. -/
def execCxlReset (s : State) : Host.Outcome State Fault Refusal := occurs s.mod.power.warmable s (s.warmReset 5)

/-- WATCHDOG_EXPIRY (R490): 0 a step controller, 1 a power manager, 2 the security core. -/
def execWatchdogExpiry (d : Fin 2) (w : Fin 3) (s : State) : Host.Outcome State Fault Refusal :=
  if !s.isUp d then ok s
  else if w.val = 2 then occurs (d.val == 0) s (s.warmReset 4)
  else ok (s.dieReset d (2 + w.val))

/-- The words of a reset report from word 3 on: the stamps of some partitions (R501). -/
def State.stampWords (s : State) (ps : List Nat) : List Nat :=
  ps.map (fun p =>
    let x := nth ⟨0, 0, 0⟩ s.mod.stamps p
    x.commits % 2 ^ 56 + x.gen <<< 56 + x.copy <<< 57 + p <<< 60)

/-- The reports of a reset sent (R501). -/
def State.report (s : State) (r : ResetRun) : State :=
  let ps := setBitsOf r.ended 16
  let pad := fun (l : List Nat) => l ++ List.replicate (8 - l.length) 0
  let w1 := r.scope + r.cause <<< 4 + r.btick <<< 16
  let w2 := r.ended + r.idl <<< 16 + r.pan <<< 32 + r.csr <<< 48
  let s := s.say (ident clStep 0) 34 (pad ([0x0C01, w1, w2] ++ s.stampWords (ps.take 13)))
  if 13 < ps.length then s.say (ident clStep 0) 34 (pad ([0x0C01 + 1 <<< 16, w1, 0] ++ s.stampWords (ps.drop 13))) else s

/-- The dies of a reset's scope. -/
def scopeDies (scope : Nat) : List Nat := if scope = 1 then [0] else if scope = 2 then [1] else [0, 1]

/-- Reports of the resets that are over, once the step controller of die 0 runs. -/
def State.reports (s : State) : State :=
  if !nth false s.dieUp 0 then s
  else
    let isOver := s.mod.resets.filter (fun r => (scopeDies r.scope).all (fun d => nth false s.dieUp d))
    let s : State := { s with mod := { s.mod with resets := s.mod.resets.filter (fun r => !isOver.contains r) } }
    isOver.foldl (fun s r => s.report r) s

/-- A power manager reloaded, not at a power-up: a voltage table found bad at the power-up stays unused (R435, R478, R480). -/
def State.reloadPower (s : State) (d : Nat) : State :=
  let bad := (s.record 1).isNone || !s.sec.flash.vtest.all (fun v => decide (v + 50 ≤ 950)) || (s.record 4).isNone
  s.setDpower d { s.dpower d with vtBad := ((s.dpower d).vtBad && bad) || !nth true s.sec.loaded (3 + d) }

/-- DIE_RESET_DONE (R479, R495, R501): the die returns; a warm reset brings both back. -/
def execDieResetDone (d : Fin 2) (s : State) : Host.Outcome State Fault Refusal :=
  match s.mod.resets.find? (fun r => (scopeDies r.scope).contains d.val), nth true s.dieUp d with
  | some r, false =>
    let ds := if r.scope = 3 then [0, 1] else [d.val]
    let s : State := { s with dieUp := (upFrom 0 2).map (fun x => nth false s.dieUp x || ds.contains x) }
    let s := if ds.contains 0 then s.bootSec else [2, 4].foldl (fun s c => s.loadComp c) s
    let s : State := { s with mod := { s.mod with idl := .up } }
    let s := ds.foldl (fun s d => s.reloadPower d) s
    let s := s.bootPolicy ds
    let s := if r.scope = 3 then s.bootRepairs.trainLink else s
    let s := if ds.contains 0 then
        (upFrom 48 8).foldl (fun s m =>
          if s.get Fld.ETH_DEV.MODE == mdTethered then (s.set Fld.MB_CFG.RCV 21 m).set Fld.MB_CFG.DB 0 m else s) s
      else s
    let up := s.stacksTrain
    let s := (ds.flatMap stacksOf).foldl (fun s t =>
      if s.get Fld.STK_STATUS.STATE t == 3 then s.set Fld.STK_STATUS.STATE (if !s.link.active then 0 else if up then 2 else 4) t else s) s
    ok (if ds.contains 0 then s.mirror.reports.relay else s.reports)
  | _, _ => ok s

/-- Flash with an interrupted STAGE (R485): its slot fails verification. -/
def State.flashAfter (s : State) : FlashSt :=
  let f := s.sec.flash
  match s.sec.stage with
  | some r =>
    let b := bit (s.get Fld.SEC_SLOT.ACTIVE) r.comp
    { f with slots := setNth f.slots (2 * r.comp + b2n (!b)) (some { r.image with good := false }) }
  | none => f

/-- The send queues lost with what they held; what has left stays on record. -/
def State.txLost (s : State) : TxSt := { TxSt.reset with seen := s.sent.length, wire := s.tx.wire }

/-- Everything but the assay die, flash, host memory and what has been sent, at its reset value (R494). -/
def State.blank (s : State) (keep : Kept → Bool) : State :=
  let t := s.resetCsrs (fun _ _ _ f => keep f.kept)
  { State.reset with
    pending := s.pending, csr := t.csr, host := s.host, sent := s.sent, tx := s.txLost, msixSent := s.msixSent, answer := s.answer, free := s.free
    sec := { SecSt.reset with flash := s.flashAfter, devId := s.sec.devId }
    age := { AgeSt.reset with base := s.age.base, ns := 0 }, asy := s.asy }

/-- A cold reset (R488, R494): the bulk clear follows. -/
def State.coldReset (s : State) : State :=
  let t := s.blank keptCold
  { t with asy := { t.asy with gap := true, rings := none, markAt := 0, cur := none, ticks := [] } }

/-- COLD_RESET (R488): PERST#, the exit from Standby, or +12 V returning. -/
def execColdReset (s : State) : Host.Outcome State Fault Refusal := ok s.coldReset

/-- The assay die after a loss of standby power (R473). -/
def AsySt.afterLoss (k : AsySt) : AsySt :=
  { AsySt.reset with
    on := false, lost := true, fwVer := k.fwVer, calId := k.calId, idle := k.idle, recTicks := k.recTicks, calOk := k.calOk
    count := k.count, slog := k.slog, lastSeal := k.count, seq := (k.seq / 65536 + 1) * 65536 }

/-- STANDBY_POWER_LOSS (R488, R494): +12 V is removed. -/
def execStandbyPowerLoss (s : State) : Host.Outcome State Fault Refusal :=
  let t := s.blank keptStandby
  ok { t with asy := s.asy.afterLoss, mod := { t.mod with power := .dark } }

/-- Whether a register keeps its value when the die rails are removed: the always-on island's and the assay mirror (R448). -/
def islandReg (r : Reg) : Bool :=
  decide (r.base ≤ Reg.TICK_ERR.base) || r.base == Reg.THERM_TRIP.base ||
    (decide (Reg.ASY_STATE.base ≤ r.base) && decide (r.base < Reg.SEC_STATE.base)) ||
    (decide (Reg.CXLC_LINK.base ≤ r.base) && decide (r.base < Reg.ETH_DEV.base))

/-- Die and stack rails removed (R448, R488): their registers and memories are lost. -/
def State.railsOff (s : State) (m : PowerMode) : State :=
  let t := s.resetCsrs (fun r _ _ _ => islandReg r)
  { State.reset with
    pending := s.pending, csr := t.csr, host := s.host, sent := s.sent, tx := s.txLost, msixSent := s.msixSent, msixHeld := s.msixHeld
    answer := s.answer, free := s.free, tick := s.tick, link := { LinkSt.reset with hdm := s.link.hdm }
    sec := { SecSt.reset with flash := s.flashAfter, devId := s.sec.devId }
    age := { AgeSt.reset with base := s.age.base, ns := s.age.ns }, asy := s.asy
    mod := { ModuleSt.reset with power := m, stamps := s.mod.stamps } }

/-- ANALOG_TRIP (R448), armed in operation and in D1. -/
def execAnalogTrip (d : Fin 2) (s : State) : Host.Outcome State Fault Refusal :=
  let armed := match s.mod.power with
    | .on | .entering _ | .asleep 1 | .leaving 1 => true
    | _ => false
  occurs armed s (((s.railsOff .tripped).set Fld.THERM_TRIP.VALID 1).set Fld.THERM_TRIP.DIE d)

/-- Whether ENTER is accepted (R489). -/
def State.mayEnter (s : State) : Bool :=
  s.mod.power = .on && (upFrom 0 16).all (fun p => s.pstate p == stIdle || s.pstate p == stStopped || s.pstate p == stQuiesced) &&
    s.get Fld.LEAP_CTRL.STATE == leapNone && (upFrom 0 4).all (fun c => !s.is Fld.CH_CFG.EN c) && s.sec.stage.isNone

/-- ENTER carried out (R491): the ports down, the stacks in self-refresh. -/
def State.enter (s : State) (dest wake : Nat) : State :=
  let s : State := { s with mod := { s.mod with power := .entering dest, wakeAt := wake, exitReq := false } }
  s.losePtp.portsDown.stacksSleep

/-- Whether the power manager of die 0 serves commands: while die 0 answers, and while the module leaves D1 or D2 (R492). -/
def State.pmServes (s : State) : Bool :=
  !s.compDown 3 && (s.isUp 0 || (nth false s.dieUp 0 && (match s.mod.power with | .leaving _ => true | _ => false)))

/-- ENTER (R489, R491, R492): command 0x0B01. -/
def execEnter (s : State) : Host.Outcome State Fault Refusal :=
  match s.command rcvPm0 pmCodes 0x0B01, s.pmServes with
  | some m, true =>
    let w0 := s.boxWord m 0
    let dest := bits (s.boxWord m 1) 1 0
    let wake := bits (s.boxWord m 2) 47 0
    let may := s.senderMay m
    let s := s.takeBox m
    if !may then ok (s.pmReply w0 stDenied)
    else if dest = 0 || (dest = 3 && wake != 0) then ok (s.pmReply w0 stBadArg)
    else if !s.mayEnter then ok (s.pmReply w0 stBusy)
    else ok ((s.pmReply w0 stOk).enter dest wake)
  | _, _ => ok s

/-- RESET (R489): command 0x0B02; the reply is delivered before the reset. -/
def execReset (s : State) : Host.Outcome State Fault Refusal :=
  match s.command rcvPm0 pmCodes 0x0B02, s.pmServes with
  | some m, true =>
    let w0 := s.boxWord m 0
    let scope := bits (s.boxWord m 1) 1 0
    let may := s.senderMay m
    let s := s.takeBox m
    if !may then ok (s.pmReply w0 stDenied)
    else if scope = 0 then ok (s.pmReply w0 stBadArg)
    else
      let s := s.pmReply w0 stOk
      ok (if scope = 3 then s.warmReset 1 else if nth false s.dieUp (scope - 1) then s.dieReset (scope - 1) 1 else s)
  | _, _ => ok s

/-- What D1 or D2 leaves of the state beside the registers (R10, R493, R494). -/
def State.sleepState (s : State) (deep : Bool) : State :=
  let s := (upFrom 0 16).foldl (fun s p =>
    if s.pstate p == stQuiesced then s.setPart p { s.part p with semq := [] } else s.setPart p .reset) s
  let s := (upFrom 0 12).foldl (fun s c =>
    let k := s.core c
    let keep := s.is Fld.CORE_STATUS.ASSIGNED c && s.pstate (s.get Fld.CORE_STATUS.PART c) == stQuiesced
    s.setCore c { CoreSt.reset with
      x := if deep then CoreSt.reset.x else k.x, trf := if deep then [] else k.trf, trfBad := if deep then [] else k.trfBad, trfCe := if deep then [] else k.trfCe
      cfg := if keep then k.cfg else CoreSt.reset.cfg, cyc := if keep then k.cyc else 0 }) s
  let s := (upFrom 0 20).foldl (fun s t =>
    let k := s.stack t
    let q := fun (sl : Nat) => sl == 16 || s.pstate sl == stQuiesced
    let depth := (upFrom 0 17).map (fun sl => if q sl then nth 16 k.depth sl else nth 16 StackSt.reset.depth sl)
    s.setStack t { k with
      depth := depth, rate := (upFrom 0 17).map (fun sl => if q sl then nth 0 k.rate sl else nth 0 StackSt.reset.rate sl)
      deferLeft := (upFrom 0 17).map (fun sl => if q sl then s.get Fld.SL_CFG.REF_DEFER t sl else 0xFFFF)
      level := depth.map (fun d => ((d * 1000000 * 10240 : Nat) : Int)), queue := [], owed := [], fresh := [], refNext := []
      grants := [] }) s
  let s : State := { s with pans := [], batches := [], colls := [] }
  if deep then
    let s := (s.zeroSbuf 0).zeroSbuf 1
    { s with
      power := { s.power with dies := s.power.dies.map (fun x => { DiePower.reset with vtBad := x.vtBad }), meas := [] }
      link := { s.link with jobs := List.replicate 4 [] }, delivered := [], mod := { s.mod with outbox := [] } }
  else s

/-- D1 keeps the operating point and the published plan (R494). -/
def planReg (r : Reg) : Bool := r.base == Reg.PWR_DIE.base || r.base == Reg.OPP_NEXT.base || r.base == Reg.PWR_BUDGET.base

/-- The module asleep (R491–R494). -/
def State.fallAsleep (s : State) (dest : Nat) : State :=
  if dest = 3 then s.railsOff (.asleep 3)
  else
    let deep := dest = 2
    let modes := (upFrom 0 20).map (fun t => s.get Fld.STK_STATUS.STATE t)
    let t := s.resetCsrs (fun r i j f =>
      let q := s.quiesced r i j
      if deep then keptD2 q f.kept else keptD1 q f.kept || planReg r)
    let t := ((upFrom 0 20).zip modes).foldl (fun t e => t.set Fld.STK_STATUS.STATE e.2 e.1) t
    let u := s.sleepState deep
    let s : State := { u with csr := t.csr }
    { s with mod := { s.mod with power := if s.mod.exitReq then .leaving dest else .asleep dest } }

/-- DORMANCY_ENTRY_DONE (R491, R492). -/
def execDormancyEntryDone (s : State) : Host.Outcome State Fault Refusal :=
  match s.mod.power with
  | .entering dest => ok (s.fallAsleep dest)
  | _ => ok s

/-- An exit from D1 or D2 asked for (R492). -/
def State.wake (s : State) : State :=
  match s.mod.power with
  | .asleep 1 => { s with mod := { s.mod with power := .leaving 1 } }
  | .asleep 2 => { s with mod := { s.mod with power := .leaving 2 } }
  | .entering 1 | .entering 2 => { s with mod := { s.mod with exitReq := true } }
  | _ => s

/-- PMCSR_D0_WRITE (R492). -/
def execPmcsrD0Write (s : State) : Host.Outcome State Fault Refusal := ok s.wake

/-- WAKE_AT_REACHED (R492). -/
def execWakeAtReached (s : State) : Host.Outcome State Fault Refusal :=
  occurs (s.mod.wakeAt != 0 && decide (s.mod.wakeAt ≤ s.btick)) s s.wake

/-- Operation again after D1 or D2 (R493). -/
def State.leave (s : State) : State :=
  ({ s with mod := { s.mod with power := .on, wakeAt := 0, exitReq := false } } : State).stacksWake.portsTrain

/-- DORMANCY_EXIT_DONE (R493): from D2 the images and records are verified again; a difference is a cold reset. -/
def execDormancyExitDone (s : State) : Host.Outcome State Fault Refusal :=
  match s.mod.power with
  | .leaving 2 => if s.sec.flash.digests = s.sec.measured then ok (s.leave.set Fld.SEC_STATE.STATE 1) else ok s.coldReset
  | .leaving _ => ok (s.leave.set Fld.SEC_STATE.STATE 1)
  | _ => ok s

end Sys2Proof.Machine
end

