-- ==== Sys2Proof/Machine/Test.lean ====
section
/-!
DEFINITION. Bring-up and test: direct repair, memory self test, retraining, margining and loopback (R502–R507).
-/
namespace Sys2Proof.Machine

/-- A test request that does not meet its condition (R506, R507): ignored, and TEST_ERR.REFUSED set. -/
def State.refuseTest (s : State) : State := s.set Fld.TEST_ERR.REFUSED 1

/-- Whether a unit of stack t is owned, or a region lies in it (R506, R507). -/
def State.stackTaken (s : State) (t : Nat) : Bool :=
  (s.partUnits none ++ s.regionUnits none).any (fun r => r.stack == t && r.count != 0)

/-- The address of a row's granule: bank by its number in the stack (R204, R502). -/
def rowAddr (t bank row : Nat) : Nat :=
  let b := bank % 32
  t * stackSpan + row <<< 22 + (b / 16) <<< 21 + (bank / 32) <<< 16 + (b % 16) <<< 12

/-- The lines of a granule that now lie in a spare row: what the spare held, without error or poison; the valid bits and the
checksum stand (R504). -/
def State.freeGranule (s : State) (g : Nat) : State :=
  let lines := (upFrom (64 * g) 64).filter (fun ln => (s.granule g).valid.getLsbD (ln % 64))
  let s := lines.foldl (fun s ln =>
    { s with mem := smPoke s.mem (64 * ln) 64 (Config.freeLine s.free).toNat, free := s.free + 1 }) s
  let s : State := { s with ecc := smDrop s.ecc (64 * g) 64 }
  if s.granule g = Gran.empty then s else s.setGranule g { s.granule g with poison := 0 }

/-- A row of the checksum array that now lies in a spare: the checksums it holds are what the spare held (R504). -/
def State.freeSums (s : State) (t off : Nat) : State :=
  let lo := (t * stackSpan) / 4096 + (off - stackData) / 4
  (smRange s.gran lo 1024).foldl (fun s e =>
    let (c, s) := s.freeBelow (2 ^ 32)
    s.setGranule e.1 { e.2 with crc := BitVec.ofNat 32 c }) { s with csumBad := smDrop s.csumBad lo 1024 }

/-- GO of TEST_REP (R504). -/
def State.directRepair (s : State) (t : Nat) : State :=
  let row := s.get Fld.TEST_REP.ROW t
  let bank := 32 * s.get Fld.TEST_REP.PCH t + s.get Fld.TEST_REP.BANK t
  let spare := s.get Fld.TEST_REP.SPARE t
  let key := rowKey bank row
  if 24576 ≤ row then s
  else if (s.stack t).spareUsed key spare then s.set Fld.TEST_REP.RESULT 2 t
  else
    let copy := s.is Fld.TEST_REP.COPY t
    let s := (s.addRemap t key spare).set Fld.TEST_REP.RESULT 1 t
    if copy then s
    else
      match placeOf (rowAddr t bank row) with
      | .data _ _ => s.freeGranule (rowAddr t bank row / 4096)
      | .csum _ => s.freeSums t (rowAddr t bank row % stackSpan)
      | _ => s

/-- A write of TEST_REP (R504). -/
def State.repPut (s : State) (t w mask : Nat) : State :=
  let go := bit (w &&& mask) 63
  let s := s.plainWrite Reg.TEST_REP t 0 w mask
  let s := s.set Fld.TEST_REP.GO 0 t
  if go then s.directRepair t else s

/-- TEST_REPAIR (R504). -/
def execTestRepair (t : Fin 20) (v : Word) (s : State) : Host.Outcome State Fault Refusal :=
  occurs (s.serves (dieOfStack t)) s (s.repPut t v.toNat fullMask)

/-- In-stack bytes of a self test of n pseudo-channels (R507): ten passes for March C−; for another pattern the spec gives
no figure. -/
def State.bistBytes (s : State) (pattern n : Nat) : Nat × State :=
  if pattern = 0 then (10 * n * 3221225472, s) else s.freeBelow (2 ^ 40)

/-- A write of TEST_BIST (R507). A GO while a test of the stack runs is refused (DESIGN CHOICE: the spec does not say what it does;
log 23). -/
def State.bistPut (s : State) (t w mask : Nat) : State :=
  if bit (w &&& mask) 0 && (s.stackTaken t || s.is Fld.TEST_BIST.GO t) then s.refuseTest
  else
    let s := s.plainWrite Reg.TEST_BIST t 0 w mask
    let s := if s.get Fld.TEST_BIST.PATTERN t = 3 then s.set Fld.TEST_BIST.PATTERN 0 t else s
    if bit (w &&& mask) 0 then
      let s := ((s.set Fld.TEST_BSTAT.STATE 1 t).set Fld.TEST_BSTAT.FAILS 0 t).setWord Reg.TEST_BFIRST t 0 0
      let (n, s) := s.bistBytes (s.get Fld.TEST_BIST.PATTERN t) (setBitsOf (s.get Fld.TEST_BIST.PCH_MASK t) 32).length
      s.charge 17 t true true n
    else s

/-- TEST_BIST (R507). -/
def execTestBist (t : Fin 20) (v : Word) (s : State) : Host.Outcome State Fault Refusal :=
  occurs (s.serves (dieOfStack t)) s (s.bistPut t v.toNat fullMask)

/-- Whether an address lies in a tested pseudo-channel of stack t. -/
def bistHas (t mask a : Nat) : Bool := a / stackSpan == t && bit mask (pchOf (a % stackSpan))

/-- Everything the test touched unwritten (R283, R507). -/
def State.bistClear (s : State) (t mask : Nat) : State :=
  { s with
    mem := s.mem.filter (fun e => !bistHas t mask e.1)
    gran := s.gran.filter (fun e => !bistHas t mask (4096 * e.1))
    ecc := s.ecc.filter (fun e => !bistHas t mask (64 * e.1))
    metaFlip := s.metaFlip.filter (fun e => !bistHas t mask (64 * e.1))
    flipped := s.flipped.filter (fun e => !bistHas t mask (64 * e.1))
    csumBad := s.csumBad.filter (fun e => !bistHas t mask (4096 * e.1)) }

/-- The row of a line, as a key of its stack's remap table. -/
def lineRow (ln : Nat) : Nat :=
  let o := 64 * ln % stackSpan
  rowKey (32 * pchOf o + bankOf o) (rowOf o)

/-- A failing row remapped to a free spare of its bank, if it has one and the row is not remapped (R507). -/
def State.autoRepair (s : State) (t key : Nat) : State :=
  match (s.stack t).freeSpare key, smFind (s.stack t).remap key with
  | some x, none => s.addRemap t key x
  | _, _ => s

/-- BIST_DONE (R507): the lines that failed, by number. -/
def execBistDone (t : Fin 20) (fails : List Nat) (s : State) : Host.Outcome State Fault Refusal :=
  let mask := s.get Fld.TEST_BIST.PCH_MASK t
  let l := (fails.filter (fun ln => bistHas t mask (64 * ln))).foldl setInsert []
  let t' := t.val
  if !s.isUp (dieOfStack t) || !s.is Fld.TEST_BIST.GO t then ok s
  else
    let s := (s.bistClear t mask).set Fld.TEST_BIST.GO 0 t
    let s := (s.set Fld.TEST_BSTAT.STATE (if l.isEmpty then 2 else 3) t).bump Fld.TEST_BSTAT.FAILS l.length t
    let s := s.set Fld.TEST_BFIRST.LINE (nth 0 l 0) t
    let rows := (l.map lineRow).foldl setInsert []
    ok (if s.is Fld.TEST_BIST.AUTO t then rows.foldl (fun s k => s.autoRepair t' k) s else s)

/-- RETRY written (R505): every stack that gave up may train again at the next leap tick. -/
def State.trainRetry (s : State) : State :=
  let gave := setBitsOf (s.get Fld.TEST_TRAIN.GAVE_UP) 20
  let s := s.set Fld.TEST_TRAIN.GAVE_UP 0
  gave.foldl (fun s t => s.setStack t { s.stack t with trainTries := 0 }) s

/-- A write of TEST_TRAIN (R505). -/
def State.trainPut (s : State) (w mask : Nat) : State := if bit (w &&& mask) 63 then s.trainRetry else s

/-- TEST_TRAIN_RETRY (R505). -/
def execTestTrainRetry (v : Word) (s : State) : Host.Outcome State Fault Refusal :=
  occurs (s.serves 0) s (s.trainPut v.toNat fullMask)

/-- A write of TEST_MARGIN (R506): GO waits for the next leap tick. -/
def State.marginPut (s : State) (t w mask : Nat) : State := s.plainWrite Reg.TEST_MARGIN t 0 w mask

/-- TEST_MARGIN (R506). -/
def execTestMargin (t : Fin 20) (v : Word) (s : State) : Host.Outcome State Fault Refusal :=
  occurs (s.serves (dieOfStack t)) s (s.marginPut t v.toNat fullMask)

/-- Whether the inter-die link is in loopback, or margined in the leap tick that runs (R506). -/
def State.linkTested (s : State) : State :=
  { s with mod := { s.mod with idlTest := [0, 1].any (fun d => s.is Fld.TEST_IDL.LOOP d) || s.mod.margins.any (fun x => decide (20 ≤ x)) } }

/-- A write of TEST_IDL (R506): LOOP only within a leap tick; MARGIN waits for the next one. -/
def State.idlPut (s : State) (d w mask : Nat) : State :=
  let m := mergeMask mask w (s.word Reg.TEST_IDL d 0)
  if bit m 0 && !s.inLeap then s.refuseTest
  else
    let s := s.plainWrite Reg.TEST_IDL d 0 w mask
    let s := if bit m 0 then let (e, s) := s.freeBelow (2 ^ 32); s.set Fld.TEST_IDL.PRBS_ERR e d else s
    s.linkTested

/-- IDL_MARGIN (R506). -/
def execIdlMargin (d : Fin 2) (v : Word) (s : State) : Host.Outcome State Fault Refusal :=
  occurs (s.serves d) s (s.idlPut d v.toNat fullMask)

/-- IDL_LOOPBACK (R506). -/
def execIdlLoopback (d : Fin 2) (v : Word) (s : State) : Host.Outcome State Fault Refusal :=
  occurs (s.serves d) s (s.idlPut d v.toNat fullMask)

/-- A write of TEST_SLOOP (R506): LOOP only on a stack that nothing owns. -/
def State.sloopPut (s : State) (t w mask : Nat) : State :=
  let m := mergeMask mask w (s.word Reg.TEST_SLOOP t 0)
  if bit m 0 && s.stackTaken t then s.refuseTest
  else
    let s := s.plainWrite Reg.TEST_SLOOP t 0 w mask
    if bit m 0 then let (e, s) := s.freeBelow (2 ^ 32); s.set Fld.TEST_SLOOP.PRBS_ERR e t else s

/-- STACK_LOOPBACK (R506). -/
def execStackLoopback (t : Fin 20) (v : Word) (s : State) : Host.Outcome State Fault Refusal :=
  occurs (s.serves (dieOfStack t)) s (s.sloopPut t v.toNat fullMask)

/-- A write of TEST_ETH (R506): only while the port is disabled; LOOP 3 is written as 0. -/
def State.ethTestPut (s : State) (port w mask : Nat) : State :=
  let m := mergeMask mask w (s.word Reg.TEST_ETH port 0)
  if s.is Fld.PORT_CFG.EN port && (bits m 1 0 != 0 || bit m 4) then s.refuseTest
  else
    let s := s.plainWrite Reg.TEST_ETH port 0 w mask
    let s := if s.get Fld.TEST_ETH.LOOP port = 3 then s.set Fld.TEST_ETH.LOOP 0 port else s
    if s.is Fld.TEST_ETH.PRBS_EN port then let (e, s) := s.freeBelow (2 ^ 64); s.set Fld.TEST_ETH1.PRBS_ERR e port else s

/-- ETH_LOOPBACK (R506). -/
def execEthLoopback (port : Fin 4) (v : Word) (s : State) : Host.Outcome State Fault Refusal :=
  occurs (s.serves (if port.val < 2 then 0 else 1)) s (s.ethTestPut port v.toNat fullMask)

end Sys2Proof.Machine
end

