-- ==== Sys2Proof/Machine/Access.lean ====
section
/-!
DEFINITION. Accesses of the CSR window: what a write of each register does, what a read returns, who may make them, and the
core instructions CSRR and CSRW (R4–R8, R18, R26–R28, R92, R112, R297, R371, R374–R381).
-/
namespace Sys2Proof.Machine

/-- A field held to a range: a lower value is written as its least, a higher one as its greatest. -/
def State.holdTo (s : State) (f : Fld) (i j lo hi : Nat) : State := s.set f (clamp lo hi (s.get f i j)) i j

/-- A field outside a range written as a fixed value. -/
def State.holdElse (s : State) (f : Fld) (i j lo hi d : Nat) : State :=
  let v := s.get f i j
  if lo ≤ v && v ≤ hi then s else s.set f d i j

/-- A register after a plain write, its fields written as the Meaning column says for values outside their ranges. -/
def State.legalize (s : State) (r : Reg) (i j : Nat) : State :=
  if r.base = Reg.CORE_CFG.base then
    let d := s.get Fld.CORE_CFG.FTQ_DEPTH i
    if 8 < d || 192 < s.get Fld.CORE_CFG.FTQ_BASE i + d then s.set Fld.CORE_CFG.FTQ_DEPTH 0 i else s
  else if r.base = Reg.STK_CFG.base then
    let s := (s.holdElse Fld.STK_CFG.TREFI_10NS i j 195 390 390).holdTo Fld.STK_CFG.REF_POSTPONE_MAX i j 0 8
    let s := s.holdTo Fld.STK_CFG.HOT_ON_C i j 70 85
    (s.holdTo Fld.STK_CFG.HOT_OFF_C i j 0 (s.get Fld.STK_CFG.HOT_ON_C i - 2)).holdTo Fld.STK_CFG.ACT_THRESH_64 i j 16 255
  else if r.base = Reg.STK_PWR.base then s.holdTo Fld.STK_PWR.PWR_CAP i j 0 1024
  else if r.base = Reg.SL_LINE.base then s.holdTo Fld.SL_LINE.BUDGET i j 0 11520
  else if r.base = Reg.SL_HOSTW.base then s.holdTo Fld.SL_HOSTW.HOST_WEIGHT i j 1 1000
  else if r.base = Reg.RAKE_CFG.base then s.holdTo Fld.RAKE_CFG.DEBT_MAX i j 1 65535
  else if r.base = Reg.SV_CFG.base then
    let s := (s.holdTo Fld.SV_CFG.XOVER i j 1 255).holdElse Fld.SV_CFG.CHUNK i j 16 4096 512
    (s.holdTo Fld.SV_CFG.REQ_PER_STEP i j 1 255).holdTo Fld.SV_CFG.STARVE_STEPS i j 1 65535
  else if r.base = Reg.SV_SPEC.base then (s.holdTo Fld.SV_SPEC.LOW i j 1 255).holdTo Fld.SV_SPEC.PROBE i j 1 255
  else if r.base = Reg.SV_TABLE.base then s.holdElse Fld.SV_TABLE.CAP_LOG2 i j 6 16 6
  else if r.base = Reg.SV_REQCFG.base then s.holdElse Fld.SV_REQCFG.SIZE_LOG2 i j 4 15 4
  else if r.base = Reg.PART_IDLW.base then s.holdTo Fld.PART_IDLW.WEIGHT i j 1 1000
  else if r.base = Reg.PT_ACCT.base then s.holdTo Fld.PT_ACCT.EVERY i j 1 65535
  else if r.base = Reg.MB_CFG.base then s.holdElse Fld.MB_CFG.RCV i j 0 22 (bits (mbCfgReset i) 4 0)
  else if r.base = Reg.CXLC_CFG.base then s.holdTo Fld.CXLC_CFG.HDMA_W i j 1 1023
  else if r.base = Reg.ETH_CFG.base then s.holdTo Fld.ETH_CFG.FWD_W i j 1 1023
  else if r.base = Reg.PWR_CFG.base then
    ((s.holdTo Fld.PWR_CFG.CAP_W i j 200 450).holdTo Fld.PWR_CFG.FAST_W i j 450 520).holdTo Fld.PWR_CFG.AVG_TICKS i j 1 255
  else if r.base = Reg.OPP_LIM.base then s.holdTo Fld.OPP_LIM.CEIL i j (s.get Fld.OPP_LIM.FLOOR i) 7
  else if r.base = Reg.THERM_CFG.base then
    let s := ((s.holdTo Fld.THERM_CFG.DIE_THR_C i j 0 95).holdTo Fld.THERM_CFG.DIE_EMERG_C i j 0 103).holdTo Fld.THERM_CFG.DIE_OFF_C i j 0 110
    let s := ((s.holdTo Fld.THERM_CFG.STK_THR_C i j 0 88).holdTo Fld.THERM_CFG.STK_EMERG_C i j 0 92).holdTo Fld.THERM_CFG.STK_OFF_C i j 0 95
    ((s.holdTo Fld.THERM_CFG.HYST_C i j 2 15).holdTo Fld.THERM_CFG.RECOVER i j 1 15).holdTo Fld.THERM_CFG.GRACE_MS i j 8 32
  else if r.base = Reg.THERM_SCALE.base then s.holdTo Fld.THERM_SCALE.SCALE_MIN i j 32 256
  else if r.base = Reg.AGE_CFG.base then
    ((s.holdTo Fld.AGE_CFG.DRIFT_PPM i j 1 65535).holdTo Fld.AGE_CFG.WEAK_REPEAT i j 1 255).holdTo Fld.AGE_CFG.WEAK_TREFI i j 1 255
  else s

/-- A write with no action of its own: the access codes (R5), then the ranges; nothing of a locked field changes. -/
def State.rangedWrite (s : State) (r : Reg) (i j w mask : Nat) : State :=
  let t := s.plainWrite r i j w mask
  if s.locked r i then t else t.legalize r i j

/-- A write of MSIX_CTRL (R404): a mask bit that clears sends what the vector held. -/
def State.msixPut (s : State) (i w mask : Nat) : State :=
  let was := s.is Fld.MSIX_CTRL.MASK i
  let s := s.plainWrite Reg.MSIX_CTRL i 0 w mask
  if was && !s.is Fld.MSIX_CTRL.MASK i then s.unmask i else s

/-- The registers that a write acts on through an operation of its own, of the blocks up to SERVE. -/
def State.actWrite1 (s : State) (r : Reg) (i j w mask : Nat) : Option State :=
  let m := mergeMask mask w (s.word r i j)
  let v := w &&& mask
  if r.base = Reg.TICK_COUNT.base then
    some (if s.maySetCount then s.setCount m else s.set Fld.TICK_ERR.COUNT_REFUSED 1)
  else if r.base = Reg.TICK_PERIOD.base then some (if bits mask 16 0 = 0 then s else s.tickPeriodPut (bits m 16 0))
  else if r.base = Reg.TICK_DISC.base then some (s.tickDiscPut w mask)
  else if r.base = Reg.LEAP_AT.base then some (s.leapAtPut w mask)
  else if r.base = Reg.LEAP_CTRL.base then some (s.leapCtrlPut w mask)
  else if r.base = Reg.STEP_CFG.base then some (s.stepCfgPut i w mask)
  else if r.base = Reg.STEP_CTRL.base then some (s.stepCtrlPut i v)
  else if r.base = Reg.CORE_CTRL.base then some (s.coreCtrlPut i v)
  else if r.base = Reg.STK_FLIP_CTRL.base then some (s.flipWrite i w mask)
  else if r.base = Reg.SL_CFG.base then some (s.sluiceWrite i j m)
  else if r.base = Reg.ERR_LOG_CI.base then some (if bits mask 31 0 = 0 then s else s.errLogWrite m)
  else if r.base = Reg.ERR_VERIFY.base then some (s.errVerifyWrite w mask)
  else if r.base = Reg.ERR_REPAIR.base then some (s.errRepairWrite w mask)
  else if r.base = Reg.RAKE_CTRL.base then
    let s := s.plainWrite r i j w mask
    some (if bits v Fld.RAKE_CTRL.RESTART.hi Fld.RAKE_CTRL.RESTART.lo = 1 then s.setRakeNext i 0 else s)
  else if r.base = Reg.SV_CTRL.base then some (s.svCtrlPut i v)
  else none

/-- The same, of the PART, CXLC and ETH blocks. -/
def State.actWrite2 (s : State) (r : Reg) (i j w mask : Nat) : Option State :=
  let m := mergeMask mask w (s.word r i j)
  let v := w &&& mask
  if r.base = Reg.PT_CORES.base then some (if bits mask 11 0 = 0 then s else s.ptCoresPut i m)
  else if r.base = Reg.PT_SB.base then some (if bits mask 31 0 = 0 then s else s.ptSbPut i m)
  else if r.base = Reg.PT_REGIONS.base || r.base = Reg.PT_RANGE.base then some ((s.plainWrite r i j w mask).changeWritten i)
  else if r.base = Reg.PT_SHARE.base then some (s.sharePut i w mask)
  else if r.base = Reg.SEM_SIG.base then some (s.signal i (bits v 5 0) (bits v 63 32))
  else if r.base = Reg.REG_LOC.base then some (s.regionLocPut i false w mask)
  else if r.base = Reg.REG_MIR.base then some (s.regionLocPut i true w mask)
  else if r.base = Reg.REG_CTRL.base then some (s.regCtrlPut i v)
  else if r.base = Reg.BIAS_CMD.base then some (s.biasPut w mask)
  else if r.base = Reg.CH_CFG.base then some (s.chCfgPut i w mask)
  else if r.base = Reg.CH_TAIL.base then some (s.tailPut i w mask)
  else if r.base = Reg.MSIX_CTRL.base then some (s.msixPut i w mask)
  else if r.base = Reg.GRP_CFG.base then some (s.grpCfgPut i w mask)
  else if r.base = Reg.GRP_MAP.base then some (s.grpMapPut i j w mask)
  else if r.base = Reg.PORT_CFG.base then some (s.portCfgPut i w mask)
  else if r.base = Reg.GRP_RESOLVE.base then some (s.resolvePut i w mask)
  else none

/-- The same, of the THERM, AGE and TEST blocks, and of the ASSAY block, which no write changes (R18). -/
def State.actWrite3 (s : State) (r : Reg) (i w mask : Nat) : Option State :=
  let v := w &&& mask
  if r.base = Reg.THERM_CTRL.base then some (if bit v 0 then s.thermResume else s)
  else if r.base = Reg.AGE_CTRL.base then some (if bit v 0 then s.claimReckoning 3 else s)
  else if Reg.ASY_STATE.base ≤ r.base && r.base < Reg.SEC_STATE.base then some s
  else if r.base = Reg.TEST_TRAIN.base then some (s.trainPut w mask)
  else if r.base = Reg.TEST_IDL.base then some (s.idlPut i w mask)
  else if r.base = Reg.TEST_ETH.base then some (s.ethTestPut i w mask)
  else if r.base = Reg.TEST_BIST.base then some (s.bistPut i w mask)
  else if r.base = Reg.TEST_SLOOP.base then some (s.sloopPut i w mask)
  else if r.base = Reg.TEST_MARGIN.base then some (s.marginPut i w mask)
  else if r.base = Reg.TEST_REP.base then some (s.repPut i w mask)
  else none

/-- The same, of the MBX block, where the writer's identity counts (R374–R379). -/
def State.actWriteBox (s : State) (who : Nat) (r : Reg) (i j w mask : Nat) : Option State :=
  let m := mergeMask mask w (s.word r i j)
  if r.base = Reg.MB_DATA.base then some (s.boxWrite who i j m)
  else if r.base = Reg.S_CTRL.base then some (s.sctrlPut who i w mask)
  else if r.base = Reg.DB_PEND.base then some (s.pendPut i w mask)
  else if r.base = Reg.DB_RING.base then some (s.ringPutDoor i (w &&& mask))
  else if r.base = Reg.DB_MASK.base then some (s.maskPut i w mask)
  else if r.base = Reg.DB_CFG.base then some (if i = 0 then s.plainWrite r i j w mask else s)
  else none

/-- What a write of a register does, by a sender identity, under a byte mask. -/
def State.regWrite (s : State) (who : Nat) (r : Reg) (i j w mask : Nat) : State :=
  match s.actWriteBox who r i j w mask, s.actWrite1 r i j w mask, s.actWrite2 r i j w mask, s.actWrite3 r i w mask with
  | some t, _, _, _ => t
  | none, some t, _, _ => t
  | none, none, some t, _ => t
  | none, none, none, some t => t
  | none, none, none, none => s.rangedWrite r i j w mask

/-- CORE_STATUS.STATE of a core. -/
def State.coreState (s : State) (c : Nat) : Nat :=
  if !s.isUp (dieOfCore c) then 6
  else match (s.core c).run with
  | .halted => 5
  | .faulted => 4
  | .tickWait => 3
  | .running | .ended => 2
  | .idle => if s.is Fld.CORE_STATUS.ASSIGNED c then 1 else 0

/-- Entries of an engine's queue in core c. -/
def CoreSt.entries (k : CoreSt) (e : Eng) : Nat := (k.queue.filter (fun q => q.eng = e)).length

/-- CORE_STATUS as it reads. -/
def State.statusWord (s : State) (c w : Nat) : Nat :=
  let k := s.core c
  let w := setBits w 2 0 (s.coreState c)
  let w := setBits (setBits w 19 16 (k.entries .mxu)) 29 24 (k.entries .ve)
  let w := setBits (setBits w 37 32 (k.entries .xe)) 44 40 (k.entries .pip)
  setBits w 51 48 k.ftq.length

/-- CORE_PC as it reads: the instruction the scalar unit will issue next, and the item of a block that runs. -/
def State.pcWord (s : State) (c : Nat) : Nat :=
  let k := s.core c
  if k.run = .idle then 0 else bits k.pc 41 0 + (k.item % 1024) <<< 48

/-- SL_LEVEL as it reads: LEVEL in pJ rounded down, signed, and DEFER_LEFT. -/
def State.levelWord (s : State) (t sl : Nat) : Nat :=
  let k := s.stack t
  ofSigned 32 (nth 0 k.level sl / 10240) + (Nat.min 0xFFFF (nth 0 k.deferLeft sl)) <<< 32

/-- COLL_STAT as it reads: phases started and waiting on a die. -/
def State.collWord (s : State) (d : Nat) : Nat :=
  let mine := s.colls.filter (fun x => x.die == d)
  let run := (mine.filter (fun x => x.started)).length
  Nat.min 15 run + (Nat.min 31 (mine.length - run)) <<< 8

/-- Whether the bulk clear of a stack runs (R287): from power-up or a cold reset until it is done; STATE then reads TRAINING. -/
def State.clearing (s : State) (t : Nat) : Bool :=
  s.get Fld.STK_STATUS.STATE t == 0 && s.mod.power = .on && s.isUp 0 && s.isUp 1 && !s.link.active

/-- A register's word as it stands, with the fields that follow hidden state filled in. -/
def State.liveWord (s : State) (r : Reg) (i j : Nat) : Nat :=
  let w := s.word r i j
  if r.base = Reg.CORE_STATUS.base then s.statusWord i w
  else if r.base = Reg.CORE_PC.base then s.pcWord i
  else if r.base = Reg.STK_STATUS.base then
    setBits (if s.clearing i then setBits w 2 0 1 else w) 19 16 (Nat.min 15 (maxList ((s.stack i).owed.map Prod.snd)))
  else if r.base = Reg.SL_LINE.base then setBits w 45 32 s.lineUsed
  else if r.base = Reg.SL_LEVEL.base then s.levelWord i j
  else if r.base = Reg.COLL_STAT.base then s.collWord i
  else if r.base = Reg.BIAS_QUERY.base then setBits w 63 63 (b2n (s.bias (bits w 19 0) != 0))
  else if r.base = Reg.TEST_TRAIN.base then
    setBits w 19 0 (sumList (((upFrom 0 20).filter (fun t => s.get Fld.STK_STATUS.STATE t == 4)).map (fun t => 2 ^ t)))
  else w

/-- What a read of a register returns, and what it clears, under a byte mask. -/
def State.regRead (s : State) (r : Reg) (i j mask : Nat) : Nat × State :=
  let v := readableWord r (s.liveWord r i j) &&& mask
  if r.base = Reg.R_CTRL.base then (v, if mask % 2 = 1 then s.takeBox i else s)
  else (v, s.setWord r i j (clearedWord r (s.word r i j) mask))

/-- Whether thermal hold leaves a register served (R446): the TICK global registers, THERM, the MSI-X table. -/
def holdServes (r : Reg) : Bool :=
  decide (r.base < 0x48) || (decide (Reg.THERM_CFG.base ≤ r.base) && decide (r.base < Reg.AGE_CFG.base)) ||
    r.base == Reg.MSIX_ADDR.base || r.base == Reg.MSIX_CTRL.base || r.base == Reg.MSIX_PBA.base

/-- The die of a window offset at which no register lies (R26, R28). -/
def offsetDie (o : Nat) : Nat :=
  if 0x2000000 ≤ o && o < 0x20C0000 then dieOfCore ((o - 0x2000000) / 0x10000)
  else if 0x1000000 ≤ o && o < 0x1140000 then dieOfStack ((o - 0x1000000) / 0x10000)
  else if 0x301000 ≤ o && o < 0x315000 then dieOfStack ((o - 0x301000) / 0x1000)
  else if 0x501000 ≤ o && o < 0x502400 then dieOfStack ((o - 0x501000) / 0x100)
  else if 0xC10000 ≤ o && o < 0xC50000 then (if o < 0xC30000 then 0 else 1)
  else if 0xC80000 ≤ o && o < 0xCA0000 then (if o < 0xC90000 then 0 else 1)
  else 0

/-- Whether the block at a window offset answers (R28, R446, R478). -/
def State.csrUp (s : State) (o : Nat) : Bool :=
  match regAt o with
  | some (r, i, _) => s.serves (r.homeDie i) || (holdServes r && s.is Fld.THERM_STAT.HOLD && nth false s.dieUp 0 && s.mod.power.clocked)
  | none => s.serves (offsetDie o)

/-- The mask of an access (R7). -/
def accMask : AccessWidth → Nat
  | .whole => 2 ^ 64 - 1
  | .low => 2 ^ 32 - 1
  | .high => 2 ^ 64 - 2 ^ 32

/-- The value of an access in its place in the register: a 32-bit access carries it in the low half. -/
def accPlace : AccessWidth → Nat → Nat
  | .high, v => (v % 2 ^ 32) <<< 32
  | _, v => v

/-- The value a 32-bit read returns. -/
def accBack : AccessWidth → Nat → Nat
  | .high, v => v >>> 32
  | _, v => v

/-- Whether a 32-bit access is refused (R7). -/
def halfRefused (o : Nat) (width : AccessWidth) : Bool :=
  match regAt o, width with
  | _, .whole => false
  | some (r, _, _), _ => r.snapshot
  | none, _ => false

/-- A write of the window by an identity, from outside the cores (R7, R26, R28): none is an error response. -/
def State.windowWrite (s : State) (who o v : Nat) (width : AccessWidth) : Option State :=
  if !s.csrUp o || halfRefused o width then none
  else
    match regAt o with
    | some (r, i, j) => some (s.regWrite who r i j (accPlace width v) (accMask width))
    | none => some s

/-- A read of the window (R7, R26, R28): none is an error response. -/
def State.windowRead (s : State) (o : Nat) (width : AccessWidth) : Option (Nat × State) :=
  if !s.csrUp o || halfRefused o width then none
  else
    match regAt o with
    | some (r, i, j) => let (v, s) := s.regRead r i j (accMask width); some (accBack width v, s)
    | none => some (0, s)

/-- Whether an identity's GO or ring meets a domain that is down, which answers with an error (R383). -/
def State.ringDown (s : State) (who o w : Nat) : Bool :=
  match regAt o with
  | some (r, i, _) =>
    (r.base == Reg.S_CTRL.base && bit w 8 && s.rcvDown (s.get Fld.MB_CFG.RCV i) && (s.ownBox who i).isSome) ||
      (r.base == Reg.DB_RING.base && s.rcvDown i)
  | none => false

/-- Whether the window answers the host: not while the boot ROM has halted (R478). -/
def State.windowOpen (s : State) : Bool := s.get Fld.SEC_STATE.STATE != 3

/-- REGISTER_WRITE (R4–R7, R26, R28): a write by the host. -/
def execRegisterWrite (off : BitVec 28) (v : Word) (width : AccessWidth) (s : State) : Host.Outcome State Fault Refusal :=
  match s.windowOpen, s.windowWrite (ident clHost 0) off.toNat v.toNat width with
  | true, some t =>
    ok (t.reply (if s.ringDown (ident clHost 0) off.toNat (accPlace width v.toNat &&& accMask width) then .error else .done))
  | _, _ => ok (s.reply .error)

/-- READ_CLEAR_READ (R5, R7, R26, R28): a read by the host; its RC fields clear. -/
def execReadClearRead (off : BitVec 28) (width : AccessWidth) (s : State) : Host.Outcome State Fault Refusal :=
  match s.windowOpen, s.windowRead off.toNat width with
  | true, some (v, t) => ok (t.reply (.value v))
  | _, _ => ok (s.reply .error)

/-- Whether a core of partition p may access the MBX block so (R381). -/
def State.boxGrant (s : State) (who p o w : Nat) (write : Bool) : Bool :=
  match regAt o with
  | some (r, i, _) =>
    if r.base = Reg.MB_DATA.base || r.base = Reg.S_STAT.base then s.maySend who i
    else if r.base = Reg.S_CTRL.base then s.maySend who i
    else if r.base = Reg.MB_RDATA.base || r.base = Reg.R_PEEK.base || r.base = Reg.R_CTRL.base then !write && s.mayTake who i
    else if r.base = Reg.DB_RING.base then if i = 1 + p then true else write && i == 0 && s.mayRing who 0 (bits w 31 0) && bits w 63 32 == 0
    else if r.base = Reg.DB_PEND.base || r.base = Reg.DB_MASK.base || r.base = Reg.DB_CFG.base then i == 1 + p
    else false
  | none => false

/-- Whether core c of partition p may access a window offset (R92, R381). -/
def State.coreGrant (s : State) (c p o w : Nat) (write : Bool) : Bool :=
  let own := 0x2000000 + c * 0x10000
  if own ≤ o && o < own + 0x10000 then
    o != own + 0x10 && o != own + 0x18 && !(write && o == own + 0x20 && bit w 1)
  else if o < 0x48 then !write
  else if 0x1000 + p * 0x100 ≤ o && o < 0x1000 + (p + 1) * 0x100 then !write
  else s.boxGrant (ident clCore (p <<< 8 + c)) p o w write

/-- The address FAULT_ADDR takes for a window offset (R90, R112). -/
def csrAddr (o : Nat) : Nat := 0x3F000000000 + o

/-- The offset of a CSR instruction (R112): OFF28 added to RS1 modulo 2^28. -/
def State.csrOff (s : State) (c w : Nat) : Nat := (s.x c (wRS1 w) + bits w 27 0) % 2 ^ 28

/-- The checks of R112 in order. -/
def State.csrCheck (s : State) (c p o w : Nat) (write : Bool) : Option CFault :=
  if o % 8 ≠ 0 then some ⟨cfMisaligned, csrAddr o, none⟩
  else if !s.coreGrant c p o w write then some ⟨cfCsrDenied, csrAddr o, none⟩
  else if !s.csrUp o then some ⟨cfDomainDown, csrAddr o, none⟩
  else none

/-- CSRR (R92, R112, R113). -/
def execAxCsrr (c : Fin 12) (s : State) :=
  s.axRow c 0x58 (fun w => allZero [wRS2 w, bits w 40 28]) (fun p w s =>
    let o := s.csrOff c w
    match s.csrCheck c p o 0 false with
    | some e => s.faultScalar c e
    | none =>
      match regAt o with
      | some (r, i, j) => let (v, s) := s.regRead r i j fullMask; (s.setX c (wRD w) v).next c
      | none => (s.setX c (wRD w) 0).next c)

/-- CSRW (R92, R112, R113). -/
def execAxCsrw (c : Fin 12) (s : State) :=
  s.axRow c 0x59 (fun w => allZero [wRD w, bits w 40 28]) (fun p w s =>
    let o := s.csrOff c w
    let v := s.x c (wRS2 w)
    match s.csrCheck c p o v true with
    | some e => s.faultScalar c e
    | none =>
      match regAt o with
      | some (r, i, j) =>
        let who := ident clCore (p <<< 8 + c.val)
        let t := s.regWrite who r i j v fullMask
        if s.ringDown who o v then t.faultScalar c ⟨cfDomainDown, csrAddr o, none⟩ else t.next c
      | none => s.next c)

end Sys2Proof.Machine
end

