-- ==== Sys2Proof/Machine/Sec.lean ====
section
/-!
DEFINITION. The security core's commands, firmware update and the debug chain (R476–R487).
-/
namespace Sys2Proof.Machine

/-- A command of the security core (R483): taken in order of delivery, denied to senders of other classes, else carried out
with its words. -/
def State.secCommand (s : State) (code : Nat) (f : (Nat → Nat) → State → State) : Host.Outcome State Fault Refusal :=
  let st := s.get Fld.SEC_STATE.STATE
  match s.command rcvSec secCodes code, s.isUp 0 && (st == 1 || st == 2) with
  | some m, true =>
    let ws := s.boxWords m
    let may := s.senderMay m
    let s := s.takeBox m
    if may then ok (f (nth 0 ws) s) else ok (s.secReply (nth 0 ws 0) stDenied [])
  | _, _ => ok s

/-- The body of a quote (R484). -/
def State.quoteBody (s : State) (nonce : List Nat) (mask : Nat) : List Byte :=
  bytesOf 8 (0x51544E46 + 1 <<< 32) ++ nonce.flatMap (bytesOf 8) ++ bytesOf 8 (mask + s.get Fld.SEC_DBG.ATTACHED <<< 16) ++
    bytesOf 8 s.now ++ bytesOf 16 s.sec.devId ++ List.replicate 56 0#8 ++
    (upFrom 0 16).flatMap (fun i => if bit mask i then s.mreg i else List.replicate 64 0#8)

/-- A quote written (R484). -/
def State.writeQuote (s : State) (nonce : List Nat) (mask : Nat) : State :=
  let body := s.quoteBody nonce mask
  let sig := (Config.signature body ++ List.replicate 3309 0#8).take 3309
  (s.putWords Reg.SEC_QUOTE none (body ++ sig ++ List.replicate (8192 - 1152 - 3309) 0#8)).count Fld.SEC_QSEQ.SEQ 1

/-- QUOTE (R481, R483, R484). -/
def execQuote (s : State) : Host.Outcome State Fault Refusal :=
  s.secCommand 0x0101 (fun w s =>
    if s.is Fld.SEC_STATE.ID_OK then (s.writeQuote [w 1, w 2, w 3, w 4] (bits (w 5) 15 0)).secReply (w 0) stOk []
    else s.secReply (w 0) stNoId [])

/-- EXTEND (R482, R483): MREG14 with event code 0x0E. -/
def execExtend (s : State) : Host.Outcome State Fault Refusal :=
  s.secCommand 0x0103 (fun w s =>
    (s.extend 14 0x0E ((upFrom 1 8).flatMap (fun i => bytesOf 8 (w i)))).secReply (w 0) stOk [])

/-- Whether a STAGE or an activation is in progress (R485). -/
def State.secBusy (s : State) : Bool := s.sec.stage.isSome || s.sec.upd.isSome

/-- Whether bytes lie in stack units that no partition owns and no region holds (R485). -/
def State.stageable (s : State) (a n : Nat) : Bool :=
  let t := a / stackSpan
  let o := a % stackSpan
  let units := upFrom (o / 0x200000) ((o + n - 1) / 0x200000 - o / 0x200000 + 1)
  let taken := s.partUnits none ++ s.regionUnits none
  decide (t < 20) && decide (o + n ≤ stackData) && units.all (fun u => !rangesHave taken t u)

/-- The slot of a component that does not run (SEC_SLOT.ACTIVE): its index among the slots. -/
def State.idleSlot (s : State) (c : Nat) : Nat := 2 * c + b2n (!bit (s.get Fld.SEC_SLOT.ACTIVE) c)

/-- A STAGE or an activation that fails: SEC_UPD, and the SEC_ERR flag. -/
def State.updFail (s : State) (c : Nat) (f : Fld) : State :=
  ((s.set Fld.SEC_UPD.COMPONENT c).set Fld.SEC_UPD.RESULT 4).set f 1

/-- STAGE (R476, R485): head is what the image's header says and whether its signature verifies. -/
def execStage (head : ImageHead) (s : State) : Host.Outcome State Fault Refusal :=
  s.secCommand 0x0201 (fun w s =>
    let a := w 1
    let n := w 2
    let c := w 3
    if s.secBusy then s.secReply (w 0) stBusy []
    else if 0x800000 < n || 5 < c || !s.stageable a n then s.secReply (w 0) stBadArg []
    else
      let (v, bad, s) := s.readBytes ⟨.sc 0, none⟩ a n
      if bad.isSome || !s.stackUp (a / stackSpan) || !head.good || head.comp.toNat != c then (s.updFail c Fld.SEC_ERR.UPDATE_FAIL).secReply (w 0) stVerifyFail []
      else if !s.flashOk then (s.updFail c Fld.SEC_ERR.FLASH_TEMP).secReply (w 0) stFlashTemp []
      else
        let x : Image := ⟨head.version.toNat, true, ofBytes (shake256 (bytesOf n v) 64)⟩
        { s.set Fld.SEC_UPD.COMPONENT c with sec := { s.sec with stage := some ⟨w 0, c, x⟩ } })

/-- STAGE_DONE (R485): the slot is programmed, the reply sent. -/
def execStageDone (s : State) : Host.Outcome State Fault Refusal :=
  match s.sec.stage, s.isUp 0 with
  | some r, true =>
    let f := s.sec.flash
    let s : State := { s with sec := { s.sec with stage := none, flash := { f with slots := setNth f.slots (s.idleSlot r.comp) (some r.image) } } }
    let s := s.set Fld.SEC_UPD.RESULT 1
    let s := s.set Fld.SEC_SLOT.FAILED (s.get Fld.SEC_SLOT.FAILED &&& (63 - 2 ^ r.comp))
    ok (s.secReply r.tag stOk [])
  | _, _ => ok s

/-- Milliseconds a component's restart takes in a leap tick (R477), with the drain of at most 1 ms before it (R486). -/
def restartMs (c : Nat) : Nat := 1 + nth 0 [0, 3, 3, 2, 2, 1] c

/-- The image an activation would start: the idle slot's, if it verifies and is not marked failed. -/
def State.newImage (s : State) (c : Nat) : Option Image :=
  if bit (s.get Fld.SEC_SLOT.FAILED) c then none else (nth none s.sec.flash.slots (s.idleSlot c)).filter (fun x => x.good)

/-- ACTIVATE (R477, R486): a leap tick claimed with REASON 4. -/
def execActivate (s : State) : Host.Outcome State Fault Refusal :=
  s.secCommand 0x0202 (fun w s =>
    let c := w 1
    if 5 < c then s.secReply (w 0) stBadArg []
    else if s.secBusy then s.secReply (w 0) stBusy []
    else
      match s.newImage c with
      | none => (s.updFail c Fld.SEC_ERR.UPDATE_FAIL).secReply (w 0) stVerifyFail []
      | some _ =>
        let s := s.set Fld.SEC_UPD.COMPONENT c
        if c = 0 then s.secReply (w 0) stOk []
        else
          let s : State := { s with sec := { s.sec with upd := some ⟨c, 0, 0⟩ } }
          (s.claimLeap 4 (ceilDiv (restartMs c * 1000000) s.periodNs)).secReply (w 0) stOk [])

/-- COMPONENT_RESTART (R486): the drain begins in the leap tick claimed for it. -/
def execComponentRestart (comp : Fin 6) (s : State) : Host.Outcome State Fault Refusal :=
  match s.sec.upd with
  | some u =>
    if u.comp == comp.val && u.phase == 0 && s.inLeap && s.tick.claimed && s.tick.work.contains 4 && s.isUp 0 then
      ok (({ s with sec := { s.sec with upd := some { u with phase := 1 } } } : State).set Fld.SEC_STATE.STATE 2)
    else ok s
  | none => ok s

/-- COMPONENT_DRAIN_DONE (R486): DB6 rings, and the component is reset. -/
def execComponentDrainDone (comp : Fin 6) (s : State) : Host.Outcome State Fault Refusal :=
  match s.sec.upd with
  | some u =>
    if u.comp == comp.val && u.phase == 1 && s.isUp 0 then
      ok (({ s with sec := { s.sec with upd := some { u with phase := 3, began := s.now } } } : State).ringHost 6)
    else ok s
  | none => ok s

/-- An image of component c runs after its restart (R482, R486): MREG12 extended, the links retrained under new PHY engines
(R54). -/
def State.compRuns (s : State) (c : Nat) (x : Image) : State :=
  let s := (s.extend 12 c (bytesOf 64 x.digest)).set Fld.SEC_VER.VERSION x.version c
  let s : State := { s with sec := { s.sec with upd := none, loaded := setNth s.sec.loaded c true } }
  let s := s.set Fld.SEC_STATE.STATE 1
  let s := if c = 3 || c = 4 then s.reloadPower (c - 3) else s
  let work := setErase s.tick.work 4
  if c = 5 then
    let s := (upFrom 0 20).foldl (fun s t => if s.get Fld.STK_STATUS.STATE t == 2 then s.set Fld.STK_STATUS.STATE 1 t else s) s
    let ports := (upFrom 0 4).filter (fun p => s.get Fld.PORT_STAT.UP p != 0)
    let s := ports.foldl (fun s p => s.portTrains p) s
    { s with
      net := { s.net with retrain := ports.foldl setInsert s.net.retrain }
      mod := { s.mod with idl := if s.runs 1 then .training else s.mod.idl }, tick := { s.tick with work := setInsert work 1 } }
  else { s with tick := { s.tick with work := work } }

/-- NEW_IMAGE_RUNNING (R486): the idle slot becomes the active one. -/
def execNewImageRunning (comp : Fin 6) (s : State) : Host.Outcome State Fault Refusal :=
  match s.sec.upd, s.newImage comp with
  | some u, some x =>
    if u.comp == comp.val && u.phase == 3 && s.isUp 0 && decide (s.now ≤ u.began + 10000000) then
      let a := s.get Fld.SEC_SLOT.ACTIVE
      let s := (s.set Fld.SEC_SLOT.ACTIVE (setBits a comp comp (b2n (!bit a comp)))).set Fld.SEC_UPD.RESULT 2
      ok (s.compRuns comp x)
    else ok s
  | _, _ => ok s

/-- The previous image started again (R486): REVERTED, the new slot marked failed. -/
def State.revert (s : State) (c : Nat) : State :=
  let s := (s.set Fld.SEC_SLOT.FAILED (s.get Fld.SEC_SLOT.FAILED ||| 2 ^ c)).set Fld.SEC_UPD.RESULT 3
  let s := s.set Fld.SEC_ERR.UPDATE_FAIL 1
  let old := nth none s.sec.flash.slots (2 * c + b2n (bit (s.get Fld.SEC_SLOT.ACTIVE) c))
  match old with
  | some x => s.compRuns c x
  | none => s

/-- NEW_IMAGE_TIMEOUT (R486): 10 ms after the reset. -/
def execNewImageTimeout (comp : Fin 6) (s : State) : Host.Outcome State Fault Refusal :=
  match s.sec.upd with
  | some u =>
    if u.comp == comp.val && u.phase == 3 && s.isUp 0 then
      s.dueAt (u.began + 10000000) (fun s => s.revert comp)
    else ok s
  | none => ok s

/-- The status of a window access made for a command, and its value: BAD_ARG for an offset outside the window or an error
response. -/
def accessStatus (r : Option (Nat × State)) (s : State) : Nat × Nat × State :=
  match r with
  | some (v, t) => (stOk, v, t)
  | none => (stBadArg, 0, s)

/-- Whether a word is an offset of a register's place in the window. -/
def windowOffset (o : Nat) : Bool := decide (o < 2 ^ 28) && o % 8 == 0

/-- CSR_READ (R483): with the host's access. -/
def execCsrRead (s : State) : Host.Outcome State Fault Refusal :=
  s.secCommand 0x0301 (fun w s =>
    let (st, v, s) := accessStatus (if windowOffset (w 1) then s.windowRead (w 1) .whole else none) s
    s.secReply (w 0) st [v])

/-- CSR_WRITE (R483): with the host's access. -/
def execCsrWrite (s : State) : Host.Outcome State Fault Refusal :=
  s.secCommand 0x0302 (fun w s =>
    let r := if windowOffset (w 1) then (s.windowWrite (ident clHost 0) (w 1) (w 2) .whole).map (fun t => (0, t)) else none
    let (st, _, s) := accessStatus r s
    s.secReply (w 0) st [])

/-- DEBUG_ATTACH (R487): chain 0 leaves bypass. -/
def execDebugAttach (s : State) : Host.Outcome State Fault Refusal :=
  occurs (nth false s.dieUp 0 && s.mod.power.clocked && !s.is Fld.SEC_DBG.ACTIVE) s
    ((((s.set Fld.SEC_DBG.ATTACHED 1).set Fld.SEC_DBG.ACTIVE 1).bump Fld.SEC_DBG.ATTACH_COUNT 1).extendOpen 15)

/-- DEBUG_HALT (R487): a core halted through chain 0. -/
def execDebugHalt (c : Fin 12) (s : State) : Host.Outcome State Fault Refusal :=
  occurs (s.is Fld.SEC_DBG.ACTIVE && s.isUp (dieOfCore c)) s (s.setCore c { s.core c with run := .halted })

/-- DEBUG_DETACH (R487): chain 0 returns to bypass; halted cores are let go, idle. -/
def execDebugDetach (s : State) : Host.Outcome State Fault Refusal :=
  let t := s.set Fld.SEC_DBG.ACTIVE 0
  occurs (s.is Fld.SEC_DBG.ACTIVE) s
    { t with cores := t.cores.map (fun k => if k.run = .halted then { k with run := .idle } else k) }

end Sys2Proof.Machine
end

