-- ==== Sys2Proof/Machine/Leap.lean ====
section
/-!
DEFINITION. The leap tick: its begin with the changes that wait for it, the work placed in it, and its end
(R31, R32, R51–R54, R452, R505, R506).
-/
namespace Sys2Proof.Machine

/-- Stacks that are DOWN and not given up train in the leap tick (R505). -/
def State.beginTraining (s : State) : State :=
  let l := (upFrom 0 20).filter (fun t => s.get Fld.STK_STATUS.STATE t == 4 && s.isUp (dieOfStack t) &&
    !bit (s.get Fld.TEST_TRAIN.GAVE_UP) t && s.stacksTrain)
  let s := l.foldl (fun s t => s.set Fld.STK_STATUS.STATE 1 t) s
  if l.isEmpty then s else { s with tick := { s.tick with work := setInsert s.tick.work 1 } }

/-- Some of a list, a free choice for each. -/
def State.freePick (s : State) : List Nat → List Nat × State
  | [] => ([], s)
  | x :: l =>
    let (b, s) := s.freeChoice
    let (r, s) := s.freePick l
    (if b then x :: r else r, s)

/-- The running ports and the inter-die link that retrain in the leap tick (R54, R409): ports whose breakout was changed and a
link that is down do; which others do is free, as the spec does not say when one has to. -/
def State.beginLinks (s : State) : State :=
  let run := (upFrom 0 4).filter (fun p => s.get Fld.PORT_STAT.UP p != 0 && s.isUp (dieOfPort p))
  let must := run.filter (fun p => s.get Fld.PORT_CFG.BREAKOUT p != s.breakout p)
  let (may, s) := s.freePick (run.filter (fun p => !must.contains p))
  let ports := must ++ may
  let s := ports.foldl (fun s p => s.portTrains p) s
  let (l, s) := if !s.runs 1 then ([], s) else if s.mod.idl = .up then s.freePick [1] else ([1], s)
  let s : State := { s with net := { s.net with retrain := ports }, mod := { s.mod with idl := if l.isEmpty then s.mod.idl else .training } }
  if ports.isEmpty && l.isEmpty then s else { s with tick := { s.tick with work := setInsert s.tick.work 1 } }

/-- Whether a retraining of a port or of the inter-die link is unfinished (R54). -/
def State.linksTrain (s : State) : Bool :=
  s.net.retrain.any (fun p => s.get Fld.PORT_STAT.TRAINING p != 0) || s.mod.idl == .training

/-- Links that have trained by now, a free choice for each (R54). -/
def State.linksTrained (s : State) : State :=
  let (done, s) := s.freePick (s.net.retrain.filter (fun p => s.get Fld.PORT_STAT.TRAINING p != 0))
  let s := done.foldl (fun s p => (s.set Fld.PORT_STAT.UP (2 ^ sublinks (s.breakout p) - 1) p).set Fld.PORT_STAT.TRAINING 0 p) s
  let (l, s) := if s.mod.idl = .training then s.freePick [1] else ([], s)
  if l.isEmpty then s else { s with mod := { s.mod with idl := .up } }

/-- Links whose retraining is unfinished as the leap tick ends are left down (R54). -/
def State.failLinks (s : State) : State :=
  let left := s.net.retrain.filter (fun p => s.get Fld.PORT_STAT.TRAINING p != 0)
  let s := left.foldl (fun s p => (s.set Fld.PORT_STAT.TRAINING 0 p).set Fld.ETH_ERR.LINK_DOWN 1) s
  { s with net := { s.net with retrain := [] }, mod := { s.mod with idl := if s.mod.idl = .training then .down else s.mod.idl } }

/-- Margining asked for begins (R506). -/
def State.beginMargins (s : State) : State :=
  let l := (upFrom 0 20).filter (fun t => s.is Fld.TEST_MARGIN.GO t && s.isUp (dieOfStack t)) ++
    ([0, 1].filter (fun d => s.is Fld.TEST_IDL.MARGIN d)).map (20 + ·)
  ({ s with mod := { s.mod with margins := l } } : State).linkTested

/-- The changes of count and period that wait for a leap tick act (R31, R32). -/
def State.takeWaiting (s : State) : State :=
  let k := s.tick
  let s : State := { s with tick := { k with pendPeriod := none, pendStep := none, leapNs := 0, slew := if k.pendStep.isSome then 0 else k.slew } }
  let s := match k.pendStep with
    | some _ => s.setCount (ofSigned 64 ((s.now : Int) + k.slew))
    | none => s
  match k.pendPeriod with
  | some us => s.takePeriod us
  | none => s

/-- The leap tick begins. -/
def State.beginLeap (s : State) : State :=
  ((s.set Fld.LEAP_CTRL.STATE leapActive).takeWaiting).retryLog.beginTraining.beginLinks.beginMargins.beginReckoning

/-- LEAP_TICK_BEGIN (R31, R32, R52): at the boundary that opens LEAP_AT. -/
def execLeapTickBegin (s : State) : Host.Outcome State Fault Refusal :=
  occurs (s.get Fld.LEAP_CTRL.STATE == leapScheduled && s.atBoundary && decide (s.get Fld.LEAP_AT.AT ≤ s.btick)) s s.beginLeap

/-- Stacks in training. -/
def State.training (s : State) : List Nat := (upFrom 0 20).filter (fun t => s.get Fld.STK_STATUS.STATE t == 1)

/-- Training that has finished by now, a free choice for each stack: the stack is UP (R54). -/
def State.trained (s : State) : List Nat → State
  | [] => s
  | t :: l =>
    let (b, s) := s.freeChoice
    let s := if b then let s := s.stackRuns t; s.setStack t { s.stack t with trainTries := 0 } else s
    s.trained l

/-- Whether a component restart of this leap tick is unfinished (R54). -/
def State.restarting (s : State) : Bool :=
  match s.sec.upd with
  | some u => decide (0 < u.phase) || (s.tick.claimed && s.tick.work.contains 4)
  | none => false

/-- A stack that did not train (R54, R505): DOWN; the third failure in a row gives it up. -/
def State.failTrain (s : State) (t : Nat) : State :=
  let k := s.stack t
  let s := (s.set Fld.STK_STATUS.STATE 4 t).setStack t { k with trainTries := k.trainTries + 1 }
  if 3 ≤ k.trainTries + 1 then s.set Fld.TEST_TRAIN.GAVE_UP (s.get Fld.TEST_TRAIN.GAVE_UP ||| 2 ^ t) else s

/-- Margining done (R506): free results, GO and MARGIN cleared. -/
def State.marginDone (s : State) (x : Nat) : State :=
  let (a, s) := s.freeBelow 256
  let (b, s) := s.freeBelow 256
  let (c, s) := s.freeBelow 256
  if x < 20 then
    (((s.set Fld.TEST_MARGIN.MARGIN_T a x).set Fld.TEST_MARGIN.MARGIN_V b x).set Fld.TEST_MARGIN.LANE c x).set Fld.TEST_MARGIN.GO 0 x
  else ((s.set Fld.TEST_IDL.MARGIN_T a (x - 20)).set Fld.TEST_IDL.MARGIN_V b (x - 20)).set Fld.TEST_IDL.MARGIN 0 (x - 20)

/-- The tests of a leap tick ended (R506). -/
def State.endTests (s : State) : State :=
  let s := s.mod.margins.foldl (fun s x => s.marginDone x) s
  let s := [0, 1].foldl (fun s d => s.set Fld.TEST_IDL.LOOP 0 d) s
  ({ s with mod := { s.mod with margins := [] } } : State).linkTested

/-- The leap tick over (R51–R53): NONE, its claim withdrawn. -/
def State.closeLeap (s : State) : State :=
  let s := (s.set Fld.LEAP_CTRL.STATE leapNone).set Fld.LEAP_CTRL.ARM 0
  let s := if s.tick.claimed then s.set Fld.LEAP_CLAIM.PENDING 0 else s
  let work := if s.tick.claimed then [] else s.tick.work.filter (· != 1)
  { s with tick := { s.tick with claimed := false, leapNs := 0, work := work } }

/-- Work cut at the end of the leap tick claims another (R54, R453, R505). -/
def State.claimAgain (s : State) (failed : List Nat) : State :=
  let s := match s.age.run with
    | some r => s.cutReckoning r.trigger
    | none => s
  let s := match s.sec.upd with
    | some u => if u.phase = 0 && !s.claimWaits then s.claimLeap 4 (ceilDiv (restartMs u.comp * 1000000) s.periodNs) else s
    | none => s
  if failed.any (fun t => !bit (s.get Fld.TEST_TRAIN.GAVE_UP) t) then s.claimLeap 1 1 else s

/-- The leap tick ends (R51–R54). -/
def State.endLeap (s : State) : State :=
  let failed := s.training
  let s := failed.foldl (fun s t => s.failTrain t) s.failLinks
  (s.endTests.closeLeap).claimAgain failed

/-- LEAP_TICK_END (R52, R54): at the first boundary after its length has passed, or one base tick longer for unfinished
training or a component restart, up to 64. -/
def execLeapTickEnd (s : State) : Host.Outcome State Fault Refusal :=
  let n := s.get Fld.LEAP_CTRL.LEN
  if s.inLeap && s.atBoundary && decide (n * s.periodNs ≤ s.tick.leapNs) then
    let s := (s.trained s.training).linksTrained
    if (!s.training.isEmpty || s.linksTrain || s.restarting) && decide (n < 64) then
      ok ((s.set Fld.LEAP_CTRL.LEN (n + 1)).set Fld.TICK_ERR.LEAP_EXTENDED 1)
    else ok s.endLeap
  else ok s

end Sys2Proof.Machine
end

