-- ==== Sys2Proof/Machine/Dispatch.lean ====
section
/-!
DEFINITION. The dispatch: one arm per command, each one direct call of its meaning.
-/
namespace Sys2Proof.Machine

/-- The effect of a command on everything but the queue. -/
def exec (i : Instr) (s : State) : Host.Outcome State Fault Refusal :=
  match i with
  | .baseTickBoundary => Sys2Proof.Machine.execBaseTickBoundary s
  | .oppClockSwitch d => Sys2Proof.Machine.execOppClockSwitch d s
  | .eveBegin p => Sys2Proof.Machine.execEveBegin p s
  | .stepTick p => Sys2Proof.Machine.execStepTick p s
  | .die1ReadyReport p => Sys2Proof.Machine.execDie1ReadyReport p s
  | .xdieTimeout p => Sys2Proof.Machine.execXdieTimeout p s
  | .commit p => Sys2Proof.Machine.execCommit p s
  | .abandonmentComplete p => Sys2Proof.Machine.execAbandonmentComplete p s
  | .admission p => Sys2Proof.Machine.execAdmission p s
  | .submit p => Sys2Proof.Machine.execSubmit p s
  | .cancel p => Sys2Proof.Machine.execCancel p s
  | .badRequest p => Sys2Proof.Machine.execBadRequest p s
  | .swapOut p => Sys2Proof.Machine.execSwapOut p s
  | .restore p => Sys2Proof.Machine.execRestore p s
  | .tickPeriodWrite v => Sys2Proof.Machine.execTickPeriodWrite v s
  | .tickCountWrite v => Sys2Proof.Machine.execTickCountWrite v s
  | .ptpMessage port offset => Sys2Proof.Machine.execPtpMessage port offset s
  | .ptpLoss => Sys2Proof.Machine.execPtpLoss s
  | .holdoverExpiry => Sys2Proof.Machine.execHoldoverExpiry s
  | .ptpSyncSend port => Sys2Proof.Machine.execPtpSyncSend port s
  | .leapAtWrite v => Sys2Proof.Machine.execLeapAtWrite v s
  | .leapArm v => Sys2Proof.Machine.execLeapArm v s
  | .leapCancel v => Sys2Proof.Machine.execLeapCancel v s
  | .leapClaimDeadline => Sys2Proof.Machine.execLeapClaimDeadline s
  | .leapTickBegin => Sys2Proof.Machine.execLeapTickBegin s
  | .leapTickEnd => Sys2Proof.Machine.execLeapTickEnd s
  | .stepCfgWrite p v => Sys2Proof.Machine.execStepCfgWrite p v s
  | .start p => Sys2Proof.Machine.execStart p s
  | .stop p => Sys2Proof.Machine.execStop p s
  | .quiesce p => Sys2Proof.Machine.execQuiesce p s
  | .resume p => Sys2Proof.Machine.execResume p s
  | .blockStart c => Sys2Proof.Machine.execBlockStart c s
  | .blockEnd c => Sys2Proof.Machine.execBlockEnd c s
  | .ftqDrain c => Sys2Proof.Machine.execFtqDrain c s
  | .storeQueueDrain c => Sys2Proof.Machine.execStoreQueueDrain c s
  | .rcInv c => Sys2Proof.Machine.execRcInv c s
  | .trfClear c => Sys2Proof.Machine.execTrfClear c s
  | .clrCnt c => Sys2Proof.Machine.execClrCnt c s
  | .axAdd c => Sys2Proof.Machine.execAxAdd c s
  | .axSub c => Sys2Proof.Machine.execAxSub c s
  | .axAnd c => Sys2Proof.Machine.execAxAnd c s
  | .axOr c => Sys2Proof.Machine.execAxOr c s
  | .axXor c => Sys2Proof.Machine.execAxXor c s
  | .axSll c => Sys2Proof.Machine.execAxSll c s
  | .axSrl c => Sys2Proof.Machine.execAxSrl c s
  | .axSra c => Sys2Proof.Machine.execAxSra c s
  | .axSlt c => Sys2Proof.Machine.execAxSlt c s
  | .axSltu c => Sys2Proof.Machine.execAxSltu c s
  | .axMul c => Sys2Proof.Machine.execAxMul c s
  | .axMulh c => Sys2Proof.Machine.execAxMulh c s
  | .axMulhu c => Sys2Proof.Machine.execAxMulhu c s
  | .axDiv c => Sys2Proof.Machine.execAxDiv c s
  | .axDivu c => Sys2Proof.Machine.execAxDivu c s
  | .axRem c => Sys2Proof.Machine.execAxRem c s
  | .axRemu c => Sys2Proof.Machine.execAxRemu c s
  | .axMin c => Sys2Proof.Machine.execAxMin c s
  | .axMax c => Sys2Proof.Machine.execAxMax c s
  | .axMinu c => Sys2Proof.Machine.execAxMinu c s
  | .axMaxu c => Sys2Proof.Machine.execAxMaxu c s
  | .axClz c => Sys2Proof.Machine.execAxClz c s
  | .axPopc c => Sys2Proof.Machine.execAxPopc c s
  | .axSel c => Sys2Proof.Machine.execAxSel c s
  | .axAddi c => Sys2Proof.Machine.execAxAddi c s
  | .axAndi c => Sys2Proof.Machine.execAxAndi c s
  | .axOri c => Sys2Proof.Machine.execAxOri c s
  | .axXori c => Sys2Proof.Machine.execAxXori c s
  | .axSlli c => Sys2Proof.Machine.execAxSlli c s
  | .axSrli c => Sys2Proof.Machine.execAxSrli c s
  | .axSrai c => Sys2Proof.Machine.execAxSrai c s
  | .axSlti c => Sys2Proof.Machine.execAxSlti c s
  | .axSltiu c => Sys2Proof.Machine.execAxSltiu c s
  | .axLi c => Sys2Proof.Machine.execAxLi c s
  | .axLih c => Sys2Proof.Machine.execAxLih c s
  | .axFadd c => Sys2Proof.Machine.execAxFadd c s
  | .axFsub c => Sys2Proof.Machine.execAxFsub c s
  | .axFmul c => Sys2Proof.Machine.execAxFmul c s
  | .axFdiv c => Sys2Proof.Machine.execAxFdiv c s
  | .axFma c => Sys2Proof.Machine.execAxFma c s
  | .axFsqrt c => Sys2Proof.Machine.execAxFsqrt c s
  | .axFcmp c => Sys2Proof.Machine.execAxFcmp c s
  | .axFcvt c => Sys2Proof.Machine.execAxFcvt c s
  | .axRds c => Sys2Proof.Machine.execAxRds c s
  | .axWrs c => Sys2Proof.Machine.execAxWrs c s
  | .axSetvl c => Sys2Proof.Machine.execAxSetvl c s
  | .axSetvli c => Sys2Proof.Machine.execAxSetvli c s
  | .axLd c => Sys2Proof.Machine.execAxLd c s
  | .axLds c => Sys2Proof.Machine.execAxLds c s
  | .axSt c => Sys2Proof.Machine.execAxSt c s
  | .axAmoadd c => Sys2Proof.Machine.execAxAmoadd c s
  | .axAmoswap c => Sys2Proof.Machine.execAxAmoswap c s
  | .axAmocas c => Sys2Proof.Machine.execAxAmocas c s
  | .axBeq c => Sys2Proof.Machine.execAxBeq c s
  | .axBne c => Sys2Proof.Machine.execAxBne c s
  | .axBlt c => Sys2Proof.Machine.execAxBlt c s
  | .axBge c => Sys2Proof.Machine.execAxBge c s
  | .axBltu c => Sys2Proof.Machine.execAxBltu c s
  | .axBgeu c => Sys2Proof.Machine.execAxBgeu c s
  | .axJal c => Sys2Proof.Machine.execAxJal c s
  | .axJalr c => Sys2Proof.Machine.execAxJalr c s
  | .axCsrr c => Sys2Proof.Machine.execAxCsrr c s
  | .axCsrw c => Sys2Proof.Machine.execAxCsrw c s
  | .axFence c => Sys2Proof.Machine.execAxFence c s
  | .axCinv c => Sys2Proof.Machine.execAxCinv c s
  | .axSig c => Sys2Proof.Machine.execAxSig c s
  | .axWait c => Sys2Proof.Machine.execAxWait c s
  | .axTryw c => Sys2Proof.Machine.execAxTryw c s
  | .axSemrd c => Sys2Proof.Machine.execAxSemrd c s
  | .axNop c => Sys2Proof.Machine.execAxNop c s
  | .axEnd c => Sys2Proof.Machine.execAxEnd c s
  | .axTwait c => Sys2Proof.Machine.execAxTwait c s
  | .axPost c => Sys2Proof.Machine.execAxPost c s
  | .axRdwin c => Sys2Proof.Machine.execAxRdwin c s
  | .axMma c => Sys2Proof.Machine.execAxMma c s
  | .axVadd c => Sys2Proof.Machine.execAxVadd c s
  | .axVsub c => Sys2Proof.Machine.execAxVsub c s
  | .axVmul c => Sys2Proof.Machine.execAxVmul c s
  | .axVmac c => Sys2Proof.Machine.execAxVmac c s
  | .axVmax c => Sys2Proof.Machine.execAxVmax c s
  | .axVmin c => Sys2Proof.Machine.execAxVmin c s
  | .axVcvt c => Sys2Proof.Machine.execAxVcvt c s
  | .axVexp c => Sys2Proof.Machine.execAxVexp c s
  | .axVlog c => Sys2Proof.Machine.execAxVlog c s
  | .axVrcp c => Sys2Proof.Machine.execAxVrcp c s
  | .axVrsq c => Sys2Proof.Machine.execAxVrsq c s
  | .axVrsum c => Sys2Proof.Machine.execAxVrsum c s
  | .axVrmax c => Sys2Proof.Machine.execAxVrmax c s
  | .axVrssq c => Sys2Proof.Machine.execAxVrssq c s
  | .axVsplat c => Sys2Proof.Machine.execAxVsplat c s
  | .axVmxq c => Sys2Proof.Machine.execAxVmxq c s
  | .axVmxd c => Sys2Proof.Machine.execAxVmxd c s
  | .axVmle c => Sys2Proof.Machine.execAxVmle c s
  | .axVmge c => Sys2Proof.Machine.execAxVmge c s
  | .axTdld c => Sys2Proof.Machine.execAxTdld c s
  | .axTdset c => Sys2Proof.Machine.execAxTdset c s
  | .axTdmov c => Sys2Proof.Machine.execAxTdmov c s
  | .axTdinv c => Sys2Proof.Machine.execAxTdinv c s
  | .axTdst c => Sys2Proof.Machine.execAxTdst c s
  | .axXld c => Sys2Proof.Machine.execAxXld c s
  | .axXst c => Sys2Proof.Machine.execAxXst c s
  | .axXmov c => Sys2Proof.Machine.execAxXmov c s
  | .axXgath c => Sys2Proof.Machine.execAxXgath c s
  | .axXgatm c => Sys2Proof.Machine.execAxXgatm c s
  | .axXscat c => Sys2Proof.Machine.execAxXscat c s
  | .axXpf c => Sys2Proof.Machine.execAxXpf c s
  | .axCph c => Sys2Proof.Machine.execAxCph c s
  | .axCsync c => Sys2Proof.Machine.execAxCsync c s
  | .axPcw c => Sys2Proof.Machine.execAxPcw c s
  | .axPissue c => Sys2Proof.Machine.execAxPissue c s
  | .axPsync c => Sys2Proof.Machine.execAxPsync c s
  | .axPtest c => Sys2Proof.Machine.execAxPtest c s
  | .payloadDelivery c t => Sys2Proof.Machine.execPayloadDelivery c t s
  | .panBatchStart t u => Sys2Proof.Machine.execPanBatchStart t u s
  | .panLoad t u => Sys2Proof.Machine.execPanLoad t u s
  | .panStore t u => Sys2Proof.Machine.execPanStore t u s
  | .panCopy t u => Sys2Proof.Machine.execPanCopy t u s
  | .panGemv t u => Sys2Proof.Machine.execPanGemv t u s
  | .panPattn t u => Sys2Proof.Machine.execPanPattn t u s
  | .panGather t u => Sys2Proof.Machine.execPanGather t u s
  | .panScadd t u => Sys2Proof.Machine.execPanScadd t u s
  | .panElem t u => Sys2Proof.Machine.execPanElem t u s
  | .panStat t u => Sys2Proof.Machine.execPanStat t u s
  | .panSeal t u => Sys2Proof.Machine.execPanSeal t u s
  | .panFence t u => Sys2Proof.Machine.execPanFence t u s
  | .panSync t u => Sys2Proof.Machine.execPanSync t u s
  | .microOpBoundary t u => Sys2Proof.Machine.execMicroOpBoundary t u s
  | .panCompletionReport t u => Sys2Proof.Machine.execPanCompletionReport t u s
  | .refreshDue t u => Sys2Proof.Machine.execRefreshDue t u s
  | .neighbourRowRefresh t u bank => Sys2Proof.Machine.execNeighbourRowRefresh t u bank s
  | .stackRequestIssue t u n => Sys2Proof.Machine.execStackRequestIssue t u n s
  | .sluiceRateWrite t sl v => Sys2Proof.Machine.execSluiceRateWrite t sl v s
  | .rakeIssue t => Sys2Proof.Machine.execRakeIssue t s
  | .rakeRestart t => Sys2Proof.Machine.execRakeRestart t s
  | .mirrorRepair e => Sys2Proof.Machine.execMirrorRepair e s
  | .errVerify v => Sys2Proof.Machine.execErrVerify v s
  | .errRepair v => Sys2Proof.Machine.execErrRepair v s
  | .errLogConsume v => Sys2Proof.Machine.execErrLogConsume v s
  | .flipArmData t v => Sys2Proof.Machine.execFlipArmData t v s
  | .flipArmCsum t v => Sys2Proof.Machine.execFlipArmCsum t v s
  | .bulkClearDone => Sys2Proof.Machine.execBulkClearDone s
  | .install p => Sys2Proof.Machine.execInstall p s
  | .reloadDir p => Sys2Proof.Machine.execReloadDir p s
  | .ptCoresWrite p v => Sys2Proof.Machine.execPtCoresWrite p v s
  | .ptSbWrite p v => Sys2Proof.Machine.execPtSbWrite p v s
  | .regionLocationWrite r mir v => Sys2Proof.Machine.execRegionLocationWrite r mir v s
  | .regionLoad r => Sys2Proof.Machine.execRegionLoad r s
  | .regionSeal r => Sys2Proof.Machine.execRegionSeal r s
  | .regionSealDone r => Sys2Proof.Machine.execRegionSealDone r s
  | .regionRelease r => Sys2Proof.Machine.execRegionRelease r s
  | .semSig p v => Sys2Proof.Machine.execSemSig p v s
  | .mailboxDataWrite who m k v => Sys2Proof.Machine.execMailboxDataWrite who m k v s
  | .mailboxGo who m v => Sys2Proof.Machine.execMailboxGo who m v s
  | .mailboxAbort who m => Sys2Proof.Machine.execMailboxAbort who m s
  | .mailboxTake who m => Sys2Proof.Machine.execMailboxTake who m s
  | .dbRing who r v => Sys2Proof.Machine.execDbRing who r v s
  | .dbPendClear who r v => Sys2Proof.Machine.execDbPendClear who r v s
  | .dbMaskWrite who r v => Sys2Proof.Machine.execDbMaskWrite who r v s
  | .msixUnmask vec => Sys2Proof.Machine.execMsixUnmask vec s
  | .cxlMemRead addr caching => Sys2Proof.Machine.execCxlMemRead addr caching s
  | .cxlMemWrite addr caching data mask => Sys2Proof.Machine.execCxlMemWrite addr caching data mask s
  | .cxlMemPoisonWrite addr => Sys2Proof.Machine.execCxlMemPoisonWrite addr s
  | .hdmDecoderCommit n base size skip iw => Sys2Proof.Machine.execHdmDecoderCommit n base size skip iw s
  | .biasToDevice v => Sys2Proof.Machine.execBiasToDevice v s
  | .biasToHost v => Sys2Proof.Machine.execBiasToHost v s
  | .biasCommandDone => Sys2Proof.Machine.execBiasCommandDone s
  | .hostSnoop addr => Sys2Proof.Machine.execHostSnoop addr s
  | .hdmaTailWrite ch v => Sys2Proof.Machine.execHdmaTailWrite ch v s
  | .hdmaDescriptor ch => Sys2Proof.Machine.execHdmaDescriptor ch s
  | .hdmaDescriptorDone ch => Sys2Proof.Machine.execHdmaDescriptorDone ch s
  | .hdmaChannelStop ch => Sys2Proof.Machine.execHdmaChannelStop ch s
  | .cxlReset => Sys2Proof.Machine.execCxlReset s
  | .rocePacketReceive port pkt => Sys2Proof.Machine.execRocePacketReceive port pkt s
  | .arpRequest port ip => Sys2Proof.Machine.execArpRequest port ip s
  | .cnpReceive port qp => Sys2Proof.Machine.execCnpReceive port qp s
  | .ccTimer qp => Sys2Proof.Machine.execCcTimer qp s
  | .ackTimeout qp => Sys2Proof.Machine.execAckTimeout qp s
  | .sequenceNak qp psn => Sys2Proof.Machine.execSequenceNak qp psn s
  | .qpResetNotice dev qp => Sys2Proof.Machine.execQpResetNotice dev qp s
  | .qpRestart qp => Sys2Proof.Machine.execQpRestart qp s
  | .linkUp port lane => Sys2Proof.Machine.execLinkUp port lane s
  | .linkDown port lane => Sys2Proof.Machine.execLinkDown port lane s
  | .groupEnable g v => Sys2Proof.Machine.execGroupEnable g v s
  | .collPhaseStart d => Sys2Proof.Machine.execCollPhaseStart d s
  | .publicationReceive d pub => Sys2Proof.Machine.execPublicationReceive d pub s
  | .rdmaPieceDone d piece => Sys2Proof.Machine.execRdmaPieceDone d piece s
  | .collPhaseLocalComplete d n => Sys2Proof.Machine.execCollPhaseLocalComplete d n s
  | .collTimeout d n => Sys2Proof.Machine.execCollTimeout d n s
  | .collAbortReceive d g tag peer => Sys2Proof.Machine.execCollAbortReceive d g tag peer s
  | .voteReady g rank btick ready => Sys2Proof.Machine.execVoteReady g rank btick ready s
  | .voteDeadline g => Sys2Proof.Machine.execVoteDeadline g s
  | .voteDecision g btick commit => Sys2Proof.Machine.execVoteDecision g btick commit s
  | .voteIndoubt g => Sys2Proof.Machine.execVoteIndoubt g s
  | .voteRequery g => Sys2Proof.Machine.execVoteRequery g s
  | .grpResolve g v => Sys2Proof.Machine.execGrpResolve g v s
  | .forwardedMessage msg => Sys2Proof.Machine.execForwardedMessage msg s
  | .forwardReply reply => Sys2Proof.Machine.execForwardReply reply s
  | .forwardedDmaRequest req => Sys2Proof.Machine.execForwardedDmaRequest req s
  | .forwardedDmaReply reply => Sys2Proof.Machine.execForwardedDmaReply reply s
  | .housekeepingRound readings => Sys2Proof.Machine.execHousekeepingRound readings s
  | .fastPowerCheck mw => Sys2Proof.Machine.execFastPowerCheck mw s
  | .thermResume => Sys2Proof.Machine.execThermResume s
  | .analogTrip d => Sys2Proof.Machine.execAnalogTrip d s
  | .reckoningRequest => Sys2Proof.Machine.execReckoningRequest s
  | .reckoningHoursDue => Sys2Proof.Machine.execReckoningHoursDue s
  | .hoursCheckpoint => Sys2Proof.Machine.execHoursCheckpoint s
  | .tickMark r => Sys2Proof.Machine.execTickMark r s
  | .assayGap => Sys2Proof.Machine.execAssayGap s
  | .weightMessage d w => Sys2Proof.Machine.execWeightMessage d w s
  | .assayFigures => Sys2Proof.Machine.execAssayFigures s
  | .assayRingConfig => Sys2Proof.Machine.execAssayRingConfig s
  | .assayFirmwareInstall digest ver => Sys2Proof.Machine.execAssayFirmwareInstall digest ver s
  | .calibrationChange digest cal idle ticks => Sys2Proof.Machine.execCalibrationChange digest cal idle ticks s
  | .assayDebugAttach => Sys2Proof.Machine.execAssayDebugAttach s
  | .islandPowerReturn => Sys2Proof.Machine.execIslandPowerReturn s
  | .assayWatchdog => Sys2Proof.Machine.execAssayWatchdog s
  | .quote => Sys2Proof.Machine.execQuote s
  | .extend => Sys2Proof.Machine.execExtend s
  | .stage head => Sys2Proof.Machine.execStage head s
  | .activate => Sys2Proof.Machine.execActivate s
  | .csrRead => Sys2Proof.Machine.execCsrRead s
  | .csrWrite => Sys2Proof.Machine.execCsrWrite s
  | .componentRestart comp => Sys2Proof.Machine.execComponentRestart comp s
  | .componentDrainDone comp => Sys2Proof.Machine.execComponentDrainDone comp s
  | .newImageRunning comp => Sys2Proof.Machine.execNewImageRunning comp s
  | .newImageTimeout comp => Sys2Proof.Machine.execNewImageTimeout comp s
  | .debugAttach => Sys2Proof.Machine.execDebugAttach s
  | .enter => Sys2Proof.Machine.execEnter s
  | .reset => Sys2Proof.Machine.execReset s
  | .pmcsrD0Write => Sys2Proof.Machine.execPmcsrD0Write s
  | .wakeAtReached => Sys2Proof.Machine.execWakeAtReached s
  | .dormancyExitDone => Sys2Proof.Machine.execDormancyExitDone s
  | .watchdogExpiry d w => Sys2Proof.Machine.execWatchdogExpiry d w s
  | .dieReset d => Sys2Proof.Machine.execDieReset d s
  | .dieResetDone d => Sys2Proof.Machine.execDieResetDone d s
  | .warmReset => Sys2Proof.Machine.execWarmReset s
  | .coldReset => Sys2Proof.Machine.execColdReset s
  | .standbyPowerLoss => Sys2Proof.Machine.execStandbyPowerLoss s
  | .testRepair t v => Sys2Proof.Machine.execTestRepair t v s
  | .testBist t v => Sys2Proof.Machine.execTestBist t v s
  | .bistDone t fails => Sys2Proof.Machine.execBistDone t fails s
  | .testTrainRetry v => Sys2Proof.Machine.execTestTrainRetry v s
  | .testMargin t v => Sys2Proof.Machine.execTestMargin t v s
  | .idlMargin d v => Sys2Proof.Machine.execIdlMargin d v s
  | .idlLoopback d v => Sys2Proof.Machine.execIdlLoopback d v s
  | .stackLoopback t v => Sys2Proof.Machine.execStackLoopback t v s
  | .ethLoopback port v => Sys2Proof.Machine.execEthLoopback port v s
  | .registerWrite off v width => Sys2Proof.Machine.execRegisterWrite off v width s
  | .readClearRead off width => Sys2Proof.Machine.execReadClearRead off width s
  | .assayDieReturn => Sys2Proof.Machine.execAssayDieReturn s
  | .sealEntryProgrammed => Sys2Proof.Machine.execSealEntryProgrammed s
  | .stageDone => Sys2Proof.Machine.execStageDone s
  | .dormancyEntryDone => Sys2Proof.Machine.execDormancyEntryDone s
  | .undefinedOpcode c => Sys2Proof.Machine.execUndefinedOpcode c s
  | .pcRangeFetch c => Sys2Proof.Machine.execPcRangeFetch c s
  | .illegalPanCommand t u => Sys2Proof.Machine.execIllegalPanCommand t u s
  | .debugHalt c => Sys2Proof.Machine.execDebugHalt c s
  | .debugDetach => Sys2Proof.Machine.execDebugDetach s
  | .droppedFrame port why => Sys2Proof.Machine.execDroppedFrame port why s

end Sys2Proof.Machine
end

