-- ==== Sys2Proof/Machine/Core.lean ====
section
/-!
DEFINITION. The model as the host runs it.
-/

/-- The FN9620 as a machine: its state, its step and its reset. -/
def Sys2Proof.core : Host.Core := { State := Sys2Proof.Machine.State, Fault := Sys2Proof.Machine.Fault, Refusal := Sys2Proof.Machine.Refusal, step := Sys2Proof.Machine.step, reset := Sys2Proof.Machine.State.reset }
end

