-- ==== Sys2Proof/Safety.lean ====
section
/-!
DEFINITION. What counts as a safe run: every step answers a next state, and the state keeps its shape and its maps their
canonical form.
-/
namespace Sys2Proof.Machine

/-- An outcome that is a next state. -/
def isNext (o : Host.Outcome State Fault Refusal) : Bool :=
  match o with
  | .next _ => true
  | _ => false

/-- The block has its twelve cores, twenty stacks, sixteen partitions and two dies (R12, R14), each core its 32 scalar and 32
descriptor registers (R69, R71), each stack its 17 sluices (R217), each partition its 12 counters (R367); four decoders and DMA channels
(R391, R400), two power managers (R436), six components with two slots each and six record types (R476, R480), four network ports (R408). -/
def State.shaped (s : State) : Bool :=
  s.cores.length == 12 && s.stks.length == 20 && s.parts.length == 16 && s.dieUp.length == 2 &&
    s.cores.all (fun k => k.x.length == 32 && k.td.length == 32) &&
    s.stks.all (fun k => k.level.length == 17 && k.deferLeft.length == 17 && k.rate.length == 17 && k.depth.length == 17) &&
    s.parts.all (fun k => k.acc.length == 12) && s.link.hdm.length == 4 && s.link.jobs.length == 4 && s.power.dies.length == 2 &&
    s.power.dies.all (fun x => x.scale.length == 10 && x.emScale.length == 10) && s.sec.loaded.length == 6 &&
    s.sec.measured.length == 12 && s.sec.flash.slots.length == 12 && s.sec.flash.records.length == 6 && s.mod.stamps.length == 16 &&
    s.net.lanes.length == 4 && s.net.syncAt.length == 4

/-- The canonical form of a memory: addresses rising, no entry that reads as an unlisted byte does. -/
def Memory.wf (m : SMap Byte) : Bool := smWf 0#8 m

/-- The canonical form of a sparse map whatever its values: keys rising. -/
def Map.sorted {α : Type} (m : SMap α) : Bool := smSortedFrom none m

/-- A core's maps in canonical form. -/
def CoreSt.canonical (k : CoreSt) : Bool := Memory.wf k.trf && smWf 0 k.acc0 && smWf 0 k.acc1 && Map.sorted k.rc

/-- A stack's maps in canonical form. -/
def StackSt.canonical (k : StackSt) : Bool :=
  Map.sorted k.queue && Map.sorted k.owed && Map.sorted k.fresh && Map.sorted k.refNext && Map.sorted k.grants && Map.sorted k.lastDir && Map.sorted k.openRow &&
    Map.sorted k.passed && Map.sorted k.lastAct && Map.sorted k.acts && Map.sorted k.actsOld && Map.sorted k.forced && Map.sorted k.weakRows &&
    Map.sorted k.remap

/-- The canonical form of what is stored: stack bytes, granule metadata, wrong bits of data and of valid
bits, bits a flip has changed, registers, host memory, and the maps of cores, stacks, pans, batches and the network. -/
def State.canonical (s : State) : Bool :=
  Memory.wf s.mem && smWf Gran.empty s.gran && smWf 0#512 s.ecc && smWf 0#3 s.metaFlip && smWf 0#64 s.csr &&
    Memory.wf s.host && Map.sorted s.csumBad && Map.sorted s.pans && s.pans.all (fun e => Memory.wf e.2.obuf && smWf 0 e.2.acc) &&
    Map.sorted s.msixHeld && Map.sorted s.msixSent && Map.sorted s.net.qps && Map.sorted s.link.bias &&
    s.cores.all CoreSt.canonical && s.stks.all StackSt.canonical && s.parts.all (fun k => Map.sorted k.semq) &&
    s.batches.all (fun b => Memory.wf b.payload && Map.sorted b.paid) && Map.sorted s.age.hist && Map.sorted s.age.base &&
    smWf 0#512 s.flipped && Map.sorted s.tx.busy && Map.sorted s.tx.turns && Map.sorted s.tx.pace

end Sys2Proof.Machine
end

