-- ==== Sys2Proof/WellFormed.lean ====
section
/-!
DEFINITION. Well-formed commands: what an operand's type leaves unsaid of it (R7, R378, R411, R430, R431, R440, R462).
-/
namespace Sys2Proof

/-- A sender identity has a class of R378. -/
def wfWho (who : BitVec 16) : Bool := decide (who.toNat / 4096 ≤ 7)

/-- Whether a command's operands are ones that can arrive: an aligned offset, a sender class, a message's and a piece's length,
sixteen weights, a queue pair of either die. -/
def Instr.wf : Instr → Bool
  | .baseTickBoundary => true
  | .oppClockSwitch _ => true
  | .eveBegin _ => true
  | .stepTick _ => true
  | .die1ReadyReport _ => true
  | .xdieTimeout _ => true
  | .commit _ => true
  | .abandonmentComplete _ => true
  | .admission _ => true
  | .submit _ => true
  | .cancel _ => true
  | .badRequest _ => true
  | .swapOut _ => true
  | .restore _ => true
  | .tickPeriodWrite _ => true
  | .tickCountWrite _ => true
  | .ptpMessage _ _ => true
  | .ptpLoss => true
  | .holdoverExpiry => true
  | .ptpSyncSend _ => true
  | .leapAtWrite _ => true
  | .leapArm _ => true
  | .leapCancel _ => true
  | .leapClaimDeadline => true
  | .leapTickBegin => true
  | .leapTickEnd => true
  | .stepCfgWrite _ _ => true
  | .start _ => true
  | .stop _ => true
  | .quiesce _ => true
  | .resume _ => true
  | .blockStart _ => true
  | .blockEnd _ => true
  | .ftqDrain _ => true
  | .storeQueueDrain _ => true
  | .rcInv _ => true
  | .trfClear _ => true
  | .clrCnt _ => true
  | .axAdd _ => true
  | .axSub _ => true
  | .axAnd _ => true
  | .axOr _ => true
  | .axXor _ => true
  | .axSll _ => true
  | .axSrl _ => true
  | .axSra _ => true
  | .axSlt _ => true
  | .axSltu _ => true
  | .axMul _ => true
  | .axMulh _ => true
  | .axMulhu _ => true
  | .axDiv _ => true
  | .axDivu _ => true
  | .axRem _ => true
  | .axRemu _ => true
  | .axMin _ => true
  | .axMax _ => true
  | .axMinu _ => true
  | .axMaxu _ => true
  | .axClz _ => true
  | .axPopc _ => true
  | .axSel _ => true
  | .axAddi _ => true
  | .axAndi _ => true
  | .axOri _ => true
  | .axXori _ => true
  | .axSlli _ => true
  | .axSrli _ => true
  | .axSrai _ => true
  | .axSlti _ => true
  | .axSltiu _ => true
  | .axLi _ => true
  | .axLih _ => true
  | .axFadd _ => true
  | .axFsub _ => true
  | .axFmul _ => true
  | .axFdiv _ => true
  | .axFma _ => true
  | .axFsqrt _ => true
  | .axFcmp _ => true
  | .axFcvt _ => true
  | .axRds _ => true
  | .axWrs _ => true
  | .axSetvl _ => true
  | .axSetvli _ => true
  | .axLd _ => true
  | .axLds _ => true
  | .axSt _ => true
  | .axAmoadd _ => true
  | .axAmoswap _ => true
  | .axAmocas _ => true
  | .axBeq _ => true
  | .axBne _ => true
  | .axBlt _ => true
  | .axBge _ => true
  | .axBltu _ => true
  | .axBgeu _ => true
  | .axJal _ => true
  | .axJalr _ => true
  | .axCsrr _ => true
  | .axCsrw _ => true
  | .axFence _ => true
  | .axCinv _ => true
  | .axSig _ => true
  | .axWait _ => true
  | .axTryw _ => true
  | .axSemrd _ => true
  | .axNop _ => true
  | .axEnd _ => true
  | .axTwait _ => true
  | .axPost _ => true
  | .axRdwin _ => true
  | .axMma _ => true
  | .axVadd _ => true
  | .axVsub _ => true
  | .axVmul _ => true
  | .axVmac _ => true
  | .axVmax _ => true
  | .axVmin _ => true
  | .axVcvt _ => true
  | .axVexp _ => true
  | .axVlog _ => true
  | .axVrcp _ => true
  | .axVrsq _ => true
  | .axVrsum _ => true
  | .axVrmax _ => true
  | .axVrssq _ => true
  | .axVsplat _ => true
  | .axVmxq _ => true
  | .axVmxd _ => true
  | .axVmle _ => true
  | .axVmge _ => true
  | .axTdld _ => true
  | .axTdset _ => true
  | .axTdmov _ => true
  | .axTdinv _ => true
  | .axTdst _ => true
  | .axXld _ => true
  | .axXst _ => true
  | .axXmov _ => true
  | .axXgath _ => true
  | .axXgatm _ => true
  | .axXscat _ => true
  | .axXpf _ => true
  | .axCph _ => true
  | .axCsync _ => true
  | .axPcw _ => true
  | .axPissue _ => true
  | .axPsync _ => true
  | .axPtest _ => true
  | .payloadDelivery _ _ => true
  | .panBatchStart _ _ => true
  | .panLoad _ _ => true
  | .panStore _ _ => true
  | .panCopy _ _ => true
  | .panGemv _ _ => true
  | .panPattn _ _ => true
  | .panGather _ _ => true
  | .panScadd _ _ => true
  | .panElem _ _ => true
  | .panStat _ _ => true
  | .panSeal _ _ => true
  | .panFence _ _ => true
  | .panSync _ _ => true
  | .microOpBoundary _ _ => true
  | .panCompletionReport _ _ => true
  | .refreshDue _ _ => true
  | .neighbourRowRefresh _ _ _ => true
  | .stackRequestIssue _ _ _ => true
  | .sluiceRateWrite _ _ _ => true
  | .rakeIssue _ => true
  | .rakeRestart _ => true
  | .mirrorRepair _ => true
  | .errVerify _ => true
  | .errRepair _ => true
  | .errLogConsume _ => true
  | .flipArmData _ _ => true
  | .flipArmCsum _ _ => true
  | .bulkClearDone => true
  | .install _ => true
  | .reloadDir _ => true
  | .ptCoresWrite _ _ => true
  | .ptSbWrite _ _ => true
  | .regionLocationWrite _ _ _ => true
  | .regionLoad _ => true
  | .regionSeal _ => true
  | .regionSealDone _ => true
  | .regionRelease _ => true
  | .semSig _ _ => true
  | .mailboxDataWrite who _ _ _ => wfWho who
  | .mailboxGo who _ _ => wfWho who
  | .mailboxAbort who _ => wfWho who
  | .mailboxTake who _ => wfWho who
  | .dbRing who _ _ => wfWho who
  | .dbPendClear who _ _ => wfWho who
  | .dbMaskWrite who _ _ => wfWho who
  | .msixUnmask _ => true
  | .cxlMemRead _ _ => true
  | .cxlMemWrite _ _ _ _ => true
  | .cxlMemPoisonWrite _ => true
  | .hdmDecoderCommit _ _ _ _ _ => true
  | .biasToDevice _ => true
  | .biasToHost _ => true
  | .biasCommandDone => true
  | .hostSnoop _ => true
  | .hdmaTailWrite _ _ => true
  | .hdmaDescriptor _ => true
  | .hdmaDescriptorDone _ => true
  | .hdmaChannelStop _ => true
  | .cxlReset => true
  | .rocePacketReceive _ _ => true
  | .arpRequest _ _ => true
  | .cnpReceive _ qp => decide (qp < 131072)
  | .ccTimer qp => decide (qp < 131072)
  | .ackTimeout qp => decide (qp < 131072)
  | .sequenceNak qp _ => decide (qp < 131072)
  | .qpResetNotice _ qp => decide (qp < 131072)
  | .qpRestart qp => decide (qp < 131072)
  | .linkUp _ _ => true
  | .linkDown _ _ => true
  | .groupEnable _ _ => true
  | .collPhaseStart _ => true
  | .publicationReceive _ _ => true
  | .rdmaPieceDone _ piece => decide (piece.data.length ≤ 65536)
  | .collPhaseLocalComplete _ _ => true
  | .collTimeout _ _ => true
  | .collAbortReceive _ _ _ _ => true
  | .voteReady _ _ _ _ => true
  | .voteDeadline _ => true
  | .voteDecision _ _ _ => true
  | .voteIndoubt _ => true
  | .voteRequery _ => true
  | .grpResolve _ _ => true
  | .forwardedMessage msg => decide (msg.src ≤ 64) && decide (8 ≤ msg.len) && decide (msg.len ≤ 16) && decide (msg.words.length ≤ 16)
  | .forwardReply reply => decide (reply.src ≤ 64)
  | .forwardedDmaRequest req => req.words.length == 4
  | .forwardedDmaReply _ => true
  | .housekeepingRound readings => decide (readings.length ≤ 256)
  | .fastPowerCheck _ => true
  | .thermResume => true
  | .analogTrip _ => true
  | .reckoningRequest => true
  | .reckoningHoursDue => true
  | .hoursCheckpoint => true
  | .tickMark r => decide (r.nj < 2 ^ 64) && decide (r.dur < 2 ^ 64)
  | .assayGap => true
  | .weightMessage _ w => w.length == 16 && w.all (fun x => decide (x < 2 ^ 40))
  | .assayFigures => true
  | .assayRingConfig => true
  | .assayFirmwareInstall _ _ => true
  | .calibrationChange _ _ _ _ => true
  | .assayDebugAttach => true
  | .islandPowerReturn => true
  | .assayWatchdog => true
  | .quote => true
  | .extend => true
  | .stage _ => true
  | .activate => true
  | .csrRead => true
  | .csrWrite => true
  | .componentRestart _ => true
  | .componentDrainDone _ => true
  | .newImageRunning _ => true
  | .newImageTimeout _ => true
  | .debugAttach => true
  | .enter => true
  | .reset => true
  | .pmcsrD0Write => true
  | .wakeAtReached => true
  | .dormancyExitDone => true
  | .watchdogExpiry _ _ => true
  | .dieReset _ => true
  | .dieResetDone _ => true
  | .warmReset => true
  | .coldReset => true
  | .standbyPowerLoss => true
  | .testRepair _ _ => true
  | .testBist _ _ => true
  | .bistDone _ fails => fails.all (fun x => decide (x < 2 ^ 36))
  | .testTrainRetry _ => true
  | .testMargin _ _ => true
  | .idlMargin _ _ => true
  | .idlLoopback _ _ => true
  | .stackLoopback _ _ => true
  | .ethLoopback _ _ => true
  | .registerWrite off _ _ => off.toNat % 8 == 0
  | .readClearRead off _ => off.toNat % 8 == 0
  | .assayDieReturn => true
  | .sealEntryProgrammed => true
  | .stageDone => true
  | .dormancyEntryDone => true
  | .undefinedOpcode _ => true
  | .pcRangeFetch _ => true
  | .illegalPanCommand _ _ => true
  | .debugHalt _ => true
  | .debugDetach => true
  | .droppedFrame _ _ => true

end Sys2Proof
end

