-- ==== Sys2Proof/Certificates/Slice0/Obligations.lean ====
section
/-!
DEFINITION. The statements for the provers, with the vocabulary they share.
-/
namespace Sys2Proof.Spec
open Sys2Proof Sys2Proof.Machine

/-- Bit b of the register at a window offset, as its difference from the reset word. -/
def diffBit (s : State) (o b : Nat) : Bool := (smGet 0#64 s.csr o).getLsbD b

/-- Every bit of every register is the same in two states, outside the listed fields. -/
def BitsBut (l : List (Fld × Nat × Nat)) (s t : State) : Prop :=
  ∀ o b, (∀ e ∈ l, ¬ (e.1.reg.off e.2.1 e.2.2 = o ∧ e.1.lo ≤ b ∧ b ≤ e.1.hi)) → diffBit t o b = diffBit s o b

/-- The two states differ in nothing but the listed register fields. -/
def OnlyRegs (l : List (Fld × Nat × Nat)) (s t : State) : Prop := t = { s with csr := t.csr } ∧ BitsBut l s t

/-- Every bit of a register. -/
def allOf (r : Reg) : Fld := ⟨r, 63, 0⟩

/-- A counter of w bits raised by n: past its width the spec states no value, so nothing is said of it there. -/
def Counted (w old n new : Nat) : Prop := old + n < 2 ^ w → new = old + n

/-- A sparse memory's byte at an address. -/
def byteAt (m : SMap Byte) (a : Nat) : Byte := smGet 0#8 m a

/-- Two memories hold the same bytes outside [a, a + n). -/
def BytesBut (m m' : SMap Byte) (a n : Nat) : Prop := ∀ b, b < a ∨ a + n ≤ b → byteAt m' b = byteAt m b

/-- Bytes a to a + n − 1 of a memory spell a number, least significant byte first. -/
def Spells (m : SMap Byte) (a n v : Nat) : Prop := ∀ i, i < n → (byteAt m (a + i)).toNat = (v / 256 ^ i) % 256

/-! Scope and Conventions; Organisation of the Module. -/

/-- Registers whose write does more than their access codes say, or holds a field to a range (the chapters' own rules). -/
def actingBases : List Nat :=
  [Reg.TICK_COUNT, Reg.TICK_PERIOD, Reg.TICK_DISC, Reg.LEAP_AT, Reg.LEAP_CTRL, Reg.STEP_CFG, Reg.STEP_CTRL, Reg.CORE_CTRL,
   Reg.STK_FLIP_CTRL, Reg.SL_CFG, Reg.ERR_LOG_CI, Reg.ERR_VERIFY, Reg.ERR_REPAIR, Reg.RAKE_CTRL, Reg.SV_CTRL, Reg.PT_CORES,
   Reg.PT_SB, Reg.PT_REGIONS, Reg.PT_RANGE, Reg.PT_SHARE, Reg.SEM_SIG, Reg.REG_LOC, Reg.REG_MIR, Reg.REG_CTRL, Reg.BIAS_CMD,
   Reg.CH_CFG, Reg.CH_TAIL, Reg.MSIX_CTRL, Reg.GRP_CFG, Reg.GRP_MAP, Reg.GRP_RESOLVE, Reg.THERM_CTRL, Reg.AGE_CTRL,
   Reg.TEST_TRAIN, Reg.TEST_IDL, Reg.TEST_ETH, Reg.TEST_BIST, Reg.TEST_SLOOP, Reg.TEST_MARGIN, Reg.TEST_REP, Reg.MB_DATA,
   Reg.S_CTRL, Reg.DB_PEND, Reg.DB_RING, Reg.DB_MASK, Reg.DB_CFG, Reg.CORE_CFG, Reg.STK_CFG, Reg.STK_PWR, Reg.SL_LINE,
   Reg.SL_HOSTW, Reg.RAKE_CFG, Reg.SV_CFG, Reg.SV_SPEC, Reg.SV_TABLE, Reg.SV_REQCFG, Reg.PART_IDLW, Reg.PT_ACCT, Reg.MB_CFG,
   Reg.CXLC_CFG, Reg.ETH_CFG, Reg.PORT_CFG, Reg.PWR_CFG, Reg.OPP_LIM, Reg.THERM_CFG, Reg.THERM_SCALE, Reg.AGE_CFG].map Reg.base

/-- Whether a register lies in the ASSAY block. -/
abbrev inAssay (r : Reg) : Prop := 0x900000 ≤ r.base ∧ r.base < 0xA00000

/-- Whether an access of a width covers bit b. -/
def covers (width : AccessWidth) (b : Nat) : Bool :=
  match width with
  | .whole => true
  | .low => decide (b < 32)
  | .high => decide (32 ≤ b)

/-- The value an access carries, in its place in the register. -/
def placed (width : AccessWidth) (v : Word) : Word :=
  match width with
  | .high => v <<< 32
  | _ => v

/-- Bit b of a field after a write, by its access code (R5). -/
def bitAfterWrite (a : Access) (locked covered old new : Bool) : Bool :=
  match a with
  | .rw => if covered then new else old
  | .rwl => if covered && !locked then new else old
  | .w1c => old && !(covered && new)
  | .w1s => old || (covered && new)
  | .ro | .wo | .rc => old

/-- Registers whose read shows state that is not in their word, or acts (TAKE of a mailbox). -/
def liveBases : List Nat :=
  [Reg.CORE_STATUS, Reg.CORE_PC, Reg.STK_STATUS, Reg.SL_LEVEL, Reg.COLL_STAT, Reg.BIAS_QUERY, Reg.TEST_TRAIN, Reg.R_CTRL, Reg.SL_LINE].map Reg.base

/-! Axver cores. -/

/-- Core c runs a step's block for partition p, and the fetch at its program counter brings word w and leaves state u. -/
abbrev Runs (s u : State) (c : Fin 12) (p w : Nat) : Prop := s.runsFor c = some p ∧ s.fetch c p = (.word w, u)

/-- What the shape and the canonical form of a state give (the invariants below). -/
abbrev Sound (s : State) : Prop := s.shaped = true ∧ s.canonical = true

/-- Nothing but core c differs, and of it only the scalar registers and the program counter: RD holds v (X0 discards it), every
other register what it held, and the program counter a. -/
def CoreResult (u t : State) (c : Fin 12) (rd : Nat) (v : Word) (a : Nat) : Prop :=
  (∀ d, d ≠ c.val → t.core d = u.core d) ∧ t.core c = { u.core c with x := (t.core c).x, pc := a } ∧
    ∀ r, t.x c r = if r = rd ∧ r ≠ 0 then v.toNat else u.x c r

/-- A scalar register as a word. -/
def xw (s : State) (c : Fin 12) (r : Nat) : Word := BitVec.ofNat 64 (s.x c r)

/-- A 32-bit field sign-extended. -/
def simm (w : Nat) : Word := (BitVec.ofNat 32 w).signExtend 64

/-- The number of set bits of a word. -/
def popcount (a : Word) : Nat := ((List.range 64).filter (fun i => a.getLsbD i)).length

/-- The number of leading zero bits of a word. -/
def leadingZeros (a : Word) : Nat := ((List.range 64).takeWhile (fun i => !a.getLsbD (63 - i))).length

/-- R99: OP, command, sources used (1 RS1, 2 RS1 and RS2, 3 all), result. -/
def registerOps : List (Nat × (Fin 12 → Instr) × Nat × (Word → Word → Word → Word)) :=
  [(0x01, .axAdd, 2, fun a b _ => a + b), (0x02, .axSub, 2, fun a b _ => a - b), (0x03, .axAnd, 2, fun a b _ => a &&& b),
   (0x04, .axOr, 2, fun a b _ => a ||| b), (0x05, .axXor, 2, fun a b _ => a ^^^ b),
   (0x06, .axSll, 2, fun a b _ => a <<< (b.toNat % 64)), (0x07, .axSrl, 2, fun a b _ => a >>> (b.toNat % 64)),
   (0x08, .axSra, 2, fun a b _ => a.sshiftRight (b.toNat % 64)), (0x09, .axSlt, 2, fun a b _ => if a.slt b then 1 else 0),
   (0x0A, .axSltu, 2, fun a b _ => if a.ult b then 1 else 0), (0x0B, .axMul, 2, fun a b _ => a * b),
   (0x0C, .axMulh, 2, fun a b _ => (a.signExtend 128 * b.signExtend 128).extractLsb' 64 64),
   (0x0D, .axMulhu, 2, fun a b _ => (a.setWidth 128 * b.setWidth 128).extractLsb' 64 64),
   (0x0E, .axDiv, 2, fun a b _ => if b = 0 then BitVec.allOnes 64 else a.sdiv b),
   (0x0F, .axDivu, 2, fun a b _ => if b = 0 then BitVec.allOnes 64 else a / b),
   (0x10, .axRem, 2, fun a b _ => if b = 0 then a else a.srem b), (0x11, .axRemu, 2, fun a b _ => if b = 0 then a else a % b),
   (0x12, .axMin, 2, fun a b _ => if b.slt a then b else a), (0x13, .axMax, 2, fun a b _ => if a.slt b then b else a),
   (0x14, .axMinu, 2, fun a b _ => if b.ult a then b else a), (0x15, .axMaxu, 2, fun a b _ => if a.ult b then b else a),
   (0x16, .axClz, 1, fun a _ _ => BitVec.ofNat 64 (leadingZeros a)), (0x17, .axPopc, 1, fun a _ _ => BitVec.ofNat 64 (popcount a)),
   (0x18, .axSel, 3, fun a b d => if a = 0 then d else b)]

/-- Whether the fields of format R that an operation with n sources does not use are zero (R96). -/
abbrev unusedZero (n w : Nat) : Prop :=
  bits w 35 32 = 0 ∧ bits w 31 0 = 0 ∧ (n < 3 → bits w 40 36 = 0) ∧ (n < 2 → bits w 45 41 = 0)

/-- R101 but LIH: OP, command, the shape of the immediate (0 sign-extended 32 bits, 1 a shift amount), result. -/
def immediateOps : List (Nat × (Fin 12 → Instr) × Bool × (Word → Word → Word)) :=
  [(0x20, .axAddi, false, fun a i => a + i), (0x21, .axAndi, false, fun a i => a &&& i), (0x22, .axOri, false, fun a i => a ||| i),
   (0x23, .axXori, false, fun a i => a ^^^ i), (0x24, .axSlli, true, fun a i => a <<< i.toNat),
   (0x25, .axSrli, true, fun a i => a >>> i.toNat), (0x26, .axSrai, true, fun a i => a.sshiftRight i.toNat),
   (0x27, .axSlti, false, fun a i => if a.slt i then 1 else 0), (0x28, .axSltiu, false, fun a i => if a.ult i then 1 else 0)]

/-- R111: OP, command, condition. -/
def branchOps : List (Nat × (Fin 12 → Instr) × (Word → Word → Bool)) :=
  [(0x50, .axBeq, fun a b => a == b), (0x51, .axBne, fun a b => a != b), (0x52, .axBlt, fun a b => a.slt b),
   (0x53, .axBge, fun a b => !a.slt b), (0x54, .axBltu, fun a b => a.ult b), (0x55, .axBgeu, fun a b => !a.ult b)]

/-- R102: OP, command, sources used, the FP32 function (code and flags). -/
def floatOps : List (Nat × (Fin 12 → Instr) × Nat × (Nat → Nat → Nat → Nat × Nat)) :=
  [(0x30, .axFadd, 2, fun a b _ => f32Add a b), (0x31, .axFsub, 2, fun a b _ => f32Sub a b), (0x32, .axFmul, 2, fun a b _ => f32Mul a b),
   (0x33, .axFdiv, 2, fun a b _ => f32Div a b), (0x34, .axFma, 3, f32Fma), (0x35, .axFsqrt, 1, fun a _ _ => f32Sqrt a)]

/-- Bits [31:0] of a scalar register. -/
def xlow (s : State) (c : Fin 12) (r : Nat) : Nat := s.x c r % 2 ^ 32

/-- Whether line a / 64 of the stacks is stored without error and without poison (R287, R290). An address of a shared buffer has
no such state. -/
def intactAt (s : State) (a : Nat) : Bool :=
  match placeOf a with
  | .data _ _ => !s.linePoisoned (a / 64) && smGet 0#512 s.ecc (a / 64) == 0#512 && smGet 0#3 s.metaFlip (a / 64) == 0#3
  | _ => true

/-- An address whose line holds no error. -/
abbrev Intact (s : State) (a : Nat) : Prop := intactAt s a = true

/-- The same for an engine or a pan, of whose page the host has no cached line that could be dirty (R275). -/
def cleanAt (s : State) (a : Nat) : Bool := intactAt s a && s.bias (a / 0x200000) != 2

/-- An address that an engine or a pan reads as stored. -/
abbrev Clean (s : State) (a : Nat) : Prop := cleanAt s a = true

/-- Whether no flip is armed on the stack of an address (R296). -/
def unarmedAt (s : State) (a : Nat) : Bool :=
  match placeOf a with
  | .data t _ => s.get Fld.STK_FLIP_CTRL.ARM_DATA t == 0 && s.get Fld.STK_FLIP_CTRL.ARM_CSUM t == 0
  | _ => true

/-- An address whose stack has no flip armed. -/
abbrev Unarmed (s : State) (a : Nat) : Prop := unarmedAt s a = true

/-- One byte of the stacks or shared buffers as a reader sees it: a line whose valid bit is clear reads as zero (R107). -/
def readByte (s : State) (a : Nat) : Byte :=
  match placeOf a with
  | .data _ _ => if s.lineValid (a / 64) then byteAt s.mem a else 0
  | _ => byteAt s.mem a

/-- n bytes from an address as a reader sees them, as a number. -/
def readBytesOf (s : State) (a : Nat) : Nat → Nat
  | 0 => 0
  | n + 1 => readBytesOf s a n + (readByte s (a + n)).toNat * 256 ^ n

/-- The checks of R106 pass for an access of n bytes at a, and the domain behind it answers. -/
abbrev AccessOk (s : State) (p a n : Nat) (write : Bool) : Prop :=
  a % n = 0 ∧ a + n ≤ 2 ^ 42 ∧ s.scalarReach p a n write = true ∧ s.answers a = true

/-- The address of format M: RS1 plus the sign-extended OFF32, modulo 2^64. -/
def mAddr (s : State) (c : Fin 12) (w : Nat) : Nat := (xw s c (wRS1 w) + simm w).toNat

/-- The extension of a loaded value: zeros for LD, the sign for LDS. -/
def extended (signed : Bool) (n v : Nat) : Word :=
  if signed then (BitVec.ofNat (8 * n) v).signExtend 64 else BitVec.ofNat 64 v

end Sys2Proof.Spec

open Sys2Proof Sys2Proof.Machine Sys2Proof.Spec

/-- A command at the front of the queue is taken from it and run on the rest of the block; with an empty queue one
nanosecond passes (the model's choice, log entry 2). -/
def Obligations.StepRunsFrontCommand : Prop :=
  (∀ (c : Instr) (rest : List Instr) (s : State), step { s with pending := c :: rest } = exec c { s with pending := rest }) ∧
    ∀ s : State, s.pending = [] → step s = .next s.idleNs

/-- No command stops the block: every command answers a next state in every state, so neither a fault nor a refusal is
ever an outcome. -/
def Obligations.EveryCommandAnswersNext : Prop := ∀ (c : Instr) (s : State), ∃ t, exec c s = .next t

/-- Every step keeps the block's shape and the canonical form of its memories and registers. -/
def Obligations.StepKeepsTheBlockSound : Prop := ∀ s t : State, Sound s → step s = .next t → Sound t

/-- The state after reset has its shape and canonical form, an empty queue, and every register at its Reset value. -/
def Obligations.ResetLeavesResetValues : Prop :=
  Sound State.reset ∧ State.reset.pending = [] ∧
    ∀ (f : Fld) (e : Field), f.reg ∈ regTable → e ∈ f.reg.fields → f.hi = e.hi → f.lo = e.lo →
      f.reg.base ≠ Reg.MB_CFG.base → f.reg.base ≠ Reg.PWR_VT.base →
      ∀ i j, (f.reg.base = Reg.SL_CFG.base → j < 16) → State.reset.get f i j = e.reset

/-- R5: a write by the host of a register with no action of its own sets, clears or keeps each field as its access code
says, in the half the access covers; no other register and nothing else of the block changes. -/
def Obligations.RegisterWriteFollowsAccessCodes : Prop :=
  ∀ (s : State) (off : BitVec 28) (v : Word) (width : AccessWidth) (r : Reg) (i j : Nat),
    Sound s → regAt off.toNat = some (r, i, j) → r.base ∉ actingBases → ¬ inAssay r → s.csrUp off.toNat = true →
    s.get Fld.SEC_STATE.STATE ≠ 3 → (width ≠ .whole → r.snapshot = false) →
    ∃ t, exec (.registerWrite off v width) s = .next t ∧
      t = { s with csr := t.csr, answer := some .done } ∧ BitsBut [(allOf r, i, j)] s t ∧
      (∀ f ∈ r.fields, ∀ b, f.lo ≤ b → b ≤ f.hi →
        (t.word r i j).testBit b =
          bitAfterWrite f.access (s.locked r i) (covers width b) ((s.word r i j).testBit b) ((placed width v).getLsbD b)) ∧
      ∀ b, (∀ f ∈ r.fields, ¬ (f.lo ≤ b ∧ b ≤ f.hi)) → (t.word r i j).testBit b = (s.word r i j).testBit b

/-- R5, R7, R26, R28: a read by the host returns every readable field and zero elsewhere, clears the RC fields it covers and
changes nothing else; a 32-bit access to a snapshot counter, and an access to a die that is down, is an error; an
offset no chapter defines reads zero, and a write there changes nothing; a write into the ASSAY block changes nothing. -/
def Obligations.RegisterReadAndRefusedAccesses : Prop :=
  (∀ (s : State) (off : BitVec 28) (width : AccessWidth) (r : Reg) (i j : Nat),
    Sound s → regAt off.toNat = some (r, i, j) → r.base ∉ liveBases → s.csrUp off.toNat = true →
    s.get Fld.SEC_STATE.STATE ≠ 3 → (width ≠ .whole → r.snapshot = false) →
    ∃ (t : State) (v : Nat), exec (.readClearRead off width) s = .next t ∧ t = { s with csr := t.csr, answer := some (.value v) } ∧
      BitsBut ((r.fields.filter (fun f => f.access == .rc)).map (fun f => (⟨r, f.hi, f.lo⟩, i, j))) s t ∧
      (∀ f ∈ r.fields, ∀ b, f.lo ≤ b → b ≤ f.hi → f.access = .rc →
        (t.word r i j).testBit b = (!covers width b && (s.word r i j).testBit b)) ∧
      ∀ b, v.testBit b =
        (decide (b < (if width = .whole then 64 else 32)) &&
          let p := if width = .high then b + 32 else b
          r.fields.any (fun f => f.access != .wo && decide (f.lo ≤ p) && decide (p ≤ f.hi)) && (s.word r i j).testBit p)) ∧
  (∀ (s : State) (off : BitVec 28) (v : Word) (width : AccessWidth) (r : Reg) (i j : Nat),
    regAt off.toNat = some (r, i, j) → (s.csrUp off.toNat = false ∨ (width ≠ .whole ∧ r.snapshot = true)) →
    exec (.readClearRead off width) s = .next { s with answer := some .error } ∧
      exec (.registerWrite off v width) s = .next { s with answer := some .error }) ∧
  (∀ (s : State) (off : BitVec 28) (v : Word) (width : AccessWidth), regAt off.toNat = none → s.csrUp off.toNat = true →
    s.get Fld.SEC_STATE.STATE ≠ 3 →
    exec (.readClearRead off width) s = .next { s with answer := some (.value 0) } ∧
      exec (.registerWrite off v width) s = .next { s with answer := some .done }) ∧
  ∀ (s : State) (off : BitVec 28) (v : Word) (r : Reg) (i j : Nat),
    regAt off.toNat = some (r, i, j) → inAssay r → s.csrUp off.toNat = true → s.get Fld.SEC_STATE.STATE ≠ 3 →
    exec (.registerWrite off v .whole) s = .next { s with answer := some .done }

/-- R99, R100, R69: a register-operand integer instruction writes its result to RD; a division or remainder by zero sets
FP_FLAGS.DZ; the program counter moves to the next word, and nothing else of the block changes. -/
def Sys2Proof.Spec.RegisterForms : Prop :=
  ∀ e ∈ registerOps, ∀ (s u : State) (c : Fin 12) (p w : Nat),
    Sound u → Runs s u c p w → w >>> 56 = e.1 → unusedZero e.2.2.1 w →
    ∃ t, exec (e.2.1 c) s = .next t ∧ t = { u with cores := t.cores, csr := t.csr } ∧
      CoreResult u t c (wRD w) (e.2.2.2 (xw u c (wRS1 w)) (xw u c (wRS2 w)) (xw u c (wRS3 w))) ((u.core c).pc + 8) ∧
      BitsBut [(Fld.FP_FLAGS.DZ, c, 0)] u t ∧
      (t.get Fld.FP_FLAGS.DZ c = if 0x0E ≤ e.1 ∧ e.1 ≤ 0x11 ∧ u.x c (wRS2 w) = 0 then 1 else u.get Fld.FP_FLAGS.DZ c)

/-- R101: an immediate integer instruction writes its result to RD and moves to the next word; nothing else changes. -/
def Sys2Proof.Spec.ImmediateForms : Prop :=
  (∀ e ∈ immediateOps, ∀ (s u : State) (c : Fin 12) (p w : Nat),
    Sound u → Runs s u c p w → w >>> 56 = e.1 → bits w 45 32 = 0 → (e.2.2.1 = true → bits w 31 6 = 0) →
    ∃ t, exec (e.2.1 c) s = .next t ∧ t = { u with cores := t.cores } ∧
      CoreResult u t c (wRD w) (e.2.2.2 (xw u c (wRS1 w)) (if e.2.2.1 then BitVec.ofNat 64 (bits w 5 0) else simm w))
        ((u.core c).pc + 8)) ∧
  (∀ (s u : State) (c : Fin 12) (p w : Nat), Sound u → Runs s u c p w → w >>> 56 = 0x2A → bits w 50 48 = 0 →
    ∃ t, exec (.axLi c) s = .next t ∧ t = { u with cores := t.cores } ∧
      CoreResult u t c (wRD w) ((BitVec.ofNat 48 w).signExtend 64) ((u.core c).pc + 8)) ∧
  ∀ (s u : State) (c : Fin 12) (p w : Nat), Sound u → Runs s u c p w → w >>> 56 = 0x2B → bits w 50 48 = 0 → bits w 47 16 = 0 →
    ∃ t, exec (.axLih c) s = .next t ∧ t = { u with cores := t.cores } ∧
      CoreResult u t c (wRD w) (BitVec.ofNat 16 w ++ BitVec.ofNat 48 (u.x c (wRD w)) : BitVec 64) ((u.core c).pc + 8)

/-- R69, R99–R101: X0 reads as zero; the integer instructions, with register and with immediate operands, write their results to RD
and nothing to X0, a division or remainder by zero its fixed results with FP_FLAGS.DZ, and go on to the next word. -/
def Obligations.IntegerInstructions : Prop := (∀ (s : State) (c : Fin 12), s.x c 0 = 0) ∧ RegisterForms ∧ ImmediateForms

/-- R70, R102, R103: an FP32 instruction computes on bits [31:0] of its registers, writes zeros above them but for FCMP and
the conversions to an integer, joins its flags into FP_FLAGS and moves to the next word; nothing else changes. -/
def Obligations.FloatingPointInstructions : Prop :=
  (∀ e ∈ floatOps, ∀ (s u : State) (c : Fin 12) (p w : Nat),
    Sound u → Runs s u c p w → w >>> 56 = e.1 → unusedZero e.2.2.1 w →
    let r := e.2.2.2 (xlow u c (wRS1 w)) (xlow u c (wRS2 w)) (xlow u c (wRS3 w))
    ∃ t, exec (e.2.1 c) s = .next t ∧ t = { u with cores := t.cores, csr := t.csr } ∧ r.1 < 2 ^ 32 ∧
      CoreResult u t c (wRD w) (BitVec.ofNat 64 r.1) ((u.core c).pc + 8) ∧
      BitsBut [(⟨Reg.FP_FLAGS, 4, 0⟩, c, 0)] u t ∧ t.word Reg.FP_FLAGS c 0 = u.word Reg.FP_FLAGS c 0 ||| r.2) ∧
  (∀ (s u : State) (c : Fin 12) (p w : Nat),
    Sound u → Runs s u c p w → w >>> 56 = 0x36 → bits w 40 36 = 0 → bits w 31 0 = 0 → wCC w ≤ 3 →
    let a := of32 (xlow u c (wRS1 w))
    let b := of32 (xlow u c (wRS2 w))
    let un := fvIsNan a || fvIsNan b
    let res := match wCC w with | 0 => fvEq a b | 1 => fvLt a b | 2 => fvLt a b || fvEq a b | _ => un
    ∃ t, exec (.axFcmp c) s = .next t ∧ t = { u with cores := t.cores, csr := t.csr } ∧
      CoreResult u t c (wRD w) (if res then 1 else 0) ((u.core c).pc + 8) ∧ BitsBut [(Fld.FP_FLAGS.NV, c, 0)] u t ∧
      t.get Fld.FP_FLAGS.NV c = if un ∧ (wCC w = 1 ∨ wCC w = 2) then 1 else u.get Fld.FP_FLAGS.NV c) ∧
  ∀ (s u : State) (c : Fin 12) (p w : Nat),
    Sound u → Runs s u c p w → w >>> 56 = 0x37 → bits w 45 36 = 0 → bits w 31 0 = 0 → wCC w ≤ 3 →
    let r := if wCC w < 2 then f32ToInt (wCC w == 0) (xlow u c (wRS1 w)) else intToF32 (wCC w == 2) (u.x c (wRS1 w))
    ∃ t, exec (.axFcvt c) s = .next t ∧ t = { u with cores := t.cores, csr := t.csr } ∧
      CoreResult u t c (wRD w) (BitVec.ofNat 64 r.1) ((u.core c).pc + 8) ∧
      BitsBut [(⟨Reg.FP_FLAGS, 4, 0⟩, c, 0)] u t ∧ t.word Reg.FP_FLAGS c 0 = u.word Reg.FP_FLAGS c 0 ||| r.2

/-- R111: a conditional branch goes to its own address plus OFF32 when its condition holds, else to the next word; JAL and JALR
write their own address plus 8 to RD and go to their targets, JALR through the old RS1; nothing else changes. -/
def Obligations.BranchesAndJumps : Prop :=
  (∀ e ∈ branchOps, ∀ (s u : State) (c : Fin 12) (p w : Nat),
    Sound u → Runs s u c p w → w >>> 56 = e.1 → bits w 55 51 = 0 → bits w 40 32 = 0 → bits w 2 0 = 0 → (u.core c).pc < 2 ^ 63 →
    ∃ t, exec (e.2.1 c) s = .next t ∧ t = { u with cores := t.cores } ∧
      CoreResult u t c 0 0 (if e.2.2 (xw u c (wRS1 w)) (xw u c (wRS2 w))
        then (BitVec.ofNat 64 (u.core c).pc + simm w).toNat else (u.core c).pc + 8)) ∧
  (∀ (s u : State) (c : Fin 12) (p w : Nat),
    Sound u → Runs s u c p w → w >>> 56 = 0x56 → bits w 50 32 = 0 → bits w 2 0 = 0 → (u.core c).pc < 2 ^ 63 →
    ∃ t, exec (.axJal c) s = .next t ∧ t = { u with cores := t.cores } ∧
      CoreResult u t c (wRD w) (BitVec.ofNat 64 ((u.core c).pc + 8)) (BitVec.ofNat 64 (u.core c).pc + simm w).toNat) ∧
  ∀ (s u : State) (c : Fin 12) (p w : Nat),
    Sound u → Runs s u c p w → w >>> 56 = 0x57 → bits w 45 32 = 0 → bits w 2 0 = 0 → (u.core c).pc < 2 ^ 63 →
    ∃ t, exec (.axJalr c) s = .next t ∧ t = { u with cores := t.cores } ∧
      CoreResult u t c (wRD w) (BitVec.ofNat 64 ((u.core c).pc + 8)) ((xw u c (wRS1 w) + simm w) &&& ~~~7#64).toNat

/-- R104: RDS, WRS, SETVL and SETVLI read and write VL, VROW and SR_SEED as their table says; nothing else changes. -/
def Obligations.SpecialRegisterInstructions : Prop :=
  (∀ (s u : State) (c : Fin 12) (p w : Nat),
    Sound u → Runs s u c p w → w >>> 56 = 0x38 → bits w 50 36 = 0 → bits w 31 0 = 0 → wCC w ≤ 4 →
    (wCC w = 2 → seedBusy (u.core c) = false) →
    ∃ t, exec (.axRds c) s = .next t ∧ t = { u with cores := t.cores } ∧
      CoreResult u t c (wRD w)
        (match wCC w with
          | 0 => BitVec.ofNat 64 (u.core c).vl
          | 1 => BitVec.ofNat 64 (u.core c).vrow
          | 2 => (u.core c).seed
          | 3 => BitVec.ofNat 64 c.val
          | _ => BitVec.ofNat 64 p) ((u.core c).pc + 8)) ∧
  (∀ (s u : State) (c : Fin 12) (p w : Nat),
    Sound u → Runs s u c p w → w >>> 56 = 0x39 → bits w 55 51 = 0 → bits w 45 36 = 0 → bits w 31 0 = 0 →
    (wCC w = 1 ∨ wCC w = 2 ∧ seedBusy (u.core c) = false) →
    ∃ t, exec (.axWrs c) s = .next t ∧ t = { u with cores := t.cores } ∧ (∀ d, d ≠ c.val → t.core d = u.core d) ∧
      t.core c = { u.core c with
        pc := (u.core c).pc + 8
        vrow := if wCC w = 1 then Nat.min (Nat.max (u.x c (wRS1 w)) 1) 4096 else (u.core c).vrow
        seed := if wCC w = 1 then (u.core c).seed else xw u c (wRS1 w) }) ∧
  ∀ (s u : State) (c : Fin 12) (p w : Nat) (i : Bool),
    Sound u → Runs s u c p w → w >>> 56 = (if i then 0x3B else 0x3A) →
    (if i then bits w 50 32 = 0 else bits w 45 0 = 0) →
    let vl := Nat.min (if i then bits w 31 0 else u.x c (wRS1 w)) 262144
    ∃ t, exec (if i then .axSetvli c else .axSetvl c) s = .next t ∧ t = { u with cores := t.cores } ∧
      (∀ d, d ≠ c.val → t.core d = u.core d) ∧
      t.core c = { u.core c with x := (t.core c).x, pc := (u.core c).pc + 8, vl := vl } ∧
      ∀ r, t.x c r = if r = wRD w ∧ r ≠ 0 then vl else u.x c r

/-- R105, R107, R88, R117: a load whose checks pass writes the bytes it names to RD, extended: a volatile or acquire load, and a
load of the shared buffer, as its point of coherence holds them; a plain load of stack memory from the line the read
cache holds, else from the stack. An acquire empties the read cache. No byte of memory changes. -/
def Obligations.Loads : Prop :=
  ∀ (s u : State) (c : Fin 12) (p w : Nat) (signed : Bool),
    Sound u → Runs s u c p w → w >>> 56 = (if signed then 0x41 else 0x40) → bits w 45 36 = 0 → wORD w ≤ 2 →
    let n := wBytes w
    let a := mAddr u c w
    let k := u.core c
    AccessOk u p a n false → k.storeOverlaps a n = false → Clean u a →
    (wORD w = 0 → ∀ d, smFind k.rc (a / 64) ≠ some (d, true)) →
    let held := match placeOf a, smFind k.rc (a / 64) with
      | .data _ _, some (d, _) => if wORD w = 0 ∧ bit k.cfg 16 then some (bits d.toNat (8 * (a % 64 + n) - 1) (8 * (a % 64))) else none
      | _, _ => none
    ∃ t, exec (if signed then .axLds c else .axLd c) s = .next t ∧
      t = { u with cores := t.cores, stks := t.stks, csr := t.csr, free := t.free } ∧ (∀ d, d ≠ c.val → t.core d = u.core d) ∧
      t.core c = { k with x := (t.core c).x, pc := k.pc + 8, rc := (t.core c).rc } ∧ (wORD w = 2 → (t.core c).rc = []) ∧
      (wORD w = 1 → (t.core c).rc = k.rc) ∧
      ∀ r, t.x c r = if r = wRD w ∧ r ≠ 0 then (extended signed n (held.getD (readBytesOf u a n))).toNat else u.x c r

/-- R109, R106, R268: a store whose checks pass enters the store queue behind the stores before it and changes no memory; a queued
store older than every other to its destination (which of several is a free choice) reaches memory by STORE_QUEUE_DRAIN: its bytes
read as stored, every other byte reads as before, and the granule of a stack address is left open with the line valid (R108). -/
def Obligations.StoresEnterTheQueueAndDrain : Prop :=
  (∀ (s u : State) (c : Fin 12) (p w : Nat),
    Sound u → Runs s u c p w → w >>> 56 = 0x42 → bits w 55 51 = 0 → bits w 40 36 = 0 → (wORD w = 0 ∨ wORD w = 2 ∧ u.fullDone c = true) →
    let n := wBytes w
    let a := mAddr u c w
    AccessOk u p a n true → (u.core c).stq.length < 16 →
    ∃ t, exec (.axSt c) s = .next t ∧ t = { u with cores := t.cores } ∧ (∀ d, d ≠ c.val → t.core d = u.core d) ∧
      t.core c = { u.core c with
        pc := (u.core c).pc + 8, stq := (u.core c).stq ++ [⟨(u.core c).pc, a, n, u.x c (wRS2 w) % 256 ^ n⟩] }) ∧
  ∀ (s : State) (c : Fin 12) (p : Nat),
    Sound s → s.partOf c = some p → (s.core c).stq ≠ [] →
    (∀ e ∈ (s.core c).stq, s.answers e.addr = true ∧ 0 < e.size ∧ e.addr % e.size = 0 ∧ e.size ∣ 64 ∧ Clean s e.addr ∧ Unarmed s e.addr) →
    ∃ (t : State) (i : Nat) (e : StoreEnt), exec (.storeQueueDrain c) s = .next t ∧ (s.core c).stq[i]? = some e ∧
      (∀ x ∈ (s.core c).stq.take i, destOf x.addr ≠ destOf e.addr) ∧
      t = { s with cores := t.cores, stks := t.stks, mem := t.mem, gran := t.gran, ecc := t.ecc, metaFlip := t.metaFlip
                   flipped := t.flipped, sealing := t.sealing, free := t.free } ∧
      (∀ d, d ≠ c.val → t.core d = s.core d) ∧ t.core c = { s.core c with stq := (s.core c).stq.eraseIdx i, rc := (t.core c).rc } ∧
      (∀ i, i < e.size → (readByte t (e.addr + i)).toNat = (e.data / 256 ^ i) % 256) ∧
      (∀ b, b < e.addr ∨ e.addr + e.size ≤ b → readByte t b = readByte s b) ∧
      ∀ st o, placeOf e.addr = .data st o →
        (t.granule (e.addr / 4096)).state = .opened ∧ t.lineValid (e.addr / 64) = true

/-- R105, R110, R116, R117: an atomic whose checks pass reads and writes its 8 bytes as one act: RD holds what the location
held, the location what the operation gives, every other byte reads as before; an acquire empties the read cache. -/
def Obligations.Atomics : Prop :=
  ∀ e ∈ [(0x43, Instr.axAmoadd, fun (o a _ : Word) => o + a), (0x44, Instr.axAmoswap, fun (_ a _ : Word) => a),
      (0x45, Instr.axAmocas, fun (o a b : Word) => if o = b then a else o)],
  ∀ (s u : State) (c : Fin 12) (p w : Nat),
    Sound u → Runs s u c p w → w >>> 56 = e.1 → (e.1 ≠ 0x45 → wRS3 w = 0) → wBytes w = 8 → wORD w ≠ 1 →
    let a := mAddr u c w
    AccessOk u p a 8 true → (u.core c).stq = [] → (wORD w = 3 → u.fullDone c = true) → Clean u a → Unarmed u a →
    let old := BitVec.ofNat 64 (readBytesOf u a 8)
    ∃ t, exec (e.2.1 c) s = .next t ∧
      t = { u with cores := t.cores, stks := t.stks, mem := t.mem, gran := t.gran, ecc := t.ecc, metaFlip := t.metaFlip
                   flipped := t.flipped, sealing := t.sealing } ∧
      (∀ d, d ≠ c.val → t.core d = u.core d) ∧
      t.core c = { u.core c with x := (t.core c).x, pc := (u.core c).pc + 8, rc := (t.core c).rc } ∧
      (2 ≤ wORD w → (t.core c).rc = []) ∧
      (∀ r, t.x c r = if r = wRD w ∧ r ≠ 0 then old.toNat else u.x c r) ∧
      readBytesOf t a 8 = (e.2.2 old (xw u c (wRS2 w)) (xw u c (wRS3 w))).toNat ∧
      (∀ b, b < a ∨ a + 8 ≤ b → readByte t b = readByte u b) ∧
      ∀ st o, placeOf a = .data st o → (t.granule (a / 4096)).state = .opened

/-- R112, R92: CSRR writes the register at the granted offset (RS1 + OFF28) mod 2^28 to RD, and CSRW writes RS2 there, as a write
of all 64 bits by the core; both go on to the next word. An access that is misaligned, not granted, or to a die that is
down faults with the first of MISALIGNED, CSR_DENIED and DOMAIN_DOWN. -/
def Obligations.CsrInstructions : Prop :=
  (∀ (s u : State) (c : Fin 12) (p w : Nat) (r : Reg) (i j : Nat),
    Sound u → Runs s u c p w → w >>> 56 = 0x58 → bits w 45 28 = 0 →
    let o := (u.x c (wRS1 w) + bits w 27 0) % 2 ^ 28
    regAt o = some (r, i, j) → r.base ∉ liveBases → u.coreGrant c p o 0 false = true → u.csrUp o = true →
    ∃ t, exec (.axCsrr c) s = .next t ∧ t = { u with cores := t.cores, csr := t.csr } ∧
      BitsBut ((r.fields.filter (fun f => f.access == .rc)).map (fun f => (⟨r, f.hi, f.lo⟩, i, j))) u t ∧
      CoreResult u t c (wRD w) (BitVec.ofNat 64 (readableWord r (u.word r i j))) ((u.core c).pc + 8)) ∧
  (∀ (s u : State) (c : Fin 12) (p w : Nat) (r : Reg) (i j : Nat),
    Sound u → Runs s u c p w → w >>> 56 = 0x59 → bits w 55 51 = 0 → bits w 40 28 = 0 →
    let o := (u.x c (wRS1 w) + bits w 27 0) % 2 ^ 28
    let v := xw u c (wRS2 w)
    regAt o = some (r, i, j) → r.base ∉ actingBases → u.coreGrant c p o v.toNat true = true → u.csrUp o = true →
    ∃ t, exec (.axCsrw c) s = .next t ∧ t = { u with cores := t.cores, csr := t.csr } ∧ BitsBut [(allOf r, i, j)] u t ∧
      CoreResult u t c 0 0 ((u.core c).pc + 8) ∧
      ∀ f ∈ r.fields, ∀ b, f.lo ≤ b → b ≤ f.hi →
        (t.word r i j).testBit b = bitAfterWrite f.access (u.locked r i) true ((u.word r i j).testBit b) (v.getLsbD b)) ∧
  ∀ (s u : State) (c : Fin 12) (p w : Nat) (write : Bool),
    Sound u → Runs s u c p w → w >>> 56 = (if write then 0x59 else 0x58) → bits w 40 28 = 0 →
    (if write then bits w 55 51 = 0 else bits w 45 41 = 0) → u.get Fld.FAULT_REC.VALID c = 0 →
    let o := (u.x c (wRS1 w) + bits w 27 0) % 2 ^ 28
    let granted := u.coreGrant c p o (if write then u.x c (wRS2 w) else 0) write
    (o % 8 ≠ 0 ∨ granted = false ∨ u.csrUp o = false) →
    ∃ t, exec (if write then .axCsrw c else .axCsrr c) s = .next t ∧ (t.core c).run = .faulted ∧ (t.core c).x = (u.core c).x ∧
      t.mem = u.mem ∧ t.get Fld.FAULT_REC.VALID c = 1 ∧
      t.get Fld.FAULT_REC.CODE c = (if o % 8 ≠ 0 then 0x03 else if granted = false then 0x04 else 0x0A)

/-- R115, R118, R123, R67, R68, R124: a FENCE whose condition holds, CINV and NOP go on to the next word, CINV with the read cache
emptied; END leaves the scalar unit done, TWAIT holding for the tick once every earlier scalar access is performed. -/
def Obligations.FencesAndBlockControl : Prop :=
  ∀ (s u : State) (c : Fin 12) (p w : Nat), Sound u → Runs s u c p w →
    let k := u.core c
    let done := fun (o : Host.Outcome State Fault Refusal) (k' : CoreSt) =>
      ∃ t, o = .next t ∧ t = { u with cores := t.cores } ∧ (∀ d, d ≠ c.val → t.core d = u.core d) ∧ t.core c = k'
    (w >>> 56 = 0x60 → bits w 55 40 = 0 → bits w 31 0 = 0 →
      (wSEL w = 0 ∧ u.writesDone c ∧ u.readsDone c ∨ wSEL w = 1 ∧ u.writesDone c ∨ wSEL w = 2 ∧ u.readsDone c) →
      done (exec (.axFence c) s) { k with pc := k.pc + 8 }) ∧
    (w = 0x6100000000000000 → done (exec (.axCinv c) s) { k with pc := k.pc + 8, rc := [] }) ∧
    (w = 0x7000000000000000 → done (exec (.axNop c) s) { k with pc := k.pc + 8 }) ∧
    (w = 0x7100000000000000 → done (exec (.axEnd c) s) { k with pc := k.pc + 8, run := .ended }) ∧
    (w = 0x7200000000000000 → u.scalarDone c = true → done (exec (.axTwait c) s) { k with run := .tickWait })

/-- R120, R121, R116, R117: SIG adds n to the counter, held at 0xFFFF_FFFF; WAIT at the head of an empty queue takes n from a
counter that holds it and empties the read cache, and else joins the queue; TRYW takes n and writes 1, or writes 0 and
changes nothing; SEMRD writes the counter to RD. The host's SEM_SIG signals in the same way. -/
def Obligations.Semaphores : Prop :=
  (∀ (s u : State) (c : Fin 12) (p w : Nat), Sound u → Runs s u c p w → p < 16 → bits w 45 40 = 0 → wSEL w < 64 →
    let i := wSEL w
    let n := (u.x c (wRS1 w) + bits w 31 0) % 2 ^ 32
    let k := u.core c
    let v := u.get Fld.SEM_VAL.COUNT p i
    let sem : Fld × Nat × Nat := (Fld.SEM_VAL.COUNT, p, i)
    (w >>> 56 = 0x62 → wRD w = 0 → u.fullDone c = true → u.semQueue p i = [] →
      ∃ t, exec (.axSig c) s = .next t ∧ t = { u with csr := t.csr, cores := t.cores, parts := t.parts } ∧ BitsBut [sem] u t ∧
        t.get Fld.SEM_VAL.COUNT p i = Nat.min (v + n) 0xFFFFFFFF ∧ CoreResult u t c 0 0 (k.pc + 8)) ∧
    (w >>> 56 = 0x63 → wRD w = 0 → u.semQueue p i = [] →
      ∃ t, exec (.axWait c) s = .next t ∧
        (if n ≤ v then
          t = { u with csr := t.csr, cores := t.cores } ∧ BitsBut [sem] u t ∧ t.get Fld.SEM_VAL.COUNT p i = v - n ∧
            t.core c = { k with pc := k.pc + 8, rc := [], semWait := none }
        else
          t = { u with cores := t.cores, parts := t.parts } ∧ t.semQueue p i = [(c.val, n)] ∧
            t.core c = { k with semWait := some (i, n) })) ∧
    (w >>> 56 = 0x64 →
      ∃ t, exec (.axTryw c) s = .next t ∧ t = { u with csr := t.csr, cores := t.cores } ∧ BitsBut [sem] u t ∧
        (if u.semQueue p i = [] ∧ n ≤ v then
          t.get Fld.SEM_VAL.COUNT p i = v - n ∧ t.core c = { k with x := (t.core c).x, pc := k.pc + 8, rc := [] } ∧
            ∀ r, t.x c r = if r = wRD w ∧ r ≠ 0 then 1 else u.x c r
        else t.csr = u.csr ∧ CoreResult u t c (wRD w) 0 (k.pc + 8))) ∧
    (w >>> 56 = 0x65 → wRS1 w = 0 → bits w 31 0 = 0 →
      ∃ t, exec (.axSemrd c) s = .next t ∧ t = { u with cores := t.cores } ∧
        CoreResult u t c (wRD w) (BitVec.ofNat 64 v) (k.pc + 8))) ∧
  ∀ (s : State) (p : Fin 16) (v : Word), Sound s → s.serves 0 = true → bits v.toNat 5 0 < 64 → s.semQueue p (bits v.toNat 5 0) = [] →
    ∃ t, exec (.semSig p v) s = .next t ∧ t = { s with csr := t.csr, parts := t.parts } ∧
      BitsBut [(Fld.SEM_VAL.COUNT, p, bits v.toNat 5 0)] s t ∧
      t.get Fld.SEM_VAL.COUNT p (bits v.toNat 5 0) =
        Nat.min (s.get Fld.SEM_VAL.COUNT p (bits v.toNat 5 0) + bits v.toNat 63 32) 0xFFFFFFFF

/-- R125, R127: POST stages its IMM32 bytes as the core's last record for ring SEL and changes no memory; RDWIN returns the window
time it names within 20 ns. -/
def Obligations.PostAndWindowTime : Prop :=
  (∀ (s u : State) (c : Fin 12) (p w : Nat), Sound u → Runs s u c p w → p < 16 → w >>> 56 = 0x73 →
    bits w 55 51 = 0 → bits w 45 40 = 0 → wSEL w ≤ 15 → wSEL w ∉ [0, 1, 3] →
    let n := bits w 31 0
    let a := u.x c (wRS1 w)
    n % 8 = 0 → 8 ≤ n → n ≤ 256 → a % 8 = 0 → a + n ≤ 2 ^ 42 → u.scalarReach p a n false = true → u.answers a = true →
    (u.core c).stq = [] → (u.part p).staging.length < 8192 → (∀ i, i < n → Clean u (a + i)) →
    ∃ t l, exec (.axPost c) s = .next t ∧ t = { u with cores := t.cores, stks := t.stks, csr := t.csr, parts := t.parts } ∧
      t.csr = u.csr ∧ CoreResult u t c 0 0 ((u.core c).pc + 8) ∧
      t.part p = { u.part p with staging := (u.part p).staging ++ [⟨wSEL w, c.val, l⟩] } ∧ l.length = n ∧
      ∀ i, i < n → l[i]? = some (readByte u (a + i))) ∧
  ∀ (s u : State) (c : Fin 12) (p w : Nat), Sound u → Runs s u c p w → w >>> 56 = 0x74 → bits w 50 40 = 0 → bits w 31 0 = 0 →
    wSEL w ≤ 2 →
    let k := u.part p
    let e : Int := match wSEL w with
      | 0 => (u.now : Int) - k.openAt
      | 1 => (k.openAt : Int) + u.windowNs p - u.eveNs p - u.now
      | _ => (k.openAt : Int) + u.windowNs p - u.now
    ∃ (t : State) (d : Int), exec (.axRdwin c) s = .next t ∧ -20 ≤ d ∧ d ≤ 20 ∧ t = { u with cores := t.cores, free := t.free } ∧
      CoreResult u t c (wRD w) (BitVec.ofInt 64 (e + d)) ((u.core c).pc + 8)

/-- R96, R67, R90, R91: a word whose OP no table defines, and a fetch outside the block, fault: FAULT_REC, where none is recorded,
takes the engine, the code and the place, the core stops, and its partition's step is abandoned with cause fault; no
scalar register and no memory changes. -/
def Obligations.IllegalWordsAndFetchesFault : Prop :=
  (∀ (s u : State) (c : Fin 12) (p w : Nat), Sound u → Runs s u c p w → p < 16 → u.get Fld.FAULT_REC.VALID c = 0 →
    (∀ r ∈ [(0x01, 0x18), (0x20, 0x28), (0x2A, 0x2B), (0x30, 0x37), (0x38, 0x3B), (0x40, 0x45), (0x50, 0x57), (0x58, 0x59),
      (0x60, 0x65), (0x70, 0x74), (0x80, 0x80), (0x88, 0x9A), (0xA0, 0xA4), (0xB0, 0xB6), (0xC0, 0xC1), (0xD0, 0xD3)],
      ¬ (r.1 ≤ w >>> 56 ∧ w >>> 56 ≤ r.2)) →
    ∃ t, exec (.undefinedOpcode c) s = .next t ∧ t.mem = u.mem ∧ (t.core c).x = (u.core c).x ∧ (t.core c).run = .faulted ∧
      t.get Fld.FAULT_REC.VALID c = 1 ∧ t.get Fld.FAULT_REC.ENGINE c = 0 ∧ t.get Fld.FAULT_REC.CODE c = 0x01 ∧
      t.get Fld.FAULT_PC.PC c = (u.core c).pc % 2 ^ 42 ∧ t.get Fld.FAULT_ADDR.ADDR c = 0 ∧
      (t.part p).phase = .abandoning ∧ t.get Fld.STEP_ERR.FAULT p = 1) ∧
  ∀ (s : State) (c : Fin 12) (p : Nat), Sound s → s.runsFor c = some p → p < 16 → s.get Fld.FAULT_REC.VALID c = 0 →
    ((s.core c).pc < (s.core c).body ∨ (s.core c).body + (s.core c).bodyLen < (s.core c).pc + 8) →
    ∃ t, exec (.pcRangeFetch c) s = .next t ∧ t.mem = s.mem ∧ (t.core c).x = (s.core c).x ∧ (t.core c).run = .faulted ∧
      t.get Fld.FAULT_REC.VALID c = 1 ∧ t.get Fld.FAULT_REC.ENGINE c = 5 ∧ t.get Fld.FAULT_REC.CODE c = 0x02 ∧
      t.get Fld.FAULT_PC.PC c = (s.core c).pc % 2 ^ 42 ∧ (t.part p).phase = .abandoning ∧ t.get Fld.STEP_ERR.FAULT p = 1

namespace Sys2Proof.Spec

/-! Engine instructions. -/

/-- Bit b of core c's TRF from slot n on. -/
def trfBit (s : State) (c n b : Nat) : Bool := (byteAt (s.core c).trf (slotBytes * n + b / 8)).getLsbD (b % 8)

/-- Element i of an operand of format f at slot n, packed without padding (R192). -/
def elemCode (s : State) (c n f i : Nat) : Nat :=
  ((List.range (fmtBits f)).map (fun b => if trfBit s c n (fmtBits f * i + b) then 2 ^ b else 0)).sum

/-- n bytes of core c's TRF from slot k, as a number. -/
def trfNum (s : State) (c k a n : Nat) : Nat :=
  ((List.range n).map (fun i => (byteAt (s.core c).trf (slotBytes * k + a + i)).toNat * 256 ^ i)).sum

/-- Core c's engines hold nothing that an instruction would wait for (R77), and its TRF no uncorrectable word (R75). -/
abbrev EnginesIdle (s : State) (c : Nat) : Prop := (s.core c).queue = [] ∧ (s.core c).ftq = [] ∧ (s.core c).trfBad = []

/-- The queue entry of an engine instruction: what it captures on entry (R76, R132). -/
def entryOf (s : State) (c : Fin 12) (g : Eng) (w : Nat) (regs tds : List Nat) : QEntry :=
  { seq := (s.core c).seq, eng := g, word := w, pc := (s.core c).pc, vl := (s.core c).vl, vrow := (s.core c).vrow
    regs := regs.map (xw s c), tds := tds.map (nth ⟨false, 0⟩ (s.core c).td), item := none }

/-- Source element that element i reads: its own, the first, or the row's (R83). -/
def modeAt (mode vrow i : Nat) : Nat := match mode with | 0 => i | 1 => 0 | _ => i % vrow

/-- A result of an FP32 function, rounded to FP32 first (R179). -/
def viaFP32 (r : FV × Nat) : FV × Nat := (of32 (narrow 0 r.1).1, r.2 ||| (narrow 0 r.1).2)

/-- R138: OP, command, the exact value and flags from elements of A, B and the old destination. -/
def vectorOps : List (Nat × (Fin 12 → Instr) × (FV → FV → FV → FV × Nat)) :=
  [(0x88, .axVadd, fun a b _ => fvAdd a b), (0x89, .axVsub, fun a b _ => fvAdd a (fvNeg b)), (0x8A, .axVmul, fun a b _ => fvMul a b),
   (0x8B, .axVmac, fun a b d => fvFma a b d), (0x8C, .axVmax, fun a b _ => (fvMax a b, 0)), (0x8D, .axVmin, fun a b _ => (fvMin a b, 0)),
   (0x8E, .axVcvt, fun a _ _ => (a, 0)), (0x8F, .axVexp, fun a b _ => viaFP32 (f32ExpDiff (narrow 0 a).1 (narrow 0 b).1)),
   (0x90, .axVlog, fun a _ _ => viaFP32 (fvLog a)), (0x91, .axVrcp, fun a _ _ => viaFP32 (fvRcp a)),
   (0x92, .axVrsq, fun a _ _ => viaFP32 (fvRsq a))]

/-- R139: OP, command, the reduction of a row to a value and flags. -/
def rowOps : List (Nat × (Fin 12 → Instr) × (List FV → FV × Nat)) :=
  [(0x93, .axVrsum, fun l => let r := pairSum (l.map (fun v => (narrow 0 v).1)); (of32 r.1, r.2)),
   (0x94, .axVrmax, fun l => ((l.drop 1).foldl fvMax (l.headD .nan), 0)),
   (0x95, .axVrssq, fun l =>
      let sq := l.map (fun v => to32 (fvMul v v))
      let r := pairSum (sq.map Prod.fst)
      (of32 r.1, sq.foldl (fun a q => a ||| q.2) r.2))]

/-- The flags of the first n results. -/
def flagsOf (n : Nat) (r : Nat → Nat × Nat) : Nat := (List.range n).foldl (fun a i => a ||| (r i).2) 0

/-- Corrected words of the operands read are counted (R75), and the count holds at its maximum. -/
def EccCounted (u t : State) (c : Fin 12) (rd : List Ext) : Prop :=
  t.get Fld.ECC_STAT.TRF_CE c =
    Nat.min (u.get Fld.ECC_STAT.TRF_CE c + ((u.core c).trfCe.filter (fun x => rd.any (fun e => e.holds x))).length) 0xFFFF

/-- Of the partitions nothing changes but counter i of partition p, which grows by the engine's time (R367). -/
def OnlyTime (u t : State) (p i : Nat) : Prop :=
  t.parts = (u.account (some p) i (nth 0 (t.part p).acc i - nth 0 (u.part p).acc i)).parts

/-- A vector instruction is done: n results of format f stand at its destination, their flags and fl are in FP_FLAGS, the
generator is sd, the program counter is at the next word; no other byte of the TRF but those at extra, and nothing else
of the block, has changed but the counts of corrected words and of the engine's time. -/
def VecResult (u t : State) (c : Fin 12) (p w n : Nat) (r : Nat → Nat × Nat) (fl : Nat) (sd : Word) (extra : Nat × Nat) : Prop :=
  let k := u.core c
  t = { u with cores := t.cores, csr := t.csr, parts := t.parts } ∧ OnlyTime u t p 1 ∧ (∀ d, d ≠ c.val → t.core d = u.core d) ∧
    t.core c = { k with pc := k.pc + 8, seq := k.seq + 1, seed := sd, trf := (t.core c).trf, trfCe := (t.core c).trfCe } ∧
    EccCounted u t c (entryOf u c .ve w [vRS w] []).vReads ∧
    BitsBut [(⟨Reg.FP_FLAGS, 5, 0⟩, c, 0), (Fld.ECC_STAT.TRF_CE, c, 0)] u t ∧ t.word Reg.FP_FLAGS c 0 = u.word Reg.FP_FLAGS c 0 ||| (fl ||| flagsOf n r) ∧
    (∀ i, i < n → elemCode t c (wSlot w) (vDFMT w) i = (r i).1) ∧
    ∀ b, (b < slotBytes * wSlot w ∨ slotBytes * wSlot w + elemBytes (vDFMT w) n ≤ b) → (b < extra.1 ∨ extra.1 + extra.2 ≤ b) →
      byteAt (t.core c).trf b = byteAt k.trf b

/-- A byte as core c's reads see it: of a line its read cache holds where the read goes through the cache, else as its point of
coherence holds it (R85, R87). -/
def viewByte (s : State) (c : Nat) (cached : Bool) (a : Nat) : Byte :=
  match placeOf a, smFind (s.core c).rc (a / 64) with
  | .data _ _, some (d, _) => if cached then BitVec.ofNat 8 (d.toNat >>> (8 * (a % 64))) else readByte s a
  | _, _ => readByte s a

/-- Bit k from an address as core c's reads see it. -/
def viewBit (s : State) (c : Nat) (cached : Bool) (a k : Nat) : Bool := (viewByte s c cached (a + k / 8)).getLsbD (k % 8)

/-- Whether a line reads without error as core c's reads see it. -/
def lineSoundAt (s : State) (c : Nat) (cached : Bool) (ln : Nat) : Bool :=
  match smFind (s.core c).rc ln with
  | some (_, bad) => if cached then !bad else cleanAt s (64 * ln)
  | none => cleanAt s (64 * ln)

/-- A line that core c reads without error. -/
abbrev lineSound (s : State) (c : Nat) (cached : Bool) (ln : Nat) : Prop := lineSoundAt s c cached ln = true

/-- Whether the lines that core c reads through its cache find room there, each set of its ways taking all of them (R85). -/
def roomFor (s : State) (c : Nat) (lines : List Nat) : Bool :=
  let all := ((s.core c).rc.map Prod.fst ++ lines).eraseDups
  lines.all (fun ln => decide ((all.filter (fun x => x % 1024 == ln % 1024)).length ≤ 8))

/-- Whether what core c's cache holds of some lines is what the stacks hold, without error. -/
def heldAsStored (s : State) (c : Nat) (lines : List Nat) : Bool :=
  lines.all (fun ln =>
    match smFind (s.core c).rc ln with
    | some (d, bad) => !bad && cleanAt s (64 * ln) &&
        (List.range 64).all (fun i => BitVec.ofNat 8 (d.toNat >>> (8 * i)) == readByte s (64 * ln + i))
    | none => true)

/-- No line that an instruction reads through its core's cache is given up by the cache before it is read, or none differs there
from what the stacks hold (which line a full set gives up is a free choice; log entry 38). -/
abbrev Settled (s : State) (c : Nat) (lines : List Nat) : Prop := roomFor s c lines = true ∨ heldAsStored s c lines = true

/-- Lines of granules. -/
def linesOf (gs : List Nat) : List Nat := gs.flatMap (fun g => (List.range 64).map (fun k => 64 * g + k))

/-- Whether a granule passes the checks of a compute use (R284, R285): its domain answers, its lines read without error, and
its checksum is that of the data delivered, or it is unwritten, or open and the use unchecked. -/
def computeOkAt (s : State) (c : Nat) (cached unchecked : Bool) (g : Nat) : Bool :=
  match placeOf (4096 * g) with
  | .data t _ =>
    s.stackUp t && (List.range 64).all (fun k => lineSoundAt s c cached (64 * g + k)) &&
      (match (s.granule g).state with
        | .unwritten => true
        | .opened => unchecked
        | .shut => (smFind s.csumBad g).isNone &&
            crc32c ((List.range 4096).map (fun i => viewByte s c cached (4096 * g + i))) == (s.granule g).crc.toNat)
  | .sbuf d _ => s.serves d
  | _ => false

/-- A granule that passes the checks of a compute use. -/
abbrev ComputeOk (s : State) (c : Nat) (cached unchecked : Bool) (g : Nat) : Prop := computeOkAt s c cached unchecked g = true

/-- Pieces of memory (address, bytes) that do not overlap one another. -/
abbrev Apart (l : List (Nat × Nat)) : Prop := l.Pairwise (fun x y => x.1 + x.2 ≤ y.1 ∨ y.1 + y.2 ≤ x.1)

/-- Whether address a lies in none of the pieces. -/
abbrev Outside (l : List (Nat × Nat)) (a : Nat) : Prop := ∀ x ∈ l, a < x.1 ∨ x.1 + x.2 ≤ a

/-- Pieces whose lines hold no error and whose stacks have no flip armed. -/
abbrev WriteOk (s : State) (l : List (Nat × Nat)) : Prop := ∀ x ∈ l, ∀ a, x.1 ≤ a → a < x.1 + x.2 → Clean s a ∧ Unarmed s a

/-- Checksum state after writes by an engine (R152, R283): a granule of a stack that the pieces touch is left open, but with
sealing one that they cover in full is shut with the checksum of its data. -/
def GranulesAfter (t : State) (l : List (Nat × Nat)) (sealing : Bool) : Prop :=
  ∀ a, ¬ Outside l a → ∀ st o, placeOf a = .data st o →
    let g := a / 4096
    let whole := sealing = true ∧ ∀ b, b < 4096 → ¬ Outside l (4096 * g + b)
    (whole → (t.granule g).state = .shut ∧
      (t.granule g).crc.toNat = crc32c ((List.range 4096).map (fun i => readByte t (4096 * g + i)))) ∧
    (¬ whole → (t.granule g).state = .opened)

/-- What a transfer that reads the operands rd of the TRF leaves of the block: nothing changes but core c's engine state and read
cache, requests at the stacks, cache counters, the count of corrected words and index registers, and memory with its metadata. -/
def TransferFrame (u t : State) (c : Fin 12) (rd : List Ext) : Prop :=
  let k := u.core c
  t = { u with
      cores := t.cores, stks := t.stks, csr := t.csr, mem := t.mem, gran := t.gran, ecc := t.ecc, metaFlip := t.metaFlip
      flipped := t.flipped, sealing := t.sealing, csumBad := t.csumBad, free := t.free } ∧
    (∀ d, d ≠ c.val → t.core d = u.core d) ∧
    t.core c = { k with pc := k.pc + 8, seq := k.seq + 1, trf := (t.core c).trf, trfCe := (t.core c).trfCe, rc := (t.core c).rc } ∧
    EccCounted u t c rd ∧
    BitsBut [(Fld.RC_HITS.HITS, c, 0), (Fld.RC_MISSES.MISSES, c, 0), (Fld.IDX_OOB.FLAG, c, 0), (Fld.IDX_OOB_CNT.COUNT, c, 0),
      (Fld.ECC_STAT.TRF_CE, c, 0)] u t

/-- No byte of memory and no metadata of it differs. -/
def SameMemory (s t : State) : Prop :=
  t.mem = s.mem ∧ t.gran = s.gran ∧ t.ecc = s.ecc ∧ t.metaFlip = s.metaFlip ∧ t.flipped = s.flipped ∧ t.csumBad = s.csumBad

/-- Pieces of the rows of dimension 0 of a descriptor. -/
def rowsOf (d : Desc) (base : Nat) : List (Nat × Nat) := (d.rowAddrs base).map (fun a => (a, d.rowBytes))

/-- Bit i of a descriptor's image in memory, as core c's reads see it (R193: rows packed without padding). -/
def imageBit (s : State) (c : Nat) (cached : Bool) (d : Desc) (base i : Nat) : Bool :=
  viewBit s c cached (nth 0 (d.rowAddrs base) (i / d.rowBits)) (i % d.rowBits)

/-- Bit k of row j of a descriptor (R148), as core c's reads see it. -/
def rowBit (s : State) (c : Nat) (cached : Bool) (d : Desc) (base j k : Nat) : Bool :=
  if d.rank = 1 then viewBit s c cached (base + j * d.width / 8) k
  else viewBit s c cached (nth 0 (d.subRows base j) (k / d.rowBits)) (k % d.rowBits)

/-- Address of element m of row j of a descriptor whose elements are whole bytes. -/
def rowElem (d : Desc) (base j m : Nat) : Nat :=
  if d.rank = 1 then base + j * d.width / 8
  else nth 0 (d.subRows base j) (m / nth 0 d.ext 0) + m % nth 0 d.ext 0 * (d.width / 8)

/-- Index i of an index descriptor, signed, read as a plain load (R148). -/
def indexAt (s : State) (c : Nat) (base i : Nat) : Int :=
  let b := bit (s.core c).cfg 16
  (BitVec.ofNat 32 (((List.range 4).map (fun k => (viewByte s c b (base + 4 * i + k)).toNat * 256 ^ k)).sum)).toInt

/-- The row index i names, none where it is out of range (R149). -/
def rowAt (s : State) (c : Nat) (table d : Desc) (base i : Nat) : Option Nat := resolveIdx d.wrap table.outer (indexAt s c base i)

/-- The indices out of range among the first n. -/
def oobOf (s : State) (c : Nat) (table d : Desc) (base n : Nat) : Nat :=
  ((List.range n).filter (fun i => (rowAt s c table d base i).isNone)).length

/-- An old element and an addend, summed in FP32 and rounded to the format (R151). -/
def summed (f old x : Nat) : Nat := (narrow f (of32 (to32 (fvAdd (decodeFmt f old) (decodeFmt f x))).1)).1

/-- IDX_OOB and IDX_OOB_CNT after n indices out of range (R149). -/
def OobCounted (u t : State) (c : Fin 12) (n : Nat) : Prop :=
  (t.get Fld.IDX_OOB.FLAG c = if n = 0 then u.get Fld.IDX_OOB.FLAG c else 1) ∧
    t.get Fld.IDX_OOB_CNT.COUNT c = Nat.min (u.get Fld.IDX_OOB_CNT.COUNT c + n) 0xFFFFFFFF

/-- The tag bits of a PISSUE queued or incomplete (R159). -/
abbrev TagFree (s : State) (c : Fin 12) (t : Nat) : Prop :=
  (∀ e ∈ (s.core c).queue, ¬ (e.word >>> 56 = 0xD1 ∧ bits e.word 20 17 = t)) ∧
    ∀ b ∈ s.batches, ¬ (b.item = none ∧ b.core = c.val ∧ b.tag = t)

/-- The tag bits of a phase queued or incomplete (R155). -/
abbrev PhaseFree (s : State) (c : Fin 12) (t : Nat) : Prop :=
  (∀ e ∈ (s.core c).queue, ¬ (e.word >>> 56 = 0xC0 ∧ wSEL e.word = t)) ∧
    ∀ b ∈ s.colls, ¬ (b.item = none ∧ b.core = c.val ∧ b.tag = t)

end Sys2Proof.Spec

/-- R83, R138, R142, R173, R179: an element-wise vector instruction that nothing makes wait gives each of its VL elements the
operation's value, rounded to DFMT once, or with the element's draw where SR is set. -/
def Obligations.VectorElementInstructions : Prop :=
  ∀ e ∈ vectorOps, ∀ (s u : State) (c : Fin 12) (p w : Nat),
    Sound u → Runs s u c p w → EnginesIdle u c → w >>> 56 = e.1 → lgV e.1 w = true → 1 ≤ (u.core c).vrow →
    (let q := entryOf u c .ve w [vRS w] []; trfRange (q.vReads ++ q.vWrites) = none) →
    let k := u.core c
    let f := vDFMT w
    let A := fun i => decodeFmt (vAFMT w) (elemCode u c (vSA w) (vAFMT w) (modeAt (vAMODE w) k.vrow i))
    let B := fun i => decodeFmt (vBFMT w) (elemCode u c (vSB w) (vBFMT w) (modeAt (vBMODE w) k.vrow i))
    let D := fun i => decodeFmt f (elemCode u c (wSlot w) f i)
    let r := fun i =>
      let v := e.2.2 (A i) (B i) (D i)
      let n := if vSR w then narrowSR f (srDraw (srAdvanceN (i + 1) k.seed)) v.1 else narrow f v.1
      (n.1, v.2 ||| n.2)
    ∃ t, exec (e.2.1 c) s = .next t ∧ VecResult u t c p w k.vl r 0 (if vSR w then srAdvanceN k.vl k.seed else k.seed) (0, 0)

/-- R138, R139, R140, R168, R169, R180: row reductions give one result for each row of VROW elements; VSPLAT gives FP32 RS to every
element; VMXD scales each element by its block's scale; VMLE and VMGE keep an element by its column less its row; VMXQ
gives each block of 32 elements a scale and codes. -/
def Obligations.VectorRowScaleAndMaskInstructions : Prop :=
  ∀ (s u : State) (c : Fin 12) (p w : Nat), Sound u → Runs s u c p w → EnginesIdle u c → lgV (w >>> 56) w = true → 1 ≤ (u.core c).vrow →
    (let q := entryOf u c .ve w [vRS w] []; trfRange (q.vReads ++ q.vWrites) = none) →
    let k := u.core c
    let f := vDFMT w
    let A := fun i => decodeFmt (vAFMT w) (elemCode u c (vSA w) (vAFMT w) (modeAt (vAMODE w) k.vrow i))
    let row := fun i => ((i % k.vrow : Nat) : Int) - ((i / k.vrow : Nat) : Int)
    (∀ e ∈ rowOps, w >>> 56 = e.1 →
      ∃ t, exec (e.2.1 c) s = .next t ∧
        VecResult u t c p w (ceilDiv k.vl k.vrow)
          (fun j =>
            let v := e.2.2 ((List.range (Nat.min k.vrow (k.vl - j * k.vrow))).map (fun i => A (j * k.vrow + i)))
            ((narrow f v.1).1, v.2 ||| (narrow f v.1).2)) 0 k.seed (0, 0)) ∧
    (w >>> 56 = 0x96 →
      ∃ t, exec (.axVsplat c) s = .next t ∧ VecResult u t c p w k.vl (fun _ => narrow f (of32 (xlow u c (vRS w)))) 0 k.seed (0, 0)) ∧
    (w >>> 56 = 0x98 →
      ∃ t, exec (.axVmxd c) s = .next t ∧
        VecResult u t c p w k.vl (fun i =>
          narrow f (fvScaled (A i) (byteAt k.trf (slotBytes * vSB w + modeAt (vAMODE w) k.vrow i / 32)).toNat)) 0 k.seed (0, 0)) ∧
    (∀ ge : Bool, w >>> 56 = (if ge then 0x9A else 0x99) →
      ∃ t, exec (if ge then .axVmge c else .axVmle c) s = .next t ∧
        VecResult u t c p w k.vl (fun i =>
          let lim := (xw u c (vRS w)).toInt
          if (if ge then lim ≤ row i else row i ≤ lim) then narrow f (A i) else ((narrow f (.inf true)).1, 0)) 0 k.seed (0, 0)) ∧
    (w >>> 56 = 0x97 →
      let n := ceilDiv k.vl 32
      (slotBytes * wSlot w + elemBytes f k.vl ≤ slotBytes * vSB w ∨ slotBytes * vSB w + n ≤ slotBytes * wSlot w) →
      let q := fun j =>
        let m := Nat.min 32 (k.vl - 32 * j)
        mxQuant f ((List.range m).map (fun i => A (32 * j + i)))
          (if vSR w then (List.range m).map (fun i => srDraw (srAdvanceN (32 * j + i + 1) k.seed)) else [])
      ∃ t, exec (.axVmxq c) s = .next t ∧
        VecResult u t c p w k.vl (fun i => (nth 0 (q (i / 32)).2.1 (i % 32), 0)) ((List.range n).foldl (fun a j => a ||| (q j).2.2) 0)
          (if vSR w then srAdvanceN k.vl k.seed else k.seed) (slotBytes * vSB w, n) ∧
        ∀ j, j < n → (byteAt (t.core c).trf (slotBytes * vSB w + j)).toNat = (q j).1)

/-- R132–R137, R167, R175: MMA and FTQ_DRAIN complete: an MMA that nothing makes wait adds its KL steps to the accumulators of its bank in
groups of 32, from zero where ACC is clear, and with FIN writes the drained tile to its slots; a finished tile in the queue reaches its slots by
FTQ_DRAIN. -/
def Obligations.MatrixProduct : Prop :=
  (∀ (s u : State) (c : Fin 12) (p w : Nat), Sound u → Runs s u c p w → EnginesIdle u c → w >>> 56 = 0x80 → lgMma w = true →
    (let q := entryOf u c .mxu w [bits w 46 42, bits w 41 37, bits w 36 32] []; trfRange (q.mReads ++ q.mWrites) = none) →
    let k := u.core c
    let lf := aLFMT w
    let rf := aRFMT w
    let lo := MOperand.of (u.x c (bits w 46 42)) lf
    let ro := MOperand.of (u.x c (bits w 41 37)) rf
    let groups := bits (u.x c (bits w 36 32)) 11 0
    let old := if aBANK w then k.acc1 else k.acc0
    let el := fun (o : MOperand) f n step i => decodeFmt f (elemCode u c o.vslot f ((o.k0 + step) * n + i))
    let sc := fun (o : MOperand) n g i => if o.scaled then (byteAt k.trf (slotBytes * o.sslot + (o.k0 / 32 + g) * n + i)).toNat else 127
    let cell := fun row col => (List.range groups).foldl (fun a g =>
      let prods := (List.range 32).map (fun j => (el lo lf 128 (32 * g + j) row, el ro rf 512 (32 * g + j) col))
      if lf = 0 ∨ rf = 0 then stepAcc a (prods.map (fun x => (fvScaled x.1 (sc lo 128 g row), fvScaled x.2 (sc ro 512 g col))))
      else groupAcc a prods (sc lo 128 g row) (sc ro 512 g col))
      (if aACC w then smGet 0 old (512 * row + col) else 0)
    ∃ t, exec (.axMma c) s = .next t ∧ t = { u with cores := t.cores, csr := t.csr, parts := t.parts } ∧ OnlyTime u t p 0 ∧
      (∀ d, d ≠ c.val → t.core d = u.core d) ∧
      t.core c = { k with
        pc := k.pc + 8, seq := k.seq + 1, trf := (t.core c).trf, trfCe := (t.core c).trfCe
        acc0 := if aBANK w then k.acc0 else (t.core c).acc0, acc1 := if aBANK w then (t.core c).acc1 else k.acc1 } ∧
      EccCounted u t c (entryOf u c .mxu w [bits w 46 42, bits w 41 37, bits w 36 32] []).mReads ∧
      BitsBut [(⟨Reg.FP_FLAGS, 5, 0⟩, c, 0), (Fld.ECC_STAT.TRF_CE, c, 0)] u t ∧
      (∀ row col, row < 128 → col < 512 →
        smGet 0 (if aBANK w then (t.core c).acc1 else (t.core c).acc0) (512 * row + col) = cell row col ∧
        (aFIN w = true → elemCode t c (wSlot w) (aDFMT w) (512 * row + col) = (narrow (aDFMT w) (of32 (cell row col))).1)) ∧
      (aFIN w = false → (t.core c).trf = k.trf ∧ t.word Reg.FP_FLAGS c 0 = u.word Reg.FP_FLAGS c 0) ∧
      ∀ b, (b < slotBytes * wSlot w ∨ slotBytes * wSlot w + tileBytes (aDFMT w) ≤ b) → byteAt (t.core c).trf b = byteAt k.trf b) ∧
  ∀ (s : State) (c : Fin 12) (e : Tile) (rest : List Tile), Sound s → (s.core c).ftq = e :: rest → (s.core c).queue = [] →
    (∀ r ∈ rest, e.seq ≤ r.seq) →
    let from_ := (if c.val < 6 then 0x20000000000 else 0x21000000000) + (bits (s.core c).cfg 7 0 + e.entry) * 262144
    ∃ t, exec (.ftqDrain c) s = .next t ∧ t = { s with cores := t.cores } ∧ (∀ d, d ≠ c.val → t.core d = s.core d) ∧
      t.core c = { s.core c with ftq := rest, trf := (t.core c).trf, trfBad := (t.core c).trfBad, trfCe := (t.core c).trfCe } ∧
      (∀ i, i < e.size → byteAt (t.core c).trf (slotBytes * e.dst + i) = byteAt s.mem (from_ + i)) ∧
      BytesBut (s.core c).trf (t.core c).trf (slotBytes * e.dst) e.size

/-- R71, R143, R144, R200: TDLD and TDSET create a descriptor register from 64 bytes of memory and from a changed word, and where a
check of creation fails leave it invalid and fault with DESC_REJECT; TDMOV copies a valid one, TDINV clears the VALID bit,
TDST queues the 64 bytes as one store; a use of an invalid one faults with DESC_INVALID and its number. -/
def Obligations.DescriptorInstructions : Prop :=
  ∀ (s u : State) (c : Fin 12) (p w : Nat), Sound u → Runs s u c p w →
    let k := u.core c
    let n := wRD w
    let old := nth ⟨false, 0⟩ k.td n
    let moved := fun (t : State) (td : TD) =>
      (∀ d, d ≠ c.val → t.core d = u.core d) ∧ t.core c = { k with pc := k.pc + 8, td := setNth k.td n td, rc := (t.core c).rc }
    let stopped := fun (t : State) (code addr : Nat) =>
      t.mem = u.mem ∧ (t.core c).run = .faulted ∧ (t.core c).x = k.x ∧ (t.core c).pc = k.pc ∧
        (u.get Fld.FAULT_REC.VALID c = 0 →
          t.get Fld.FAULT_REC.CODE c = code ∧ t.get Fld.FAULT_REC.ENGINE c = 0 ∧ t.get Fld.FAULT_ADDR.ADDR c = addr)
    (w >>> 56 = 0xA0 → bits w 45 32 = 0 →
      let a := mAddr u c w
      let raw := ((List.range 64).map (fun i => (viewByte u c (bit k.cfg 16) (a + i)).toNat * 256 ^ i)).sum
      a % 64 = 0 → a + 64 ≤ 2 ^ 42 → u.scalarReach p a 64 false = true → u.answers a = true → k.storeOverlaps a 64 = false →
      lineSound u c (bit k.cfg 16) (a / 64) → lineSound u c (bit k.cfg 16) (a / 64 + 1) →
      ∃ t, exec (.axTdld c) s = .next t ∧
        if u.createOk p raw then
          t = { u with cores := t.cores, stks := t.stks, csr := t.csr, free := t.free } ∧ moved t ⟨true, BitVec.ofNat 512 raw⟩ ∧
            BitsBut [(Fld.RC_HITS.HITS, c, 0), (Fld.RC_MISSES.MISSES, c, 0)] u t
        else stopped t 0x06 0 ∧ (t.core c).td = setNth k.td n ⟨false, BitVec.ofNat 512 raw⟩) ∧
    (w >>> 56 = 0xA1 → bits w 50 46 = 0 → bits w 36 0 = 0 → bits w 40 37 ≤ 7 →
      let i := bits w 40 37
      let raw := setBits old.raw.toNat (64 * i + 63) (64 * i) (u.x c (wRS2 w))
      ∃ t, exec (.axTdset c) s = .next t ∧
        if old.valid = false then stopped t 0x05 n ∧ (t.core c).td = k.td
        else if u.createOk p raw then t = { u with cores := t.cores } ∧ moved t ⟨true, BitVec.ofNat 512 raw⟩
        else stopped t 0x06 0 ∧ (t.core c).td = setNth k.td n ⟨false, BitVec.ofNat 512 raw⟩) ∧
    (w >>> 56 = 0xA2 → bits w 50 46 = 0 → bits w 40 0 = 0 →
      let src := nth ⟨false, 0⟩ k.td (wRS2 w)
      ∃ t, exec (.axTdmov c) s = .next t ∧
        if src.valid then t = { u with cores := t.cores } ∧ moved t src else stopped t 0x05 (wRS2 w) ∧ (t.core c).td = k.td) ∧
    (w >>> 56 = 0xA3 → bits w 50 0 = 0 →
      ∃ t, exec (.axTdinv c) s = .next t ∧ t = { u with cores := t.cores } ∧ moved t { old with valid := false }) ∧
    (w >>> 56 = 0xA4 → bits w 45 32 = 0 →
      let a := mAddr u c w
      a % 64 = 0 → a + 64 ≤ 2 ^ 42 → u.scalarReach p a 64 true = true → u.answers a = true → k.stq.length < 16 →
      ∃ t, exec (.axTdst c) s = .next t ∧ t = { u with cores := t.cores } ∧ (∀ d, d ≠ c.val → t.core d = u.core d) ∧
        t.core c = { k with pc := k.pc + 8, stq := k.stq ++ [⟨k.pc, a, 64, old.raw.toNat⟩] })

/-- R185–R200: 64 bytes pass creation for a partition only where every row of dimension 0, in each half of a generation pair,
lies wholly in the partition's own ranges, in ranges it may read where the mode is READ, or in its shared buffer
allocation of one die. -/
def Obligations.CreatedDescriptorsStayInTheirRanges : Prop :=
  ∀ (s : State) (p raw : Nat), s.createOk p raw = true →
    let d := s.descOf raw
    0 < d.count → ∀ a ∈ d.rowAddrs d.base, ∀ h ∈ [0, if d.genPair then d.pairBytes else 0], ∀ b, a + h ≤ b → b < a + h + d.rowBytes →
      b ≤ 0x3FFFFFFFFFF ∧
        match placeOf b with
        | .data t o => s.owns p t (o >>> 21) = true ∨ (d.mode = 0 ∧ s.mapsUnit p t (o >>> 21) = true)
        | .sbuf die o => s.sbHas p die o o = true ∧ d.genPair = false
        | _ => False

/-- R146, R152, R188, R197: XLD brings a descriptor's elements to its slots, packed; XST and XMOV replace or add to every element
they name, and leave every other byte; XPF brings the lines of its descriptor into the read cache. -/
def Obligations.Transfers : Prop :=
  ∀ (s u : State) (c : Fin 12) (p w : Nat), Sound u → Runs s u c p w → EnginesIdle u c → u.inEve p = false → bits w 30 0 = 0 →
    let k := u.core c
    let slot := wSlot w
    let ta := nth ⟨false, 0⟩ k.td (xTDA w)
    let tb := nth ⟨false, 0⟩ k.td (xTDB w)
    let a := u.descOf ta.raw.toNat
    let b := u.descOf tb.raw.toNat
    let ca := a.cache && bit k.cfg 16
    let readable := fun (d : Desc) => d.mode = 0 ∨ d.mode = 1
    let gs := a.granules (u.readBase p a)
    let after := 64 * (maxList gs + 1)
    let readOk := 0 < a.count ∧ u.answers (u.readBase p a) = true ∧ (∀ g ∈ gs, ComputeOk u c ca a.unchecked g) ∧
      (ca = true → lineSound u c true after ∧ Settled u c (after :: linesOf gs))
    let slots := [(⟨slot, a.size⟩ : Ext)]
    let writeOk := fun (d : Desc) => 0 < d.count ∧ (d.mode = 1 ∨ d.mode = 2 ∧ d.kind = 0 ∧ d.fmt ≤ 2) ∧ u.answers (u.writeBase p d) = true ∧
      Apart (rowsOf d (u.writeBase p d)) ∧ WriteOk u (rowsOf d (u.writeBase p d))
    let written := fun (t : State) (d : Desc) (image : Nat → Bool) =>
      let l := rowsOf d (u.writeBase p d)
      (if d.mode = 1 then
        ∀ i, i < d.count * d.width → viewBit t c false (nth 0 (d.rowAddrs (u.writeBase p d)) (i / d.rowBits)) (i % d.rowBits) = image i
      else
        ∀ r, r < l.length → ∀ e, e < nth 0 d.ext 0 →
          let at_ := nth 0 (d.rowAddrs (u.writeBase p d)) r + e * (d.width / 8)
          readBytesOf t at_ (d.width / 8) = summed d.fmt (readBytesOf u at_ (d.width / 8))
            ((List.range d.width).map (fun i => if image ((r * nth 0 d.ext 0 + e) * d.width + i) then 2 ^ i else 0)).sum) ∧
      (∀ x, Outside l x → readByte t x = readByte u x) ∧ GranulesAfter t l (decide (d.mode = 1)) ∧ (t.core c).trf = k.trf
    (w >>> 56 = 0xB0 → bits w 41 31 = 0 → slot * slotBytes + a.size ≤ slotCount * slotBytes → slot < slotCount →
      ta.valid = true → readable a → readOk →
      ∃ t, exec (.axXld c) s = .next t ∧ TransferFrame u t c [] ∧ SameMemory u t ∧
        (∀ i, i < a.count * a.width → trfBit t c slot i = imageBit u c ca a (u.readBase p a) i) ∧
        BytesBut k.trf (t.core c).trf (slotBytes * slot) a.size) ∧
    (w >>> 56 = 0xB1 → bits w 41 31 = 0 → slot * slotBytes + a.size ≤ slotCount * slotBytes → slot < slotCount →
      ta.valid = true → writeOk a →
      ∃ t, exec (.axXst c) s = .next t ∧ TransferFrame u t c slots ∧ BitsBut [(Fld.ECC_STAT.TRF_CE, c, 0)] u t ∧ written t a (trfBit u c slot)) ∧
    (w >>> 56 = 0xB2 → slot = 0 → bits w 36 31 = 0 → ta.valid = true → tb.valid = true → a.width = b.width → a.count = b.count →
      readable a → readOk → writeOk b →
      ∃ t, exec (.axXmov c) s = .next t ∧ TransferFrame u t c [] ∧ written t b (imageBit u c ca a (u.readBase p a))) ∧
    (w >>> 56 = 0xB6 → slot = 0 → bits w 41 31 = 0 → ta.valid = true → readable a → 0 < a.count → u.answers (u.readBase p a) = true →
      (∀ x ∈ rowsOf a (u.readBase p a), ∀ y, x.1 ≤ y → y < x.1 + x.2 → lineSound u c true (y / 64)) →
      roomFor u c ((rowsOf a (u.readBase p a)).flatMap (fun x => (List.range ((x.1 + x.2 - 1) / 64 - x.1 / 64 + 1)).map (x.1 / 64 + ·))) = true →
      ∃ t, exec (.axXpf c) s = .next t ∧ TransferFrame u t c [] ∧ SameMemory u t ∧ (t.core c).trf = k.trf ∧
        ∀ st o, placeOf (u.readBase p a) = .data st o → bit k.cfg 16 = true →
          ∀ x ∈ rowsOf a (u.readBase p a), ∀ y, x.1 ≤ y → y < x.1 + x.2 →
            ∃ d, smFind (t.core c).rc (y / 64) = some (d, false) ∧
              (smFind k.rc (y / 64) = none → ∀ i, i < 64 →
                BitVec.ofNat 8 (d.toNat >>> (8 * i)) = readByte u (64 * (y / 64) + i)))

/-- R148–R152, R198: XGATH and XGATM copy the rows their indices name, in index order, a zero row for an index out of range, to the
slots and to the rows of TDC; XSCAT stores or adds its rows to the rows its indices name. Out-of-range indices are
counted, and every other byte stays. The indices of a scatter name different rows. -/
def Obligations.GathersAndScatters : Prop :=
  ∀ (s u : State) (c : Fin 12) (p w : Nat), Sound u → Runs s u c p w → EnginesIdle u c → u.inEve p = false → bits w 30 0 = 0 →
    let k := u.core c
    let slot := wSlot w
    let ta := nth ⟨false, 0⟩ k.td (xTDA w)
    let tb := nth ⟨false, 0⟩ k.td (xTDB w)
    let tc := nth ⟨false, 0⟩ k.td (xTDC w)
    let a := u.descOf ta.raw.toNat
    let b := u.descOf tb.raw.toNat
    let d := u.descOf tc.raw.toNat
    let n := b.count
    let ib := u.readBase p b
    let ca := a.cache && bit k.cfg 16
    let row := rowAt u c a b ib
    ta.valid = true → tb.valid = true → b.kind = 1 → (b.mode = 0 ∨ b.mode = 1) → 0 < n → ib % 64 = 0 → u.answers ib = true →
    (let il := if bit k.cfg 16 then (List.range n).map (fun i => (ib + 4 * i) / 64) else []
     let rows := if ca then (List.range n).flatMap (fun i => match row i with
        | some j => (a.rowPieces (u.readBase p a) j).flatMap (fun x => linesOf (granulesOf x.1 x.2))
        | none => []) else []
     Settled u c (il ++ rows)) →
    (∀ i, i < n → lineSound u c (bit k.cfg 16) ((ib + 4 * i) / 64)) → (b.strict = true → ∀ i, i < n → (row i).isSome = true) →
    (let rb := u.readBase p a
     (a.mode = 0 ∨ a.mode = 1) → a.kind ≠ 3 → a.subByteRow = false → u.answers rb = true →
     (∀ i j, i < n → row i = some j → ∀ x ∈ a.rowPieces rb j, ∀ g ∈ granulesOf x.1 x.2, ComputeOk u c ca a.unchecked g) →
      (w >>> 56 = 0xB3 → bits w 36 31 = 0 → slot < slotCount → slot * slotBytes + ceilDiv (n * a.outerBits) 8 ≤ slotCount * slotBytes →
        ∃ t, exec (.axXgath c) s = .next t ∧ TransferFrame u t c [] ∧ SameMemory u t ∧
          (∀ i m, i < n → m < a.outerBits →
            trfBit t c slot (i * a.outerBits + m) = match row i with | some j => rowBit u c ca a rb j m | none => false) ∧
          BytesBut k.trf (t.core c).trf (slotBytes * slot) (ceilDiv (n * a.outerBits) 8) ∧ OobCounted u t c (oobOf u c a b ib n)) ∧
      (let wb := u.writeBase p d
       let l := (List.range n).flatMap (fun i => d.rowPieces wb i)
       w >>> 56 = 0xB4 → slot = 0 → bits w 31 31 = 0 → tc.valid = true → d.mode = 1 → d.kind ≠ 3 → d.subByteRow = false →
       d.outerBytes = a.outerBytes → n ≤ d.outer → u.answers wb = true → Apart l → WriteOk u l →
        ∃ t, exec (.axXgatm c) s = .next t ∧ TransferFrame u t c [] ∧ (t.core c).trf = k.trf ∧
          (∀ i m, i < n → m < d.outerBits →
            rowBit t c false d wb i m = match row i with | some j => decide (m < a.outerBits) && rowBit u c ca a rb j m | none => false) ∧
          (∀ x, Outside l x → readByte t x = readByte u x) ∧ GranulesAfter t l true ∧ OobCounted u t c (oobOf u c a b ib n))) ∧
    (let rb := u.readBase p a
     let wb := u.writeBase p a
     let named := (List.range n).filterMap row
     let slots := [(⟨slot, ceilDiv (n * a.outerBits) 8⟩ : Ext)]
     let l := named.flatMap (fun j => a.rowPieces wb j)
     w >>> 56 = 0xB5 → bits w 36 32 = 0 → slot < slotCount → slot * slotBytes + ceilDiv (n * a.outerBits) 8 ≤ slotCount * slotBytes →
     named.Nodup → u.answers wb = true → Apart l → WriteOk u l →
      (bits w 31 31 = 0 → (a.kind = 0 ∨ a.kind = 2) → a.mode = 1 → a.subByteRow = false →
        ∃ t, exec (.axXscat c) s = .next t ∧ TransferFrame u t c slots ∧ (t.core c).trf = k.trf ∧
          (∀ i j m, i < n → row i = some j → m < a.outerBits →
            rowBit t c false a wb j m = trfBit u c slot (i * a.outerBits + m)) ∧
          (∀ x, Outside l x → readByte t x = readByte u x) ∧ GranulesAfter t l false ∧ OobCounted u t c (oobOf u c a b ib n)) ∧
      (bits w 31 31 = 1 → a.kind = 0 → a.mode = 1 → a.fmt ≤ 2 → 0 ≤ a.lo →
        (∀ x ∈ named.flatMap (fun j => a.rowPieces rb j), ∀ y, x.1 ≤ y → y < x.1 + x.2 → Clean u y) →
        (rb ≠ wb → ∀ x ∈ named.flatMap (fun j => a.rowPieces rb j), ∀ y ∈ l, x.1 + x.2 ≤ y.1 ∨ y.1 + y.2 ≤ x.1) →
        ∃ t, exec (.axXscat c) s = .next t ∧ TransferFrame u t c slots ∧ (t.core c).trf = k.trf ∧
          (∀ i j m, i < n → row i = some j → m < a.outerBits / a.width →
            readBytesOf t (rowElem a wb j m) (a.width / 8) =
              summed a.fmt (readBytesOf u (rowElem a rb j m) (a.width / 8)) (elemCode u c slot a.fmt (i * (a.outerBits / a.width) + m))) ∧
          (∀ x, Outside l x → readByte t x = readByte u x) ∧ GranulesAfter t l false ∧ OobCounted u t c (oobOf u c a b ib n)))

/-- R154–R159: CPH hands a phase to its die's collective engine and PISSUE a batch to its PIP; PCW puts RA and RB in the TRF;
CSYNC and PSYNC go on, the read cache emptied, once no tag they name is held, and hold until then; PTEST returns a bit
for each tag not held. -/
def Obligations.PhasesAndPanBatches : Prop :=
  ∀ (s u : State) (c : Fin 12) (p w : Nat), Sound u → Runs s u c p w →
    let k := u.core c
    let moved := fun (t : State) (k' : CoreSt) => (∀ d, d ≠ c.val → t.core d = u.core d) ∧ t.core c = k'
    (w >>> 56 = 0xC0 → bits w 55 51 = 0 → bits w 45 40 = 0 → bits w 31 0 = 0 → wSEL w ≤ 3 → EnginesIdle u c → u.inEve p = false →
      let a := u.x c (wRS1 w)
      AccessOk u p a 64 false → PhaseFree u c (wSEL w) →
      ∃ t ph, exec (.axCph c) s = .next t ∧ t = { u with cores := t.cores, colls := u.colls ++ [ph] } ∧
        moved t { k with pc := k.pc + 8, seq := k.seq + 1 } ∧ ph.die = (if c.val < 6 then 0 else 1) ∧ ph.core = c ∧ ph.part = p ∧
        ph.tag = wSEL w ∧ ph.pc = k.pc ∧ ph.dpa = a ∧ ph.started = false ∧ ph.item = none) ∧
    (w >>> 56 = 0xC1 → bits w 55 32 = 0 → bits w 31 4 = 0 →
      ∃ t, exec (.axCsync c) s = .next t ∧
        ((∀ i, i < 4 → w.testBit i = true → PhaseFree u c i) →
          t = { u with cores := t.cores } ∧ moved t { k with pc := k.pc + 8, rc := [] }) ∧
        (¬ (∀ i, i < 4 → w.testBit i = true → PhaseFree u c i) → t = u)) ∧
    (w >>> 56 = 0xD0 → bits w 26 0 = 0 → wSlot w < slotCount → EnginesIdle u c → u.delivering c = false →
      ∃ t, exec (.axPcw c) s = .next t ∧ t = { u with cores := t.cores } ∧
        moved t { k with pc := k.pc + 8, seq := k.seq + 1, trf := (t.core c).trf, trfCe := (t.core c).trfCe } ∧
        trfNum t c (wSlot w) (16 * bits w 46 37) 8 = u.x c (bits w 36 32) ∧
        trfNum t c (wSlot w) (16 * bits w 46 37 + 8) 8 = u.x c (bits w 31 27) ∧
        BytesBut k.trf (t.core c).trf (slotBytes * wSlot w + 16 * bits w 46 37) 16) ∧
    (w >>> 56 = 0xD1 → bits w 16 0 = 0 → wSlot w < slotCount → bits w 34 26 < slotCount → bits w 25 21 ≤ 16 →
      (bits w 25 21 = 0 → bits w 34 26 = 0) → EnginesIdle u c → u.inEve p = false → u.delivering c = false → TagFree u c (bits w 20 17) →
      let n := bits w 46 35 + 1
      let m := bits w 25 21
      let word := fun i => trfNum u c (wSlot w) (16 * i) 16
      slotBytes * wSlot w + 16 * n ≤ slotCount * slotBytes → slotBytes * bits w 34 26 + slotBytes * m ≤ slotCount * slotBytes →
      (∀ i, i < n → bits (word i) 119 115 < 20) →
      ∃ t b, exec (.axPissue c) s = .next t ∧
        t = { u with cores := t.cores, csr := t.csr, batches := u.batches ++ [b], batchSeq := u.batchSeq + 1 } ∧
        BitsBut [(Fld.ECC_STAT.TRF_CE, c, 0)] u t ∧ EccCounted u t c (entryOf u c .pip w [] []).pReads ∧ b.paid = [] ∧
        moved t { k with pc := k.pc + 8, seq := k.seq + 1 } ∧ b.id = u.batchSeq ∧ b.core = c ∧ b.part = p ∧ b.tag = bits w 20 17 ∧
        b.pc = k.pc ∧ b.npay = m ∧ b.item = none ∧ b.held = [] ∧ b.words = (List.range n).map (fun i => (i, word i)) ∧
        (∀ i, i < slotBytes * m → byteAt b.payload i = byteAt k.trf (slotBytes * bits w 34 26 + i)) ∧
        (∀ x, x ∈ b.await ↔ ∃ i, i < n ∧ bits (word i) 119 115 = x) ∧
        ∀ x, x ∈ b.pans ↔ ∃ i, i < n ∧ 32 * bits (word i) 119 115 + bits (word i) 114 110 = x) ∧
    (w >>> 56 = 0xD2 → bits w 55 32 = 0 → bits w 31 16 = 0 →
      ∃ t, exec (.axPsync c) s = .next t ∧
        ((∀ i, i < 16 → w.testBit i = true → TagFree u c i) →
          t = { u with cores := t.cores } ∧ moved t { k with pc := k.pc + 8, rc := [] }) ∧
        (¬ (∀ i, i < 16 → w.testBit i = true → TagFree u c i) → t = u)) ∧
    (w >>> 56 = 0xD3 → bits w 50 0 = 0 →
      ∃ (t : State) (v : Word), exec (.axPtest c) s = .next t ∧ t = { u with cores := t.cores } ∧ CoreResult u t c (wRD w) v (k.pc + 8) ∧
        ∀ i, i < 64 → (v.getLsbD i = true ↔ i < 16 ∧ TagFree u c i))

/-- R76, R35: an engine instruction holds while its queue is full, changing nothing; a transfer that reaches the eve enters its
queue and stays there, moving no byte, and the stall is noted. -/
def Obligations.EngineQueuesFillAndTheEveHoldsIssues : Prop :=
  (∀ e ∈ [(0x80, Instr.axMma, Eng.mxu, 8), (0x88, Instr.axVadd, Eng.ve, 32), (0xB0, Instr.axXld, Eng.xe, 32), (0xD0, Instr.axPcw, Eng.pip, 16)],
    ∀ (s u : State) (c : Fin 12) (p w : Nat), Runs s u c p w → w >>> 56 = e.1 →
      (e.1 = 0x80 → lgMma w = true) → (e.1 = 0x88 → lgV 0x88 w = true) → (e.1 = 0xB0 → bits w 30 0 = 0 ∧ wSlot w < slotCount ∧ bits w 41 31 = 0) →
      (e.1 = 0xD0 → bits w 26 0 = 0 ∧ wSlot w < slotCount) →
      e.2.2.2 ≤ ((u.core c).queue.filter (fun q => q.eng = e.2.2.1)).length → exec (e.2.1 c) s = .next u) ∧
  ∀ (s u : State) (c : Fin 12) (p w : Nat), Sound u → Runs s u c p w → p < 16 → EnginesIdle u c → u.inEve p = true → w >>> 56 = 0xB0 →
    bits w 30 0 = 0 → wSlot w < slotCount → bits w 41 31 = 0 →
    ∃ t, exec (.axXld c) s = .next t ∧ t = { u with cores := t.cores, parts := t.parts } ∧
      (∀ d, d ≠ c.val → t.core d = u.core d) ∧
      t.core c = { u.core c with
        pc := (u.core c).pc + 8, seq := (u.core c).seq + 1
        queue := [entryOf u c .xe w [] [xTDA w, xTDB w, xTDC w]] } ∧
      (∀ q, q ≠ p → t.part q = u.part q) ∧ t.part p = { u.part p with eveStalled := true }

/-- R130, R73, R71, R145: an engine word with an illegal field faults with ILLEGAL_OP and reaches no engine; an operand that runs
past slot 383 faults its engine with TRF_RANGE and the lowest such slot; an invalid descriptor register faults the XE
with DESC_INVALID and its number. -/
def Obligations.EngineFaults : Prop :=
  ∀ (s u : State) (c : Fin 12) (p w : Nat), Sound u → Runs s u c p w → p < 16 → u.get Fld.FAULT_REC.VALID c = 0 →
    let stopped := fun (t : State) (eng code addr : Nat) =>
      t.mem = u.mem ∧ (t.core c).trf = (u.core c).trf ∧ (t.core c).run = .faulted ∧ t.get Fld.FAULT_REC.VALID c = 1 ∧
        t.get Fld.FAULT_REC.ENGINE c = eng ∧ t.get Fld.FAULT_REC.CODE c = code ∧ t.get Fld.FAULT_ADDR.ADDR c = addr ∧
        t.get Fld.FAULT_PC.PC c = (u.core c).pc % 2 ^ 42 ∧ (t.part p).phase = .abandoning ∧ t.get Fld.STEP_ERR.FAULT p = 1
    (w >>> 56 = 0x80 → lgMma w = false → ∃ t, exec (.axMma c) s = .next t ∧ stopped t 0 0x01 0) ∧
    (∀ e ∈ vectorOps, w >>> 56 = e.1 → lgV e.1 w = false → ∃ t, exec (e.2.1 c) s = .next t ∧ stopped t 0 0x01 0) ∧
    (∀ e ∈ vectorOps, w >>> 56 = e.1 → lgV e.1 w = true → EnginesIdle u c →
      let q := entryOf u c .ve w [vRS w] []
      ∀ x ∈ q.vReads ++ q.vWrites, slotCount * slotBytes < x.slot * slotBytes + x.bytes →
      (∀ y ∈ q.vReads ++ q.vWrites, slotCount * slotBytes < y.slot * slotBytes + y.bytes → x.slot ≤ y.slot) →
      ∃ t, exec (e.2.1 c) s = .next t ∧ stopped t 2 0x07 x.slot) ∧
    (w >>> 56 = 0xB0 → bits w 30 0 = 0 → wSlot w < slotCount → bits w 41 31 = 0 → EnginesIdle u c → u.inEve p = false →
      (nth ⟨false, 0⟩ (u.core c).td (xTDA w)).valid = false → ∃ t, exec (.axXld c) s = .next t ∧ stopped t 3 0x05 (xTDA w))

namespace Sys2Proof.Spec

/-! Pan units. -/

/-- Pan n is about to run word w, command i of batch b, of which it has done r; no word waits in a PIP. -/
abbrev PanAt (s : State) (n : Nat) (b : Batch) (r : PanRun) (i w : Nat) : Prop :=
  (s.pan n).run = some r ∧ r.stopped = false ∧ r.fault = none ∧ r.micro = 0 ∧ s.pansRun (n / 32) = true ∧ s.batch r.batch = some b ∧
    (s.part b.part).phase = .active ∧ (s.pan n).queue.find? (fun e => e.1 == r.batch) = some (r.batch, i, w) ∧
    (∀ x ∈ s.batches, x.words = []) ∧ (s.batches.map Batch.id).Nodup

/-- Pan n has begun command i and made its reads and its arithmetic: its record is f of what it was, at the operating point of its
die; the command left the queue, and has micro-operations left, one at least for every 16 granules it still writes (R254), none
where it writes nothing more; no other pan has changed. -/
def PanDone (s t : State) (n : Nat) (r : PanRun) (i : Nat) (more : Bool) (f : PanRun → PanRun) : Prop :=
  (∀ m, m ≠ n → t.pan m = s.pan m) ∧ (t.pan n).queue = dropFirst r.batch (s.pan n).queue ∧
    ∃ q, (t.pan n).run = some q ∧ q.left.length < q.micro ∧ (more = false → q.left = [] ∧ q.closing = []) ∧
      q = { f r with
        mhz := s.mhz (dieOfStack (n / 32)), cmd := i, micro := q.micro, bytes := q.bytes, left := q.left, reads := q.reads
        banks := q.banks, closing := q.closing }

/-- A descriptor operand in a payload unit stands (R229, R235). -/
abbrev DescHere (s : State) (b : Batch) (n unit : Nat) (own : Bool) : Prop :=
  64 * unit + 64 ≤ b.npay * slotBytes ∧
    panBaseOk (b.pay unit 64) (n / 32) (if own then some (n % 32) else none) = true ∧ s.panCreateOk b.part (n / 32) (b.pay unit 64) = true

/-- The descriptor operand that a field of a command names stands. -/
abbrev DescFine (s : State) (b : Batch) (n unit : Nat) (own : Bool) : Prop := unit ≠ 0xFFF ∧ DescHere s b n unit own

/-- Pan n's operand buffer is what it was, its words that hold an error with it (R226). -/
abbrev SameObuf (s t : State) (n : Nat) : Prop := (t.pan n).obuf = (s.pan n).obuf ∧ (t.pan n).obufBad = (s.pan n).obufBad

/-- Pan n's operand buffer differs only in m bytes from a line, and its words written whole hold no error any more. -/
abbrev ObufBut (s t : State) (n line m : Nat) : Prop :=
  BytesBut (s.pan n).obuf (t.pan n).obuf (64 * line) m ∧
    (t.pan n).obufBad = (s.pan n).obufBad.filter (fun x => decide (32 * x < 64 * line) || decide (64 * line + m < 32 * x + 32))

/-- The descriptor in a payload unit, in the pan's local space. -/
def descAt (b : Batch) (unit : Nat) : Desc := panDesc (b.pay unit 64)

/-- Bit k from a pan-local address of pan v. -/
def panBit (s : State) (v l k : Nat) : Bool := (readByte s (panDpa v (l + k / 8))).getLsbD (k % 8)

/-- Bit i of the image of a descriptor in pan v's banks. -/
def panImageBit (s : State) (v : Nat) (d : Desc) (base i : Nat) : Bool :=
  panBit s v (nth 0 (d.rowAddrs base) (i / d.rowBits)) (i % d.rowBits)

/-- Element i of a descriptor in pan v's banks. -/
def panElem (s : State) (v : Nat) (d : Desc) (base i : Nat) : Nat :=
  ((List.range d.width).map (fun k => if panImageBit s v d base (i * d.width + k) then 2 ^ k else 0)).sum

/-- Bit k of row j of a descriptor in pan v's banks. -/
def panRowBit (s : State) (v : Nat) (d : Desc) (base j k : Nat) : Bool :=
  if d.rank = 1 then panBit s v (base + j * d.width / 8) k else panBit s v (nth 0 (d.subRows base j) (k / d.rowBits)) (k % d.rowBits)

/-- Bit i of pan n's operand buffer from a line. -/
def obBit (s : State) (n line i : Nat) : Bool := (byteAt (s.pan n).obuf (64 * line + i / 8)).getLsbD (i % 8)

/-- Element i of format f in the operand buffer from a line. -/
def obElem (s : State) (n line f i : Nat) : Nat :=
  ((List.range (fmtBits f)).map (fun k => if obBit s n line (fmtBits f * i + k) then 2 ^ k else 0)).sum

/-- Every granule of a descriptor's rows passes the checks of a compute use (R251). -/
abbrev PanReadOk (s : State) (n : Nat) (d : Desc) (base : Nat) : Prop :=
  ∀ g ∈ d.granules base, ComputeOk s 0 false d.unchecked (panDpa n (4096 * g) / 4096)

/-- Pieces of memory that pan v's local pieces are. -/
def panPieces (v : Nat) (l : List (Nat × Nat)) : List (Nat × Nat) :=
  l.flatMap (fun r => (panSplit v ⟨r.1, r.2, 0⟩).map (fun m => (m.addr, m.size)))

/-- The state once pan n's micro-operations of the command in hand have ended, one after the other (R254). -/
def panEnd (t : State) (n p : Nat) : State := (t.panFinish n p).2

/-- Nothing changes but pans, requests at the stacks and memory with its metadata. -/
def PanFrame (s t : State) : Prop :=
  t = { s with
    pans := t.pans, stks := t.stks, mem := t.mem, gran := t.gran, ecc := t.ecc, metaFlip := t.metaFlip
    flipped := t.flipped, sealing := t.sealing, csumBad := t.csumBad, free := t.free }

/-- A pan's command that writes has begun, and its micro-operations end without fault: until the first has begun and until all have
ended nothing changes but pans, requests at the stacks and memory with its metadata. -/
def PanStores (s t : State) (n : Nat) (b : Batch) : Prop :=
  PanFrame s t ∧ PanFrame s (panEnd t n b.part) ∧ (t.panFinish n b.part).1 = none ∧ (t.pan n).acc = ((panEnd t n b.part).pan n).acc ∧
    SameObuf t (panEnd t n b.part) n

/-- The elements of d, in the banks of pan v, hold the image, or had it added in a REDUCE; other bytes stay; granules are sealed
where written whole and sealing is asked for, else open (R237, R151). -/
def PanWritten (s t : State) (v : Nat) (b : Batch) (d : Desc) (image : Nat → Bool) (sealing : Bool) : Prop :=
  let base := s.panWriteBase b.part d
  let rows := d.rowAddrs base
  let l := panPieces v (rowsOf d base)
  (d.mode = 1 → ∀ i, i < d.count * d.width → panImageBit t v d base i = image i) ∧
    (d.mode = 2 → ∀ r, r < rows.length → ∀ e, e < nth 0 d.ext 0 →
      let a := panDpa v (nth 0 rows r + e * (d.width / 8))
      readBytesOf t a (d.width / 8) = summed d.fmt (readBytesOf s a (d.width / 8))
        ((List.range d.width).map (fun k => if image ((r * nth 0 d.ext 0 + e) * d.width + k) then 2 ^ k else 0)).sum) ∧
    (∀ x, Outside l x → readByte t x = readByte s x) ∧ GranulesAfter t l (decide (d.mode = 1) && sealing)

/-- The rows of d, as pan v's banks hold them, do not overlap and may be written. -/
abbrev PanWriteOk (s : State) (v : Nat) (b : Batch) (d : Desc) : Prop :=
  let l := panPieces v (rowsOf d (s.panWriteBase b.part d))
  Apart l ∧ WriteOk s l ∧ (d.mode = 1 ∨ d.mode = 2 ∧ d.kind = 0)

/-- Bit k of element i of a list of codes of w bits. -/
def codeBit (w : Nat) (code : Nat → Nat) (i : Nat) : Bool := (code (i / w)).testBit (i % w)

/-- Index i of a pan's index operand: from the payload, or from descriptor DB (R240, R243). -/
def panIndex (s : State) (n : Nat) (b : Batch) (w i : Nat) : Int :=
  if (cFLG w).testBit 0 then
    (BitVec.ofNat 32 (((List.range 4).map (fun k => (byteAt b.payload (64 * cDB w + 4 * i + k)).toNat * 256 ^ k)).sum)).toInt
  else
    let base := s.panReadBase b.part (descAt b (cDB w))
    (BitVec.ofNat 32 (((List.range 4).map (fun k => (readByte s (panDpa n (base + 4 * i + k))).toNat * 256 ^ k)).sum)).toInt

/-- How many indices a command has. -/
def panIdxCount (b : Batch) (w : Nat) : Nat := if (cFLG w).testBit 0 then cCNT w else (descAt b (cDB w)).count

/-- The index operand stands: the payload holds it, or descriptor DB names it and its lines read without error. -/
abbrev PanIdxOk (s : State) (n : Nat) (b : Batch) (w : Nat) : Prop :=
  if (cFLG w).testBit 0 then 0 < cCNT w → 64 * cDB w + 4 * cCNT w ≤ b.npay * slotBytes
  else
    let d := descAt b (cDB w)
    DescFine s b n (cDB w) true ∧ d.kind = 1 ∧ (d.mode = 0 ∨ d.mode = 1) ∧
      ∀ i, i < 4 * d.count → Clean s (panDpa n (s.panReadBase b.part d + i))

/-- The row index i names in a table, by R149; a payload list has neither WRAP nor IDX_STRICT (R243). -/
def panRowAt (s : State) (n : Nat) (b : Batch) (w i : Nat) (table : Desc) : Option Nat :=
  resolveIdx (!(cFLG w).testBit 0 && (descAt b (cDB w)).wrap) table.outer (panIndex s n b w i)

/-- How many of the indices are out of range. -/
def panOobOf (s : State) (n : Nat) (b : Batch) (w : Nat) (table : Desc) : Nat :=
  ((List.range (panIdxCount b w)).filter (fun i => (panRowAt s n b w i table).isNone)).length

/-- R245: FUNC, the exact value and flags from A and B and the parameters. -/
def elemOps : List (Nat × (Nat → Nat → FV → FV → FV × Nat)) :=
  [(0, fun _ _ a b => fvAdd a b), (1, fun _ _ a b => fvAdd a (fvNeg b)), (2, fun _ _ a b => fvMul a b),
   (3, fun p q a b =>
      let x := to32 (fvMul (of32 p) a)
      let y := to32 (fvMul (of32 q) b)
      let v := fvAdd (of32 x.1) (of32 y.1)
      (v.1, x.2 ||| y.2 ||| v.2)),
   (4, fun _ _ a b => (fvMax a b, 0)), (5, fun _ _ a b => (fvMin a b, 0)), (6, fun _ _ a _ => (a, 0)),
   (7, fun p _ a _ => fvMul (of32 p) a)]

/-- FP32 word i of a parameter block. -/
def paramAt (b : Batch) (w i : Nat) : Nat := b.pay (bits (cIMM w) 11 0) (4 * i + 4) / 2 ^ (32 * i)

end Sys2Proof.Spec

/-- R236–R238: LOAD brings payload units, or the image of its descriptor, to the operand buffer; STORE writes accumulator values or
operand buffer elements through its descriptor, converted; COPY writes elements unchanged through DC, in any pseudo-channel
of the stack. Granules written whole are sealed, others left open. -/
def Obligations.PanLoadStoreCopy : Prop :=
  ∀ (s : State) (t : Fin 20) (u : Fin 32) (b : Batch) (r : PanRun) (i w : Nat),
    let n := 32 * t.val + u.val
    Sound s → PanAt s n b r i w →
    let k := s.pan n
    let fin := fun (x : State) => panEnd x n b.part
    let a := descAt b (cDA w)
    let c := descAt b (cDC w)
    let readable := fun (d : Desc) => d.mode = 0 ∨ d.mode = 1
    (cOPC w = 0x01 → cUnused w 1 [.da, .ob, .cnt, .flg] = false → cFLG w = 1 →
      (0 < cCNT w → 64 * (cDA w + cCNT w) ≤ b.npay * slotBytes) → 64 * (cOB w + cCNT w) ≤ 262144 →
      ∃ t', exec (.panLoad t u) s = .next t' ∧ t' = { s with pans := t'.pans } ∧ PanDone s t' n r i false id ∧ (t'.pan n).acc = k.acc ∧
        (∀ j, j < 64 * cCNT w → byteAt (t'.pan n).obuf (64 * cOB w + j) = byteAt b.payload (64 * cDA w + j)) ∧
        ObufBut s t' n (cOB w) (64 * cCNT w)) ∧
    (cOPC w = 0x01 → cUnused w 1 [.da, .ob, .flg] = false → cFLG w = 0 → DescFine s b n (cDA w) true → readable a →
      64 * cOB w + a.size ≤ 262144 → PanReadOk s n a (s.panReadBase b.part a) →
      ∃ t', exec (.panLoad t u) s = .next t' ∧ t' = { s with pans := t'.pans, stks := t'.stks } ∧ PanDone s t' n r i false id ∧
        (t'.pan n).acc = k.acc ∧ ObufBut s t' n (cOB w) a.size ∧
        ∀ j, j < a.count * a.width → obBit t' n (cOB w) j = panImageBit s n a (s.panReadBase b.part a) j) ∧
    (cOPC w = 0x02 → cUnused w 1 ([.da, .sr, .flg] ++ if cFLG w = 1 then [.ob, .af] else [.ac]) = false →
      DescFine s b n (cDA w) true → a.kind = 0 → PanWriteOk s n b a → (cSR w = true → 3 ≤ a.fmt ∧ a.fmt ≤ 6) →
      (if cFLG w = 1 then 64 * cOB w + elemBytes (cAF w) a.count ≤ 262144 ∧ k.obBad (cOB w) (elemBytes (cAF w) a.count) = false
       else 16 * cAC w + a.count ≤ 16384) →
      let v := fun j => if cFLG w = 1 then decodeFmt (cAF w) (obElem s n (cOB w) (cAF w) j) else of32 (smGet 0 k.acc (16 * cAC w + j))
      let q := fun j => if cSR w then narrowSR a.fmt (srDraw (srAdvanceN (j + 1) r.seed)) (v j) else narrow a.fmt (v j)
      ∃ t', exec (.panStore t u) s = .next t' ∧ PanStores s t' n b ∧
        PanDone s t' n r i true (fun r => { r with
          flags := r.flags ||| flagsOf a.count q, seed := if cSR w then srAdvanceN a.count r.seed else r.seed }) ∧
        (t'.pan n).acc = k.acc ∧ SameObuf s t' n ∧ PanWritten s (fin t') n b a (codeBit a.width (fun j => (q j).1)) true) ∧
    (cOPC w = 0x09 → cUnused w 0 [.da, .dc] = false → DescFine s b n (cDA w) true → DescFine s b n (cDC w) false → readable a →
      let v := 32 * t.val + pchOf ((Desc.of (b.pay (cDC w) 64)).base % stackSpan)
      PanWriteOk s v b c → a.width = c.width → a.count = c.count → PanReadOk s n a (s.panReadBase b.part a) →
      ∃ t', exec (.panCopy t u) s = .next t' ∧ PanStores s t' n b ∧ PanDone s t' n r i true id ∧
        (t'.pan n).acc = k.acc ∧ SameObuf s t' n ∧
        PanWritten s (fin t') v b c (panImageBit s n a (s.panReadBase b.part a)) true)

/-- R239–R242: GEMV puts the product of CNT operand rows and a stack-resident matrix in the accumulator, group by group of 32 steps
with the scales given, or adds it there; PATTN brings every query row's maximum, sum and weighted values over the blocks of
16 tokens that some row can see, in page order, and counts the pages wholly skipped; a row that can see no key stays as it is. -/
def Obligations.PanMatrixAndAttention : Prop :=
  ∀ (s : State) (t : Fin 20) (u : Fin 32) (b : Batch) (r : PanRun) (i w : Nat),
    let n := 32 * t.val + u.val
    Sound s → PanAt s n b r i w →
    let k := s.pan n
    let af := cAF w
    let readable := fun (d : Desc) => d.mode = 0 ∨ d.mode = 1
    let a := descAt b (cDA w)
    let d := descAt b (cDB w)
    let c := descAt b (cDC w)
    let ab := s.panReadBase b.part a
    let db := s.panReadBase b.part d
    (let rows := cCNT w
     let cols := nth 0 a.ext 0
     let steps := nth 0 a.ext 1
     let hasB := cDB w ≠ 0xFFF
     let xs := (cFLG w).testBit 1
     let scaleAt := cOB w + ceilDiv (elemBytes af (rows * steps)) 64
     cOPC w = 0x03 → cUnused w 3 [.da, .db, .ob, .ac, .cnt, .af, .acc, .flg] = false → 1 ≤ rows → rows ≤ 64 → (cFLG w).testBit 0 = false →
     DescFine s b n (cDA w) true → a.kind = 0 → readable a → a.rank = 2 → cols ≤ 16384 → steps % 32 = 0 → a.fmt ≠ 0 → af ≠ 0 →
     (af = 7 ↔ a.fmt = 7) → (a.scaled = true → hasB) →
     (hasB → DescFine s b n (cDB w) true ∧ d.kind = 2 ∧ readable d ∧ a.scaled = true ∧ d.blockDim = 1 ∧ d.rank = 2 ∧ nth 0 d.ext 0 = cols ∧
        nth 0 d.ext 1 = ceilDiv steps 32 ∧ PanReadOk s n d db) →
     PanReadOk s n a ab → 64 * cOB w + elemBytes af (rows * steps) ≤ 262144 → (xs = true → 64 * scaleAt + rows * steps / 32 ≤ 262144) →
     k.obBad (cOB w) (if xs then 64 * (scaleAt - cOB w) + rows * steps / 32 else elemBytes af (rows * steps)) = false →
     16 * cAC w + rows * cols ≤ 16384 →
     let cell := fun y z => (List.range (steps / 32)).foldl (fun acc g =>
       groupAcc acc ((List.range 32).map (fun j =>
           (decodeFmt af (obElem s n (cOB w) af (y * steps + 32 * g + j)), decodeFmt a.fmt (panElem s n a ab ((32 * g + j) * cols + z)))))
         (if xs = true then (byteAt k.obuf (64 * scaleAt + y * (steps / 32) + g)).toNat else 127)
         (if hasB then panElem s n d db (g * cols + z) else 127)) 0
     ∃ t' fl, exec (.panGemv t u) s = .next t' ∧ t' = { s with pans := t'.pans, stks := t'.stks } ∧
       PanDone s t' n r i false (fun r => { r with flags := r.flags ||| fl }) ∧ SameObuf s t' n ∧
       (∀ y z, y < rows → z < cols → smGet 0 (t'.pan n).acc (16 * cAC w + (y * cols + z)) =
         if cACC w then (f32Add (smGet 0 k.acc (16 * cAC w + (y * cols + z))) (cell y z)).1 else cell y z) ∧
       ∀ j, (j < 16 * cAC w ∨ 16 * cAC w + rows * cols ≤ j) → smGet 0 (t'.pan n).acc j = smGet 0 k.acc j) ∧
    (let pb := bits (cIMM w) 11 0
     let q := PattnP.of (b.pay pb 64)
     let eb := a.width / 8
     let tp := 65536 / (2 ^ q.kvh * q.dh * eb)
     let nrows := q.hn * q.g * q.u
     let m := panIdxCount b w
     let page := fun j => ((panIndex s n b w (2 * j)).toNat, panIndex s n b w (2 * j + 1))
     let seen := fun (pos : Int) x => (List.range q.u).any (fun v => (List.range 16).any (fun y => q.sees v (pos + ((16 * x + y : Nat) : Int))))
     let blocks := fun pos => (List.range (tp / 16)).filter (seen pos)
     let at_ := fun base row h y => base + 65536 * row + (q.h0 + h) * (65536 / 2 ^ q.kvh) + y * q.dh * eb
     let cb := s.panReadBase b.part c
     cOPC w = 0x04 → cUnused w 1 ([.da, .db, .dc, .ob, .ac, .acc, .af, .imm, .flg] ++ if (cFLG w).testBit 0 then [.cnt] else []) = false →
     cIMM w < 4096 → 64 * pb + 64 ≤ b.npay * slotBytes → DescFine s b n (cDA w) true → DescFine s b n (cDC w) true → PanIdxOk s n b w →
     poolOk a = true → poolOk c = true → a.width = c.width → m % 2 = 0 → 16 ≤ tp → q.h0 + q.hn ≤ 2 ^ q.kvh → q.kvh ≤ 4 → q.u ≤ 16 →
     q.hn ≤ 16 → 1 ≤ af → af ≤ 4 → 64 * cOB w + elemBytes af (nrows * q.dh) ≤ 262144 →
     k.obBad (cOB w) (elemBytes af (nrows * q.dh)) = false → 16 * cAC w + nrows * (q.dh + 16) ≤ 16384 →
     (∀ j, j < m / 2 → 0 ≤ panIndex s n b w (2 * j) ∧ panIndex s n b w (2 * j) < (Nat.min (nth 0 a.ext 1) (nth 0 c.ext 1) : Nat)) →
     (∀ j h x, j < m / 2 → h < q.hn → x ∈ blocks (page j).2 →
       (∀ g ∈ granulesOf (at_ ab (page j).1 h (16 * x)) (16 * q.dh * eb), ComputeOk s 0 false a.unchecked (panDpa n (4096 * g) / 4096)) ∧
         ∀ g ∈ granulesOf (at_ cb (page j).1 h (16 * x)) (16 * q.dh * eb), ComputeOk s 0 false c.unchecked (panDpa n (4096 * g) / 4096)) →
     let code := fun f l => ((List.range (fmtBits f)).map (fun z => if panBit s n l z then 2 ^ z else 0)).sum
     let vec := fun f base row h y => (List.range q.dh).map (fun z => decodeFmt f (code f (at_ base row h y + z * eb)))
     let row := fun y =>
       let h := y / (q.u * q.g)
       let query := (List.range q.dh).map (fun z => decodeFmt af (obElem s n (cOB w) af (y * q.dh + z)))
       let old := 16 * cAC w + y * (q.dh + 16)
       let start : PRow :=
         if cACC w then
           { m := smGet 0 k.acc old, l := smGet 0 k.acc (old + 1), o := (List.range q.dh).map (fun z => smGet 0 k.acc (old + 2 + z)), fl := 0, live := true }
         else { m := 0xFF800000, l := 0, o := List.replicate q.dh 0, fl := 0, live := true }
       let sees := (List.range (m / 2)).any (fun j => (List.range tp).any (fun e => q.sees (y % q.u) ((page j).2 + ((e : Nat) : Int))))
       if !sees then start else (List.range (m / 2)).foldl (fun x j => (blocks (page j).2).foldl (fun x z =>
         let ts := (List.range 16).map (fun e => 16 * z + e)
         q.block c.fmt query (ts.map (vec a.fmt ab (page j).1 h)) (ts.map (vec c.fmt cb (page j).1 h))
           (ts.map (fun e => q.sees (y % q.u) ((page j).2 + ((e : Nat) : Int)))) x) x) start
     ∃ t' fl, exec (.panPattn t u) s = .next t' ∧ t' = { s with pans := t'.pans, stks := t'.stks } ∧
       PanDone s t' n r i false (fun r => { r with
         flags := r.flags ||| fl
         skipped := Nat.min (r.skipped + ((List.range (m / 2)).filter (fun j => (blocks (page j).2).isEmpty)).length) 0xFFFFFFFF }) ∧
       SameObuf s t' n ∧
       (∀ y z, y < nrows → z < q.dh + 16 →
         smGet 0 (t'.pan n).acc (16 * cAC w + (y * (q.dh + 16) + z)) = nth 0 ((row y).values q.dh) z) ∧
       ∀ j, (j < 16 * cAC w ∨ 16 * cAC w + nrows * (q.dh + 16) ≤ j) → smGet 0 (t'.pan n).acc j = smGet 0 k.acc j)

/-- R243, R244, R149: GATHER copies the rows its indices name to the operand buffer or to rows of DC, a zero row for an index out of
range; SCADD adds operand buffer rows to the rows they name. Indices out of range are counted. The indices of the SCADD
name different rows. -/
def Obligations.PanGatherAndScatterAdd : Prop :=
  ∀ (s : State) (t : Fin 20) (u : Fin 32) (b : Batch) (r : PanRun) (i w : Nat),
    let n := 32 * t.val + u.val
    Sound s → PanAt s n b r i w →
    let k := s.pan n
    let fin := fun (x : State) => panEnd x n b.part
    let a := descAt b (cDA w)
    let c := descAt b (cDC w)
    let m := panIdxCount b w
    let ab := s.panReadBase b.part a
    let row := fun j => panRowAt s n b w j a
    let pay := (cFLG w).testBit 0
    let counted := fun (r : PanRun) => { r with idxOob := Nat.min (r.idxOob + panOobOf s n b w a) 0xFFFFFFFF }
    DescFine s b n (cDA w) true → PanIdxOk s n b w → (pay = false → (descAt b (cDB w)).strict = true → ∀ j, j < m → (row j).isSome = true) →
    (cOPC w = 0x05 → (a.mode = 0 ∨ a.mode = 1) → a.subByteRow = false →
      (∀ j x, j < m → row j = some x → ∀ q ∈ a.rowPieces ab x, ∀ g ∈ granulesOf q.1 q.2,
        ComputeOk s 0 false a.unchecked (panDpa n (4096 * g) / 4096)) →
      ((cFLG w).testBit 1 = false → cUnused w 3 ([.da, .db, .flg, .ob] ++ if pay then [.cnt] else []) = false →
        64 * cOB w + ceilDiv (m * a.outerBits) 8 ≤ 262144 →
        ∃ t', exec (.panGather t u) s = .next t' ∧ t' = { s with pans := t'.pans, stks := t'.stks } ∧ PanDone s t' n r i false counted ∧
          (t'.pan n).acc = k.acc ∧ ObufBut s t' n (cOB w) (ceilDiv (m * a.outerBits) 8) ∧
          ∀ j x, j < m → x < a.outerBits →
            obBit t' n (cOB w) (j * a.outerBits + x) = match row j with | some y => panRowBit s n a ab y x | none => false) ∧
      (let wb := s.panWriteBase b.part c
       let l := panPieces n ((List.range m).flatMap (fun j => c.rowPieces wb j))
       (cFLG w).testBit 1 = true → cUnused w 3 ([.da, .db, .flg, .dc] ++ if pay then [.cnt] else []) = false →
       DescFine s b n (cDC w) true → c.mode = 1 → c.subByteRow = false → c.outerBytes = a.outerBytes → m ≤ c.outer → Apart l → WriteOk s l →
        ∃ t', exec (.panGather t u) s = .next t' ∧ PanStores s t' n b ∧ PanDone s t' n r i true counted ∧ (t'.pan n).acc = k.acc ∧
          SameObuf s t' n ∧
          (∀ j x, j < m → x < c.outerBits →
            panRowBit (fin t') n c wb j x = match row j with | some y => decide (x < a.outerBits) && panRowBit s n a ab y x | none => false) ∧
          (∀ x, Outside l x → readByte (fin t') x = readByte s x) ∧ GranulesAfter (fin t') l false)) ∧
    (let wb := s.panWriteBase b.part a
     let rb := if a.mode = 2 then wb else ab
     let named := (List.range m).filterMap row
     let l := panPieces n (named.flatMap (fun j => a.rowPieces wb j))
     let from_ := panPieces n (named.flatMap (fun j => a.rowPieces rb j))
     cOPC w = 0x06 → cUnused w 1 ([.da, .db, .ob, .flg] ++ if pay then [.cnt] else []) = false → a.kind = 0 → a.fmt ≤ 2 →
     (a.mode = 1 ∨ a.mode = 2) → 64 * cOB w + ceilDiv (m * a.outerBits) 8 ≤ 262144 →
     k.obBad (cOB w) (ceilDiv (m * a.outerBits) 8) = false → named.Nodup → Apart l → WriteOk s l →
     (∀ x ∈ from_, ∀ y, x.1 ≤ y → y < x.1 + x.2 → Clean s y) → (rb ≠ wb → ∀ x ∈ from_, ∀ y ∈ l, x.1 + x.2 ≤ y.1 ∨ y.1 + y.2 ≤ x.1) →
      ∃ t', exec (.panScadd t u) s = .next t' ∧ PanStores s t' n b ∧ PanDone s t' n r i true counted ∧ (t'.pan n).acc = k.acc ∧
        SameObuf s t' n ∧
        (∀ j y x, j < m → row j = some y → x < a.outerBits / a.width →
          readBytesOf (fin t') (panDpa n (rowElem a wb y x)) (a.width / 8) =
            summed a.fmt (readBytesOf s (panDpa n (rowElem a rb y x)) (a.width / 8)) (obElem s n (cOB w) a.fmt (j * (a.outerBits / a.width) + x))) ∧
        (∀ x, Outside l x → readByte (fin t') x = readByte s x) ∧ GranulesAfter (fin t') l false)

/-- R245–R247, R168: ELEM gives every element its function's value, rounded to DC's format once, or the codes of its block of 32 with
the block's scale; AdamW gives weights and moments their update; STAT puts a row's sum, sum of squares or maximum in the
accumulator, or combines it there. -/
def Obligations.PanElementAndRowPasses : Prop :=
  ∀ (s : State) (t : Fin 20) (u : Fin 32) (b : Batch) (r : PanRun) (i w : Nat),
    let n := 32 * t.val + u.val
    Sound s → PanAt s n b r i w →
    let k := s.pan n
    let fin := fun (x : State) => panEnd x n b.part
    let readable := fun (d : Desc) => d.mode = 0 ∨ d.mode = 1
    let a := descAt b (cDA w)
    let d := descAt b (cDB w)
    let c := descAt b (cDC w)
    let val := fun (x : Desc) j => decodeFmt x.fmt (panElem s n x (s.panReadBase b.part x) j)
    let readOk := fun (x : Desc) => x.kind = 0 ∧ readable x ∧ PanReadOk s n x (s.panReadBase b.part x)
    (cOPC w = 0x07 → DescFine s b n (cDA w) true → DescFine s b n (cDC w) true → readOk a → c.kind = 0 → c.count = a.count →
      PanWriteOk s n b c → (cSR w = true → 3 ≤ c.fmt ∧ c.fmt ≤ 6) →
      (∀ e ∈ elemOps, cFUNC w = e.1 →
        let unary := e.1 = 6 ∨ e.1 = 7
        let params := e.1 = 3 ∨ e.1 = 7
        (e.1 = 6 → c.scaled = false) →
        cUnused w 0 ([.da, .db, .dc, .func, .sr] ++ if params then [.imm] else []) = false →
        (params → cIMM w < 4096 ∧ 64 * cIMM w + (if e.1 = 3 then 8 else 4) ≤ b.npay * slotBytes) →
        (unary → cDB w = 0xFFF) → (¬ unary → DescFine s b n (cDB w) true ∧ readOk d ∧ d.count = a.count) →
        let q := fun j =>
          let v := e.2 (paramAt b w 0) (paramAt b w 1) (val a j) (val d j)
          let o := if cSR w then narrowSR c.fmt (srDraw (srAdvanceN (j + 1) r.seed)) v.1 else narrow c.fmt v.1
          (o.1, v.2 ||| o.2)
        ∃ t', exec (.panElem t u) s = .next t' ∧ PanStores s t' n b ∧
          PanDone s t' n r i true (fun r => { r with
            flags := r.flags ||| flagsOf a.count q, seed := if cSR w then srAdvanceN a.count r.seed else r.seed }) ∧
          (t'.pan n).acc = k.acc ∧ SameObuf s t' n ∧ PanWritten s (fin t') n b c (codeBit c.width (fun j => (q j).1)) false) ∧
      (let sc := descAt b (cDC w + 1)
       let wb := s.panWriteBase b.part c
       let sb := s.panWriteBase b.part sc
       let l := panPieces n (rowsOf c wb ++ rowsOf sc sb)
       cFUNC w = 6 → c.scaled = true → cUnused w 0 [.da, .db, .dc, .func, .sr] = false → cDB w = 0xFFF →
       DescHere s b n (cDC w + 1) true → scaleMatches c sc = true → sc.mode = 1 → Apart l → WriteOk s l →
       let q := fun j =>
         let is := scaleCovers c sc j
         mxQuant c.fmt (is.map (val a)) (if cSR w then is.map (fun x => srDraw (srAdvanceN (x + 1) r.seed)) else [])
       ∃ t' fl, exec (.panElem t u) s = .next t' ∧ PanStores s t' n b ∧
         PanDone s t' n r i true (fun r => { r with
           flags := r.flags ||| fl, seed := if cSR w then srAdvanceN a.count r.seed else r.seed }) ∧
         (t'.pan n).acc = k.acc ∧ SameObuf s t' n ∧
         (∀ j, j < sc.count → panElem (fin t') n sc sb j = (q j).1 ∧
           ∀ x y, (scaleCovers c sc j)[x]? = some y → panElem (fin t') n c wb y = nth 0 (q j).2.1 x) ∧
         (∀ x, Outside l x → readByte (fin t') x = readByte s x) ∧ GranulesAfter (fin t') l false)) ∧
    (let at_ := fun j => descAt b (cDA w + j)
     let wb := fun j => s.panWriteBase b.part (at_ j)
     let l := panPieces n ((List.range 3).flatMap (fun j => rowsOf (at_ j) (wb j)))
     cOPC w = 0x07 → cFUNC w = 8 → cUnused w 0 [.da, .db, .dc, .func, .sr, .imm] = false → cDB w = 0xFFF → cDC w = 0xFFF →
     cIMM w < 4096 → 64 * cIMM w + 28 ≤ b.npay * slotBytes →
     DescFine s b n (cDA w) true → (∀ j, j < 4 → DescHere s b n (cDA w + j) true ∧ readOk (at_ j) ∧ (at_ j).count = a.count) →
     (∀ j, j < 3 → (at_ j).mode = 1 ∧ (cSR w = true → 3 ≤ (at_ j).fmt ∧ (at_ j).fmt ≤ 6)) → Apart l → WriteOk s l →
     let x := fun i j => (narrow 0 (val (at_ i) j)).1
     let p := (List.range 7).map (paramAt b w)
     let new := fun j => adamw p (x 0 j) (x 1 j) (x 2 j) (x 3 j)
     let out := fun i j => match i with | 0 => (new j).1.1 | 1 => (new j).2.1.1 | _ => (new j).2.2.1
     ∃ (t' : State) (fl : Nat) (sd : Word) (draw : Nat → Nat → Nat), exec (.panElem t u) s = .next t' ∧ PanStores s t' n b ∧
       PanDone s t' n r i true (fun r => { r with flags := r.flags ||| fl, seed := sd }) ∧
       (t'.pan n).acc = k.acc ∧ SameObuf s t' n ∧
       (∀ i j, i < 3 → j < a.count →
         panElem (fin t') n (at_ i) (wb i) j =
           if cSR w then (narrowSR (at_ i).fmt (draw i j) (of32 (out i j))).1 else (narrow (at_ i).fmt (of32 (out i j))).1) ∧
       (∀ y, Outside l y → readByte (fin t') y = readByte s y) ∧ GranulesAfter (fin t') l false) ∧
    (let e0 := nth 0 a.ext 0
     let rows := (a.exts.drop 1).foldl (· * ·) 1
     let per := if cFUNC w = 3 then 2 else 1
     cOPC w = 0x08 → cUnused w 0 [.da, .ac, .func, .acc] = false → cFUNC w ≤ 3 → DescFine s b n (cDA w) true → readOk a →
     16 * cAC w + rows * per ≤ 16384 → (cFUNC w = 2 → 0 < e0) →
     let stat := fun j =>
       let vs := (List.range e0).map (fun x => val a (j / per * e0 + x))
       let sum := pairSum (vs.map (fun v => (narrow 0 v).1))
       let sq := pairSum (vs.map (fun v => (to32 (fvMul v v)).1))
       let raw := match cFUNC w with
         | 0 => of32 sum.1
         | 1 => of32 sq.1
         | 2 => (vs.drop 1).foldl fvMax (vs.headD .nan)
         | _ => if j % 2 = 0 then of32 sum.1 else of32 sq.1
       (narrow 0 raw).1
     ∃ t' fl, exec (.panStat t u) s = .next t' ∧ t' = { s with pans := t'.pans, stks := t'.stks, free := t'.free } ∧
       PanDone s t' n r i false (fun r => { r with flags := r.flags ||| fl }) ∧ SameObuf s t' n ∧
       (∀ j, j < rows * per → smGet 0 (t'.pan n).acc (16 * cAC w + j) =
         let old := smGet 0 k.acc (16 * cAC w + j)
         if cACC w then (if cFUNC w = 2 then (narrow 0 (fvMax (of32 old) (of32 (stat j)))).1 else (f32Add old (stat j)).1) else stat j) ∧
       ∀ j, (j < 16 * cAC w ∨ 16 * cAC w + rows * per ≤ j) → smGet 0 (t'.pan n).acc j = smGet 0 k.acc j)

/-- R248–R250: SEAL reads every granule of its descriptor's working half, at most 16 in a micro-operation, and shuts it at the end of
that with the checksum of its bytes, where it holds a written line, and changes no byte; a granule that a write reached
since SEAL began to read it is left open and counted; FENCE and SYNC go on once the pan's writes are performed, and hold until then;
SYNC writes its status record and with FLG[0] signals the partition's semaphore. -/
def Obligations.PanSealFenceAndSync : Prop :=
  (∀ (s : State) (n : Nat) (r : PanRun) (g : Nat),
    Sound s → (s.pan n).run = some r → r.closing = [g] →
    let t := s.microEnd n
    (t.pan n).run = some { r with
        banks := [], closing := [], sealLost := if s.sealing.contains (n, g) then r.sealLost else Nat.min (r.sealLost + 1) 0xFFFFFFFF } ∧
      (s.sealing.contains (n, g) = false → ∀ st o, placeOf (4096 * g) = .data st o → (t.granule g).state = .opened) ∧
      (s.sealing.contains (n, g) = true → (s.granule g).valid ≠ 0#64 → ∀ st o, placeOf (4096 * g) = .data st o → Unarmed s (4096 * g) →
        t.granule g = { s.granule g with
          state := .shut, crc := BitVec.ofNat 32 (crc32c ((List.range 4096).map (fun x => readByte s (4096 * g + x)))) }) ∧
      (∀ h, h ≠ g → t.granule h = s.granule h) ∧ ∀ a, readByte t a = readByte s a) ∧
  ∀ (s : State) (t : Fin 20) (u : Fin 32) (b : Batch) (r : PanRun) (i w : Nat),
    let n := 32 * t.val + u.val
    Sound s → PanAt s n b r i w →
    let a := descAt b (cDA w)
    let wb := s.panWriteBase b.part a
    let fin := fun (x : State) => panEnd x n b.part
    let idle := ∀ k ∈ s.stks, ∀ e ∈ k.queue, ∀ q ∈ e.2, ¬ (q.agent = .pan n ∧ q.isWrite = true)
    (cOPC w = 0x0A → cUnused w 0 [.da] = false → DescFine s b n (cDA w) true → a.mode = 1 → 0 < a.count →
      (∀ g ∈ a.granules wb, ∀ x, x < 4096 → Clean s (panDpa n (4096 * g) + x) ∧ Unarmed s (panDpa n (4096 * g) + x)) →
      ∃ t', exec (.panSeal t u) s = .next t' ∧ t' = { s with pans := t'.pans, stks := t'.stks, sealing := t'.sealing } ∧
        PanStores s t' n b ∧ SameMemory { s with gran := (fin t').gran, csumBad := (fin t').csumBad } (fin t') ∧ PanDone s t' n r i true id ∧
        (t'.pan n).acc = (s.pan n).acc ∧ SameObuf s t' n ∧
        (∀ g ∈ a.granules wb,
          let h := panDpa n (4096 * g) / 4096
          (fin t').granule h =
            if (s.granule h).valid = 0#64 then s.granule h
            else { s.granule h with
              state := .shut, crc := BitVec.ofNat 32 (crc32c ((List.range 4096).map (fun x => readByte s (4096 * h + x)))) }) ∧
        ∀ h, (∀ g ∈ a.granules wb, h ≠ panDpa n (4096 * g) / 4096) → (fin t').granule h = s.granule h) ∧
    (cOPC w = 0x0B → cUnused w 0 [] = false →
      (idle → ∃ t', exec (.panFence t u) s = .next t' ∧ t' = { s with pans := t'.pans } ∧ PanDone s t' n r i false id ∧
        (t'.pan n).acc = (s.pan n).acc ∧ SameObuf s t' n) ∧
      (¬ idle → exec (.panFence t u) s = .next s)) ∧
    (cOPC w = 0x0C → cUnused w 1 [.da, .imm, .flg] = false → DescFine s b n (cDA w) true → a.mode = 1 → a.rank = 1 → a.size = 64 →
      PanWriteOk s n b a → b.part < 16 → bits (cIMM w) 5 0 < 64 → s.semQueue b.part (bits (cIMM w) 5 0) = [] →
      (idle → ∃ (t' : State) (v : Nat), exec (.panSync t u) s = .next t' ∧
        t' = { s with
          pans := t'.pans, stks := t'.stks, mem := t'.mem, gran := t'.gran, ecc := t'.ecc, metaFlip := t'.metaFlip
          flipped := t'.flipped, sealing := t'.sealing, csumBad := t'.csumBad, csr := t'.csr, parts := t'.parts } ∧
        PanDone s t' n r i false id ∧ (t'.pan n).acc = (s.pan n).acc ∧ SameObuf s t' n ∧
        v = readBytesOf t' (panDpa n wb) 64 ∧ bits v 5 0 = r.flags % 64 ∧ bits v 31 16 = r.cmds % 65536 ∧
        (r.idxOob < 2 ^ 32 → bits v 63 32 = r.idxOob) ∧
        (r.idxOob < 2 ^ 32 → r.skipped < 2 ^ 32 → bits v 95 64 = r.skipped) ∧
        (r.idxOob < 2 ^ 32 → r.skipped < 2 ^ 32 → r.sealLost < 2 ^ 32 →
          bits v 127 96 = r.sealLost ∧ bits v 191 128 = r.clocks / 1000 % 2 ^ 64 ∧ bits v 255 192 = r.bytes % 2 ^ 64 ∧
            bits v 271 256 = cIMM w ∧ bits v 276 272 = t.val ∧ bits v 284 280 = u.val ∧ bits v 511 285 = 0) ∧
        (∀ x, (x < panDpa n wb ∨ panDpa n wb + 64 ≤ x) → readByte t' x = readByte s x) ∧
        (let sem : Fld × Nat × Nat := (Fld.SEM_VAL.COUNT, b.part, bits (cIMM w) 5 0)
         if cFLG w = 1 then
           BitsBut [sem] s t' ∧ t'.get Fld.SEM_VAL.COUNT b.part (bits (cIMM w) 5 0) =
             Nat.min (s.get Fld.SEM_VAL.COUNT b.part (bits (cIMM w) 5 0) + 1) 0xFFFFFFFF
         else t'.csr = s.csr)) ∧
      (¬ idle → exec (.panSync t u) s = .next s))

/-- R157, R163, R217, R230–R235, R253–R259: a payload goes to a stack that has its blocks free, granule by granule while the
partition's sluice and the stack's bucket let it, on the external path and on the inter-die link where it crosses it, and its
words follow; a pan takes the batch of its oldest word, its operand buffer and accumulator clear; a boundary ends one
micro-operation and begins the next, which does the next of the command's writes, or ends the command, or the batch where
the step is abandoned; a word with no defined code fails with CMD_ILLEGAL and the rest of the batch there is discarded; a
completion report takes the pan out of the batch, and a fault report faults the issuing core. -/
def Obligations.PanBatches : Prop :=
  (∀ (s : State) (c : Fin 12) (t : Fin 20) (b : Batch), Sound s →
    s.batches.find? (fun x => x.core == c.val && x.item.isNone && (!x.await.isEmpty || !x.words.isEmpty)) = some b →
    b.await = [t.val] → b.part < 16 → (s.batches.map Batch.id).Nodup → (∀ e ∈ b.words, bits e.2 119 115 = t.val) →
    (∀ v : Fin 32, ((s.pan (32 * t + v)).queue.length + (b.words.filter (fun e => bits e.2 114 110 = v.val)).length) ≤ 256) →
    let m := 4 * b.npay - smGet 0 b.paid t
    let k := s.stack t
    s.stackUp t = true → s.blocksUsed t + b.npay ≤ 64 →
    (0 < m → 0 < nth 0 k.rate b.part ∧ s.is Fld.SL_SCALE.SCALE t = true ∧
      (((m - 1) * 335544320 : Nat) : Int) < nth 0 k.level b.part ∧ (((m - 1) * 335544320 : Nat) : Int) < k.bucket) →
    (s.core c).queue = [] →
    ∃ t', exec (.payloadDelivery c t) s = .next t' ∧
      t' = { s with stks := t'.stks, csr := t'.csr, parts := t'.parts, batches := t'.batches, pans := t'.pans } ∧
      BitsBut [(Fld.SL_EXT.BYTES, t, b.part), (Fld.STK_EXT_WR.BYTES, t, 0)] s t' ∧
      Counted 64 (s.get Fld.SL_EXT.BYTES t b.part) (4096 * m) (t'.get Fld.SL_EXT.BYTES t b.part) ∧
      Counted 64 (s.get Fld.STK_EXT_WR.BYTES t) (4096 * m) (t'.get Fld.STK_EXT_WR.BYTES t) ∧
      nth 0 (t'.stack t).level b.part = nth 0 k.level b.part - (m * 335544320 : Nat) ∧
      (t'.stack t).bucket = k.bucket - (m * 335544320 : Nat) ∧ (∀ x, x ≠ t.val → t'.stack x = s.stack x) ∧
      (∀ p, p ≠ b.part → t'.part p = s.part p) ∧
      nth 0 (t'.part b.part).acc 6 = nth 0 (s.part b.part).acc 6 + 4096 * m ∧
      nth 0 (t'.part b.part).acc 8 = nth 0 (s.part b.part).acc 8 + (if dieOfCore c = dieOfStack t then 0 else 4096 * m) ∧
      (∀ x ∈ s.batches, x.id ≠ b.id → x ∈ t'.batches) ∧
      { b with await := [], paid := smErase b.paid t, held := setInsert b.held t, words := [] } ∈ t'.batches ∧
      ∀ v : Fin 32, (t'.pan (32 * t + v)).queue = (s.pan (32 * t + v)).queue ++
        ((b.words.filter (fun e => bits e.2 114 110 = v.val)).map (fun e => (b.id, e.1, e.2)))) ∧
  (∀ (s : State) (t : Fin 20) (u : Fin 32) (id i w : Nat) (rest : List (Nat × Nat × Nat)) (b : Batch),
    let n := 32 * t.val + u.val
    Sound s → (s.pan n).run = none → (s.pan n).queue = (id, i, w) :: rest → s.batch id = some b → s.pansRun t = true →
    (s.part b.part).phase = .active →
    ∃ t', exec (.panBatchStart t u) s = .next t' ∧ t' = { s with pans := t'.pans } ∧ (∀ m, m ≠ n → t'.pan m = s.pan m) ∧
      t'.pan n = { s.pan n with
        run := some { batch := id, micro := 0, cmds := 0, flags := 0, idxOob := 0, skipped := 0, sealLost := 0, bytes := 0, clocks := 0
                      mhz := s.mhz (dieOfStack t)
                      seed := BitVec.ofNat 64 (seedOf ((if b.npay = 0 then List.replicate 8 0 else (List.range 8).map (byteAt b.payload)) ++
                        bytesOf 8 t ++ bytesOf 8 u))
                      stopped := false, fault := none, cmd := 0, left := [], reads := [], banks := [], closing := [] }
        obuf := [], obufBad := [], acc := [] }) ∧
  (∀ (s : State) (t : Fin 20) (u : Fin 32) (r : PanRun) (b : Batch),
    let n := 32 * t.val + u.val
    Sound s → (s.pan n).run = some r → s.batch r.batch = some b → (∀ x ∈ s.batches, x.words = []) → (s.batches.map Batch.id).Nodup →
    r.closing = [] →
    ((s.part b.part).phase ≠ .abandoning → r.stopped = false → s.pansRun t = true → smGet 0 (s.stack t).owed u = 0 →
      (∀ q ∈ smGet [] (s.stack t).queue u, q.agent = .pan n) →
      let ends := { s with
        sealing := s.sealing.filter (fun e => e.1 != n)
        pans := smPut .reset s.pans n { s.pan n with run := some { r with mhz := s.mhz (dieOfStack t), banks := [] } } }
      (r.micro = 0 → exec (.microOpBoundary t u) s = .next ends) ∧
      (r.micro = 1 → exec (.microOpBoundary t u) s = .next (ends.setRun n (fun r => { r with micro := 0, cmds := r.cmds + 1 }))) ∧
      (1 < r.micro → r.left = [] → exec (.microOpBoundary t u) s = .next (ends.setRun n (fun r => { r with
        micro := r.micro - 1, reads := r.reads.drop 1, banks := nth [] r.reads 0 }))) ∧
      (1 < r.micro → ∀ x, r.left.head? = some x →
        let done := (ends.setRun n (fun r => { r with micro := r.micro - 1 })).panTask n b.part x
        let e := done.2
        done.1 = none →
        ∃ t', exec (.microOpBoundary t u) s = .next t' ∧ t' = { e with pans := t'.pans } ∧ (∀ m, m ≠ n → t'.pan m = e.pan m) ∧
          ∃ q, (e.pan n).run = some q ∧ ∃ q', (t'.pan n).run = some q' ∧ t'.pan n = { e.pan n with run := some q' } ∧
            q' = { q with left := q.left.drop 1, reads := q.reads.drop 1, banks := q'.banks, bytes := q'.bytes })) ∧
    ((s.part b.part).phase = .abandoning →
      ∃ t', exec (.microOpBoundary t u) s = .next t' ∧ t' = { s with pans := t'.pans, sealing := s.sealing.filter (fun e => e.1 != n) } ∧
        (∀ m, m ≠ n → t'.pan m = s.pan m) ∧
        t'.pan n = { s.pan n with
          queue := (s.pan n).queue.filter (fun q => q.1 != r.batch)
          run := some { r with stopped := true, micro := 0, left := [], reads := [], banks := [] } })) ∧
  (∀ (s : State) (t : Fin 20) (u : Fin 32) (b : Batch) (r : PanRun) (i w : Nat),
    let n := 32 * t.val + u.val
    Sound s → PanAt s n b r i w → (cOPC w = 0 ∨ 0x0C < cOPC w) →
    ∃ t', exec (.illegalPanCommand t u) s = .next t' ∧ t' = { s with pans := t'.pans, sealing := s.sealing.filter (fun e => e.1 != n) } ∧
      (∀ m, m ≠ n → t'.pan m = s.pan m) ∧
      t'.pan n = { s.pan n with
        queue := (s.pan n).queue.filter (fun q => q.1 != r.batch)
        run := some { r with
          fault := some (0x01, 0, i), mhz := s.mhz (dieOfStack t), micro := 0, left := [], reads := [], banks := [], closing := [] } }) ∧
  ∀ (s : State) (t : Fin 20) (u : Fin 32) (b : Batch) (r : PanRun),
    let n := 32 * t.val + u.val
    Sound s → (s.pan n).run = some r → r.micro = 0 → s.batch r.batch = some b → (s.batches.map Batch.id).Nodup → b.item = none →
    (∀ k ∈ s.stks, ∀ e ∈ k.queue, ∀ q ∈ e.2, q.agent ≠ .pan n) → b.pans = [n] →
    (r.fault = none → r.stopped = false → b.words = [] → (∀ e ∈ (s.pan n).queue, e.1 ≠ r.batch) → (∀ c : Fin 12, (s.core c).queue = []) →
      (∀ x ∈ s.batches, x.words = []) →
      ∃ t', exec (.panCompletionReport t u) s = .next t' ∧ t' = { s with pans := t'.pans, batches := t'.batches } ∧
        t'.batches = s.batches.filter (fun x => x.id != b.id) ∧ (∀ m, m ≠ n → t'.pan m = s.pan m) ∧
        t'.pan n = { s.pan n with run := none, obuf := [], obufBad := [], acc := [] }) ∧
    (∀ code addr cmd, r.fault = some (code, addr, cmd) → b.core < 12 → s.get Fld.FAULT_REC.VALID b.core = 0 → (code ≠ 0x09 ∧ code ≠ 0x0B) →
      ∃ t', exec (.panCompletionReport t u) s = .next t' ∧ t'.get Fld.FAULT_REC.VALID b.core = 1 ∧
        t'.get Fld.FAULT_REC.ENGINE b.core = 4 ∧ t'.get Fld.FAULT_REC.CODE b.core = 0x10 ∧ t'.get Fld.FAULT_REC.UNIT b.core = t.val ∧
        t'.get Fld.FAULT_ADDR.ADDR b.core = (if code = 0x0A then addr % 2 ^ 42 else 0) ∧ (t'.core b.core).run = .faulted)

namespace Sys2Proof.Spec

/-! Time and leap ticks. -/

/-- No partition is RUNNING or STOPPING. -/
abbrev NoneSteps (s : State) : Prop := ∀ p, p < 16 → s.get Fld.STEP_STATE.STATE p ≠ 1 ∧ s.get Fld.STEP_STATE.STATE p ≠ 2

/-- Nothing of what programs see in memory or in the cores' registers differs: bytes and metadata of memory, host memory, scalar
and descriptor registers, TRFs and program counters. -/
def SameContents (s t : State) : Prop :=
  SameMemory s t ∧ t.host = s.host ∧ ∀ c, (t.core c).x = (s.core c).x ∧ (t.core c).td = (s.core c).td ∧ (t.core c).trf = (s.core c).trf ∧
    (t.core c).pc = (s.core c).pc ∧ (t.core c).stq = (s.core c).stq

/-- The level of a sluice after n nanoseconds (R217): it rises at RATE, scaled, and stops at DEPTH. -/
def levelAfter (s : State) (st sl n : Nat) : Int :=
  let k := s.stack st
  let l := nth 0 k.level sl
  let up := l + ((625 * nth 0 k.rate sl * s.get Fld.SL_SCALE.SCALE st * n : Nat) : Int)
  let cap : Int := ((nth 1 k.depth sl * 1000000 * 10240 : Nat) : Int)
  if up ≤ cap then up else if cap < l then l else cap

end Sys2Proof.Spec

/-- R29, R30, R217, R298: at a base tick boundary TICK_COUNT has reached the next multiple of the period and BTICK_NUM counts it;
in a block where no step is active every sluice has risen by its rate for the time passed, every rake's debt by its credit
and every HOST sluice has its postponements again, and memory and registers of the cores stand. -/
def Obligations.BaseTickBoundaries : Prop :=
  ∀ s : State, Sound s → s.mod.power ≠ .dark →
    let us := s.get Fld.TICK_PERIOD.PERIOD_US
    let ns := us * 1000
    let b := s.get Fld.TICK_COUNT.COUNT / ns + 1
    100 ≤ us → us ≤ 100000 → b * ns < 2 ^ 64 →
    ∃ t, exec .baseTickBoundary s = .next t ∧ t.get Fld.TICK_COUNT.COUNT = b * ns ∧ t.get Fld.BTICK_NUM.NUM = b ∧
      (∀ st : Fin 20, nth 0 (t.stack st).deferLeft 16 = t.get Fld.SL_CFG.REF_DEFER st 16) ∧
      ((∀ p, p < 16 → (s.part p).phase ≠ .active) → SameContents s t ∧ ∀ st : Fin 20, s.runs (dieOfStack st) = true →
        (∀ sl, sl < 17 → nth 0 (t.stack st).level sl = levelAfter s st sl (b * ns - s.get Fld.TICK_COUNT.COUNT)) ∧
        (s.mod.power = .on → t.get Fld.RAKE_DEBT.GRANULES st =
          Nat.min (s.get Fld.RAKE_DEBT.GRANULES st + ((s.stack st).rakeCarry + s.get Fld.RAKE_CFG.LINES_PER_TICK st) / 64)
            (s.get Fld.RAKE_CFG.DEBT_MAX st)))

/-- R30–R32: a write of TICK_PERIOD outside 100 to 100,000 changes nothing and sets PERIOD_BAD; one within acts at once when no
partition is RUNNING or STOPPING, and else waits for a leap tick. A write of TICK_COUNT acts on the same condition or at
the start of a leap tick, else it changes nothing and sets COUNT_REFUSED. BTICK_NUM follows at once. -/
def Sys2Proof.Spec.TickWrites : Prop :=
  (∀ (s : State) (v : Word), Sound s →
    let us := bits v.toNat 16 0
    let now := s.get Fld.TICK_COUNT.COUNT
    ((us < 100 ∨ 100000 < us) → ∃ t, exec (.tickPeriodWrite v) s = .next t ∧ OnlyRegs [(Fld.TICK_ERR.PERIOD_BAD, 0, 0)] s t ∧
      t.get Fld.TICK_ERR.PERIOD_BAD = 1) ∧
    (100 ≤ us → us ≤ 100000 → NoneSteps s →
      ∃ t, exec (.tickPeriodWrite v) s = .next t ∧ t.get Fld.TICK_PERIOD.PERIOD_US = us ∧ t.get Fld.TICK_COUNT.COUNT = now ∧
        t.get Fld.BTICK_NUM.NUM = now / (us * 1000) ∧ SameContents s t) ∧
    (100 ≤ us → us ≤ 100000 → ¬ NoneSteps s →
      exec (.tickPeriodWrite v) s = .next { s with tick := { s.tick with pendPeriod := some us } })) ∧
  ∀ (s : State) (v : Word), Sound s → 100 ≤ s.get Fld.TICK_PERIOD.PERIOD_US →
    let may := NoneSteps s ∨ (s.get Fld.LEAP_CTRL.STATE = 2 ∧ s.tick.leapNs = 0)
    (may → ∃ t, exec (.tickCountWrite v) s = .next t ∧ t.get Fld.TICK_COUNT.COUNT = v.toNat ∧
      t.get Fld.BTICK_NUM.NUM = v.toNat / (s.get Fld.TICK_PERIOD.PERIOD_US * 1000) ∧
      t.get Fld.TICK_PERIOD.PERIOD_US = s.get Fld.TICK_PERIOD.PERIOD_US ∧ SameContents s t) ∧
    (¬ may → ∃ t, exec (.tickCountWrite v) s = .next t ∧ OnlyRegs [(Fld.TICK_ERR.COUNT_REFUSED, 0, 0)] s t ∧
      t.get Fld.TICK_ERR.COUNT_REFUSED = 1)

/-- R32, R56, R416, R417: a sync message of the disciplined port records its offset, locks after 16 in a row within 1 µs, and slews
TICK_COUNT, or steps it where the offset is beyond STEP_THRESH_US and a step is allowed; losing PTP gives HOLDOVER, and
two seconds later FREE with SYNC_LOST; a master port sends TICK_COUNT, once in 2^−SYNC_LOG2 seconds. -/
def Sys2Proof.Spec.PtpMessages : Prop :=
  (∀ (s : State) (port : Fin 4) (off : Int), Sound s → s.isUp 0 = true → s.isUp (port.val / 2) = true → s.get Fld.TICK_DISC.DISC_EN = 1 →
    s.get Fld.TICK_DISC.PORT = port → s.get Fld.PTP_CFG.ROLE = 0 → (s.get Fld.PORT_STAT.UP port).testBit 0 = true →
    100 ≤ s.get Fld.TICK_PERIOD.PERIOD_US →
    let good := if off.natAbs ≤ 1000 then s.tick.goodSyncs + 1 else 0
    let big := 1000 * s.get Fld.TICK_DISC.STEP_THRESH_US < off.natAbs
    let may := NoneSteps s ∨ (s.get Fld.LEAP_CTRL.STATE = 2 ∧ s.tick.leapNs = 0)
    ∃ t, exec (.ptpMessage port off) s = .next t ∧ SameContents s t ∧ t.get Fld.TICK_SYNC.STATE = (if 16 ≤ good then 2 else 1) ∧
      t.get Fld.TICK_SYNC.OFFSET_NS = (BitVec.ofInt 32 off).toNat ∧ t.tick.lostAt = none ∧
      (big → may → t.get Fld.TICK_COUNT.COUNT = (BitVec.ofInt 64 ((s.get Fld.TICK_COUNT.COUNT : Int) + off)).toNat ∧ t.tick.slew = 0 ∧
        t.get Fld.BTICK_NUM.NUM = t.get Fld.TICK_COUNT.COUNT / (s.get Fld.TICK_PERIOD.PERIOD_US * 1000)) ∧
      (¬ (big ∧ may) → t.get Fld.TICK_COUNT.COUNT = s.get Fld.TICK_COUNT.COUNT ∧ t.tick.slew = off ∧
        OnlyRegs [(⟨Reg.TICK_SYNC, 63, 0⟩, 0, 0)] { s with tick := t.tick } t)) ∧
  (∀ s : State, Sound s → (s.get Fld.TICK_SYNC.STATE = 1 ∨ s.get Fld.TICK_SYNC.STATE = 2) →
    ∃ t, exec .ptpLoss s = .next t ∧ t.get Fld.TICK_SYNC.STATE = 3 ∧ t.tick.lostAt = some (s.get Fld.TICK_COUNT.COUNT) ∧
      OnlyRegs [(Fld.TICK_SYNC.STATE, 0, 0)] { s with tick := t.tick } t) ∧
  (∀ (s : State) (at_ : Nat), Sound s → s.get Fld.TICK_SYNC.STATE = 3 → s.tick.lostAt = some at_ →
    at_ + 2000000000 ≤ s.get Fld.TICK_COUNT.COUNT →
    ∃ t, exec .holdoverExpiry s = .next t ∧ t.get Fld.TICK_SYNC.STATE = 0 ∧ t.get Fld.TICK_ERR.SYNC_LOST = 1 ∧ t.tick.lostAt = none ∧
      OnlyRegs [(Fld.TICK_SYNC.STATE, 0, 0), (Fld.TICK_ERR.SYNC_LOST, 0, 0)] { s with tick := t.tick } t) ∧
  ∀ (s : State) (port : Fin 4), s.isUp 0 = true → s.isUp (port.val / 2) = true → s.get Fld.PTP_CFG.ROLE = 1 →
    (s.get Fld.PTP_CFG.MASTER_PORTS).testBit port = true → (s.get Fld.PORT_STAT.UP port).testBit 0 = true →
    let now := s.get Fld.TICK_COUNT.COUNT
    nth 0 s.net.syncAt port ≤ now →
    exec (.ptpSyncSend port) s = .next { s with
      sent := s.sent ++ [.sync port now]
      net := { s.net with syncAt := setNth s.net.syncAt port (now + 1000000000 / 2 ^ s.get Fld.PTP_CFG.SYNC_LOG2) } }

/-- R30–R32, R56, R416, R417: writes of TICK_PERIOD and TICK_COUNT act at once, wait for a leap tick, or are refused with their flags,
and BTICK_NUM follows; a sync message records its offset, locks, and slews or steps TICK_COUNT; a loss of PTP gives HOLDOVER and
then FREE; a master port sends TICK_COUNT. -/
def Obligations.TickWritesAndPtp : Prop := TickWrites ∧ PtpMessages

/-- R50, R51, R53: LEAP_AT takes a write only with no leap tick; ARM schedules one from BTICK_NUM + Lmax + 1 on, and is rejected
with LEAP_LATE before it and with LEAP_BUSY while one is scheduled or active; CANCEL ends a scheduled one that carries no
claim, and is else refused; a claim that nobody armed is scheduled at CLAIM_AT. -/
def Sys2Proof.Spec.LeapScheduling : Prop :=
  ∀ (s : State) (v : Word), Sound s →
    let st := s.get Fld.LEAP_CTRL.STATE
    let w := v.toNat
    let fields : List (Fld × Nat × Nat) := [(⟨Reg.LEAP_CTRL, 63, 0⟩, 0, 0), (⟨Reg.TICK_ERR, 63, 0⟩, 0, 0)]
    let waits := s.get Fld.LEAP_CLAIM.PENDING = 1 ∧ s.tick.claimed = false
    let len := if st = 0 then Nat.min 64 (Nat.max 1 (bits w 6 0)) else s.get Fld.LEAP_CTRL.LEN
    let errs := fun (t : State) (late busy refused : Nat) =>
      t.get Fld.TICK_ERR.LEAP_LATE = late ∧ t.get Fld.TICK_ERR.LEAP_BUSY = busy ∧ t.get Fld.TICK_ERR.CANCEL_REFUSED = refused
    s.word Reg.TICK_ERR 0 0 = 0 →
    (if st = 0 then
      ∃ t, exec (.leapAtWrite v) s = .next t ∧ OnlyRegs [(Fld.LEAP_AT.AT, 0, 0)] s t ∧ t.get Fld.LEAP_AT.AT = bits w 47 0
    else exec (.leapAtWrite v) s = .next s) ∧
    (bit w 8 = true → bit w 9 = false → ¬ waits →
      let late := s.get Fld.LEAP_AT.AT < s.get Fld.BTICK_NUM.NUM + s.lmax + 1
      ∃ t, exec (.leapArm v) s = .next t ∧ OnlyRegs fields s t ∧ t.get Fld.LEAP_CTRL.LEN = len ∧ t.get Fld.LEAP_CTRL.DEFER_MAX = bits w 31 16 ∧
        errs t (if late then 1 else 0) (if st = 0 then 0 else 1) 0 ∧
        t.get Fld.LEAP_CTRL.STATE = (if ¬ late ∧ st = 0 then 1 else st)) ∧
    (bit w 9 = true → bit w 8 = false →
      ∃ t, exec (.leapCancel v) s = .next t ∧ OnlyRegs fields s t ∧ t.get Fld.LEAP_CTRL.LEN = len ∧
        t.get Fld.LEAP_CTRL.DEFER_MAX = bits w 31 16 ∧
        errs t 0 0 (if st ≠ 0 ∧ ¬ (st = 1 ∧ s.tick.claimed = false) then 1 else 0) ∧
        t.get Fld.LEAP_CTRL.STATE = (if st = 1 ∧ s.tick.claimed = false then 0 else st)) ∧
    (let at_ := s.get Fld.LEAP_CLAIM.CLAIM_AT
     waits → st = 0 → at_ ≤ s.get Fld.BTICK_NUM.NUM + s.lmax + 1 → s.get Fld.BTICK_NUM.NUM < at_ →
      ∃ t, exec .leapClaimDeadline s = .next t ∧ t = { s with csr := t.csr, tick := { s.tick with claimed := true } } ∧
        BitsBut [(⟨Reg.LEAP_CTRL, 63, 0⟩, 0, 0), (Fld.LEAP_AT.AT, 0, 0)] s t ∧ t.get Fld.LEAP_AT.AT = at_ ∧ t.get Fld.LEAP_CTRL.STATE = 1 ∧
        t.get Fld.LEAP_CTRL.LEN = Nat.min 64 (Nat.max 1 (s.get Fld.LEAP_CLAIM.CLAIM_LEN)))

/-- R31, R32, R52, R54, R505: a scheduled leap tick begins at the boundary that opens LEAP_AT, where a period that waited comes in
force and stacks that are DOWN train; it ends at the first boundary after its length has passed, its claim withdrawn, or
runs one base tick longer, with LEAP_EXTENDED, while a component restart is unfinished. -/
def Sys2Proof.Spec.LeapBounds : Prop :=
  (∀ s : State, Sound s → s.get Fld.LEAP_CTRL.STATE = 1 → s.tick.bound = s.get Fld.BTICK_NUM.NUM + 1 →
    s.tick.boundAt = s.get Fld.TICK_COUNT.COUNT → s.get Fld.LEAP_AT.AT ≤ s.get Fld.BTICK_NUM.NUM → s.tick.pendStep = none → s.age.run = none →
    ∃ t, exec .leapTickBegin s = .next t ∧ t.get Fld.LEAP_CTRL.STATE = 2 ∧ SameContents s t ∧
      t.get Fld.TICK_COUNT.COUNT = s.get Fld.TICK_COUNT.COUNT ∧ t.tick.leapNs = 0 ∧ t.tick.pendPeriod = none ∧
      t.get Fld.TICK_PERIOD.PERIOD_US % 2 ^ 17 = (s.tick.pendPeriod.getD (s.get Fld.TICK_PERIOD.PERIOD_US)) % 2 ^ 17 ∧
      ∀ st : Fin 20, s.get Fld.STK_STATUS.STATE st = 4 → s.isUp (dieOfStack st) = true → (s.get Fld.TEST_TRAIN.GAVE_UP).testBit st = false →
        s.stacksTrain = true → t.get Fld.STK_STATUS.STATE st = 1) ∧
  ∀ s : State, Sound s → s.get Fld.LEAP_CTRL.STATE = 2 → s.tick.bound = s.get Fld.BTICK_NUM.NUM + 1 →
    s.tick.boundAt = s.get Fld.TICK_COUNT.COUNT →
    let n := s.get Fld.LEAP_CTRL.LEN
    n * (s.get Fld.TICK_PERIOD.PERIOD_US * 1000) ≤ s.tick.leapNs → (∀ st : Fin 20, s.get Fld.STK_STATUS.STATE st ≠ 1) →
    (∀ p ∈ s.net.retrain, s.get Fld.PORT_STAT.TRAINING p = 0) → s.mod.idl ≠ .training →
    (s.sec.upd = none → s.age.run = none →
      ∃ t, exec .leapTickEnd s = .next t ∧ t.get Fld.LEAP_CTRL.STATE = 0 ∧ t.get Fld.LEAP_CTRL.ARM = 0 ∧ SameContents s t ∧
        t.tick.claimed = false ∧ t.get Fld.LEAP_CLAIM.PENDING = if s.tick.claimed then 0 else s.get Fld.LEAP_CLAIM.PENDING) ∧
    (∀ x, s.sec.upd = some x → 0 < x.phase → n < 64 →
      ∃ t, exec .leapTickEnd s = .next t ∧ OnlyRegs [(Fld.LEAP_CTRL.LEN, 0, 0), (Fld.TICK_ERR.LEAP_EXTENDED, 0, 0)] s t ∧
        t.get Fld.LEAP_CTRL.LEN = n + 1 ∧ t.get Fld.TICK_ERR.LEAP_EXTENDED = 1)

/-- R31, R32, R50–R54, R505: LEAP_AT takes a write only with no leap tick; ARM schedules one from BTICK_NUM + Lmax + 1 on, or is
rejected with its flag; CANCEL ends one that carries no claim; a claim that nobody armed is scheduled at CLAIM_AT; a leap tick begins
at the boundary that opens LEAP_AT and ends after its length, or runs longer while a component restart is unfinished. -/
def Obligations.LeapTicks : Prop := LeapScheduling ∧ LeapBounds

namespace Sys2Proof.Spec

/-! Steps. -/

/-- Partition p's step record alone changed, beside registers. -/
def PartOnly (s t : State) (p : Nat) : Prop :=
  t = { s with csr := t.csr, parts := t.parts } ∧ ∀ q, q ≠ p → t.part q = s.part q

/-- A core with nothing running, queued or held. -/
abbrev CoreStill (k : CoreSt) : Prop := k.run = .idle ∧ k.queue = [] ∧ k.ftq = [] ∧ k.stq = []

/-- A boundary in force is a step boundary of partition p that it has not seen, and brings no change of a partition's
stacks and regions or of a serving directory. -/
abbrev PlainBoundary (s : State) (p : Nat) : Prop :=
  s.isUp 0 = true ∧ s.stepDue p = true ∧ (s.part p).lastTick ≠ s.get Fld.BTICK_NUM.NUM + 1 ∧
    (∀ q, q < 16 → s.get Fld.PT_STAT.PENDING q = 0) ∧ (s.part p).serve.reloadDir = false

/-- The length of partition p's window in nanoseconds (R33). -/
def windowOf (s : State) (p : Nat) : Nat := (s.get Fld.STEP_CFG.LEN_M1 p + 1) * (s.get Fld.TICK_PERIOD.PERIOD_US * 1000)

/-- Cross-die partitions (R36, R40). -/
abbrev CrossDie (s : State) (p : Nat) : Prop := s.hasDie p 0 = true ∧ s.hasDie p 1 = true

end Sys2Proof.Spec

/-- R45, R47, R58, R63: STEP_CFG takes a write unless PHASE is above LEN_M1, or it moves either while RUNNING (the model reads the
refusal of LEN_M1 as that of the whole write); START readies an IDLE partition with an almanac; STOP and QUIESCE end a
step that runs first, and else act at once; RESUME clears the retry count and readies a stopped partition. -/
def Obligations.StepControl : Prop :=
  (∀ (s : State) (p : Fin 16) (v : Word), Sound s → s.serves 0 = true →
    let w := v.toNat
    let len := bits w 9 0
    let ph := bits w 25 16
    let moved := len ≠ s.get Fld.STEP_CFG.LEN_M1 p ∨ ph ≠ s.get Fld.STEP_CFG.PHASE p
    let refused := len < ph ∨ (moved ∧ s.get Fld.STEP_STATE.STATE p = 1)
    (refused → ∃ t, exec (.stepCfgWrite p v) s = .next t ∧ OnlyRegs [(Fld.STEP_ERR.CFG_REFUSED, p, 0)] s t ∧
      t.get Fld.STEP_ERR.CFG_REFUSED p = 1) ∧
    (¬ refused → ∃ t, exec (.stepCfgWrite p v) s = .next t ∧ OnlyRegs [(allOf Reg.STEP_CFG, p, 0)] s t ∧
      t.get Fld.STEP_CFG.LEN_M1 p = len ∧ t.get Fld.STEP_CFG.PHASE p = ph ∧
      t.get Fld.STEP_CFG.EVE_PM p = Nat.min 500 (Nat.max 10 (bits w 41 32)) ∧ t.get Fld.STEP_CFG.RETRY_LIMIT p = bits w 51 48 ∧
      t.get Fld.STEP_CFG.RETRY_TRIM p = Nat.min 64 (bits w 63 56))) ∧
  (∀ (s : State) (p : Fin 16), Sound s → s.serves 0 = true → s.get Fld.STEP_STATE.STATE p = 0 → s.wornBars p = false →
    s.get Fld.ALM_NEXT.VALID p = 0 → (s.part p).alm ≠ none →
    ∃ t, exec (.start p) s = .next t ∧ PartOnly s t p ∧ (t.part p).startPend = true ∧
      BitsBut [(Fld.COMMIT_NUM.COMMITS, p, 0), (Fld.STEP_STATE.RETRY_COUNT, p, 0)] s t ∧ t.get Fld.COMMIT_NUM.COMMITS p = 0 ∧
      t.get Fld.STEP_STATE.RETRY_COUNT p = 0) ∧
  (∀ (s : State) (p : Fin 16) (quiesce : Bool), Sound s → s.serves 0 = true →
    let st := s.get Fld.STEP_STATE.STATE p
    let i : Instr := if quiesce then .quiesce p else .stop p
    let fields : List (Fld × Nat × Nat) := [(Fld.STEP_STATE.STATE, p, 0)]
    (st = 1 ∨ st = 2 ∨ st = 5 → s.stepping p = true →
      ∃ t, exec i s = .next t ∧ PartOnly s t p ∧ BitsBut fields s t ∧ t.get Fld.STEP_STATE.STATE p = 2 ∧
        t.part p = { s.part p with stopReq := true, quiesceReq := (s.part p).quiesceReq || quiesce }) ∧
    (st = 1 ∨ st = 2 ∨ st = 5 ∨ (s.part p).startPend = true ∨ (s.part p).resumePend = true →
      (st = 1 ∨ st = 2 ∨ st = 5 → s.stepping p = false) →
      ∃ t, exec i s = .next t ∧ PartOnly s t p ∧ BitsBut fields s t ∧ t.get Fld.STEP_STATE.STATE p = (if quiesce then 4 else 3) ∧
        (t.part p).startPend = false ∧ (t.part p).resumePend = false ∧ (t.part p).phase = .idle)) ∧
  (∀ (s : State) (p : Fin 16), Sound s → s.serves 0 = true → s.get Fld.STEP_STATE.STATE p = 3 → (s.part p).startPend = false →
    (s.part p).resumePend = false →
    ∃ t, exec (.quiesce p) s = .next t ∧ OnlyRegs [(Fld.STEP_STATE.STATE, p, 0)] s t ∧ t.get Fld.STEP_STATE.STATE p = 4) ∧
  ∀ (s : State) (p : Fin 16), Sound s → s.serves 0 = true → (s.get Fld.STEP_STATE.STATE p = 3 ∨ s.get Fld.STEP_STATE.STATE p = 4) →
    (s.part p).alm ≠ none → s.wornBars p = false →
    ∃ t, exec (.resume p) s = .next t ∧ PartOnly s t p ∧ (t.part p).resumePend = true ∧ (t.part p).stopReq = false ∧
      BitsBut [(Fld.STEP_STATE.RETRY_COUNT, p, 0), (Fld.STEP_STATE.RETRY_EXHAUSTED, p, 0)] s t ∧
      t.get Fld.STEP_STATE.RETRY_COUNT p = 0 ∧ t.get Fld.STEP_STATE.RETRY_EXHAUSTED p = 0

/-- R33, R34, R60, R66, R67: a boundary opens the window of a partition that waits to start; admission puts in force a plan
with every mandatory item; a block starts before the eve, with the arguments of R66 and nothing else in its scalar registers,
VL 0, VROW 512, the seed of R509 and clear accumulators (R70, R135), and ends once its engines are done, with BLK_LAST; the eve
begins at its moment. -/
def Obligations.WindowsAndBlocks : Prop :=
  (∀ (s : State) (p : Fin 16), Sound s → PlainBoundary s p → (s.part p).phase = .idle →
    ((s.part p).startPend = true ∨ (s.part p).resumePend = true ∨ s.get Fld.STEP_STATE.STATE p = 1) →
    s.get Fld.STEP_STATE.STATE p ≠ 5 → (s.part p).inDoubt = false → (s.part p).stopAtBoundary = false → (s.part p).nextPlan = none →
    s.get Fld.LEAP_CTRL.STATE = 0 →
    ∃ t, exec (.stepTick p) s = .next t ∧ t.get Fld.STEP_STATE.STATE p = 1 ∧ (t.part p).phase = .opening ∧
      (t.part p).openAt = s.tick.boundAt ∧ (t.part p).eve = false ∧
      (t.part p).lastTick = s.get Fld.BTICK_NUM.NUM + 1 ∧ SameMemory s t) ∧
  (∀ (s : State) (p : Fin 16) (e : AlmEntry), Sound s → s.isUp 0 = true → (s.part p).phase = .opening → s.stepEntry p = some e →
    e.items.length ≤ 1024 →
    ∃ t pl, exec (.admission p) s = .next t ∧ (t.part p).plan = some pl ∧ pl.entry = (s.part p).entry ∧ pl.opens = (s.part p).openTick ∧
      pl.retry = s.get Fld.STEP_STATE.RETRY_COUNT p ∧ (∀ n i, e.items[n]? = some i → i.optional = false → n ∈ pl.items) ∧
      t.get Fld.ADMIT_REC.TOKENS p = pl.tokens % 65536 ∧ t.get Fld.ADMIT_REC.SEQS p = pl.seqs % 65536 ∧
      t.get Fld.ALM_CUR.ENTRY p = pl.entry % 1024 ∧
      (e.serve = false → pl.tokens = 0 ∧ pl.seqs = 0 ∧
        ((∀ i ∈ e.items, i.kind = 1 ∧ i.expert = false) → (t.part p).phase = .active ∧ (t.part p).issued = [] ∧ SameMemory s t))) ∧
  (∀ (s : State) (c : Fin 12) (p n : Nat) (i : AlmItem) (pl : Plan), Sound s → p < 16 → s.partOf c = some p → (s.core c).run = .idle →
    (s.part p).eve = false → s.get Fld.TICK_COUNT.COUNT + s.eveNs p < (s.part p).openAt + windowOf s p →
    s.isUp (dieOfCore c) = true → (s.part p).plan = some pl → (n, i) ∈ s.planItems p → i.kind = 1 → i.unit = c →
    s.itemReady p n i = true →
    ∃ t, exec (.blockStart c) s = .next t ∧ t = { s with cores := t.cores, parts := t.parts } ∧ (∀ d, d ≠ c.val → t.core d = s.core d) ∧
      (∀ q, q ≠ p → t.part q = s.part q) ∧
      t.part p = { s.part p with issued := (t.part p).issued } ∧ n ∈ (t.part p).issued ∧ (t.core c).run = .running ∧
      t.core c = { s.core c with
        x := (t.core c).x, pc := i.body, body := i.body, bodyLen := i.bodyLen, item := n, run := .running, ibuf := []
        semWait := none, cycStart := (s.core c).cyc, vl := 0, vrow := 512, acc0 := [], acc1 := []
        seed := BitVec.ofNat 64 (seedOf ((bytesOf 8 (s.get Fld.COMMIT_NUM.COMMITS p + 1)) ++ bytesOf 8 c.val ++ bytesOf 8 n)) } ∧
      t.x c 1 = (s.get Fld.COMMIT_NUM.COMMITS p + 1) % 2 ^ 64 ∧ t.x c 2 = pl.tokens % 2 ^ 64 ∧ t.x c 3 = pl.seqs % 2 ^ 64 ∧
      t.x c 4 = pl.entry % 2 ^ 64 ∧ t.x c 5 = n % 2 ^ 64 ∧ t.x c 6 = s.get Fld.STEP_STATE.RETRY_COUNT p ∧
      (t.x c 7 = match s.stepEntry p with | some e => if e.serve then (s.part p).serve.stepRec % 2 ^ 64 else 0 | none => 0) ∧
      t.x c 0 = 0 ∧ ∀ r, 8 ≤ r → r < 32 → t.x c r = 0) ∧
  (∀ (s : State) (c : Fin 12) (p : Nat) (i : AlmItem) (pl : Plan), Sound s → p < 16 → s.partOf c = some p → (s.core c).run = .ended →
    s.engineIdle c = true → (s.part p).phase = .active → s.isUp (dieOfCore c) = true → (s.part p).plan = some pl →
    s.planItem p (s.core c).item = some i → i.expert = false →
    (∀ e ∈ s.planItems p, (e.1 = (s.core c).item ∨ e.1 ∈ (s.part p).issued) ∧ e.2.expert = false) →
    let cyc := ((s.core c).cyc - (s.core c).cycStart) / 1000
    let isOver := i.cycFix + i.cycTok * pl.tokens + i.cycPage * pl.itemPages i < cyc
    ∃ t, exec (.blockEnd c) s = .next t ∧ t = { s with csr := t.csr, cores := t.cores, parts := t.parts } ∧
      (∀ d, d ≠ c.val → t.core d = s.core d) ∧ (∀ q, q ≠ p → t.part q = s.part q) ∧
      t.core c = { s.core c with run := .idle } ∧
      t.part p = { s.part p with issued := (t.part p).issued, done := (t.part p).done } ∧ (s.core c).item ∈ (t.part p).done ∧
      BitsBut [(allOf Reg.BLK_LAST, c, 0), (Fld.BLK_OVER_CNT.COUNT, c, 0)] s t ∧ t.get Fld.BLK_LAST.CYC c = cyc % 2 ^ 32 ∧
      t.get Fld.BLK_LAST.ITEM c = (s.core c).item % 1024 ∧ t.get Fld.BLK_LAST.OVER c = if isOver then 1 else 0) ∧
  ∀ (s : State) (p : Fin 16), Sound s → s.isUp 0 = true → (s.part p).eve = false →
    ((s.part p).phase = .active ∨ (s.part p).phase = .opening) →
    let at_ := (s.part p).openAt + windowOf s p - s.eveNs p
    let now := s.get Fld.TICK_COUNT.COUNT
    now ≤ at_ → at_ / (s.get Fld.TICK_PERIOD.PERIOD_US * 1000) = now / (s.get Fld.TICK_PERIOD.PERIOD_US * 1000) → at_ < 2 ^ 64 →
    100 ≤ s.get Fld.TICK_PERIOD.PERIOD_US →
    ∃ t, exec (.eveBegin p) s = .next t ∧ t.get Fld.TICK_COUNT.COUNT = at_ ∧ (t.part p).eve = true ∧
      ((∀ q, q < 16 → (s.part q).phase ≠ .active) → SameContents s t)

/-- R36, R40, R42–R48, R72, R119: at the tick a step whose engines rest is ready to commit, and one with a scalar unit still at
work is abandoned, cause overrun; the boundary clears semaphores, read caches and descriptors of its cores. A ready
report that misses 2 µs abandons with XDIE_TIMEOUT. A commit counts the step, flips GEN after an update step and goes on to
NEXT; an abandonment is recorded with the base tick it began in, cancels the step's collective phases, commits nothing, and is
retried in the window that the tick it meets opens, or has opened, until RETRY_LIMIT, where the partition stops. -/
def Obligations.TicksCommitsAndAbandonments : Prop :=
  (∀ (s : State) (p : Fin 16), Sound s → PlainBoundary s p → (s.part p).phase = .active →
    (s.get Fld.STEP_STATE.STATE p = 1 ∨ s.get Fld.STEP_STATE.STATE p = 2) → (∀ c ∈ s.coresOf p, (s.core c).stq = []) →
    ((∀ c ∈ s.coresOf p, CoreStill (s.core c)) → (∀ st : Fin 20, (s.stack st).queue = []) → s.batches = [] → s.colls = [] →
      s.leftItem p = none → s.swapsLeft p = false → s.votes p = false →
      ∃ t, exec (.stepTick p) s = .next t ∧ (t.part p).phase = .ready ∧ (t.part p).tickAt = s.tick.boundAt ∧
        (t.part p).lastTick = s.get Fld.BTICK_NUM.NUM + 1 ∧ SameMemory s t ∧ (∀ i, i < 64 → t.get Fld.SEM_VAL.COUNT p i = 0) ∧
        ∀ c ∈ s.coresOf p, (t.core c).rc = [] ∧ ∀ d ∈ (t.core c).td, d.valid = false) ∧
    ((s.part p).eve = true → ∀ c ∈ s.coresOf p, (s.core c).run = .running → (∀ d ∈ s.coresOf p, d < c → (s.core d).run ≠ .running) →
      ∃ t, exec (.stepTick p) s = .next t ∧ (t.part p).phase = .abandoning ∧ t.get Fld.STEP_ERR.OVERRUN p = 1 ∧
        (t.part p).abandon = some ⟨if (s.part p).eveStalled then .eveStall else .overrun, 6, c, false⟩ ∧
        (t.part p).abandonTick = s.get Fld.BTICK_NUM.NUM ∧ t.colls = s.colls.filter (fun x => x.part != p.val) ∧
        ((s.part p).eveStalled = true → t.get Fld.STEP_ERR.EVE_STALL p = 1))) ∧
  (∀ (s : State) (p : Fin 16), Sound s → (s.part p).phase = .ready → (s.part p).die1Ready = false → CrossDie s p → s.isUp 0 = true →
    (s.isUp 1 = true → s.get Fld.TICK_COUNT.COUNT ≤ (s.part p).tickAt + 2000 → s.votes p = false →
      exec (.die1ReadyReport p) s = .next (s.setPart p { s.part p with die1Ready := true })) ∧
    ((s.part p).tickAt + 2000 ≤ s.get Fld.TICK_COUNT.COUNT →
      ∃ t, exec (.xdieTimeout p) s = .next t ∧ (t.part p).phase = .abandoning ∧ t.get Fld.STEP_ERR.XDIE_TIMEOUT p = 1 ∧
        ∃ a, (t.part p).abandon = some a ∧ a.cause = .xdieTimeout ∧ SameContents s t)) ∧
  (∀ (s : State) (p : Fin 16) (e : AlmEntry), Sound s → s.isUp 0 = true → (s.part p).phase = .ready →
    ((s.part p).die1Ready = true ∨ ¬ CrossDie s p) → (s.votes p = false ∨ (s.part p).decision = some true) →
    s.stepEntry p = some e → (s.part p).plan ≠ none →
    ∃ t, exec (.commit p) s = .next t ∧ Counted 64 (s.get Fld.COMMIT_NUM.COMMITS p) (1) (t.get Fld.COMMIT_NUM.COMMITS p) ∧
      t.get Fld.STEP_STATE.RETRY_COUNT p = 0 ∧ (t.part p).staging = [] ∧
      t.get Fld.STEP_STATE.GEN p = (if e.train then 1 - s.get Fld.STEP_STATE.GEN p else s.get Fld.STEP_STATE.GEN p) ∧
      (e.serve = true → s.get Fld.SV_STAT.INSTALLED p = 1 → t.get Fld.SV_STAT.COPY p = 1 - s.get Fld.SV_STAT.COPY p) ∧
      (s.get Fld.ALM_NEXT.VALID p = 0 → (t.part p).entry = e.next ∧
        ((s.part p).stopReq = true → t.get Fld.STEP_STATE.STATE p = (if (s.part p).quiesceReq then 4 else 3) ∧ (t.part p).phase = .idle) ∧
        (e.serve = false → (s.part p).stopReq = false → (s.part p).stopAtBoundary = false → (s.part p).nextPlan = none →
          s.get Fld.LEAP_CTRL.STATE = 0 → s.get Fld.TICK_COUNT.COUNT < (s.part p).tickAt + windowOf s p →
          t.get Fld.STEP_STATE.STATE p = 1 ∧ (t.part p).phase = .opening ∧ (t.part p).openAt = (s.part p).tickAt))) ∧
  ∀ (s : State) (p : Fin 16) (a : Abandon), Sound s → s.isUp 0 = true → (s.part p).phase = .abandoning → (s.part p).abandon = some a →
    s.pans = [] → a.cls < 16 → a.unit < 256 →
    let n := s.get Fld.STEP_STATE.RETRY_COUNT p
    let limit := bits (s.part p).stepCfg 51 48
    let stops := (s.part p).stopReq = true ∨ a.stop = true ∨ (s.part p).stopAtBoundary = true
    ∃ t, exec (.abandonmentComplete p) s = .next t ∧ t.get Fld.COMMIT_NUM.COMMITS p = s.get Fld.COMMIT_NUM.COMMITS p ∧
      t.get Fld.STEP_STATE.GEN p = s.get Fld.STEP_STATE.GEN p ∧ t.get Fld.SV_STAT.COPY p = s.get Fld.SV_STAT.COPY p ∧
      (t.part p).staging = [] ∧ t.get Fld.STEP_STATE.LAST_CAUSE p = a.cause.code ∧ t.get Fld.OVERRUN_REC.BTICK p = (s.part p).abandonTick % 2 ^ 48 ∧
      t.get Fld.OVERRUN_REC.CLASS p = a.cls ∧ t.get Fld.OVERRUN_REC.UNIT p = a.unit ∧ t.get Fld.OVERRUN_REC.CAUSE p = a.cause.code ∧
      Counted 32 (s.get Fld.RESTART_NUM.FAULTS p) (if a.cause = .fault then 1 else 0) (t.get Fld.RESTART_NUM.FAULTS p) ∧
      Counted 32 (s.get Fld.RESTART_NUM.OVERRUNS p) (if a.cause = .fault then 0 else 1) (t.get Fld.RESTART_NUM.OVERRUNS p) ∧
      (∀ c ∈ s.coresOf p, (t.core c).queue = [] ∧ (t.core c).stq = [] ∧ (t.core c).run ≠ .running ∧
        (t.core c).acc0 = [] ∧ (t.core c).acc1 = []) ∧
      (stops → t.get Fld.STEP_STATE.STATE p = (if (s.part p).stopReq = true ∧ (s.part p).quiesceReq = true then 4 else 3) ∧
        t.get Fld.STEP_STATE.RETRY_COUNT p = n) ∧
      (¬ stops → n < limit → t.get Fld.STEP_STATE.RETRY_COUNT p = n + 1 ∧
        ((s.part p).passed = true → s.get Fld.LEAP_CTRL.STATE = 0 → (s.part p).tickAt ≤ s.get Fld.TICK_COUNT.COUNT →
          s.get Fld.TICK_COUNT.COUNT < (s.part p).tickAt + windowOf s p →
          (t.part p).phase = .opening ∧ (t.part p).openAt = (s.part p).tickAt ∧ t.get Fld.STEP_STATE.STATE p = 1) ∧
        ((s.part p).passed = false → (t.part p).phase = .idle ∧ t.get Fld.STEP_STATE.STATE p = s.get Fld.STEP_STATE.STATE p)) ∧
      (¬ stops → limit ≤ n → t.get Fld.STEP_STATE.STATE p = 3 ∧ t.get Fld.STEP_ERR.RETRY_EXHAUSTED p = 1 ∧
        t.get Fld.STEP_STATE.RETRY_EXHAUSTED p = 1)

namespace Sys2Proof.Spec

/-! Stacks and errors. -/

/-- One error record of a type appended to the log, or dropped where it holds 64 (R295). -/
def Posted (s t : State) (type : Nat) : Prop :=
  let prod := s.get Fld.ERR_LOG_PI.PROD
  let used := (prod + 2 ^ 32 - s.get Fld.ERR_LOG_CI.CONS) % 2 ^ 32
  (used < 64 → t.get Fld.ERR_LOG_PI.PROD = (prod + 1) % 2 ^ 32 ∧ bits (t.word Reg.ERR_LOG (prod % 64) 0) 23 16 = type ∧
    bits (t.word Reg.ERR_LOG (prod % 64) 0) 15 0 = prod % 65536) ∧
  (64 ≤ used → t.get Fld.ERR_LOG_PI.PROD = prod ∧ t.get Fld.ERR_STATUS.OVERFLOW = 1 ∧
    t.get Fld.ERR_STATUS.LOST = Nat.min (s.get Fld.ERR_STATUS.LOST + 1) (2 ^ 32 - 1))

/-- The 4,096 bytes of a granule as a reader sees them. -/
def granuleBytes (s : State) (g : Nat) : List Byte := (List.range 4096).map (fun i => readByte s (4096 * g + i))

/-- Every line of a granule is stored without error and without poison. -/
abbrev CleanGranule (s : State) (g : Nat) : Prop := ∀ i, i < 64 → Intact s (4096 * g + 64 * i)

/-- Every line of a granule is stored without error, or is a written line marked poisoned. -/
abbrev KnownGranule (s : State) (g : Nat) : Prop :=
  ∀ i, i < 64 → Intact s (4096 * g + 64 * i) ∨ s.lineValid (64 * g + i) = true ∧ s.linePoisoned (64 * g + i) = true

/-- Whether a granule lies in a stack's data region and its stack answers. -/
def dataAt (s : State) (g : Nat) : Bool := match placeOf (4096 * g) with | .data st _ => s.stackUp st | _ => false

/-- A granule lies in a stack's data region, and its stack answers. -/
abbrev DataGranule (s : State) (g : Nat) : Prop := dataAt s g = true

/-- The checksum of a granule's data is the one stored (R281, R285). -/
abbrev Verified (s : State) (g : Nat) : Prop :=
  (s.granule g).crc.toNat = crc32c (granuleBytes s g) ∧ smFind s.csumBad g = none

/-- The pJ a request costs, in units of 1/10240 pJ (R217). -/
def chargeOf (inStack : Bool) (n : Nat) : Nat := if inStack then 32768 * n else 81920 * n

/-- Partition p, STOPPED for granule g alone, is to run again from its next step boundary (R293, R294). -/
def Released (s t : State) (g : Nat) : Prop :=
  ∀ p, p < 16 → (s.part p).stoppedFor = [g] → s.get Fld.STEP_STATE.STATE p = 3 →
    (t.part p).resumePend = true ∧ (t.part p).stoppedFor = [] ∧ t.get Fld.STEP_STATE.RETRY_COUNT p = 0

/-- The pan of a pseudo-channel waits on its sluice or on the stack bucket (R254). -/
abbrev PanWaits (s : State) (st u : Nat) : Prop :=
  ∃ q ∈ smGet [] (s.stack st).queue u, q.agent = .pan (32 * st + u) ∧ s.mayIssue q.sluice st = false

/-- The banks that the pan of a pseudo-channel holds in the micro-operation it is within (R254): none where it waits. -/
abbrev PanHolds (s : State) (st u : Nat) (r : PanRun) : Prop :=
  (s.pan (32 * st + u)).run = some r ∧ r.micro ≠ 0 ∧ ¬ PanWaits s st u

/-- The weight of a sluice at a stack (R219): a partition's BW share, HOST_WEIGHT. -/
def slWeightOf (s : State) (st sl : Nat) : Nat := if sl = 16 then s.get Fld.SL_HOSTW.HOST_WEIGHT st else nth 100 (s.part sl).shares 1

/-- The granules a sluice has been granted in the round of a pseudo-channel (R219). -/
def grantsOf (s : State) (st u sl : Nat) : Nat := smGet 0 (s.stack st).grants (17 * u + sl)

end Sys2Proof.Spec

/-- R207, R211–R214, R217–R220, R222, R254: a refresh falls due once in an interval; within a pan's micro-operation it is owed, on a
pseudo-channel where nothing may issue it issues at once with all that are owed and the neighbour-row refreshes due there,
and between granules it is postponed on the account of the sluice that waits, or issues, FORCED; a neighbour-row refresh is
counted; a waiting request issues, when it is its sluice's turn, while RATE, SCALE, LEVEL and the bucket are above zero and no pan
holds its bank, and both fall by its charge; RATE is refused above the cap or the line, else takes the write, HOST's
at once with a full LEVEL. -/
def Obligations.RefreshRequestsAndSluices : Prop :=
  (∀ (s : State) (st : Fin 20) (u : Fin 32), Sound s → s.get Fld.STK_STATUS.STATE st = 2 →
    let k := s.stack st
    let interval := s.get Fld.STK_CFG.TREFI_10NS st * (if s.get Fld.STK_STATUS.HOT st = 1 then 5 else 10)
    let now := s.get Fld.TICK_COUNT.COUNT
    let due := smGet 0 k.refNext u
    let inMicro := ∃ r, PanHolds s st u r
    let queue := smGet [] k.queue u
    let busy := ∃ q ∈ queue, s.mayIssue q.sluice st = true
    let fields : List (Fld × Nat × Nat) := [(Fld.STK_REF_CNT.POSTPONED, st, 0), (Fld.STK_REF_CNT.FORCED, st, 0), (Fld.STK_NRR_CNT.NRR, st, 0)]
    due ≤ now → (inMicro → smGet 0 k.fresh u * interval ≤ 2000) →
    ∃ t, exec (.refreshDue st u) s = .next t ∧ t = { s with csr := t.csr, stks := t.stks } ∧ BitsBut fields s t ∧
      (∀ st', st' ≠ st.val → t.stack st' = s.stack st') ∧
      smGet 0 (t.stack st).refNext u = (if due = 0 then now else due) + interval ∧
      (∀ v, v ≠ u.val → smGet 0 (t.stack st).owed v = smGet 0 k.owed v ∧ smGet 0 (t.stack st).refNext v = smGet 0 k.refNext v) ∧
      (t.stack st).queue = k.queue ∧ (t.stack st).level = k.level ∧ (t.stack st).bucket = k.bucket ∧
      (inMicro → smGet 0 (t.stack st).owed u = smGet 0 k.owed u + 1 ∧ t.csr = s.csr ∧ (t.stack st).deferLeft = k.deferLeft ∧
        (t.stack st).nrrDue = k.nrrDue) ∧
      (¬ inMicro → ¬ busy → smGet 0 (t.stack st).owed u = 0 ∧ (t.stack st).deferLeft = k.deferLeft ∧
        (t.stack st).nrrDue = k.nrrDue.filter (fun x => x / 32 != u.val)) ∧
      (¬ inMicro → busy → smGet 0 k.fresh u = 0 → ∀ q, queue.head? = some q →
        let left := nth 0 k.deferLeft q.sluice
        let may := smGet 0 k.owed u + 1 < s.get Fld.STK_CFG.REF_POSTPONE_MAX st ∧ q.sluice ≤ 16 ∧ 0 < left
        (may → smGet 0 (t.stack st).owed u = smGet 0 k.owed u + 1 ∧ (t.stack st).nrrDue = k.nrrDue ∧
          (t.stack st).deferLeft = setNth k.deferLeft q.sluice (if left = 0xFFFF then left else left - 1) ∧
          t.get Fld.STK_REF_CNT.POSTPONED st = Nat.min (s.get Fld.STK_REF_CNT.POSTPONED st + 1) (2 ^ 32 - 1)) ∧
        (¬ may → smGet 0 (t.stack st).owed u = 0 ∧ (t.stack st).deferLeft = k.deferLeft ∧
          (t.stack st).nrrDue = k.nrrDue.filter (fun x => x / 32 != u.val) ∧
          t.get Fld.STK_REF_CNT.FORCED st = Nat.min (s.get Fld.STK_REF_CNT.FORCED st + 1) (2 ^ 32 - 1)))) ∧
  (∀ (s : State) (st : Fin 20) (u bank : Fin 32), Sound s → s.get Fld.STK_STATUS.STATE st = 2 →
    let key := 32 * u.val + bank.val
    key ∈ (s.stack st).nrrDue →
    ∃ t, exec (.neighbourRowRefresh st u bank) s = .next t ∧ t = { s with csr := t.csr, stks := t.stks } ∧
      (∀ st', st' ≠ st.val → t.stack st' = s.stack st') ∧
      t.stack st = { s.stack st with nrrDue := (s.stack st).nrrDue.erase key, openRow := (t.stack st).openRow } ∧
      (∀ b, smGet 0 (t.stack st).openRow b = if b = key then 0 else smGet 0 (s.stack st).openRow b) ∧
      BitsBut [(Fld.STK_NRR_CNT.NRR, st, 0)] s t ∧
      t.get Fld.STK_NRR_CNT.NRR st = Nat.min (s.get Fld.STK_NRR_CNT.NRR st + 1) (2 ^ 32 - 1)) ∧
  (∀ (s : State) (st : Fin 20) (u : Fin 32) (i : Nat) (r : Req), Sound s → s.stackUp st = true →
    (smGet [] (s.stack st).queue u)[i]? = some r → (s.stack st).eligible (smGet [] (s.stack st).queue u) i r = true →
    smGet 0 (s.stack st).owed u = 0 → r.sluice ≤ 17 → 0 < (s.stack st).bucket →
    (r.sluice ≤ 16 → 0 < nth 0 (s.stack st).level r.sluice ∧ 0 < nth 0 (s.stack st).rate r.sluice ∧ s.get Fld.SL_SCALE.SCALE st ≠ 0) →
    (∀ x, PanHolds s st u x → r.agent ≠ .pan (32 * st + u) → 32 * pchOf (r.dpa % stackSpan) + bankOf (r.dpa % stackSpan) ∉ x.banks) →
    let k := s.stack st
    let w := slWeightOf s st
    let had := grantsOf s st u
    let round := had r.sluice < w r.sluice
    (r.sluice ≤ 16 → round ∨ ∀ x, x < 17 → s.mayIssue x st = true → (∃ q ∈ smGet [] k.queue u, q.sluice = x) → w x ≤ had x) →
    let cost : Int := (chargeOf r.inStack r.size : Nat)
    let ctr := if r.inStack then Fld.STK_INT.BYTES else if r.isWrite then Fld.STK_EXT_WR.BYTES else Fld.STK_EXT_RD.BYTES
    let sl := if r.inStack then Fld.SL_INT.BYTES else Fld.SL_EXT.BYTES
    let crosses := r.inStack = false ∧ r.agent.die.isSome = true ∧ r.agent.die ≠ some (dieOfStack st)
    ∃ t, exec (.stackRequestIssue st u i) s = .next t ∧ t = { s with csr := t.csr, stks := t.stks, parts := t.parts } ∧
      (∀ st', st' ≠ st.val → t.stack st' = s.stack st') ∧
      smGet [] (t.stack st).queue u = (smGet [] k.queue u).eraseIdx i ∧
      (∀ v, v ≠ u.val → smGet [] (t.stack st).queue v = smGet [] k.queue v) ∧ (t.stack st).bucket = k.bucket - cost ∧
      (∀ j, j < 17 → nth 0 (t.stack st).level j = nth 0 k.level j - if j = r.sluice then cost else 0) ∧
      (∀ j, j < 17 → grantsOf t st u j =
        if 16 < r.sluice then had j else if round then (if j = r.sluice then had j + 1 else had j) else if j = r.sluice then 1 else 0) ∧
      t.get ctr st = Nat.min (s.get ctr st + r.size) (2 ^ 64 - 1) ∧
      (r.sluice ≤ 16 → Counted 64 (s.get sl st r.sluice) (r.size) (t.get sl st r.sluice)) ∧
      (∀ p, (t.part p) = { s.part p with acc := (t.part p).acc }) ∧
      (r.sluice < 16 →
        nth 0 (t.part r.sluice).acc (if r.inStack then 7 else 6) = nth 0 (s.part r.sluice).acc (if r.inStack then 7 else 6) + r.size ∧
        nth 0 (t.part r.sluice).acc 8 = nth 0 (s.part r.sluice).acc 8 + (if crosses then r.size else 0)) ∧
      (r.sluice = 16 → crosses → ∀ p, p < 16 → s.owns p st (r.dpa % stackSpan / 0x200000) = true → r.dpa / stackSpan = st →
        (∀ q, q < p → s.owns q st (r.dpa % stackSpan / 0x200000) = false) → nth 0 (t.part p).acc 8 = nth 0 (s.part p).acc 8 + r.size)) ∧
  ∀ (s : State) (st : Fin 20) (sl : Fin 17) (v : Word), Sound s → s.serves (dieOfStack st) = true →
    let w := v.toNat
    let old := s.get Fld.SL_CFG.RATE st sl
    let new := bits w 13 0
    let depth := if bits w 25 16 = 0 then 1 else bits w 25 16
    let overCap := s.get Fld.STK_PWR.PWR_CAP st < new
    let overLine := old < new ∧ s.get Fld.SL_LINE.BUDGET < s.lineUsed + new - old
    ∃ t, exec (.sluiceRateWrite st sl v) s = .next t ∧ t = { s with csr := t.csr, stks := t.stks } ∧
      BitsBut [(allOf Reg.SL_CFG, st, sl), (Fld.SL_LINE.USED, 0, 0), (⟨Reg.SL_ERR, 1, 0⟩, 0, 0)] s t ∧
      t.get Fld.SL_CFG.DEPTH_UJ st sl = depth ∧ t.get Fld.SL_CFG.REF_DEFER st sl = bits w 47 32 ∧
      t.get Fld.SL_CFG.RATE st sl = (if overCap ∨ overLine then old else new) ∧
      t.get Fld.SL_LINE.USED = (if overCap ∨ overLine then s.get Fld.SL_LINE.USED else (s.lineUsed + new - old) % 2 ^ 14) ∧
      t.get Fld.SL_ERR.OVER_CAP = (if overCap then 1 else s.get Fld.SL_ERR.OVER_CAP) ∧
      t.get Fld.SL_ERR.OVER_LINE = (if overLine then 1 else s.get Fld.SL_ERR.OVER_LINE) ∧
      (sl.val ≠ 16 → t.stks = s.stks) ∧
      (sl.val = 16 → let r := t.get Fld.SL_CFG.RATE st 16
        nth 0 (t.stack st).rate 16 = r ∧ nth 0 (t.stack st).depth 16 = depth ∧
        nth 0 (t.stack st).level 16 =
          if nth 0 (s.stack st).rate 16 = r ∧ nth 0 (s.stack st).depth 16 = depth then nth 0 (s.stack st).level 16
          else ((depth * 1000000 * 10240 : Nat) : Int))

/-- R288, R298–R301: the rake reads its next granule, pays a granule of debt, writes back every line with one bad symbol and
counts it, counts a sealed granule that fails its checksum where DEEP is set, and moves on; RESTART sends it to the
stack's first line. -/
def Obligations.RakeReadsAndCorrects : Prop :=
  (∀ (s : State) (st : Fin 20) (g : Nat), Sound s → s.stackUp st = true → s.mod.power = .on → s.get Fld.RAKE_CTRL.PAUSE st = 0 →
    0 < (s.stack st).bucket → 0 < s.get Fld.RAKE_DEBT.GRANULES st → s.get Fld.RAKE_POS.NEXT st = 64 * g → DataGranule s g →
    4096 * g / stackSpan = st → smGet [] (s.stack st).queue (pchOf (4096 * g % stackSpan)) = [] → s.get Fld.STK_FLIP_CTRL.ARM_DATA st = 0 →
    (s.get Fld.RAKE_CFG.DEEP st = 1 → s.sharedAt (4096 * g) = none) →
    (∀ i, i < 64 → s.linePoisoned (64 * g + i) = false ∧ smGet 0#3 s.metaFlip (64 * g + i) = 0#3 ∧
      (maskSymbols (smGet 0#512 s.ecc (64 * g + i))).length ≤ 1) →
    let hit := fun ln => s.lineValid ln && (maskSymbols (smGet 0#512 s.ecc ln)).length == 1
    let n := ((List.range 64).filter (fun i => hit (64 * g + i))).length
    ∃ t, exec (.rakeIssue st) s = .next t ∧ t.mem = s.mem ∧ t.gran = s.gran ∧ t.cores = s.cores ∧ t.parts = s.parts ∧
      (∀ ln, smGet 0#512 t.ecc ln = if ln / 64 = g ∧ hit ln = true then 0#512 else smGet 0#512 s.ecc ln) ∧
      t.get Fld.RAKE_POS.NEXT st = 64 * (g + 1) ∧ t.get Fld.RAKE_DEBT.GRANULES st = s.get Fld.RAKE_DEBT.GRANULES st - 1 ∧
      Counted 32 (s.get Fld.RAKE_CNT.CORRECTED st) (n) (t.get Fld.RAKE_CNT.CORRECTED st) ∧
      t.get Fld.STK_ECC_CNT.CE st = Nat.min (s.get Fld.STK_ECC_CNT.CE st + n) (2 ^ 32 - 1) ∧
      Counted 64 (s.get Fld.STK_EXT_RD.BYTES st) (4096) (t.get Fld.STK_EXT_RD.BYTES st) ∧
      (t.stack st).bucket = (s.stack st).bucket - (chargeOf false 4096 : Nat) ∧
      (n = 0 → s.get Fld.RAKE_CFG.DEEP st = 1 → (s.granule g).state = .shut → (s.granule g).poison = 0 →
        smFind s.csumBad g = none → ¬ Verified s g →
        Posted s t 6 ∧ Counted 16 (s.get Fld.RAKE_CNT.CSUM_BAD st) (1) (t.get Fld.RAKE_CNT.CSUM_BAD st))) ∧
  ∀ (s : State) (st : Fin 20), Sound s → s.serves (dieOfStack st) = true →
    ∃ t, exec (.rakeRestart st) s = .next t ∧ OnlyRegs [(Fld.RAKE_POS.NEXT, st, 0)] s t ∧
      64 * t.get Fld.RAKE_POS.NEXT st = st * 0x1800000000

/-- R283, R286, R287, R293–R296: a mirror repair copies a verified replica over the granule, seals it and lets its partitions
run again, or leaves it to the host; ERR_VERIFY reports a granule's state and writes nothing; ERR_REPAIR reseals one, or leaves
one without a written line unwritten, unless poison is left or the CRC differs; the log's consumer index keeps within 64 of PROD; arming sets the flip's
fields; the bulk clear leaves every line and granule unwritten. -/
def Obligations.ErrorRepairAndInjection : Prop :=
  (∀ (s : State) (e : Fin 16) (r : Nat), Sound s → s.get Fld.ERR_POISON.VALID e = 1 → s.get Fld.ERR_POISON.PATH e = 0 →
    let g := s.get Fld.ERR_POISON.GRANULE e
    let m := s.replicaOf r (4096 * g) / 4096
    s.sharedAt (4096 * g) = some r → s.mappersRest r = true → (s.get Fld.LEAP_CTRL.STATE = 2 ∨ e.val ∈ s.repairDue) →
    (∀ i, i < e.val → ¬ (s.get Fld.ERR_POISON.VALID i = 1 ∧ s.get Fld.ERR_POISON.GRANULE i = g)) →
    DataGranule s m → CleanGranule s m → m ≠ g → Unarmed s (4096 * g) →
    ((s.granule m).state = .shut → Verified s m →
      ∃ t, exec (.mirrorRepair e) s = .next t ∧ (∀ i, i < 4096 → readByte t (4096 * g + i) = readByte s (4096 * m + i)) ∧
        (t.granule g).state = .shut ∧ (t.granule g).poison = 0 ∧ Verified t g ∧ BytesBut s.mem t.mem (4096 * g) 4096 ∧
        t.get Fld.ERR_POISON.VALID e = 0 ∧ Posted s t 9 ∧ Released s t g) ∧
    ((s.granule m).state = .opened →
      ∃ t, exec (.mirrorRepair e) s = .next t ∧ SameMemory s t ∧ t.get Fld.ERR_POISON.PATH e = 1 ∧ t.get Fld.ERR_POISON.VALID e = 1 ∧
        Posted s t 10)) ∧
  (∀ (s : State) (v : Word), Sound s → s.serves 0 = true → bit v.toNat 63 = true →
    let g := bits v.toNat 41 12
    let fields : List (Fld × Nat × Nat) := [(allOf Reg.ERR_VERIFY, 0, 0), (allOf Reg.ERR_VERIFY_CRC, 0, 0)]
    ∃ t, exec (.errVerify v) s = .next t ∧ SameMemory s t ∧ t.cores = s.cores ∧ t.parts = s.parts ∧
      (KnownGranule s g → t = { s with csr := t.csr, free := t.free } ∧ BitsBut fields s t) ∧
      t.get Fld.ERR_VERIFY.GRANULE = g ∧ t.get Fld.ERR_VERIFY.GO = 0 ∧
      ((∀ st o, placeOf (4096 * g) ≠ .data st o) → t.get Fld.ERR_VERIFY.RESULT = 7 ∧
        t.word Reg.ERR_VERIFY_CRC 0 0 = s.word Reg.ERR_VERIFY_CRC 0 0) ∧
      (DataGranule s g → CleanGranule s g →
        t.get Fld.ERR_VERIFY_CRC.STORED = (s.granule g).crc.toNat ∧ t.get Fld.ERR_VERIFY_CRC.COMPUTED = crc32c (granuleBytes s g) ∧
        ((s.granule g).state = .unwritten → t.get Fld.ERR_VERIFY.RESULT = 5) ∧
        ((s.granule g).state = .opened → t.get Fld.ERR_VERIFY.RESULT = 4) ∧
        ((s.granule g).state = .shut → Verified s g → t.get Fld.ERR_VERIFY.RESULT = 2) ∧
        ((s.granule g).state = .shut → ¬ Verified s g → t.get Fld.ERR_VERIFY.RESULT = 3)) ∧
      (DataGranule s g → (∃ i, i < 64 ∧ s.lineValid (64 * g + i) = true ∧ s.linePoisoned (64 * g + i) = true) → t.get Fld.ERR_VERIFY.RESULT = 6)) ∧
  (∀ (s : State) (v : Word), Sound s → s.serves 0 = true → bit v.toNat 63 = true →
    let g := bits v.toNat 41 12
    let differs := bit v.toNat 44 = true ∧ crc32c (granuleBytes s g) ≠ s.get Fld.ERR_REPAIR_CRC.EXPECT
    DataGranule s g →
    (KnownGranule s g → (∃ i, i < 64 ∧ s.linePoisoned (64 * g + i) = true) →
      ∃ t, exec (.errRepair v) s = .next t ∧ OnlyRegs [(allOf Reg.ERR_REPAIR, 0, 0)] s t ∧ t.get Fld.ERR_REPAIR.RESULT = 3) ∧
    (CleanGranule s g → differs →
      ∃ t, exec (.errRepair v) s = .next t ∧ OnlyRegs [(allOf Reg.ERR_REPAIR, 0, 0)] s t ∧ t.get Fld.ERR_REPAIR.RESULT = 4) ∧
    (CleanGranule s g → ¬ differs → Unarmed s (4096 * g) →
      ∃ t, exec (.errRepair v) s = .next t ∧ t.get Fld.ERR_REPAIR.RESULT = 2 ∧ t.mem = s.mem ∧ t.ecc = s.ecc ∧
        ((s.granule g).valid ≠ 0#64 → (t.granule g).state = .shut ∧ Verified t g) ∧
        ((s.granule g).valid = 0#64 → t.granule g = s.granule g) ∧ (∀ h, h ≠ g → t.granule h = s.granule h) ∧ Posted s t 11 ∧
        (bit v.toNat 43 = true → Released s t g))) ∧
  (∀ (s : State) (v : Word), Sound s → s.serves 0 = true →
    let c := bits v.toNat 31 0
    ∃ t, exec (.errLogConsume v) s = .next t ∧ OnlyRegs [(Fld.ERR_LOG_CI.CONS, 0, 0)] s t ∧
      t.get Fld.ERR_LOG_CI.CONS = if (s.get Fld.ERR_LOG_PI.PROD + 2 ^ 32 - c) % 2 ^ 32 ≤ 64 then c else s.get Fld.ERR_LOG_CI.CONS) ∧
  (∀ (s : State) (st : Fin 20) (v : Word) (csum : Bool), Sound s → s.serves (dieOfStack st) = true →
    let w := v.toNat
    bit w (if csum then 1 else 0) = true →
    ∃ t, exec (if csum then .flipArmCsum st v else .flipArmData st v) s = .next t ∧ OnlyRegs [(⟨Reg.STK_FLIP_CTRL, 12, 0⟩, st, 0)] s t ∧
      t.get Fld.STK_FLIP_CTRL.ARM_DATA st = (s.get Fld.STK_FLIP_CTRL.ARM_DATA st ||| bits w 0 0) ∧
      t.get Fld.STK_FLIP_CTRL.ARM_CSUM st = (s.get Fld.STK_FLIP_CTRL.ARM_CSUM st ||| bits w 1 1) ∧
      t.get Fld.STK_FLIP_CTRL.POINT st = bits w 2 2 ∧ t.get Fld.STK_FLIP_CTRL.SRC st = (if 6 ≤ bits w 7 4 then 0 else bits w 7 4) ∧
      t.get Fld.STK_FLIP_CTRL.PART st = bits w 11 8 ∧ t.get Fld.STK_FLIP_CTRL.PART_EN st = bits w 12 12) ∧
  ∀ s : State, Sound s → s.link.active = false → s.mod.power = .on → s.isUp 0 = true → s.isUp 1 = true →
    ∃ t, exec .bulkClearDone s = .next t ∧ t.link.active = true ∧ t.mem = [] ∧ t.gran = [] ∧ t.ecc = [] ∧ t.metaFlip = [] ∧ t.flipped = [] ∧
      (∀ a, readByte t a = 0) ∧ ∀ st : Fin 20, t.get Fld.STK_STATUS.STATE st = if t.stacksTrain then 2 else 4

namespace Sys2Proof.Spec

/-! The serving loop. -/

/-- n bytes from a lie in the data region of one stack that answers, without error, poison or armed flips. -/
abbrev GoodBytes (s : State) (a n : Nat) : Prop :=
  ∀ i, i < n → (∃ st o, placeOf (a + i) = .data st o ∧ s.stackUp st = true) ∧ Intact s (a + i) ∧ Unarmed s (a + i)

/-- A request entry was consumed, with the event records it adds (R328, R329): the head is written at the commit, and no byte
of memory differs. -/
def Consumed (s t : State) (p : Nat) (events : List (List Nat)) : Prop :=
  (t.part p).serve.consumed = (s.part p).serve.consumed + 1 ∧ (t.part p).serve.events = (s.part p).serve.events ++ events ∧
    t.get Fld.SV_HEAD.HEAD p = s.get Fld.SV_HEAD.HEAD p ∧ t.host = s.host

/-- REJECT of request r with a reason (R332). -/
def rejected (r reason : Nat) : List Nat := [1 + 256 * reason + 65536 * dw r 0 31 16 + 2 ^ 32 * dw r 0 63 32, 0, 0]

end Sys2Proof.Spec

/-- R304, R326, R328–R330, R332, R340, R341: an accepted SUBMIT creates a PREFILL entry in the working copy with clear page tables, a
refused one posts REJECT; a CANCEL of a live sequence whose REQ_ID matches is kept for the commit, another is STALE; a
bad request sets REQ_BAD; a swap copies a slot to its image with its granule records, a restore writes it back and
leaves it open; INSTALL is refused with TABLE_BAD while not at rest, for a table the partition does not own or one with an entry of
reserved state, with GEOM_BAD and the partition IDLE for a bad geometry, and takes a table of FREE entries. -/
def Obligations.ServingRequestsAndSwaps : Prop :=
  (∀ (s : State) (p : Fin 16) (r : Nat), Sound s → s.nextRequest p = some r → dw r 0 7 0 = 1 → reqBad r = false →
    let k := (s.part p).serve
    let at_ := k.copyBase (1 - s.get Fld.SV_STAT.COPY p) + 64 * dw r 0 31 16
    let pt := fun g => 64 * (if g = 0 then dw r 4 41 6 else dw r 5 41 6)
    let len := fun (g : Nat) (x : Geom) => 4 * (if x.window = 0 then dw r 4 63 48 else if g = 0 then Nat.max (dw r 4 63 48) x.ring else x.ring)
    let inTable := fun a => ∃ g x, g < 2 ∧ k.geoms[g]? = some x ∧ pt g ≤ a ∧ a < pt g + len g x
    let why := s.placeReason p (dw r 1 41 0) (dw r 2 31 0) (dw r 2 63 32) (pt 0) (dw r 4 63 48) (pt 1)
    let v := k.varBase + 16 * dw r 3 19 12
    let refused := fun n => ∃ t, exec (.submit p) s = .next t ∧ Consumed s t p [rejected r n] ∧ SameMemory s t
    GoodBytes s at_ 64 → GoodBytes s v 8 →
    (2 ^ k.capLog2 ≤ dw r 0 31 16 → refused 2) ∧
    (dw r 0 31 16 < 2 ^ k.capLog2 →
      (readBytesOf s at_ 64 % 4 ≠ 0 → refused 1) ∧
      (readBytesOf s at_ 64 % 4 = 0 → why ≠ 0 → refused why) ∧
      (readBytesOf s at_ 64 % 4 = 0 → why = 0 → (k.nvar ≤ dw r 3 19 12 ∨ (readByte s v).toNat % 2 = 0) → refused 3) ∧
      (readBytesOf s at_ 64 % 4 = 0 → why = 0 → dw r 3 19 12 < k.nvar → (readByte s v).toNat % 2 = 1 →
        (∀ g x, g < 2 → k.geoms[g]? = some x → GoodBytes s (pt g) (len g x) ∧ (pt g + len g x ≤ at_ ∨ at_ + 64 ≤ pt g)) →
        ∃ t, exec (.submit p) s = .next t ∧ Consumed s t p [] ∧
          (let e := readBytesOf t at_ 64
           seqState e = 1 ∧ seqClass e = dw r 3 10 8 ∧ seqVariant e = dw r 3 19 12 ∧ dw e 0 23 20 = dw r 3 27 24 ∧ dw e 0 27 24 = dw r 3 27 24 ∧
           seqReq e = dw r 0 63 32 ∧ seqLen e = 0 ∧ seqPrompt e = dw r 2 31 0 ∧ dw e 2 41 0 = dw r 1 41 0 ∧ seqWait e = 0 ∧ seqGen e = 0 ∧
           seqMax e = dw r 2 63 32 ∧ dw e 7 8 0 = 256 ∧ seqSwapped e = false ∧ ∀ g, g < 2 → seqPt e g = pt g) ∧
          (∀ a, inTable a → readByte t a = 0) ∧
          ∀ a, ¬ inTable a → (a < at_ ∨ at_ + 64 ≤ a) → readByte t a = readByte s a))) ∧
  (∀ (s : State) (p : Fin 16) (r : Nat), Sound s → s.nextRequest p = some r → dw r 0 7 0 = 2 → reqBad r = false →
    let k := (s.part p).serve
    let i := dw r 0 31 16
    let at_ := k.copyBase (1 - s.get Fld.SV_STAT.COPY p) + 64 * i
    GoodBytes s at_ 64 →
    let live := i < 2 ^ k.capLog2 ∧ readBytesOf s at_ 64 % 4 ≠ 0 ∧ seqReq (readBytesOf s at_ 64) = dw r 0 63 32
    (live → ∃ t, exec (.cancel p) s = .next t ∧ Consumed s t p [] ∧ SameMemory s t ∧ i ∈ (t.part p).serve.cancelled) ∧
    (¬ live → ∃ t, exec (.cancel p) s = .next t ∧ Consumed s t p [rejected r 5] ∧ SameMemory s t ∧
      (t.part p).serve.cancelled = k.cancelled)) ∧
  (∀ (s : State) (p : Fin 16) (r : Nat), Sound s → s.nextRequest p = some r → reqBad r = true →
    ∃ t, exec (.badRequest p) s = .next t ∧ Consumed s t p [rejected r 2] ∧ SameMemory s t ∧ t.get Fld.SERVE_ERR.REQ_BAD p = 1 ∧
      BitsBut [(Fld.SERVE_ERR.REQ_BAD, p, 0)] s t) ∧
  (∀ (s : State) (p : Fin 16) (pl : Plan) (w : Swap) (g : Geom), Sound s → (s.part p).phase = .active → s.inEve p = false → s.pcieOnly = false →
    (s.part p).plan = some pl → (s.part p).serve.geoms[w.geom]? = some g → s.stackUp w.stack = true →
    let img := nth 0 (s.part p).serve.swapPool w.geom + w.image * g.stride
    let n := 2 * g.layers
    let page := fun q => g.page w.stack w.pch w.slot (q / 2) (q % 2)
    let moved := fun (t : State) (bad : Bool) =>
      Counted 64 (s.get Fld.SV_CNT_SWAP.BYTES p) (g.stride) (t.get Fld.SV_CNT_SWAP.BYTES p) ∧
        ∃ pl', (t.part p).plan = some pl' ∧ { w with ran := true, bad := bad } ∈ pl'.swaps
    (∀ q, q < n → GoodBytes s (page q) 65536) →
    (pl.nextSwap false = some w →
      ∃ t, exec (.swapOut p) s = .next t ∧ SameMemory s t ∧ moved t false ∧
        (∀ q b, q < n → b < 65536 → byteAt t.host (img + 65536 * q + b) = readByte s (page q + b)) ∧
        ∀ q h, q < n → h < 16 →
          Spells t.host (img + 65536 * n + 8 * (16 * q + h)) 8 (granRecord (s.granule (page q / 4096 + h)))) ∧
    (pl.nextSwap true = some w → 1 ≤ g.ns →
      (∀ q q', q < n → q' < n → q ≠ q' → page q ≠ page q') →
      let bad := (List.range (16 * n)).any (fun j =>
        bits (s.hostRead (img + 65536 * n + 8 * j) 8) 33 32 == 1 &&
          crc32c ((List.range 4096).map (fun b => byteAt s.host (img + 4096 * j + b))) != bits (s.hostRead (img + 65536 * n + 8 * j) 8) 31 0)
      ∃ t, exec (.restore p) s = .next t ∧ t.host = s.host ∧ moved t bad ∧
        (∀ q b, q < n → b < 65536 → readByte t (page q + b) = byteAt s.host (img + 65536 * q + b)) ∧
        (∀ a, (∀ q, q < n → a < page q ∨ page q + 65536 ≤ a) → readByte t a = readByte s a) ∧
        ∀ q h, q < n → h < 16 → (t.granule (page q / 4096 + h)).state = .opened)) ∧
  (∀ (s : State) (p : Fin 16), Sound s → s.serves 0 = true →
    let st := s.get Fld.STEP_STATE.STATE p
    let base := 4096 * s.get Fld.SV_TABLE.BASE p
    let n := 64 * 2 ^ s.get Fld.SV_TABLE.CAP_LOG2 p
    let geo := 64 * s.get Fld.SV_GEOM.BASE p
    let recs := (List.range (1 + s.get Fld.SV_GEOM.TWO p)).map (fun g => readBytesOf s (geo + 64 * g) 64)
    let bad := ∃ t, exec (.install p) s = .next t ∧ t.get Fld.SERVE_ERR.TABLE_BAD p = 1 ∧ t.get Fld.SV_STAT.INSTALLED p = 0
    (st = 1 ∨ st = 2 ∨ st = 5 →
      ∃ t, exec (.install p) s = .next t ∧ OnlyRegs [(Fld.SERVE_ERR.TABLE_BAD, p, 0)] s t ∧ t.get Fld.SERVE_ERR.TABLE_BAD p = 1) ∧
    (st = 0 ∨ st = 3 ∨ st = 4 → GoodBytes s geo (64 * (1 + s.get Fld.SV_GEOM.TWO p)) →
      (recs.all (s.geomOk p) = false →
        ∃ t, exec (.install p) s = .next t ∧ PartOnly s t p ∧
          BitsBut [(Fld.SERVE_ERR.GEOM_BAD, p, 0), (Fld.SV_STAT.INSTALLED, p, 0), (Fld.STEP_STATE.STATE, p, 0)] s t ∧
          t.get Fld.SERVE_ERR.GEOM_BAD p = 1 ∧ t.get Fld.SV_STAT.INSTALLED p = 0 ∧ t.get Fld.STEP_STATE.STATE p = 0 ∧
          t.part p = { s.part p with startPend := false, resumePend := false, stoppedFor := [] }) ∧
      (recs.all (s.geomOk p) = true → s.ownAll p base (2 * n) = false → bad) ∧
      (recs.all (s.geomOk p) = true → s.ownAll p base (2 * n) = true → GoodBytes s base (2 * n) → 6 ≤ s.get Fld.SV_TABLE.CAP_LOG2 p →
        ((∃ i, i < 2 ^ s.get Fld.SV_TABLE.CAP_LOG2 p ∧ (readByte s (base + 64 * i)).toNat % 4 = 3) → bad) ∧
        ((∀ i, i < 2 ^ s.get Fld.SV_TABLE.CAP_LOG2 p → (readByte s (base + 64 * i)).toNat % 4 = 0) →
          ∃ t, exec (.install p) s = .next t ∧ t.get Fld.SV_STAT.INSTALLED p = 1 ∧ t.get Fld.SV_STAT.COPY p = 0 ∧ t.get Fld.SV_STAT.LIVE p = 0 ∧
            (t.part p).serve.geoms = recs.map Geom.of ∧ (∀ a, (a < base + n ∨ base + 2 * n ≤ a) → readByte t a = readByte s a) ∧
            ∀ i, i < n → readByte t (base + n + i) = readByte s (base + i))))) ∧
  (∀ (s : State) (p : Fin 16), Sound s → s.serves 0 = true →
    ∃ t, exec (.reloadDir p) s = .next t ∧ PartOnly s t p ∧ t.csr = s.csr ∧
      t.part p = { s.part p with serve := { (s.part p).serve with reloadDir := true } }) ∧
  ∀ (s : State) (c : Fin 12), Sound s → s.serves (dieOfCore c) = true →
    (∃ t, exec (.rcInv c) s = .next t ∧ t = { s with cores := t.cores } ∧ (∀ d, d ≠ c.val → t.core d = s.core d) ∧
      t.core c = { s.core c with rc := [] }) ∧
    ((s.core c).run ≠ .idle → exec (.trfClear c) s = .next s) ∧
    ((s.core c).run = .idle → ∃ t, exec (.trfClear c) s = .next t ∧ t = { s with cores := t.cores } ∧
      (∀ d, d ≠ c.val → t.core d = s.core d) ∧ (∀ a, byteAt (t.core c).trf a = 0) ∧
      t.core c = { s.core c with trf := (t.core c).trf, trfBad := [], trfCe := [] }) ∧
    ∃ t, exec (.clrCnt c) s = .next t ∧ OnlyRegs [(Fld.ECC_STAT.TRF_CE, c, 0)] s t ∧ t.get Fld.ECC_STAT.TRF_CE c = 0

namespace Sys2Proof.Spec

/-! Partitions, regions, mailboxes and doorbells. -/

/-- A register write refused: one flag and the partition of the refusal (PART_ERR). -/
def Refused (s t : State) (f : Fld) (p : Nat) : Prop :=
  OnlyRegs [(f, 0, 0), (Fld.PART_ERR.PART, 0, 0)] s t ∧ t.get f = 1 ∧ t.get Fld.PART_ERR.PART = p

/-- Unit u of stack st lies in region r or its replica (R360, R362). -/
abbrev inRegion (s : State) (r st u : Nat) : Prop :=
  let n := s.get Fld.REG_LOC.COUNT r
  (s.get Fld.REG_LOC.STACK r = st ∧ s.get Fld.REG_LOC.FIRST r ≤ u ∧ u < s.get Fld.REG_LOC.FIRST r + n) ∨
    (s.get Fld.REG_LOC.MIRROR r = 1 ∧ s.get Fld.REG_MIR.MSTACK r = st ∧ s.get Fld.REG_MIR.MFIRST r ≤ u ∧
      u < s.get Fld.REG_MIR.MFIRST r + n)

/-- What LOAD asks of a region (R360, R362). -/
abbrev Loadable (s : State) (r : Nat) : Prop :=
  1 ≤ s.get Fld.REG_LOC.COUNT r ∧ s.get Fld.REG_LOC.STACK r ≤ 19 ∧ s.get Fld.REG_LOC.FIRST r + s.get Fld.REG_LOC.COUNT r ≤ 49104 ∧
    (s.get Fld.REG_LOC.MIRROR r = 1 → s.get Fld.REG_MIR.MSTACK r ≤ 19 ∧
      s.get Fld.REG_MIR.MFIRST r + s.get Fld.REG_LOC.COUNT r ≤ 49104 ∧ s.get Fld.REG_MIR.MSTACK r ≠ s.get Fld.REG_LOC.STACK r) ∧
    ∀ st u, inRegion s r st u → (∀ p, p < 16 → s.owns p st u = false) ∧
      ∀ q, q < 32 → q ≠ r → s.get Fld.REG_STAT.STATE q ≠ 0 → ¬ inRegion s q st u

/-- Granule i of a region, and of its replica. -/
def regionGranule (s : State) (r i : Nat) : Nat :=
  (s.get Fld.REG_LOC.STACK r * stackSpan + s.get Fld.REG_LOC.FIRST r * 0x200000) / 4096 + i
def replicaGranule (s : State) (r i : Nat) : Nat :=
  (s.get Fld.REG_MIR.MSTACK r * stackSpan + s.get Fld.REG_MIR.MFIRST r * 0x200000) / 4096 + i

/-- A granule without error, on a stack with no flip armed, that the host has no cached line of (R275). -/
abbrev SealableGranule (s : State) (g : Nat) : Prop := CleanGranule s g ∧ Unarmed s (4096 * g) ∧ s.bias (4096 * g / 0x200000) ≠ 2

/-- Two allocations share a 256 KiB unit. -/
abbrev SpansShare (a n b m : Nat) : Prop := ∃ u, a ≤ u ∧ u < a + n ∧ b ≤ u ∧ u < b + m

/-- Doorbell bits among some that become set unmasked, or are unmasked while set, by host vector (R379, R380). -/
def signalsOf (s : State) (sig vec : Nat) : Nat := ((List.range 32).filter (fun b => sig.testBit b && s.dbVec b == vec)).length

/-- The MSI-X messages of some bits of doorbell set r sent, on a device whose host set is not forwarded: a masked vector holds
its own and shows it in MSIX_PBA; no other set sends one (R380, R404). -/
def Signalled (s t : State) (r sig : Nat) : Prop :=
  ∀ vec, vec < 64 →
    let n := if r = 0 ∧ s.get Fld.DB_CFG.VEC_EN = 1 then signalsOf s sig vec else 0
    let masked := s.get Fld.MSIX_CTRL.MASK vec = 1
    smGet 0 t.msixSent vec = smGet 0 s.msixSent vec + (if masked then 0 else n) ∧
      smGet 0 t.msixHeld vec = smGet 0 s.msixHeld vec + (if masked then n else 0) ∧
      ((t.get Fld.MSIX_PBA.PENDING).testBit vec = true ↔ (s.get Fld.MSIX_PBA.PENDING).testBit vec = true ∨ masked ∧ n ≠ 0)

/-- SUM of a doorbell set says whether a pending bit is unmasked (R379). -/
def SumRight (t : State) (r : Nat) : Prop :=
  t.get Fld.DB_CFG.SUM r = 1 ↔ ∃ b, b < 32 ∧ (t.get Fld.DB_PEND.PEND r).testBit b = true ∧ (t.get Fld.DB_MASK.MASK r).testBit b = false

/-- Whether identity who may write mailbox m now: it owns it, or nobody does and no message waits (R374). -/
abbrev OwnsBox (s : State) (who m : Nat) : Prop :=
  (s.get Fld.S_STAT.OWNED m = 1 ∧ s.get Fld.S_STAT.OWNER m = who) ∨ (s.get Fld.S_STAT.OWNED m = 0 ∧ s.get Fld.R_PEEK.FULL m = 0)

end Sys2Proof.Spec

/-- R356, R359–R362: PT_CORES and PT_SB are refused with BUSY unless the partition rests, with CORE_TAKEN or SB_OVERLAP and SB_RANGE
as their rules say, and else act with their clears; a region's location is written only while EMPTY; LOAD, SEAL and
RELEASE move its state, SEAL sealing every written granule of every copy or stopping where the copies first differ. -/
def Obligations.PartitionsAndRegions : Prop :=
  (∀ (s : State) (p : Fin 16) (v : Word), Sound s → s.serves 0 = true →
    let st := s.get Fld.STEP_STATE.STATE p
    let rest := st = 0 ∨ st = 3 ∨ st = 4
    let new := bits v.toNat 11 0
    let old := s.get Fld.PT_CORES.CORES p
    let taken := ∃ c : Fin 12, new.testBit c = true ∧ s.get Fld.CORE_STATUS.ASSIGNED c = 1 ∧ s.get Fld.CORE_STATUS.PART c ≠ p
    (¬ rest → ∃ t, exec (.ptCoresWrite p v) s = .next t ∧ Refused s t Fld.PART_ERR.BUSY p) ∧
    (rest → taken → ∃ t, exec (.ptCoresWrite p v) s = .next t ∧ Refused s t Fld.PART_ERR.CORE_TAKEN p) ∧
    (rest → ¬ taken → ∃ t, exec (.ptCoresWrite p v) s = .next t ∧ t = { s with csr := t.csr, cores := t.cores } ∧
      t.get Fld.PT_CORES.CORES p = new ∧
      ∀ c : Fin 12,
        (new.testBit c = old.testBit c → t.core c = s.core c ∧ t.partOf c = s.partOf c) ∧
        (new.testBit c = true → old.testBit c = false → t.partOf c = some p) ∧
        (new.testBit c = false → old.testBit c = true → t.partOf c = none) ∧
        (new.testBit c ≠ old.testBit c → (t.core c).trf = [] ∧ (t.core c).trfBad = [] ∧ (t.core c).trfCe = [] ∧ (t.core c).rc = [] ∧ (∀ d ∈ (t.core c).td, d.valid = false) ∧
          t.word Reg.FP_FLAGS c 0 = 0 ∧ t.word Reg.IDX_OOB c 0 = 0))) ∧
  (∀ (s : State) (p : Fin 16) (v : Word), Sound s → s.serves 0 = true →
    let st := s.get Fld.STEP_STATE.STATE p
    let rest := st = 0 ∨ st = 3 ∨ st = 4
    let w := v.toNat
    let out := 192 < bits w 7 0 + bits w 15 8 ∨ 192 < bits w 23 16 + bits w 31 24
    let meets := ∃ q : Fin 16, q ≠ p ∧
      (SpansShare (bits w 7 0) (bits w 15 8) (s.get Fld.PT_SB.SB0_BASE q) (s.get Fld.PT_SB.SB0_SIZE q) ∨
        SpansShare (bits w 23 16) (bits w 31 24) (s.get Fld.PT_SB.SB1_BASE q) (s.get Fld.PT_SB.SB1_SIZE q))
    (¬ rest → ∃ t, exec (.ptSbWrite p v) s = .next t ∧ Refused s t Fld.PART_ERR.BUSY p) ∧
    (rest → out → ¬ meets → ∃ t, exec (.ptSbWrite p v) s = .next t ∧ Refused s t Fld.PART_ERR.SB_RANGE p) ∧
    (rest → meets → ¬ out → ∃ t, exec (.ptSbWrite p v) s = .next t ∧ Refused s t Fld.PART_ERR.SB_OVERLAP p) ∧
    (rest → ¬ out → ¬ meets → ∃ t, exec (.ptSbWrite p v) s = .next t ∧ OnlyRegs [(allOf Reg.PT_SB, p, 0)] s t ∧
      t.get Fld.PT_SB.SB0_BASE p = bits w 7 0 ∧ t.get Fld.PT_SB.SB0_SIZE p = bits w 15 8 ∧ t.get Fld.PT_SB.SB1_BASE p = bits w 23 16 ∧
      t.get Fld.PT_SB.SB1_SIZE p = bits w 31 24)) ∧
  ∀ (s : State) (r : Fin 32), Sound s → s.serves 0 = true →
    let st := s.get Fld.REG_STAT.STATE r
    let busy := fun (i : Instr) =>
      ∃ t, exec i s = .next t ∧ OnlyRegs [(Fld.PART_ERR.REGION_BUSY, 0, 0)] s t ∧ t.get Fld.PART_ERR.REGION_BUSY = 1
    let moves := fun (i : Instr) (n : Nat) => ∃ t, exec i s = .next t ∧ OnlyRegs [(Fld.REG_STAT.STATE, r, 0)] s t ∧ t.get Fld.REG_STAT.STATE r = n
    (∀ (mir : Bool) (v : Word), (st ≠ 0 → busy (.regionLocationWrite r mir v)) ∧
      (st = 0 → ∃ t, exec (.regionLocationWrite r mir v) s = .next t ∧ OnlyRegs [(allOf (if mir then Reg.REG_MIR else Reg.REG_LOC), r, 0)] s t ∧
        (mir = false → t.get Fld.REG_LOC.STACK r = bits v.toNat 4 0 ∧ t.get Fld.REG_LOC.FIRST r = bits v.toNat 31 16 ∧
          t.get Fld.REG_LOC.COUNT r = bits v.toNat 47 32 ∧ t.get Fld.REG_LOC.MIRROR r = bits v.toNat 48 48) ∧
        (mir = true → t.get Fld.REG_MIR.MSTACK r = bits v.toNat 4 0 ∧ t.get Fld.REG_MIR.MFIRST r = bits v.toNat 31 16))) ∧
    (st ≠ 0 → busy (.regionLoad r)) ∧ (st = 0 → Loadable s r → moves (.regionLoad r) 1) ∧
    (st = 0 → ¬ Loadable s r → ∃ t, exec (.regionLoad r) s = .next t ∧ OnlyRegs [(Fld.PART_ERR.REGION_BAD, 0, 0)] s t ∧
      t.get Fld.PART_ERR.REGION_BAD = 1) ∧
    (st ≠ 1 → busy (.regionSeal r)) ∧
    (st = 1 → ∃ t, exec (.regionSeal r) s = .next t ∧ t = { s with csr := t.csr, stks := t.stks } ∧ t.get Fld.REG_STAT.STATE r = 2 ∧
      ∀ k : Fin 20, (t.stack k).level = (s.stack k).level ∧ ((t.stack k).bucket ≤ (s.stack k).bucket)) ∧
    (st = 2 → s.get Fld.REG_LOC.STACK r ≤ 19 → s.stackUp (s.get Fld.REG_LOC.STACK r) = true → s.get Fld.REG_LOC.FIRST r + s.get Fld.REG_LOC.COUNT r ≤ 49104 →
      let n := 512 * s.get Fld.REG_LOC.COUNT r
      (∀ i, i < n → SealableGranule s (regionGranule s r i)) →
      (s.get Fld.REG_LOC.MIRROR r = 0 →
        ∃ t, exec (.regionSealDone r) s = .next t ∧ t.get Fld.REG_STAT.STATE r = 3 ∧ t.get Fld.REG_STAT.MISMATCH r = 0 ∧ t.mem = s.mem ∧
          (∀ i, i < n → let g := regionGranule s r i
            (s.granule g).state = .unwritten ∧ t.granule g = s.granule g ∨ (t.granule g).state = .shut ∧ Verified t g) ∧
          ∀ g, (∀ i, i < n → g ≠ regionGranule s r i) → t.granule g = s.granule g) ∧
      (s.get Fld.REG_LOC.MIRROR r = 1 → s.get Fld.REG_MIR.MSTACK r ≤ 19 → s.get Fld.REG_MIR.MFIRST r + s.get Fld.REG_LOC.COUNT r ≤ 49104 →
        s.get Fld.REG_MIR.MSTACK r ≠ s.get Fld.REG_LOC.STACK r → s.stackUp (s.get Fld.REG_MIR.MSTACK r) = true →
        (∀ i, i < n → SealableGranule s (replicaGranule s r i)) →
        let same := fun i => crc32c (granuleBytes s (regionGranule s r i)) = crc32c (granuleBytes s (replicaGranule s r i))
        ((∀ i, i < n → same i) →
          ∃ t, exec (.regionSealDone r) s = .next t ∧ t.get Fld.REG_STAT.STATE r = 3 ∧ t.get Fld.REG_STAT.MISMATCH r = 0 ∧ t.mem = s.mem ∧
            (∀ i, i < n → ∀ g ∈ [regionGranule s r i, replicaGranule s r i],
              (s.granule g).state = .unwritten ∧ t.granule g = s.granule g ∨ (t.granule g).state = .shut ∧ Verified t g) ∧
            ∀ g, (∀ i, i < n → g ≠ regionGranule s r i ∧ g ≠ replicaGranule s r i) → t.granule g = s.granule g) ∧
        ∀ i, i < n → ¬ same i →
          (∀ j, j < i → same j) →
          ∃ t, exec (.regionSealDone r) s = .next t ∧ t.get Fld.REG_STAT.STATE r = 1 ∧ t.get Fld.REG_STAT.MISMATCH r = 1 ∧
            t.get Fld.REG_STAT.GRANULE r = i ∧ t.mem = s.mem)) ∧
    (let named := ∃ p : Fin 16, (s.part p).regions.testBit r = true ∨ (s.get Fld.PT_REGIONS.MAP p).testBit r = true
     (named → busy (.regionRelease r)) ∧
     (¬ named → st ≠ 2 → moves (.regionRelease r) 0) ∧
     (¬ named → st = 2 → (∀ page, s.bias page ≠ 2) → ∃ t, exec (.regionRelease r) s = .next t ∧ t.get Fld.REG_STAT.STATE r = 0 ∧ t.mem = s.mem ∧
       t.get Fld.REG_STAT.MISMATCH r = s.get Fld.REG_STAT.MISMATCH r))

/-- R374–R377, R379, R380, R383, R404: a mailbox's first writer owns it and others' writes are dropped; GO checks LEN, a draining
domain and FULL in order, and delivers with SENDER, FULL and the doorbell, or forwards what leaves the device; ABORT and a take end ownership; rings, clears
and masks of doorbells signal the bits that become pending and unmasked; an unmasked vector sends what it held. -/
def Obligations.MailboxesAndDoorbells : Prop :=
  (∀ (s : State) (who : BitVec 16) (m : Fin 64) (i : Fin 16) (v : Word), Sound s → s.serves 0 = true → s.maySend who.toNat m = true →
    (OwnsBox s who.toNat m → ∃ t, exec (.mailboxDataWrite who m i v) s = .next t ∧
      OnlyRegs [(allOf Reg.MB_DATA, m, i), (allOf Reg.MB_RDATA, m, i), (allOf Reg.S_STAT, m, 0)] s t ∧
      t.get Fld.MB_DATA.DATA m i = v.toNat ∧ t.get Fld.MB_RDATA.DATA m i = v.toNat ∧ t.get Fld.S_STAT.OWNED m = 1 ∧
      t.get Fld.S_STAT.OWNER m = who.toNat ∧ t.get Fld.S_STAT.DROPS m = s.get Fld.S_STAT.DROPS m) ∧
    (¬ OwnsBox s who.toNat m → ∃ t, exec (.mailboxDataWrite who m i v) s = .next t ∧ OnlyRegs [(Fld.S_STAT.DROPS, m, 0)] s t ∧
      t.get Fld.S_STAT.DROPS m = Nat.min (s.get Fld.S_STAT.DROPS m + 1) 0xFFFF)) ∧
  (∀ (s : State) (who : BitVec 16) (m : Fin 64) (v : Word), Sound s → s.serves 0 = true → s.maySend who.toNat m = true → bit v.toNat 8 = true →
    bit v.toNat 9 = false →
    let len := bits v.toNat 4 0
    let rcv := s.get Fld.MB_CFG.RCV m
    let answers := fun (n : Nat) => ∃ t, exec (.mailboxGo who m v) s = .next t ∧
      OnlyRegs [(allOf Reg.S_CTRL, m, 0), (allOf Reg.S_STAT, m, 0)] s t ∧ t.get Fld.S_STAT.RESULT m = n ∧ t.get Fld.S_STAT.OWNED m = 1 ∧
      t.get Fld.S_STAT.OWNER m = who.toNat ∧ t.get Fld.S_CTRL.LEN m = len
    (¬ OwnsBox s who.toNat m → ∃ t, exec (.mailboxGo who m v) s = .next t ∧ OnlyRegs [(Fld.S_STAT.DROPS, m, 0)] s t ∧
      t.get Fld.S_STAT.DROPS m = Nat.min (s.get Fld.S_STAT.DROPS m + 1) 0xFFFF) ∧
    (OwnsBox s who.toNat m → s.rcvDown rcv = true → ∃ t, exec (.mailboxGo who m v) s = .next t ∧
      OnlyRegs [(Fld.MBX_ERR.DOWN_REFUSED, 0, 0)] s t ∧ t.get Fld.MBX_ERR.DOWN_REFUSED = 1) ∧
    (OwnsBox s who.toNat m → s.rcvDown rcv = false →
      let bad := len < 8 ∨ 16 < len
      (bad → answers 3) ∧ (¬ bad → s.rcvDrains rcv = true → answers 4) ∧
      (¬ bad → s.rcvDrains rcv = false → s.get Fld.R_PEEK.FULL m = 1 → answers 2) ∧
      (¬ bad → s.rcvDrains rcv = false → s.get Fld.R_PEEK.FULL m = 0 → rcv = 22 → s.get Fld.ETH_DEV.MODE = 0 → answers 5) ∧
      (¬ bad → s.rcvDrains rcv = false → s.get Fld.R_PEEK.FULL m = 0 → s.get Fld.ETH_DEV.MODE ≠ 0 → (rcv = 22 ∨ rcv = 0 ∧ s.get Fld.ETH_DEV.MODE = 2) →
        let q := 0x100 + if s.get Fld.ETH_DEV.MODE = 2 then 0 else s.get Fld.MB_CFG.DEV m
        let way := s.net.mgmt = true ∧ (s.qp q).error = false
        let sent := Sent.packet q (s.qp q).next (.message m (if rcv = 0 then s.homeBox else m) len who.toNat (s.boxWords m))
        (¬ way → ∃ t, exec (.mailboxGo who m v) s = .next t ∧
          OnlyRegs [(allOf Reg.S_CTRL, m, 0), (allOf Reg.S_STAT, m, 0), (Fld.ETH_ERR.FWD_FAIL, 0, 0)] s t ∧ t.get Fld.S_STAT.RESULT m = 5 ∧
          t.get Fld.ETH_ERR.FWD_FAIL = 1) ∧
        (way → ∃ t, exec (.mailboxGo who m v) s = .next t ∧
          t = { s with csr := t.csr, sent := t.sent, net := { s.net with fwd := t.net.fwd, qps := t.net.qps } } ∧
          BitsBut [(allOf Reg.S_CTRL, m, 0), (allOf Reg.S_STAT, m, 0)] s t ∧ t.get Fld.S_STAT.RESULT m = 6 ∧ m.val ∈ t.net.fwd ∧
          t.sent = s.sent ++ [sent])) ∧
      (¬ bad → s.rcvDrains rcv = false → s.get Fld.R_PEEK.FULL m = 0 → rcv ≤ 21 → s.get Fld.ETH_DEV.MODE ≠ 2 →
        ∃ t, exec (.mailboxGo who m v) s = .next t ∧ t = { s with
            csr := t.csr, delivered := t.delivered, msixHeld := t.msixHeld, msixSent := t.msixSent } ∧
          t.get Fld.S_STAT.RESULT m = 1 ∧ t.get Fld.R_PEEK.FULL m = 1 ∧ t.get Fld.R_PEEK.LEN m = len ∧ t.get Fld.R_PEEK.SENDER m = who.toNat ∧
          t.get Fld.R_CTRL.FULL m = 1 ∧ t.get Fld.R_CTRL.LEN m = len ∧ t.get Fld.R_CTRL.SENDER m = who.toNat ∧
          (∀ i, i < 16 → t.get Fld.MB_DATA.DATA m i = if i < len then s.get Fld.MB_DATA.DATA m i else 0) ∧
          (t.get Fld.DB_PEND.PEND rcv).testBit (s.get Fld.MB_CFG.DB m) = true ∧ m.val ∈ t.delivered))) ∧
  (∀ (s : State) (who : BitVec 16) (m : Fin 64), Sound s → s.serves 0 = true → s.mod.outbox = [] →
    (s.maySend who.toNat m = true → s.get Fld.S_STAT.OWNED m = 1 → (s.get Fld.S_STAT.OWNER m = who.toNat ∨ idClass who.toNat = 0) →
      ∃ t, exec (.mailboxAbort who m) s = .next t ∧ OnlyRegs [(allOf Reg.S_CTRL, m, 0), (Fld.S_STAT.OWNED, m, 0)] s t ∧
        t.get Fld.S_STAT.OWNED m = 0 ∧ t.get Fld.S_CTRL.LEN m = s.get Fld.S_CTRL.LEN m) ∧
    (s.mayTake who.toNat m = true → s.get Fld.R_PEEK.FULL m = 1 →
      ∃ t, exec (.mailboxTake who m) s = .next t ∧ t = { s with csr := t.csr, delivered := t.delivered } ∧
        BitsBut [(Fld.R_PEEK.FULL, m, 0), (Fld.R_CTRL.FULL, m, 0), (Fld.S_STAT.OWNED, m, 0)] s t ∧ t.get Fld.R_PEEK.FULL m = 0 ∧
        t.get Fld.R_CTRL.FULL m = 0 ∧ t.get Fld.S_STAT.OWNED m = 0 ∧ m.val ∉ t.delivered) ∧
    (s.mayTake who.toNat m = true → s.get Fld.R_PEEK.FULL m = 0 → exec (.mailboxTake who m) s = .next s)) ∧
  (∀ (s : State) (who : BitVec 16) (r : Fin 22) (v : Word), Sound s → s.serves 0 = true →
    (r.val = 0 → s.get Fld.ETH_DEV.MODE ≠ 2) →
    let old := s.get Fld.DB_PEND.PEND r
    let mask := s.get Fld.DB_MASK.MASK r
    let w := bits v.toNat 31 0
    let fields : List (Fld × Nat × Nat) := [(Fld.DB_PEND.PEND, r.val, 0), (Fld.DB_MASK.MASK, r.val, 0), (Fld.DB_CFG.SUM, r.val, 0)] ++
      if r.val = 0 then [(Fld.MSIX_PBA.PENDING, 0, 0)] else []
    let after := fun (i : Instr) (pend mask' sig : Nat) => ∃ t, exec i s = .next t ∧ t = { s with
        csr := t.csr, msixHeld := t.msixHeld, msixSent := t.msixSent } ∧
      BitsBut fields s t ∧ t.get Fld.DB_PEND.PEND r = pend ∧ t.get Fld.DB_MASK.MASK r = mask' ∧ SumRight t r ∧ Signalled s t r sig
    (s.mayRing who.toNat r w = true → s.rcvDown r = false →
      after (.dbRing who r v) (old ||| w) mask (w &&& (0xFFFFFFFF - old) &&& (0xFFFFFFFF - mask))) ∧
    (s.mayRing who.toNat r w = true → s.rcvDown r = true → ∃ t, exec (.dbRing who r v) s = .next t ∧
      OnlyRegs [(Fld.MBX_ERR.DOWN_REFUSED, 0, 0)] s t ∧ t.get Fld.MBX_ERR.DOWN_REFUSED = 1) ∧
    (s.mayDoor who.toNat r = true → after (.dbPendClear who r v) (old &&& (0xFFFFFFFF - w)) mask 0 ∧
      after (.dbMaskWrite who r v) old w (mask &&& (0xFFFFFFFF - w) &&& old))) ∧
  ∀ (s : State) (vec : Fin 64), Sound s →
    ∃ t, exec (.msixUnmask vec) s = .next t ∧ t = { s with csr := t.csr, msixHeld := t.msixHeld, msixSent := t.msixSent } ∧
      BitsBut [(Fld.MSIX_CTRL.MASK, vec, 0), (Fld.MSIX_PBA.PENDING, 0, 0)] s t ∧ t.get Fld.MSIX_CTRL.MASK vec = 0 ∧
      (t.get Fld.MSIX_PBA.PENDING).testBit vec = false ∧ smGet 0 t.msixHeld vec = 0 ∧
      smGet 0 t.msixSent vec = smGet 0 s.msixSent vec + smGet 0 s.msixHeld vec ∧
      ∀ w, w ≠ vec.val → smGet 0 t.msixSent w = smGet 0 s.msixSent w ∧ smGet 0 t.msixHeld w = smGet 0 s.msixHeld w

namespace Sys2Proof.Spec

/-! The CXL host link. -/

/-- The link is no PCIe endpoint (R387), and the first committed decoder that covers host address a maps it to DPA d (R391). -/
abbrev Mapped (s : State) (a d : Nat) : Prop :=
  s.pcieOnly = false ∧ ∃ n, n < 4 ∧ (s.hdm n).on = true ∧ (s.hdm n).base ≤ a ∧ a < (s.hdm n).base + (s.hdm n).size ∧ d = (s.hdm n).dpa + (a - (s.hdm n).base) ∧
    ∀ m, m < n → ¬ ((s.hdm m).on = true ∧ (s.hdm m).base ≤ a ∧ a < (s.hdm m).base + (s.hdm m).size)

/-- CXL.mem serves data lines: Memory_Active, die 0 and the stack of the line are up, and it is no checksum array (R390, R392). -/
abbrev Served (s : State) (d : Nat) : Prop :=
  s.link.active = true ∧ s.serves 0 = true ∧ s.stackUp (d / stackSpan) = true ∧ ∃ st o, placeOf d = .data st o

/-- A host write of a line is turned away by its region (R392). -/
abbrev RegionDrops (s : State) (d : Nat) : Prop :=
  (∃ r, r < 32 ∧ s.get Fld.REG_STAT.STATE r = 2 ∧ s.get Fld.REG_LOC.STACK r = d / stackSpan ∧
      s.get Fld.REG_LOC.FIRST r ≤ d % stackSpan / 0x200000 ∧
      d % stackSpan / 0x200000 < s.get Fld.REG_LOC.FIRST r + s.get Fld.REG_LOC.COUNT r) ∨
    ((s.sharedAt d).isSome = true ∧
      ∀ e, e < 16 → ¬ (s.get Fld.ERR_POISON.VALID e = 1 ∧ s.get Fld.ERR_POISON.GRANULE e = d / 4096))

/-- The counter that a dropped host write raises (R390, R392), the first row that holds. -/
def DropCounter (s : State) (d : Nat) (f : Fld) : Prop :=
  (s.link.active = false ∧ f = Fld.CXLC_DROP.NOT_ACTIVE) ∨
    (s.link.active = true ∧ (s.serves 0 = false ∨ s.stackUp (d / stackSpan) = false) ∧ f = Fld.CXLC_DROP.DOWN) ∨
    (s.link.active = true ∧ s.serves 0 = true ∧ s.stackUp (d / stackSpan) = true ∧ (∀ st o, placeOf d ≠ .data st o) ∧
      f = Fld.CXLC_DROP.UNMAPPED) ∨
    (Served s d ∧ RegionDrops s d ∧ f = Fld.CXLC_DROP.REGION)

/-- The bias of a page after a host access (R395): a caching access leaves it in host bias. -/
def biasAfter (s : State) (caching : Bool) (page : Nat) : Nat := if caching then 2 else s.bias page

end Sys2Proof.Spec

/-- R390–R393, R395, R399, R404: the host reaches memory through its committed decoders; a read returns the bytes stored, zeros for a
line never written, or poison, and changes no memory; a write is dropped and counted, or puts its enabled bytes and opens
the granule; a poison write poisons its line; a caching access takes the page to host bias; a snoop is answered. -/
def Obligations.CxlMemoryAccesses : Prop :=
  (∀ (s : State) (addr : BitVec 64) (caching : Bool) (d : Nat), Sound s → Mapped s addr.toNat d →
    let a := d / 64 * 64
    (¬ Served s a → ∃ t, exec (.cxlMemRead addr caching) s = .next t ∧ t = { s with csr := t.csr, answer := some .poison } ∧
      BitsBut [(Fld.CXLC_BYTES_OUT.BYTES, 0, 0), (Fld.CXLC_CNT.POISON_RD, 0, 0)] s t ∧
      t.get Fld.CXLC_CNT.POISON_RD = Nat.min (s.get Fld.CXLC_CNT.POISON_RD + 1) (2 ^ 32 - 1)) ∧
    (Served s a → Intact s a → s.link.run = none →
      ∃ t, exec (.cxlMemRead addr caching) s = .next t ∧ t.answer = some (.line (readBytesOf s a 64)) ∧
        t = { s with csr := t.csr, stks := t.stks, link := t.link, answer := t.answer } ∧
        BitsBut [(Fld.CXLC_BYTES_OUT.BYTES, 0, 0), (Fld.CXLC_CNT.FLIPS_H, 0, 0), (Fld.BIAS_STAT.REFLIP, 0, 0)] s t ∧
        Counted 64 (s.get Fld.CXLC_BYTES_OUT.BYTES) (64) (t.get Fld.CXLC_BYTES_OUT.BYTES) ∧
        t.bias (a / 0x200000) = biasAfter s caching (a / 0x200000) ∧ (∀ q, q ≠ a / 0x200000 → t.bias q = s.bias q) ∧
        t.get Fld.CXLC_CNT.FLIPS_H = (if caching = true ∧ s.bias (a / 0x200000) = 0 then
          Nat.min (s.get Fld.CXLC_CNT.FLIPS_H + 1) (2 ^ 32 - 1) else s.get Fld.CXLC_CNT.FLIPS_H))) ∧
  (∀ (s : State) (addr : BitVec 64) (caching : Bool) (data : Line) (mask : BitVec 64) (d : Nat), Sound s → Mapped s addr.toNat d →
    let a := d / 64 * 64
    (∀ f, DropCounter s a f → ∀ i, i = Instr.cxlMemWrite addr caching data mask ∨ i = Instr.cxlMemPoisonWrite addr →
      ∃ t, exec i s = .next t ∧ t = { s with csr := t.csr, msixHeld := t.msixHeld, msixSent := t.msixSent, answer := some .done } ∧
        BitsBut [(Fld.CXLC_BYTES_IN.BYTES, 0, 0), (f, 0, 0), (Fld.CXLC_ERR.DROPPED, 0, 0), (Fld.MSIX_PBA.PENDING, 0, 0)] s t ∧
        t.get f = Nat.min (s.get f + 1) 0xFFFF ∧ t.get Fld.CXLC_ERR.DROPPED = 1) ∧
    (Served s a → ¬ RegionDrops s a → Intact s a → Unarmed s a → s.link.run = none → mask ≠ 0 →
      ∃ t, exec (.cxlMemWrite addr caching data mask) s = .next t ∧ t.answer = some .done ∧
        t = { s with
          mem := t.mem, gran := t.gran, flipped := t.flipped, sealing := t.sealing, csr := t.csr, stks := t.stks, link := t.link, answer := t.answer } ∧
        BitsBut [(Fld.CXLC_BYTES_IN.BYTES, 0, 0), (Fld.CXLC_CNT.FLIPS_H, 0, 0), (Fld.BIAS_STAT.REFLIP, 0, 0)] s t ∧
        BytesBut s.mem t.mem a 64 ∧ (t.granule (a / 4096)).state = .opened ∧
        (∀ g, g ≠ a / 4096 → t.granule g = s.granule g) ∧
        (∀ k, k < 64 → readByte t (a + k) = if mask.getLsbD k then data.extractLsb' (8 * k) 8 else readByte s (a + k)) ∧
        t.bias (a / 0x200000) = biasAfter s caching (a / 0x200000)) ∧
    (Served s a → ¬ RegionDrops s a → ∃ t, exec (.cxlMemPoisonWrite addr) s = .next t ∧ t.mem = s.mem ∧ t.answer = some .done ∧
      t = { s with gran := t.gran, ecc := t.ecc, metaFlip := t.metaFlip, flipped := t.flipped, sealing := t.sealing, csr := t.csr, stks := t.stks, answer := t.answer } ∧
      BitsBut [(Fld.CXLC_BYTES_IN.BYTES, 0, 0)] s t ∧
      t.linePoisoned (a / 64) = true ∧ t.lineValid (a / 64) = true ∧
      (t.granule (a / 4096)).state = (if (s.granule (a / 4096)).state = .unwritten then .opened else (s.granule (a / 4096)).state) ∧
      ∀ g, g ≠ a / 4096 → t.granule g = s.granule g)) ∧
  (∀ (s : State) (addr : BitVec 64), s.pcieOnly = false → exec (.hostSnoop addr) s = .next { s with answer := some .rspIHitI })

/-- R391, R395–R397: a decoder's commit is accepted exactly on its rules and starts where the decoder below ends; a write of BIAS_CMD is
refused while one runs or past page 983,039, else changes its pages in order; its end sets every page, clears BUSY and
GO and sends the event vector. -/
def Obligations.DecodersAndBiasCommands : Prop :=
  (∀ (s : State) (n : Fin 4) (base size skip : BitVec 64) (iw : BitVec 4), Sound s → s.serves 0 = true → s.pcieOnly = false → (s.hdm n).on = false →
    let start := (if n = 0 then 0 else (s.hdm (n - 1)).dpa + (s.hdm (n - 1)).size) + skip.toNat
    let good := (∀ m, m < n.val → (s.hdm m).on = true) ∧ base.toNat % 2 ^ 28 = 0 ∧ size.toNat % 2 ^ 28 = 0 ∧ skip.toNat % 2 ^ 28 = 0 ∧
      size ≠ 0 ∧ iw = 0 ∧ start + size.toNat ≤ 0x1E000000000
    ∃ t, exec (.hdmDecoderCommit n base size skip iw) s = .next t ∧ t = { s with link := { s.link with hdm := t.link.hdm } } ∧
      (∀ m, m ≠ n.val → t.hdm m = s.hdm m) ∧
      (good → t.hdm n = { on := true, error := false, base := base.toNat, size := size.toNat, dpa := start }) ∧
      (¬ good → t.hdm n = { s.hdm n with error := true })) ∧
  (∀ (s : State) (v : Word), Sound s → s.serves 0 = true → bit v.toNat 63 = true →
    let w := v.toNat
    let first := bits w 19 0
    let n := bits w 39 20
    let refused := s.get Fld.BIAS_STAT.BUSY = 1 ∨ 983040 < first + n
    let i := if bit w 40 then Instr.biasToHost v else Instr.biasToDevice v
    (refused → ∃ t, exec i s = .next t ∧ t = { s with csr := t.csr, msixHeld := t.msixHeld, msixSent := t.msixSent } ∧
      BitsBut [(Fld.CXLC_ERR.BIAS_BAD, 0, 0), (Fld.MSIX_PBA.PENDING, 0, 0)] s t ∧ t.get Fld.CXLC_ERR.BIAS_BAD = 1) ∧
    (¬ refused → 0 < n → ∃ t, exec i s = .next t ∧ t = { s with csr := t.csr, link := { s.link with run := t.link.run } } ∧
      BitsBut [(allOf Reg.BIAS_CMD, 0, 0), (Fld.BIAS_STAT.BUSY, 0, 0), (Fld.BIAS_STAT.DONE, 0, 0)] s t ∧ t.get Fld.BIAS_STAT.BUSY = 1 ∧
      t.get Fld.BIAS_STAT.DONE = 0 ∧ t.get Fld.BIAS_CMD.GO = 1 ∧ t.get Fld.BIAS_CMD.FIRST = first ∧ t.get Fld.BIAS_CMD.COUNT = n ∧
      t.link.run = some ⟨first, n, bit w 40, s.now⟩) ∧
    (¬ refused → n = 0 → ∃ t, exec i s = .next t ∧ t = { s with csr := t.csr, msixHeld := t.msixHeld, msixSent := t.msixSent } ∧
      BitsBut [(allOf Reg.BIAS_CMD, 0, 0), (Fld.BIAS_STAT.DONE, 0, 0), (Fld.MSIX_PBA.PENDING, 0, 0)] s t ∧ t.get Fld.BIAS_STAT.BUSY = 0 ∧
      t.get Fld.BIAS_STAT.DONE = 0 ∧ t.get Fld.BIAS_CMD.GO = 0 ∧
      let vec := s.get Fld.CXLC_CFG.EVT_VEC
      (s.get Fld.MSIX_CTRL.MASK vec = 0 → smGet 0 t.msixSent vec = smGet 0 s.msixSent vec + 1))) ∧
  ∀ (s : State) (r : BiasRun), Sound s → s.link.run = some r →
    ∃ t, exec .biasCommandDone s = .next t ∧
      t = { s with csr := t.csr, msixHeld := t.msixHeld, msixSent := t.msixSent, link := { s.link with run := none, bias := t.link.bias } } ∧
      BitsBut [(Fld.BIAS_CMD.GO, 0, 0), (Fld.BIAS_STAT.BUSY, 0, 0), (Fld.BIAS_STAT.DONE, 0, 0), (Fld.MSIX_PBA.PENDING, 0, 0)] s t ∧
      t.get Fld.BIAS_STAT.BUSY = 0 ∧ t.get Fld.BIAS_CMD.GO = 0 ∧
      t.get Fld.BIAS_STAT.DONE = (s.get Fld.BIAS_STAT.DONE + r.left) % 2 ^ 20 ∧
      ∀ q, t.bias q = if r.page ≤ q ∧ q < r.page + r.left then (if r.toHost then Nat.max 1 (s.bias q) else 0) else s.bias q

namespace Sys2Proof.Spec

/-! The host DMA engine. -/

/-- Word k of the descriptor that host DMA channel ch reads next (R400). -/
def hdmaWord (s : State) (ch : Fin 4) (k : Nat) : Nat :=
  let i := (s.get Fld.CH_HEAD.HEAD ch + (s.jobs ch).length) % 2 ^ 32
  s.hostRead (256 * s.get Fld.CH_BASE.HOST ch + 32 * (i % 2 ^ s.get Fld.CH_CFG.SIZE_LOG2 ch) + 8 * k) 8

/-- The channel has a posted descriptor that it may start (R400). -/
abbrev hdmaReady (s : State) (ch : Fin 4) : Prop :=
  s.isUp 0 = true ∧ s.pcieOnly = false ∧ s.get Fld.CH_CFG.EN ch = 1 ∧ (s.get Fld.CH_HEAD.HEAD ch + (s.jobs ch).length) % 2 ^ 32 ≠ s.get Fld.CH_TAIL.TAIL ch ∧
    (bit (hdmaWord s ch 2) 49 = true → s.jobs ch = [])

/-- The descriptor sets a bit that the table does not list (R400). -/
abbrev hdmaReserved (w2 w3 : Nat) : Prop := bits w2 39 33 ≠ 0 ∨ bits w2 47 46 ≠ 0 ∨ bits w2 63 50 ≠ 0 ∨ bits w3 31 8 ≠ 0

/-- Whether granule g lies in region r. -/
abbrev granInRegion (s : State) (r g : Nat) : Prop :=
  let first := s.get Fld.REG_LOC.STACK r * (stackSpan / 4096) + 512 * s.get Fld.REG_LOC.FIRST r
  first ≤ g ∧ g < first + 512 * s.get Fld.REG_LOC.COUNT r

/-- Whether n bytes from a touch a SEALING region, or a READY one outside the granules that ERR_POISON lists (R360). -/
abbrev regionRefuses (s : State) (a n : Nat) : Prop :=
  n ≠ 0 ∧ ∃ r, r < 32 ∧ ∃ g, a / 4096 ≤ g ∧ g ≤ (a + n - 1) / 4096 ∧ granInRegion s r g ∧
    (s.get Fld.REG_STAT.STATE r = 2 ∨
      s.get Fld.REG_STAT.STATE r = 3 ∧ ∀ e, e < 16 → ¬ (s.get Fld.ERR_POISON.VALID e = 1 ∧ s.get Fld.ERR_POISON.GRANULE e = g))

/-- The first check of R401 that a descriptor fails, as its STATUS; 0 for none. -/
abbrev hdmaFails (s : State) (w0 w1 w2 w3 n : Nat) : Prop :=
  let len := bits w2 31 0
  let a := if bit w2 32 then w0 else w1
  let bad := hdmaReserved w2 w3 ∨ w0 % 64 ≠ 0 ∨ w1 % 64 ≠ 0 ∨ len % 64 ≠ 0
  let inside := len = 0 ∨ ∃ st o o', placeOf a = .data st o ∧ placeOf (a + len - 1) = .data st o'
  let ro := bit w2 32 = false ∧ regionRefuses s a len
  (bad ∧ n = 6) ∨ (¬ bad ∧ ¬ inside ∧ n = 1) ∨ (¬ bad ∧ inside ∧ ro ∧ n = 4) ∨ (¬ bad ∧ inside ∧ ¬ ro ∧ n = 0)

/-- BUSY of a channel says whether descriptors are outstanding (CH_STAT). -/
def BusyRight (t : State) (ch : Fin 4) : Prop :=
  t.get Fld.CH_STAT.BUSY ch = 1 ↔ t.get Fld.CH_CFG.EN ch = 1 ∧ t.get Fld.CH_HEAD.HEAD ch ≠ t.get Fld.CH_TAIL.TAIL ch

/-- The lines of n bytes from a hold no error, and their stack has no flip armed. -/
abbrev LinesUnarmed (s : State) (a n : Nat) : Prop := ∀ i, i < n / 64 → Unarmed s (a + 64 * i)

/-- The lines of n bytes from a hold no error. -/
abbrev LinesIntact (s : State) (a n : Nat) : Prop := ∀ i, i < n / 64 → Intact s (a + 64 * i)

/-- The lines of n bytes from a hold no error but the poison pattern. -/
abbrev LinesSettled (s : State) (a n : Nat) : Prop :=
  ∀ i, i < n / 64 → Intact s (a + 64 * i) ∨ (s.lineValid (a / 64 + i) = true ∧ s.linePoisoned (a / 64 + i) = true)

/-- n bytes have come from host memory at src to the stacks at dst (R401, R403): their granules are open, the bytes are counted, and
nothing else changes but the channels' jobs and BUSY of channel ch. -/
def MovedIn (s t : State) (ch : Fin 4) (src dst n : Nat) : Prop :=
  t = { s with
      mem := t.mem, gran := t.gran, ecc := t.ecc, metaFlip := t.metaFlip, flipped := t.flipped, sealing := t.sealing, csr := t.csr
      stks := t.stks, free := t.free, link := { s.link with jobs := t.link.jobs } } ∧
    BitsBut [(Fld.CH_STAT.BUSY, ch, 0), (Fld.CXLC_BYTES_IN.BYTES, 0, 0)] s t ∧ BytesBut s.mem t.mem dst n ∧
    (∀ k, k < n → readByte t (dst + k) = byteAt s.host (src + k)) ∧
    (∀ g, t.granule g = s.granule g ∨ (dst / 4096 ≤ g ∧ g ≤ (dst + n - 1) / 4096 ∧ (t.granule g).state = .opened)) ∧
    (∀ k, k < n → (t.granule ((dst + k) / 4096)).state = .opened) ∧
    Counted 64 (s.get Fld.CXLC_BYTES_IN.BYTES) n (t.get Fld.CXLC_BYTES_IN.BYTES)

/-- n bytes have gone from the stacks at src to host memory at dst, those of a poisoned line as free values (R401). -/
def MovedOut (s t : State) (ch : Fin 4) (src dst n : Nat) : Prop :=
  t = { s with host := t.host, csr := t.csr, stks := t.stks, free := t.free, link := { s.link with jobs := t.link.jobs } } ∧
    BitsBut [(Fld.CH_STAT.BUSY, ch, 0), (Fld.CXLC_BYTES_OUT.BYTES, 0, 0)] s t ∧ BytesBut s.host t.host dst n ∧
    (∀ k, k < n → Intact s (src + k) → byteAt t.host (dst + k) = readByte s (src + k)) ∧
    Counted 64 (s.get Fld.CXLC_BYTES_OUT.BYTES) n (t.get Fld.CXLC_BYTES_OUT.BYTES)

/-- A channel's outstanding descriptors become l; no other channel's change. -/
def JobsBecome (s t : State) (ch : Fin 4) (l : List HdmaJob) : Prop := t.jobs ch = l ∧ ∀ c, c ≠ ch.val → t.jobs c = s.jobs c

/-- Nothing changes but a channel's jobs and its BUSY. -/
def OnlyJobs (s t : State) (ch : Fin 4) : Prop :=
  t = { s with csr := t.csr, link := { s.link with jobs := t.link.jobs } } ∧ BitsBut [(Fld.CH_STAT.BUSY, ch, 0)] s t ∧ BusyRight t ch

/-- The device ends descriptor j of a channel with a STATUS: word 3, the head index, LAST_ERR (R400, R401). -/
def Finished (s t : State) (ch : Fin 4) (j : HdmaJob) (status : Nat) : Prop :=
  let head := s.get Fld.CH_HEAD.HEAD ch
  let base := 256 * s.get Fld.CH_BASE.HOST ch
  let size := 2 ^ s.get Fld.CH_CFG.SIZE_LOG2 ch
  t.get Fld.CH_HEAD.HEAD ch = (head + 1) % 2 ^ 32 ∧
    Spells t.host (base + 32 * (head % size) + 24) 8 (status + (j.moved / 64) * 2 ^ 32) ∧
    Spells t.host (base + 32 * size) 8 ((head + 1) % 2 ^ 32) ∧
    (∀ b, (b < base + 32 * (head % size) + 24 ∨ base + 32 * (head % size) + 32 ≤ b) → (b < base + 32 * size ∨ base + 32 * size + 8 ≤ b) →
      byteAt t.host b = byteAt s.host b) ∧
    t.get Fld.CH_STAT.LAST_ERR ch = (if status = 0 then s.get Fld.CH_STAT.LAST_ERR ch else status) ∧ BusyRight t ch ∧
    t = { s with csr := t.csr, host := t.host, link := { s.link with jobs := t.link.jobs }, msixHeld := t.msixHeld, msixSent := t.msixSent }

end Sys2Proof.Spec

/-- R400–R403, R360: a write of CH_TAIL posts descriptors; the next descriptor is checked in the order BAD, RANGE, REGION_RO (which
counts it), and then moves its bytes between host memory and one stack, opening what it writes and counting what it moves: up to a
4 KiB boundary at first (a free value; the model's choice, log entry 11), the rest at HDMA_DESCRIPTOR_DONE, or none when its stack is down;
one for another device is sent there, or is unreachable; an end writes STATUS, DONE_64 and the head index; a stop ends one with STATUS 6. -/
def Obligations.HostDmaChannels : Prop :=
  (∀ (s : State) (ch : Fin 4) (v : Word), Sound s → s.serves 0 = true →
    ∃ t, exec (.hdmaTailWrite ch v) s = .next t ∧ OnlyRegs [(Fld.CH_TAIL.TAIL, ch, 0), (Fld.CH_STAT.BUSY, ch, 0)] s t ∧
      t.get Fld.CH_TAIL.TAIL ch = bits v.toNat 31 0 ∧ BusyRight t ch) ∧
  (∀ (s : State) (ch : Fin 4), Sound s → hdmaReady s ch → bits (hdmaWord s ch 2) 45 40 = 0 →
    let w0 := hdmaWord s ch 0
    let w1 := hdmaWord s ch 1
    let w2 := hdmaWord s ch 2
    let n := bits w2 31 0
    let dpa := if bit w2 32 then w0 else w1
    let job := fun (status moved left : Nat) => (⟨status, moved, left, bit w2 48, 0, false, [w0, w1, w2, hdmaWord s ch 3]⟩ : HdmaJob)
    let idle := fun (status : Nat) => ∃ t, exec (.hdmaDescriptor ch) s = .next t ∧
      t = { s with csr := t.csr, free := t.free, link := { s.link with jobs := t.link.jobs } } ∧
      BitsBut [(Fld.CH_STAT.BUSY, ch, 0), (Fld.CXLC_DROP.REGION, 0, 0)] s t ∧ BusyRight t ch ∧
      JobsBecome s t ch (s.jobs ch ++ [job status 0 0]) ∧
      t.get Fld.CXLC_DROP.REGION = s.get Fld.CXLC_DROP.REGION + (if status = 4 ∧ s.get Fld.CXLC_DROP.REGION + 1 < 2 ^ 16 then 1 else 0)
    let some_ := fun (m : Nat) => m = 0 ∨ m = n ∨ m < n ∧ (dpa + m) % 4096 = 0
    (∀ f, hdmaFails s w0 w1 w2 (hdmaWord s ch 3) f → f ≠ 0 → idle f) ∧
    (hdmaFails s w0 w1 w2 (hdmaWord s ch 3) 0 → n = 0 → idle 0) ∧
    (hdmaFails s w0 w1 w2 (hdmaWord s ch 3) 0 → n ≠ 0 → s.stackUp (dpa / stackSpan) = false → idle 3) ∧
    (hdmaFails s w0 w1 w2 (hdmaWord s ch 3) 0 → n ≠ 0 → s.stackUp (dpa / stackSpan) = true → bit w2 32 = false → LinesUnarmed s w1 n →
      ∃ t, exec (.hdmaDescriptor ch) s = .next t ∧ ∃ m, some_ m ∧ MovedIn s t ch w0 w1 m ∧ BusyRight t ch ∧
        JobsBecome s t ch (s.jobs ch ++ [job 0 m (n - m)])) ∧
    (hdmaFails s w0 w1 w2 (hdmaWord s ch 3) 0 → n ≠ 0 → s.stackUp (dpa / stackSpan) = true → bit w2 32 = true → LinesSettled s w0 n →
      ∃ t, exec (.hdmaDescriptor ch) s = .next t ∧ ∃ m st, some_ m ∧ MovedOut s t ch w0 w1 m ∧ BusyRight t ch ∧
        JobsBecome s t ch (s.jobs ch ++ [job st m (n - m)]) ∧ (LinesIntact s w0 m → st = 0) ∧ (¬ LinesIntact s w0 m → st = 2))) ∧
  (∀ (s : State) (ch : Fin 4), Sound s → hdmaReady s ch → bits (hdmaWord s ch 2) 45 40 ≠ 0 →
    let ws := [hdmaWord s ch 0, hdmaWord s ch 1, hdmaWord s ch 2, hdmaWord s ch 3]
    let dev := bits (hdmaWord s ch 2) 45 40
    let bad := hdmaReserved (hdmaWord s ch 2) (hdmaWord s ch 3)
    let reach := s.get Fld.ETH_DEV.MODE = 1 ∧ s.net.mgmt = true ∧ (s.qp (0x100 + dev)).error = false
    let job := fun (status : Nat) (awaits : Bool) => (⟨status, 0, 0, bit (hdmaWord s ch 2) 48, dev, awaits, ws⟩ : HdmaJob)
    (bad → ∃ t, exec (.hdmaDescriptor ch) s = .next t ∧ JobsBecome s t ch (s.jobs ch ++ [job 6 false]) ∧ t.sent = s.sent) ∧
    (¬ bad → ¬ reach → ∃ t, exec (.hdmaDescriptor ch) s = .next t ∧ JobsBecome s t ch (s.jobs ch ++ [job 5 false]) ∧ t.sent = s.sent) ∧
    (¬ bad → reach → ∃ t, exec (.hdmaDescriptor ch) s = .next t ∧ JobsBecome s t ch (s.jobs ch ++ [job 0 true]) ∧
      t.sent = s.sent ++ [.packet (0x100 + dev) (s.qp (0x100 + dev)).next (.dma ch ws)])) ∧
  (∀ (s : State) (ch : Fin 4) (j : HdmaJob) (js : List HdmaJob), Sound s → s.jobs ch = j :: js →
    (s.isUp 0 = true → s.pcieOnly = false → j.left ≠ 0 → s.stackUp (j.dpa / stackSpan) = true →
      let src := nth 0 j.words 0 + j.moved
      let dst := nth 0 j.words 1 + j.moved
      let job := fun (st : Nat) => { j with status := st, moved := j.moved + j.left, left := 0 }
      (j.moved % 64 = 0 → j.left % 64 = 0 → src % 64 = 0 → dst % 64 = 0 → bit (nth 0 j.words 2) 32 = false →
        inOneStack dst j.left = true → LinesUnarmed s dst j.left →
        ∃ t, exec (.hdmaDescriptorDone ch) s = .next t ∧ MovedIn s t ch src dst j.left ∧ BusyRight t ch ∧ JobsBecome s t ch (job j.status :: js)) ∧
      (j.moved % 64 = 0 → j.left % 64 = 0 → src % 64 = 0 → bit (nth 0 j.words 2) 32 = true → inOneStack src j.left = true →
        LinesSettled s src j.left →
        ∃ t, exec (.hdmaDescriptorDone ch) s = .next t ∧ ∃ st, MovedOut s t ch src dst j.left ∧ BusyRight t ch ∧
          JobsBecome s t ch (job st :: js) ∧ (LinesIntact s src j.left → st = j.status) ∧ (¬ LinesIntact s src j.left → st = 2))) ∧
    (s.isUp 0 = true → s.pcieOnly = false → j.left ≠ 0 → s.stackUp (j.dpa / stackSpan) = false →
      ∃ t, exec (.hdmaDescriptorDone ch) s = .next t ∧ OnlyJobs s t ch ∧ JobsBecome s t ch ({ j with status := 3, left := 0 } :: js)) ∧
    (s.isUp 0 = true → s.pcieOnly = false → j.left = 0 → j.awaits = false → s.anyReq (fun r => r.agent = .hdma ch) = false → j.status < 256 → j.moved < 2 ^ 32 →
      ∃ t, exec (.hdmaDescriptorDone ch) s = .next t ∧ Finished s t ch j j.status ∧ JobsBecome s t ch js ∧
        BitsBut [(Fld.CH_HEAD.HEAD, ch, 0), (allOf Reg.CH_STAT, ch, 0), (Fld.CXLC_BYTES_OUT.BYTES, 0, 0), (Fld.MSIX_PBA.PENDING, 0, 0)] s t ∧
        (j.int = true → s.get Fld.MSIX_CTRL.MASK (s.get Fld.CH_CFG.VEC ch) = 0 →
          smGet 0 t.msixSent (s.get Fld.CH_CFG.VEC ch) = smGet 0 s.msixSent (s.get Fld.CH_CFG.VEC ch) + 1) ∧
        (j.int = false → t.msixSent = s.msixSent ∧ t.msixHeld = s.msixHeld)) ∧
    (s.serves 0 = true → s.get Fld.CH_CFG.EN ch = 1 → j.moved < 2 ^ 32 →
      ∃ t, exec (.hdmaChannelStop ch) s = .next t ∧ Finished s t ch j 6 ∧ JobsBecome s t ch [] ∧ t.get Fld.CH_CFG.EN ch = 0 ∧
        BitsBut [(Fld.CH_CFG.EN, ch, 0), (Fld.CH_HEAD.HEAD, ch, 0), (allOf Reg.CH_STAT, ch, 0), (Fld.CXLC_BYTES_OUT.BYTES, 0, 0),
          (Fld.MSIX_PBA.PENDING, 0, 0)] s t)) ∧
  ∀ (s : State) (ch : Fin 4), Sound s → s.jobs ch = [] → s.serves 0 = true → s.get Fld.CH_CFG.EN ch = 1 →
    ∃ t, exec (.hdmaChannelStop ch) s = .next t ∧ OnlyRegs [(Fld.CH_CFG.EN, ch, 0), (Fld.CH_STAT.BUSY, ch, 0)] s t ∧
      t.get Fld.CH_CFG.EN ch = 0 ∧ t.get Fld.CH_STAT.BUSY ch = 0

namespace Sys2Proof.Spec

/-! Ethernet. -/

/-- A port's die is up and one of its sublinks is. -/
abbrev PortLive (s : State) (port : Fin 4) : Prop := s.isUp (port / 2) = true ∧ s.get Fld.PORT_STAT.UP port ≠ 0

/-- Nothing but queue pair q and some counters of a port changes. -/
def OnlyPair (s t : State) (q : Nat) (l : List (Fld × Nat × Nat)) : Prop :=
  t = { s with csr := t.csr, sent := t.sent, net := { s.net with qps := t.net.qps } } ∧ BitsBut l s t ∧ ∀ x, x ≠ q → t.qp x = s.qp x

/-- The device that GRP_MAP gives a rank (R419). -/
def mapDev (s : State) (g r : Nat) : Nat := bits (s.word Reg.GRP_MAP g (r / 8)) (8 * (r % 8) + 7) (8 * (r % 8))

/-- Device d has a non-zero address in the device table (R418). -/
abbrev hasAddress (s : State) (d : Nat) : Prop :=
  s.get Fld.ETH_DT0.ADDR0 d ≠ 0 ∨ s.get Fld.ETH_DT0.ADDR1 d ≠ 0 ∨ s.get Fld.ETH_DT1.ADDR2 d ≠ 0 ∨ s.get Fld.ETH_DT1.ADDR3 d ≠ 0

/-- What an enable of group g asks for (R419, R420). -/
abbrev mayEnable (s : State) (g n rank p : Nat) : Prop :=
  1 ≤ n ∧ n ≤ 64 ∧ rank < n ∧ mapDev s g rank = s.get Fld.ETH_DEV.DEV_NUM ∧
    (∀ i j, i < n → j < n → i ≠ j → mapDev s g i ≠ mapDev s g j) ∧
    (∀ i, i < n → i ≠ rank → mapDev s g i < 64 ∧ hasAddress s (mapDev s g i)) ∧ s.get Fld.STEP_STATE.STATE p ≠ 1 ∧
    ∀ h, h < 16 → s.get Fld.GRP_CFG.EN h = 1 → s.get Fld.GRP_CFG.PART h = p →
      ∀ d, (∃ i, i < n ∧ mapDev s g i = d) ↔ ∃ i, i < s.get Fld.GRP_CFG.MEMBERS h ∧ mapDev s h i = d

/-- Congestion control after a CNP at time now (R414), in Mb/s. -/
def afterCnp (now : Nat) (x : Qp) (rc g : Rat) : Qp :=
  { x with ccFrom := now, rates := some (max (rc * (1 - x.alpha / 2)) 1000, rc), alpha := (1 - g) * x.alpha + g, stage := 0 }

/-- Congestion control after a timer without a CNP (R414). -/
def afterTimer (now : Nat) (x : Qp) (rc rt g ai top : Rat) : Qp :=
  let rt' := if x.stage < 5 then rt else min (rt + ai) top
  { x with ccFrom := now, alpha := (1 - g) * x.alpha, stage := if x.stage < 5 then x.stage + 1 else x.stage, rates := some ((rc + rt') / 2, rt') }

/-- Packets sent again on a queue pair, oldest first. -/
def resent (q : Nat) (l : List (Nat × Msg)) : List Sent := l.map (fun e => .packet q e.1 e.2)

/-- A packet comes from a device of the table other than this one (R412). -/
abbrev Known (s : State) (k : Packet) : Prop :=
  k.src ≠ 0 ∧ ∃ d, d < 64 ∧ d ≠ s.get Fld.ETH_DEV.DEV_NUM ∧
    (s.get Fld.ETH_DT0.ADDR0 d = k.src.toNat ∨ s.get Fld.ETH_DT0.ADDR1 d = k.src.toNat ∨ s.get Fld.ETH_DT1.ADDR2 d = k.src.toNat ∨
      s.get Fld.ETH_DT1.ADDR3 d = k.src.toNat)

end Sys2Proof.Spec

/-- R408, R409, R411, R418–R420: a sublink answers ARP for its own address and drops every other frame; a link comes up on an enabled
port at the breakout in force, and with one of die 0 the management pairs are established; a group is enabled exactly on the rules of R419 and
R420, else TABLE_BAD is set. -/
def Obligations.PortsLinksAndGroups : Prop :=
  (∀ (s : State) (port : Fin 4) (ip : BitVec 32) (why : Nat), Sound s → PortLive s port →
    let own := ∃ j, j < 4 ∧ (s.get Fld.PORT_STAT.UP port).testBit j = true ∧ (s.get Fld.PORT_IP.IP port + j) % 2 ^ 32 = ip.toNat
    let drops := fun (i : Instr) => ∃ t, exec i s = .next t ∧ OnlyRegs [(Fld.PORT_ERR_CNT.DROP, port, 0)] s t ∧
      Counted 32 (s.get Fld.PORT_ERR_CNT.DROP port) 1 (t.get Fld.PORT_ERR_CNT.DROP port)
    (own → exec (.arpRequest port ip) s = .next { s with sent := s.sent ++ [.arpReply port ip.toNat] }) ∧ (¬ own → drops (.arpRequest port ip)) ∧
    drops (.droppedFrame port why)) ∧
  (∀ (s : State) (port lane : Fin 4), Sound s → s.isUp (port / 2) = true → s.mod.power = .on → nth true s.sec.loaded 5 = true →
    s.get Fld.PORT_CFG.EN port = 1 → lane.val < [1, 2, 4, 1].getD (s.breakout port) 1 →
    (s.get Fld.PORT_STAT.UP port = 0 → s.get Fld.PORT_STAT.TRAINING port = 0 → s.breakout port = s.get Fld.PORT_CFG.BREAKOUT port) ∧
    ∃ t, exec (.linkUp port lane) s = .next t ∧
      t = { s with csr := t.csr, net := { s.net with mgmt := s.net.mgmt || decide (port.val < 2), lanes := t.net.lanes } } ∧ t.breakout port = s.breakout port ∧
      BitsBut [(⟨Reg.PORT_STAT, lane, lane⟩, port, 0), (⟨Reg.PORT_STAT, 4 + lane, 4 + lane⟩, port, 0)] s t ∧
      (t.get Fld.PORT_STAT.UP port).testBit lane = true ∧ (t.get Fld.PORT_STAT.TRAINING port).testBit lane = false) ∧
  (∀ (s : State) (port lane : Fin 4), Sound s → (s.get Fld.PORT_STAT.UP port).testBit lane = true → s.colls = [] → s.net.qps = [] →
    ∃ t, exec (.linkDown port lane) s = .next t ∧
      t = { s with csr := t.csr, net := { s.net with lanes := t.net.lanes } } ∧
      BitsBut [(⟨Reg.PORT_STAT, lane, lane⟩, port, 0), (Fld.ETH_ERR.LINK_DOWN, 0, 0)] s t ∧
      (t.get Fld.PORT_STAT.UP port).testBit lane = false ∧ t.get Fld.ETH_ERR.LINK_DOWN = 1) ∧
  ∀ (s : State) (g : Fin 16) (v : Word), Sound s → s.serves 0 = true → bit v.toNat 31 = true →
    let w := v.toNat
    let good := s.get Fld.GRP_CFG.EN g = 0 ∧ mayEnable s g (bits w 6 0) (bits w 13 8) (bits w 19 16)
    (good → ∃ t, exec (.groupEnable g v) s = .next t ∧ t = { s with csr := t.csr, net := { s.net with qps := t.net.qps } } ∧
      BitsBut [(allOf Reg.GRP_CFG, g, 0)] s t ∧ t.get Fld.GRP_CFG.EN g = 1 ∧ t.get Fld.GRP_CFG.MEMBERS g = bits w 6 0 ∧
      t.get Fld.GRP_CFG.RANK g = bits w 13 8 ∧ t.get Fld.GRP_CFG.PART g = bits w 19 16 ∧
      ∀ d k r, d < 2 → k < 8 → r < 64 → (t.qp (65536 * d + 0x1000 + g * 0x200 + k * 0x40 + r)).next = 0) ∧
    (¬ good → ∃ t, exec (.groupEnable g v) s = .next t ∧ OnlyRegs [(Fld.ETH_ERR.TABLE_BAD, 0, 0)] s t ∧ t.get Fld.ETH_ERR.TABLE_BAD = 1)

/-- R412–R414: congestion notices and the timer set a queue pair's rates as the pseudocode says; a timeout or a sequence NAK sends again
from the oldest packet not acknowledged, until RETRY retransmissions put the pair in ERROR; a restart begins at PSN 0; a
packet of an unknown source is dropped, one in order is taken and acknowledged, one ahead is refused. The codes of
negative acknowledgements are the model's (log entry 26). -/
def Obligations.QueuePairs : Prop :=
  (∀ (s : State) (port : Fin 4) (q : Nat), Sound s → PortLive s port → s.qpExists q = true →
    let g : Rat := (s.get Fld.ETH_CC.G_1024 : Rat) / 1024
    (∃ t, exec (.cnpReceive port q) s = .next t ∧ OnlyPair s t q [(Fld.PORT_EVT.CNP_RCVD, port, 0)] ∧ t.sent = s.sent ∧
      t.qp q = afterCnp s.now (s.qp q) (s.qpRates q).1 g ∧ Counted 32 (s.get Fld.PORT_EVT.CNP_RCVD port) 1 (t.get Fld.PORT_EVT.CNP_RCVD port)) ∧
    ((s.qp q).ccFrom + 1000 * s.get Fld.ETH_CC.TIMER_US ≤ s.now → ∃ t, exec (.ccTimer q) s = .next t ∧ OnlyPair s t q [] ∧ t.sent = s.sent ∧
      t.qp q = afterTimer s.now (s.qp q) (s.qpRates q).1 (s.qpRates q).2 g (10 * (s.get Fld.ETH_CC.AI_10MBPS : Rat)) (s.linkRate (s.portOf q)))) ∧
  (∀ (s : State) (q : Nat), Sound s → s.qpExists q = true → (s.qp q).error = false → (s.qp q).unacked ≠ [] →
    (s.qp q).ackFrom + 1000 * s.get Fld.ETH_TMO.ACK_TIMEOUT_US ≤ s.now →
    ((s.qp q).tries < s.get Fld.ETH_TMO.RETRY → ∃ t, exec (.ackTimeout q) s = .next t ∧
      OnlyPair s t q [(Fld.PORT_ERR_CNT.RETX, s.portOf q, 0)] ∧ t.sent = s.sent ++ resent q (s.qp q).unacked ∧
      t.qp q = { s.qp q with tries := (s.qp q).tries + 1, ackFrom := s.now } ∧
      Counted 32 (s.get Fld.PORT_ERR_CNT.RETX (s.portOf q)) (s.qp q).unacked.length (t.get Fld.PORT_ERR_CNT.RETX (s.portOf q))) ∧
    (s.get Fld.ETH_TMO.RETRY ≤ (s.qp q).tries → s.colls = [] → s.net.fwd = [] → (∀ c, s.jobs c = []) → ∃ t, exec (.ackTimeout q) s = .next t ∧
      t = { s with csr := t.csr, sent := t.sent, net := { s.net with qps := t.net.qps } } ∧ BitsBut
        ((Fld.ETH_ERR.QP_ERROR, 0, 0) :: (List.range 4).map (fun c => (Fld.CH_STAT.BUSY, c, 0))) s t ∧
      t.get Fld.ETH_ERR.QP_ERROR = 1 ∧ (t.qp q).error = true ∧ (t.qp q).unacked = [])) ∧
  (∀ (s : State) (q : Nat) (psn : BitVec 24) (pre post : List (Nat × Msg)) (m : Msg), Sound s → s.qpExists q = true →
    (s.qp q).error = false → (s.qp q).unacked = pre ++ (psn.toNat, m) :: post → (∀ e ∈ pre, e.1 ≠ psn.toNat) →
    let tries := if pre = [] then (s.qp q).tries else 0
    tries < s.get Fld.ETH_TMO.RETRY → ∃ t, exec (.sequenceNak q psn) s = .next t ∧ OnlyPair s t q [(Fld.PORT_ERR_CNT.RETX, s.portOf q, 0)] ∧
      t.sent = s.sent ++ resent q ((psn.toNat, m) :: post) ∧
      t.qp q = { s.qp q with unacked := (psn.toNat, m) :: post, tries := tries + 1, ackFrom := s.now }) ∧
  (∀ (s : State) (dev : Fin 64) (q : Nat), Sound s →
    (s.isUp 0 = true → s.qpExists (0x100 + dev) = true → s.qpExists q = true → ∃ t, exec (.qpResetNotice dev q) s = .next t ∧
      OnlyPair s t q [] ∧ t.csr = s.csr ∧ t.sent = s.sent ∧ t.qp q = { s.qp q with error := true, errorAt := s.now }) ∧
    ((s.qp q).error = true → (s.qp q).errorAt + 1000000 ≤ s.now → q < 0x1000 → ∃ t, exec (.qpRestart q) s = .next t ∧
      OnlyPair s t q [] ∧ t.csr = s.csr ∧ t.sent = s.sent ∧ (t.qp q).error = false ∧ (t.qp q).next = 0 ∧ (t.qp q).expect = 0 ∧ (t.qp q).unacked = []) ∧
    ((s.qp q).error = true → (s.qp q).errorAt < s.now → 0x1000 ≤ q → q < 0x3000 → s.atBoundary = true →
      s.stepDue (s.get Fld.GRP_CFG.PART ((q - 0x1000) / 0x200)) = true → ∃ t, exec (.qpRestart q) s = .next t ∧
      OnlyPair s t q [] ∧ t.csr = s.csr ∧ t.sent = s.sent ∧ (t.qp q).error = false ∧ (t.qp q).next = 0 ∧ (t.qp q).expect = 0 ∧ (t.qp q).unacked = [])) ∧
  ∀ (s : State) (port : Fin 4) (k : Packet), Sound s → PortLive s port → k.qpn.toNat < 65536 →
    let q := if 0x1000 ≤ k.qpn.toNat then 65536 * (port / 2) + k.qpn.toNat else k.qpn.toNat
    let want := (s.qp q).expect
    let taken := Known s k ∧ s.qpExists q = true ∧ (s.qp q).error = false
    let rx : List (Fld × Nat × Nat) := [(Fld.PORT_RX.BYTES, port, 0)]
    (¬ taken → ∃ t, exec (.rocePacketReceive port k) s = .next t ∧ OnlyRegs [(Fld.PORT_ERR_CNT.DROP, port, 0)] s t ∧
      Counted 32 (s.get Fld.PORT_ERR_CNT.DROP port) 1 (t.get Fld.PORT_ERR_CNT.DROP port)) ∧
    (taken → k.ce = false → k.op = .send → q < 0x1000 → k.psn.toNat = want → ∃ t, exec (.rocePacketReceive port k) s = .next t ∧
      OnlyPair s t q rx ∧ t.sent = s.sent ++ [.ack q want] ∧ t.qp q = { s.qp q with expect := (want + 1) % 2 ^ 24 }) ∧
    (taken → k.ce = false → k.op = .send → k.psn.toNat ≠ want → want < 2 ^ 24 → (want + 2 ^ 24 - k.psn.toNat) % 2 ^ 24 < 2 ^ 23 →
      ∃ t, exec (.rocePacketReceive port k) s = .next t ∧ OnlyPair s t q rx ∧ t.sent = s.sent ++ [.ack q k.psn.toNat] ∧ t.qp q = s.qp q) ∧
    (taken → k.ce = false → k.op ≠ .ack → want < 2 ^ 24 → 2 ^ 23 ≤ (want + 2 ^ 24 - k.psn.toNat) % 2 ^ 24 →
      ∃ t, exec (.rocePacketReceive port k) s = .next t ∧ OnlyPair s t q rx ∧ t.sent = s.sent ++ [.nak q want 0] ∧ t.qp q = s.qp q) ∧
    (taken → k.ce = true → (s.qp q).lastCnp = none → k.op = .ack → (∀ e ∈ (s.qp q).unacked, e.1 ≠ k.psn.toNat) →
      ∃ t, exec (.rocePacketReceive port k) s = .next t ∧ OnlyPair s t q ((Fld.PORT_EVT.CNP_SENT, port, 0) :: rx) ∧
        t.sent = s.sent ++ [.cnp q] ∧ t.qp q = { s.qp q with lastCnp := some s.now }) ∧
    ∀ pre post m, taken → k.ce = false → k.op = .ack → (s.qp q).unacked = pre ++ (k.psn.toNat, m) :: post → (∀ e ∈ pre, e.1 ≠ k.psn.toNat) →
      ∃ t, exec (.rocePacketReceive port k) s = .next t ∧ OnlyPair s t q rx ∧ t.sent = s.sent ∧
        t.qp q = { s.qp q with unacked := post, tries := 0, ackFrom := s.now }

namespace Sys2Proof.Spec

/-! Collective phases. -/

/-- The i-th running phase of a die. -/
def runningPhase (s : State) (d i : Nat) : Option CollPhase := (s.colls.filter (fun x => x.die == d && x.started))[i]?

/-- The members of a phase's line but this device. -/
def lineOthers (s : State) (x : CollPhase) : List Nat := x.line.filter (fun r => r != s.get Fld.GRP_CFG.RANK x.group)

/-- A running phase fails with a code and a peer rank (R425, R44): it is cancelled and counted, COLL_REC takes the first failure, and
its core faults with COLL_FAULT, or the step of its COLL item is abandoned. -/
def PhaseFailed (s t : State) (x : CollPhase) (code peer : Nat) : Prop :=
  x ∉ t.colls ∧ Counted 32 (s.get Fld.COLL_CNT.FAULTS x.die) 1 (t.get Fld.COLL_CNT.FAULTS x.die) ∧
    (s.get Fld.COLL_REC.VALID x.die = 0 → t.get Fld.COLL_REC.VALID x.die = 1 ∧ t.get Fld.COLL_REC.CODE x.die = code ∧
      t.get Fld.COLL_REC.GROUP x.die = x.group ∧ t.get Fld.COLL_REC.TAG x.die = x.tag ∧ t.get Fld.COLL_REC.PEER x.die = peer ∧
      t.get Fld.COLL_REC.PART x.die = x.part) ∧
    (s.get Fld.COLL_REC.VALID x.die = 1 → t.word Reg.COLL_REC x.die 0 = s.word Reg.COLL_REC x.die 0) ∧
    (x.item = none → (t.core x.core).run = .faulted ∧ (s.get Fld.FAULT_REC.VALID x.core = 0 → t.get Fld.FAULT_REC.ENGINE x.core = 3 ∧
      t.get Fld.FAULT_REC.CODE x.core = 0x11 ∧ t.get Fld.FAULT_PC.PC x.core = x.pc % 2 ^ 42)) ∧
    (x.item ≠ none → (s.part x.part).phase = .active → (t.part x.part).phase = .abandoning) ∧ t.mem = s.mem ∧ t.gran = s.gran

/-- The fields of a phase are in their ranges. -/
abbrev PhaseShaped (x : CollPhase) : Prop := x.die < 2 ∧ x.core < 12 ∧ x.part < 16 ∧ x.group < 16 ∧ x.tag < 4

end Sys2Proof.Spec

/-- R278, R423–R425: a hand-off starts while fewer than 8 phases of its die run: it takes the window's key and publishes to its line;
a publication is taken by the phase of its key, which asks for that member's pieces, or is kept; a piece is taken once; a
phase completes when its writes are performed and its line has read; a missing publication or an abort fails it. -/
def Obligations.CollectivePhases : Prop :=
  (∀ (s u : State) (d : Fin 2) (x y : CollPhase), Sound s → s.isUp d = true →
    s.colls.find? (fun z => z.die == d.val && !z.started) = some x → (s.colls.filter (fun z => z.die == d.val && z.started)).length < 8 →
    (s.part x.part).phase = .active → s.loadPhase x = (.ok y, u) →
    (let v : State := { u with colls := u.colls.map (fun z => if z = x then y else z) }
     (v.getImage ⟨.coll y.die, some y.part⟩ none y.part (v.localDesc y.srcD)).2.1 = none) →
    (s.upLinks y.die ≠ []) → s.phaseDown y = false → s.net.pubs = [] → y.heard = [] → lineOthers s y ≠ [] → s.net.mgmt = true →
    (∀ r, r ∈ lineOthers s y → (s.qp (0x100 + mapDev s y.group r)).error = false) →
    ∃ t, exec (.collPhaseStart d) s = .next t ∧ y ∈ t.colls ∧ y.started = true ∧ y.key = (s.part x.part).openTick ∧ y.began = s.now ∧
      y.die = x.die ∧ y.core = x.core ∧ y.part = x.part ∧ y.tag = x.tag ∧
      ∀ r, r ∈ lineOthers s y → ∃ psn words, Sent.packet (0x100 + mapDev s y.group r) psn
        (.publish y.group y.tag y.key (s.get Fld.GRP_CFG.RANK y.group) words) ∈ t.sent) ∧
  (∀ (s : State) (d : Fin 2) (pub : Publication), Sound s → s.isUp d = true →
    (s.phaseAt d pub.group pub.tag = none → ∃ t, exec (.publicationReceive d pub) s = .next t ∧
      t = { s with net := { s.net with pubs := t.net.pubs } } ∧
      ⟨d, pub.group, pub.tag, pub.btick.toNat, pub.rank⟩ ∈ t.net.pubs ∧ ∀ b, b ∈ s.net.pubs → b ∈ t.net.pubs) ∧
    ∀ x, s.phaseAt d pub.group pub.tag = some x →
      (x.key ≠ pub.btick.toNat ∨ pub.rank.val ∈ x.heard ∨ pub.rank.val ∉ lineOthers s x →
        exec (.publicationReceive d pub) s = .next s) ∧
      (x.key = pub.btick.toNat → pub.rank.val ∉ x.heard → pub.rank.val ∈ lineOthers s x → 0 < s.needBytes x pub.rank →
        smGet [] x.got pub.rank = [] → s.upLinks d ≠ [] → x.die = d.val → (∀ k, (s.qp (qpOf d x.group k pub.rank)).error = false) →
        ∃ t l, exec (.publicationReceive d pub) s = .next t ∧ t.sent = s.sent ++ l ∧
          t = { s with colls := t.colls, sent := t.sent, net := { s.net with qps := t.net.qps } } ∧
          { x with heard := setInsert x.heard pub.rank } ∈ t.colls ∧ l.length = (s.needBytes x pub.rank + 65535) / 65536 ∧
          ∀ i, i < l.length → ∃ psn, l[i]? = some (.packet (qpOf d x.group ((s.upLinks d).getD (i % (s.upLinks d).length) 0) pub.rank) psn
            (.readPiece x.group x.tag x.key pub.rank i)))) ∧
  (∀ (s : State) (d : Fin 2) (k : Piece) (x : CollPhase), Sound s → s.isUp d = true → s.phaseAt d k.group k.tag = some x →
    k.rank.val ∈ x.heard → k.index ∉ smGet [] x.got k.rank →
    let len := Nat.min 65536 (s.needBytes x k.rank - 65536 * k.index)
    0 < len → k.data.length = len → s.phaseDown x = false → Map.sorted x.got = true → (∃ r, r ∈ lineOthers s x ∧ r ∉ x.heard) →
    ∃ t z, exec (.rdmaPieceDone d k) s = .next t ∧ z ∈ t.colls ∧ smGet [] z.got k.rank = setInsert (smGet [] x.got k.rank) k.index ∧
      z = { x with got := z.got, arrived := z.arrived } ∧ t.cores = s.cores ∧
      exec (.rdmaPieceDone d k) t = .next t) ∧
  (∀ (s : State) (d : Fin 2) (i : Nat) (x : CollPhase), Sound s → s.isUp d = true → runningPhase s d i = some x → PhaseShaped x →
    (x.put = true → (∀ r, r ∈ lineOthers s x → r ∈ x.readBy) → s.anyReq (fun q => q.agent = .coll d && q.sluice == x.part) = false →
      x.item = none → ∃ t, exec (.collPhaseLocalComplete d i) s = .next t ∧ t = { s with csr := t.csr, colls := t.colls } ∧
        BitsBut [(Fld.COLL_CNT.PHASES, d, 0)] s t ∧ Counted 32 (s.get Fld.COLL_CNT.PHASES d) 1 (t.get Fld.COLL_CNT.PHASES d) ∧
        ∀ y, y ∈ t.colls ↔ y ∈ s.colls ∧ y ≠ x) ∧
    (∀ r, (lineOthers s x).find? (fun r => !x.heard.contains r) = some r → r < 64 →
      x.began + 1000 * s.get Fld.ETH_TMO.COLL_TIMEOUT_US ≤ s.now →
      ∃ t, exec (.collTimeout d i) s = .next t ∧ PhaseFailed s t x 5 r)) ∧
  ∀ (s : State) (d : Fin 2) (g : Fin 16) (tag : Fin 4) (peer : Fin 64) (x : CollPhase), Sound s → s.isUp d = true →
    s.phaseAt d g tag = some x → PhaseShaped x → peer.val ∈ lineOthers s x →
    ∃ t, exec (.collAbortReceive d g tag peer) s = .next t ∧ PhaseFailed s t x 4 peer

namespace Sys2Proof.Spec

/-! Votes and forwarded traffic. -/

/-- Partition p votes through group g on its step of window b (R420, R427). -/
abbrev Voting (s : State) (g : Fin 16) (p : Fin 16) (b : Nat) : Prop :=
  s.isUp 0 = true ∧ s.get Fld.GRP_CFG.EN g = 1 ∧ s.get Fld.GRP_CFG.PART g = p ∧ s.votes p = true ∧ s.leadGroup p = g ∧
    (s.part p).openTick = b ∧ b < 2 ^ 48 ∧ ((s.part p).phase = .active ∨ (s.part p).phase = .ready ∨ (s.part p).phase = .abandoning)

/-- The leader's outcome for window b of group g is logged and sent to every other member (R427). -/
def Announced (s t : State) (g : Fin 16) (b : Nat) (commit : Bool) : Prop :=
  (∃ i, i < 16 ∧ t.get Fld.GRP_LOG.BTICK g i = b ∧ t.get Fld.GRP_LOG.OUTCOME g i = if commit then 1 else 2) ∧
    ∀ r, r < s.get Fld.GRP_CFG.MEMBERS g → r ≠ s.get Fld.GRP_CFG.RANK g → s.net.mgmt = true → (s.qp (0x100 + mapDev s g r)).error = false →
      ∃ psn, Sent.packet (0x100 + mapDev s g r) psn (.decide g b commit) ∈ t.sent

/-- The leader has decided window b of group g (R427): the outcome is in force here as well. -/
def Decided (s t : State) (g : Fin 16) (p : Fin 16) (b : Nat) (commit : Bool) : Prop :=
  (t.part p).decision = some commit ∧ Announced s t g b commit

/-- The leader is asked for window b while its partition runs no step of that window, HELD or stopped, and has logged no outcome of
it (R55, R427). -/
abbrev LeaderIdle (s : State) (g : Fin 16) (p : Fin 16) (b : Nat) : Prop :=
  s.isUp 0 = true ∧ s.get Fld.GRP_CFG.EN g = 1 ∧ s.get Fld.GRP_CFG.PART g = p ∧ s.leadGroup p = g ∧ s.get Fld.GRP_CFG.RANK g = 0 ∧
    (s.part p).phase = .idle ∧ ∀ i, i < 16 → ¬ (s.get Fld.GRP_LOG.OUTCOME g i ≠ 0 ∧ s.get Fld.GRP_LOG.BTICK g i = b)

/-- An ABANDON ends the step with GROUP_VOTE, unless it is being abandoned already (R43, R427). -/
def VotedDown (s t : State) (p : Fin 16) : Prop :=
  (t.part p).phase = .abandoning ∧ ((s.part p).phase ≠ .abandoning → t.get Fld.STEP_ERR.GROUP_VOTE p = 1 ∧
    ∃ a, (t.part p).abandon = some a ∧ a.cause = .groupVote)

end Sys2Proof.Spec

/-- R427, R428: the leader decides COMMIT only with READY from every member and its own, ABANDON at the first ABANDON or 15 µs after the
tick, and for a window its own partition runs no step of; a member heeds the decision; one without it 20 µs after the tick is HELD, reports it and asks again; GRP_RESOLVE
ends the doubt with the host's outcome. -/
def Obligations.GroupVotes : Prop :=
  (∀ (s : State) (g p : Fin 16) (b : BitVec 48) (rank : Fin 64), Sound s → Voting s g p b.toNat → s.get Fld.GRP_CFG.RANK g = 0 →
    (s.part p).decision = none → rank ≠ 0 → rank.val < s.get Fld.GRP_CFG.MEMBERS g →
    (∃ t, exec (.voteReady g rank b false) s = .next t ∧ Decided s t g p b.toNat false ∧ VotedDown s t p) ∧
    (let all := (s.part p).phase = .ready ∧ ((s.part p).die1Ready = true ∨ ¬ CrossDie s p) ∧
       ∀ r, 1 ≤ r → r < s.get Fld.GRP_CFG.MEMBERS g → r = rank.val ∨ r ∈ (s.part p).heard
     (all → ∃ t, exec (.voteReady g rank b true) s = .next t ∧ Decided s t g p b.toNat true ∧ (t.part p).phase = .ready) ∧
     (¬ all → ∃ t, exec (.voteReady g rank b true) s = .next t ∧ t = { s with parts := t.parts } ∧ (∀ q, q ≠ p.val → t.part q = s.part q) ∧
       t.part p = { s.part p with heard := setInsert (s.part p).heard rank })) ∧
    ((s.part p).phase = .ready → (s.part p).tickAt + 15000 ≤ s.now →
      ∃ t, exec (.voteDeadline g) s = .next t ∧ Decided s t g p b.toNat false ∧ VotedDown s t p)) ∧
  (∀ (s : State) (g p : Fin 16) (b : BitVec 48) (rank : Fin 64) (ready : Bool), Sound s → LeaderIdle s g p b.toNat → rank ≠ 0 →
    rank.val < s.get Fld.GRP_CFG.MEMBERS g → ∃ t, exec (.voteReady g rank b ready) s = .next t ∧ Announced s t g b.toNat false) ∧
  (∀ (s : State) (g p : Fin 16) (b : BitVec 48), Sound s → Voting s g p b.toNat → s.get Fld.GRP_CFG.RANK g ≠ 0 → (s.part p).decision = none →
    (∃ t, exec (.voteDecision g b true) s = .next t ∧ t = { s with parts := t.parts } ∧ (∀ q, q ≠ p.val → t.part q = s.part q) ∧
      t.part p = { s.part p with decision := some true }) ∧
    (∃ t, exec (.voteDecision g b false) s = .next t ∧ t = { s with csr := t.csr, parts := t.parts } ∧ (t.part p).decision = some false ∧
      VotedDown s t p) ∧
    ((s.part p).phase = .ready → ((s.part p).die1Ready = true ∨ ¬ CrossDie s p) → (s.part p).inDoubt = false →
      (s.part p).tickAt + 20000 ≤ s.now → ∃ t, exec (.voteIndoubt g) s = .next t ∧ t.get Fld.STEP_STATE.STATE p = 5 ∧
        (t.part p) = { s.part p with inDoubt := true, askAt := s.now + 20000 } ∧ t.get Fld.ETH_ERR.VOTE_INDOUBT = 1 ∧ (t.get Fld.DB_PEND.PEND 0).testBit 0 = true) ∧
    ((s.part p).inDoubt = true → (s.part p).askAt ≤ s.now → s.net.mgmt = true → (s.qp (0x100 + mapDev s g 0)).error = false →
      ∃ t, exec (.voteRequery g) s = .next t ∧ (∃ psn, t.sent = s.sent ++ [.packet (0x100 + mapDev s g 0) psn (.ask g b.toNat)]) ∧
        t = { s with parts := t.parts, sent := t.sent, net := { s.net with qps := t.net.qps } } ∧ (∀ q, q ≠ p.val → t.part q = s.part q) ∧
        t.part p = { s.part p with askAt := s.now + 20000 })) ∧
  ∀ (s : State) (g : Fin 16) (v : Word), Sound s → s.serves 0 = true →
    (∀ p : Fin 16, Voting s g p (bits v.toNat 47 0) → (s.part p).inDoubt = true → (s.part p).decision = none → bit v.toNat 63 = true →
      ∃ t, exec (.grpResolve g v) s = .next t ∧ (t.part p).decision = some (bit v.toNat 48) ∧
        (bit v.toNat 48 = false → VotedDown s t p) ∧ (bit v.toNat 48 = true → OnlyRegs [(allOf Reg.GRP_RESOLVE, g, 0)] { s with parts := t.parts } t)) ∧
    (bit v.toNat 63 = false → ∃ t, exec (.grpResolve g v) s = .next t ∧ OnlyRegs [(allOf Reg.GRP_RESOLVE, g, 0)] s t ∧
      t.get Fld.GRP_RESOLVE.BTICK g = bits v.toNat 47 0 ∧ t.get Fld.GRP_RESOLVE.COMMIT g = bits v.toNat 48 48)

/-- R430, R431: a forwarded message meets the checks of a GO and is answered with the outcome; a reply ends the sender's wait; a tethered
device checks a forwarded descriptor and answers its STATUS; the gateway moves the data of one that passed, by WRITEs or READs of 64 KiB,
and ends its descriptor with the outcome. -/
def Obligations.ForwardedMessagesAndDma : Prop :=
  (∀ (s : State) (k : FwdMsg), Sound s → s.isUp 0 = true → s.qpExists (0x100 + k.dev) = true → (s.qp (0x100 + k.dev)).error = false →
    s.get Fld.ETH_DEV.MODE = 1 → s.get Fld.MB_CFG.RCV k.mailbox ≤ 21 →
    let m := k.mailbox
    let rcv := s.get Fld.MB_CFG.RCV m
    let q := 0x100 + k.dev.val
    let reply := fun (r : Nat) => Sent.packet q (s.qp q).next (.reply k.src r)
    let bad := k.len < 8 ∨ 16 < k.len
    let refused := fun (r : Nat) => ∃ t, exec (.forwardedMessage k) s = .next t ∧ t.sent = s.sent ++ [reply r] ∧
      t = { s with sent := t.sent, net := { s.net with qps := t.net.qps } }
    (s.rcvDown rcv = true → refused 7) ∧ (s.rcvDown rcv = false → bad → refused 3) ∧
    (s.rcvDown rcv = false → ¬ bad → s.rcvDrains rcv = true → refused 4) ∧
    (s.rcvDown rcv = false → ¬ bad → s.rcvDrains rcv = false → s.get Fld.R_PEEK.FULL m = 1 → refused 2) ∧
    (s.rcvDown rcv = false → ¬ bad → s.rcvDrains rcv = false → s.get Fld.R_PEEK.FULL m = 0 → k.words.length = 16 →
      ∃ t, exec (.forwardedMessage k) s = .next t ∧ t.sent = s.sent ++ [reply 1] ∧ t.get Fld.R_PEEK.FULL m = 1 ∧ t.get Fld.R_PEEK.LEN m = k.len ∧
        t.get Fld.R_PEEK.SENDER m = 0x6000 + k.dev.val ∧ m.val ∈ t.delivered ∧ (t.get Fld.DB_PEND.PEND rcv).testBit (s.get Fld.MB_CFG.DB m) = true ∧
        ∀ i, i < 16 → t.get Fld.MB_DATA.DATA m i = if i < k.len then (k.words.getD i 0).toNat else 0)) ∧
  (∀ (s : State) (k : FwdReply), Sound s → s.net.fwd.Nodup → k.src ∈ s.net.fwd →
    (k.src < 64 → ∃ t, exec (.forwardReply k) s = .next t ∧ t = { s with csr := t.csr, net := { s.net with fwd := t.net.fwd } } ∧
      BitsBut [(Fld.S_STAT.RESULT, k.src, 0)] s t ∧ t.get Fld.S_STAT.RESULT k.src = (if k.result = 7 then 5 else k.result.val) ∧ k.src ∉ t.net.fwd) ∧
    (k.src = 64 → ∃ t, exec (.forwardReply k) s = .next t ∧ t = { s with net := { s.net with fwd := t.net.fwd, notices := t.net.notices } } ∧
      64 ∉ t.net.fwd ∧ t.net.notices = s.net.notices ++ if k.result = 2 then [s.get Fld.DB_PEND.PEND 0] else [])) ∧
  (∀ (s : State) (k : FwdDma) (f : Nat), Sound s → s.isUp 0 = true → s.get Fld.ETH_DEV.MODE = 2 → s.qpExists 0x100 = true → (s.qp 0x100).error = false →
    let w := fun (i : Nat) => (k.words.getD i 0).toNat
    let a := if bit (w 2) 32 then w 0 else w 1
    hdmaFails s (w 0) (w 1) (w 2) (w 3) f →
    let st := if f = 0 ∧ bits (w 2) 31 0 ≠ 0 ∧ s.stackUp (a / stackSpan) = false then 3 else f
    ∃ t, exec (.forwardedDmaRequest k) s = .next t ∧ t = { s with sent := t.sent, net := { s.net with qps := t.net.qps, ranges := t.net.ranges } } ∧
      t.sent = s.sent ++ [.packet 0x100 (s.qp 0x100).next (.dmaReply k.id st)] ∧
      t.net.ranges = s.net.ranges ++ if st = 0 then [⟨k.id, a, bits (w 2) 31 0, bits (w 2) 31 0, !bit (w 2) 32⟩] else []) ∧
  ∀ (s : State) (k : FwdDmaReply) (j : HdmaJob) (js : List HdmaJob), Sound s → s.isUp 0 = true → s.jobs k.ch = j :: js → j.awaits = true →
    j ∉ js → j.words.length = 4 → (∀ w ∈ j.words, w < 2 ^ 64) → s.get Fld.CH_CFG.SIZE_LOG2 k.ch ≤ 15 →
    let w := fun (i : Nat) => j.words.getD i 0
    let n := bits (w 2) 31 0
    let head := 256 * s.get Fld.CH_BASE.HOST k.ch
    let ring := fun (b : Nat) => head ≤ b ∧ b < head + 32 * 2 ^ s.get Fld.CH_CFG.SIZE_LOG2 k.ch + 8
    let status := if k.status = 7 then 5 else k.status.val
    (k.status ≠ 0 → ∃ t, exec (.forwardedDmaReply k) s = .next t ∧ Finished s t k.ch { j with moved := 0 } status ∧ JobsBecome s t k.ch js) ∧
    (k.status = 0 → bit (w 2) 32 = true → k.data.length = n → ∃ t, exec (.forwardedDmaReply k) s = .next t ∧ JobsBecome s t k.ch js ∧
      t.get Fld.CH_HEAD.HEAD k.ch = (s.get Fld.CH_HEAD.HEAD k.ch + 1) % 2 ^ 32 ∧ t.mem = s.mem ∧
      (s.net.mgmt = true → (s.qp (0x100 + j.dev)).error = false → ∀ i, 65536 * i < n →
        ∃ psn, Sent.packet (0x100 + j.dev) psn (.read (w 0 + 65536 * i) (Nat.min 65536 (n - 65536 * i))) ∈ t.sent) ∧
      ∀ b, ¬ ring b → byteAt t.host b = if w 1 ≤ b ∧ b < w 1 + n then k.data.getD (b - w 1) 0 else byteAt s.host b) ∧
    (k.status = 0 → bit (w 2) 32 = false → s.net.mgmt = true → (s.qp (0x100 + j.dev)).error = false →
      ∃ t, exec (.forwardedDmaReply k) s = .next t ∧ JobsBecome s t k.ch js ∧ t.mem = s.mem ∧
        t.get Fld.CH_HEAD.HEAD k.ch = (s.get Fld.CH_HEAD.HEAD k.ch + 1) % 2 ^ 32 ∧
        ∀ i, 65536 * i < n → ∃ psn data, Sent.packet (0x100 + j.dev) psn (.write (w 1 + 65536 * i) data) ∈ t.sent ∧
          ∀ b, b < data.length → data.getD b 0 = byteAt s.host (w 0 + 65536 * i + b))

namespace Sys2Proof.Spec

/-! Power, thermal control and ageing. -/

/-- The readings of a housekeeping round entered, before anything is decided. -/
def entered (s : State) (l : List HkReading) : State :=
  l.foldl (fun s r => s.enterReading r) { s with power := { s.power with round := s.power.round + 1 } }

/-- Some valid one of n channels from c reads T °C or more (R440). -/
abbrev Hot (s : State) (c n T : Nat) : Prop :=
  ∃ i, i < n ∧ s.get Fld.HK_CH.VALID (c + i) = 1 ∧ (16 * T : Int) ≤ toSigned 16 (s.get Fld.HK_CH.VALUE (c + i))

/-- A die, or a stack, at or above a threshold in °C (R440, R442). -/
abbrev HotDie (s : State) (d T : Nat) : Prop := Hot s (16 * d) 16 T
abbrev HotStack (s : State) (k T : Nat) : Prop := Hot s (32 + 4 * k) 4 T

/-- Nothing calls for an orderly shutdown (R446). -/
abbrev NoneOff (s : State) : Prop :=
  (∀ d, d < 2 → ¬ HotDie s d (s.get Fld.THERM_CFG.DIE_OFF_C)) ∧ ∀ k, k < 20 → ¬ HotStack s k (s.get Fld.THERM_CFG.STK_OFF_C)

/-- Emergency action on die d (R443). -/
def EmergencyOn (t : State) (d : Nat) : Prop :=
  t.get Fld.PWR_DIE.EMERG d = 1 ∧ t.get Fld.PWR_DIE.OPP d = 0 ∧ t.get (if d = 0 then Fld.PWR_EVT.EMERG0 else Fld.PWR_EVT.EMERG1) = 1 ∧
    t.get Fld.THERM_EVT.EMERG = 1 ∧ (t.get Fld.DB_PEND.PEND 0).testBit 3 = true

/-- A leap tick claimed where none was pending and none is scheduled (R53). -/
def Claimed (s t : State) (reason len : Nat) : Prop :=
  t.get Fld.LEAP_CLAIM.PENDING = 1 ∧ t.get Fld.LEAP_CLAIM.REASON = reason ∧ t.get Fld.LEAP_CLAIM.CLAIM_LEN = len ∧
    t.get Fld.LEAP_CLAIM.CLAIM_AT = (s.get Fld.BTICK_NUM.NUM + Nat.max 256 (s.lmax + 1)) % 2 ^ 48 ∧ reason ∈ t.tick.work ∧
    (t.get Fld.DB_PEND.PEND 0).testBit 2 = true

end Sys2Proof.Spec

/-- R436, R439–R448: a raised point takes over once its voltage is reached, at 10 mV/µs and within 40 µs; the fast limit acts on both dies; a round enters its readings,
decides nothing the first time, lowers a hot die's target by one point, takes emergency action and shuts down on their
thresholds; hold ends only on cool sensors; an analog trip loses the rails and keeps the always-on island. -/
def Obligations.PowerAndThermalControl : Prop :=
  (∀ (s : State) (d : Fin 2) (o : Nat), Sound s → s.isUp d = true → s.get Fld.PWR_DIE.EMERG d = 0 → (s.dpower d).ramp = some o → o < 8 →
    s.tick.boundAt + Nat.min 40000 (100 * (s.get Fld.PWR_VT.V_MV d o - s.get Fld.PWR_VT.V_MV d (s.get Fld.PWR_DIE.OPP d))) ≤ s.now →
    ∃ t, exec (.oppClockSwitch d) s = .next t ∧ t = { s with csr := t.csr, power := t.power } ∧ BitsBut [(Fld.PWR_DIE.OPP, d, 0)] s t ∧
      t.get Fld.PWR_DIE.OPP d = o ∧ (t.dpower d) = { s.dpower d with ramp := none } ∧ ∀ e, e ≠ d.val → t.dpower e = s.dpower e) ∧
  (∀ (s : State) (mw : Nat), Sound s → s.isUp 0 = true → s.mod.power = .on →
    (mw ≤ 1000 * s.get Fld.PWR_CFG.FAST_W → exec (.fastPowerCheck mw) s = .next { s with power := { s.power with fast := false } }) ∧
    (1000 * s.get Fld.PWR_CFG.FAST_W < mw → ∃ t, exec (.fastPowerCheck mw) s = .next t ∧ t.get Fld.PWR_EVT.FAST_LIMIT = 1 ∧ t.power.fast = true ∧
      (∀ d : Fin 2, s.isUp d = true → s.get Fld.PWR_DIE.EMERG d = 0 → EmergencyOn t d) ∧ SameMemory s t ∧ t.cores = s.cores ∧ t.parts = s.parts)) ∧
  (∀ (s : State) (l : List HkReading), Sound s → s.mod.power = .on → (s.power.round = 0 ∨ s.power.roundAt + 8000000 ≤ s.now) →
    let u := entered s l
    (s.power.round = 0 → (l.map (fun r => r.channel)).Nodup → ∃ t, exec (.housekeepingRound l) s = .next t ∧ t.power.dies = s.power.dies ∧
      t.parts = s.parts ∧ (∀ d : Fin 2, t.get Fld.PWR_DIE.TARGET d = s.get Fld.PWR_DIE.TARGET d ∧ t.get Fld.PWR_DIE.OPP d = s.get Fld.PWR_DIE.OPP d) ∧
      ∀ r ∈ l, t.get Fld.HK_CH.VALUE r.channel = r.value.toNat ∧ t.get Fld.HK_CH.ROUND r.channel = 1 ∧
        (t.get Fld.HK_CH.VALID r.channel = 0 ↔
          (r.channel.val < 114 ∨ 248 ≤ r.channel.val) ∧ (toSigned 16 r.value.toNat < -640 ∨ 2400 < toSigned 16 r.value.toNat))) ∧
    (1 ≤ s.power.round → NoneOff u → ∀ d : Fin 2, s.isUp d = true → s.compDown (3 + d) = false → ∃ t, exec (.housekeepingRound l) s = .next t ∧
      (HotDie u d (s.get Fld.THERM_CFG.DIE_THR_C) → t.get Fld.PWR_DIE.TARGET d =
        (if s.get Fld.OPP_LIM.FLOOR d < s.get Fld.PWR_DIE.TARGET d then s.get Fld.PWR_DIE.TARGET d - 1 else s.get Fld.PWR_DIE.TARGET d) ∧
        ((s.dpower d).reqAt = none → t.get Fld.THERM_EVT.THROTTLE_DIE = 1)) ∧
      (HotDie u d (s.get Fld.THERM_CFG.DIE_EMERG_C) → EmergencyOn t d) ∧
      ∀ k, k < 20 → k / 10 = d.val → HotStack u k (s.get Fld.THERM_CFG.STK_EMERG_C) → t.get Fld.SL_SCALE.SCALE k = 32) ∧
    (1 ≤ s.power.round → s.isUp 0 = true → s.compDown 3 = false → HotDie u 0 (s.get Fld.THERM_CFG.DIE_OFF_C) → ∃ t, exec (.housekeepingRound l) s = .next t ∧
      t.get Fld.THERM_STAT.HOLD = 1 ∧ t.get Fld.THERM_EVT.SHUTDOWN = 1 ∧ t.get Fld.THERM_SHUT.CAUSE = 1 ∧
      (t.get Fld.DB_PEND.PEND 0).testBit 3 = true ∧ (∀ ch : Fin 4, t.get Fld.CH_CFG.EN ch = 0) ∧
      (∀ k : Fin 20, s.get Fld.STK_STATUS.STATE k = 2 → t.get Fld.STK_STATUS.STATE k = 3) ∧
      ∀ p : Fin 16, (s.get Fld.STEP_STATE.STATE p = 1 ∨ s.get Fld.STEP_STATE.STATE p = 2 ∨ s.get Fld.STEP_STATE.STATE p = 5) →
        t.get Fld.STEP_STATE.STATE p = 3 ∧ t.get Fld.STEP_STATE.LAST_CAUSE p = 3 ∧ t.get Fld.STEP_ERR.FAULT p = 1)) ∧
  (∀ (s : State), Sound s → s.mod.power.clocked = true →
    let cool := (∀ c, c < 32 → s.get Fld.HK_CH.VALID c = 1 → toSigned 16 (s.get Fld.HK_CH.VALUE c) ≤ 85 * 16) ∧
      ∀ c, 32 ≤ c → c < 112 → s.get Fld.HK_CH.VALID c = 1 → toSigned 16 (s.get Fld.HK_CH.VALUE c) ≤ 80 * 16
    (cool → s.get Fld.THERM_STAT.HOLD = 1 → ∃ t, exec .thermResume s = .next t ∧
      t = { s with csr := t.csr, stks := t.stks } ∧
      BitsBut ((Fld.THERM_STAT.HOLD, 0, 0) :: (List.range 20).map (fun k => (Fld.STK_STATUS.STATE, k, 0))) s t ∧ t.get Fld.THERM_STAT.HOLD = 0 ∧
      ∀ k : Fin 20, t.get Fld.STK_STATUS.STATE k = (if s.get Fld.STK_STATUS.STATE k = 3 then 2 else s.get Fld.STK_STATUS.STATE k) ∧
        t.stack k = if s.get Fld.STK_STATUS.STATE k = 3 then { s.stack k with refNext := [] } else s.stack k) ∧
    (cool → s.get Fld.THERM_STAT.HOLD = 0 → exec .thermResume s = .next s) ∧
    (¬ cool → ∃ t, exec .thermResume s = .next t ∧ OnlyRegs [(Fld.THERM_EVT.RESUME_REFUSED, 0, 0)] s t ∧
      t.get Fld.THERM_EVT.RESUME_REFUSED = 1)) ∧
  ∀ (s : State) (d : Fin 2), Sound s → s.mod.power = .on → ∃ t, exec (.analogTrip d) s = .next t ∧ t.mod.power = .tripped ∧
    t.get Fld.THERM_TRIP.VALID = 1 ∧ t.get Fld.THERM_TRIP.DIE = d ∧ t.get Fld.TICK_COUNT.COUNT = s.get Fld.TICK_COUNT.COUNT ∧
    t.get Fld.BTICK_NUM.NUM = s.get Fld.BTICK_NUM.NUM ∧ t.mem = [] ∧ t.gran = [] ∧ t.cores = State.reset.cores ∧ t.parts = State.reset.parts ∧
    t.asy = s.asy ∧ t.host = s.host ∧ t.get Fld.CXLC_LINK.UP = s.get Fld.CXLC_LINK.UP ∧ t.isUp 0 = false ∧ t.isUp 1 = false

/-- R451, R53: a request, or the powered hours, claim a leap tick of 9 base ticks with REASON 2, once; the hours are kept in flash every
24 powered hours while its temperature allows. -/
def Obligations.ReckoningClaims : Prop :=
  (∀ (s : State) (i : Instr), Sound s → s.serves 0 = true →
    (i = .reckoningRequest ∨ i = .reckoningHoursDue ∧ s.get Fld.AGE_CFG.INTERVAL_H + s.get Fld.AGE_LAST.HOURS ≤ s.get Fld.AGE_STAT.HOURS) →
    (s.get Fld.AGE_STAT.STATE = 0 → s.get Fld.LEAP_CLAIM.PENDING = 0 → s.get Fld.LEAP_CTRL.STATE = 0 → ∃ t, exec i s = .next t ∧
      t.get Fld.AGE_STAT.STATE = 1 ∧ Claimed s t 2 9 ∧ SameMemory s t ∧ t.cores = s.cores ∧ t.parts = s.parts) ∧
    (s.get Fld.AGE_STAT.STATE ≠ 0 → exec i s = .next s)) ∧
  ∀ (s : State), Sound s → s.isUp 0 = true → s.sec.flash.hours + 24 ≤ s.get Fld.AGE_STAT.HOURS →
    (∀ c, c < 32 → s.get Fld.HK_CH.VALID c = 1 → 80 ≤ toSigned 16 (s.get Fld.HK_CH.VALUE c) ∧ toSigned 16 (s.get Fld.HK_CH.VALUE c) ≤ 1360) →
    exec .hoursCheckpoint s = .next { s with sec := { s.sec with flash := { s.sec.flash with hours := s.get Fld.AGE_STAT.HOURS } } }

namespace Sys2Proof.Spec

/-! The assay die, and the messages of the device's processors. -/

/-- The oldest delivered message with a command its receiver knows is in mailbox m and carries the code (R378, R483). -/
abbrev Oldest (s : State) (rcv : Nat) (known : List Nat) (code : Nat) (m : Fin 64) : Prop :=
  ∃ l r, s.delivered = l ++ m.val :: r ∧
    (∀ k ∈ l, ¬ (s.get Fld.MB_CFG.RCV k = rcv ∧ s.get Fld.MB_DATA.DATA k 0 % 65536 ∈ known)) ∧
    s.get Fld.MB_CFG.RCV m = rcv ∧ s.get Fld.MB_DATA.DATA m 0 % 65536 = code

/-- A reply mailbox to the host is free, and nothing else waits to be sent. -/
abbrev ReplyFree (s : State) (box : Nat) : Prop :=
  s.mod.outbox = [] ∧ s.get Fld.S_STAT.OWNED box = 0 ∧ s.get Fld.R_PEEK.FULL box = 0 ∧ s.get Fld.MB_CFG.RCV box = 0 ∧
    s.get Fld.ETH_DEV.MODE ≠ 2

/-- The command in mailbox m is the next one of its receiver, and its reply can be sent. -/
abbrev Commanded (s : State) (rcv : Nat) (known : List Nat) (code : Nat) (m : Fin 64) (box : Nat) : Prop :=
  Oldest s rcv known code m ∧ s.get Fld.R_PEEK.FULL m = 1 ∧ rcv ≠ 0 ∧ ReplyFree s box

/-- Word i of the message in mailbox m. -/
def arg (s : State) (m : Fin 64) (i : Nat) : Nat := s.get Fld.MB_DATA.DATA m i

/-- A sender of class 0 or 6 (R483, R489). -/
abbrev Permitted (s : State) (m : Fin 64) : Prop := s.get Fld.R_PEEK.SENDER m / 4096 = 0 ∨ s.get Fld.R_PEEK.SENDER m / 4096 = 6

/-- The reply of a processor to a command whose word 0 was w0: STATUS beside its low half, then some words and zeros (R483). -/
def Replied (t : State) (box who w0 status : Nat) (more : List Nat) : Prop :=
  t.get Fld.R_PEEK.FULL box = 1 ∧ t.get Fld.R_PEEK.SENDER box = who ∧ t.get Fld.R_PEEK.LEN box = 8 ∧ box ∈ t.delivered ∧
    t.get Fld.MB_DATA.DATA box 0 = w0 % 2 ^ 32 + status * 2 ^ 32 ∧
    ∀ i, 1 ≤ i → i < 16 → t.get Fld.MB_DATA.DATA box i = nth 0 more (i - 1)

/-- The message of mailbox m is taken. -/
def Taken (t : State) (m : Fin 64) : Prop := t.get Fld.R_PEEK.FULL m = 0 ∧ t.get Fld.S_STAT.OWNED m = 0 ∧ m.val ∉ t.delivered

/-- Nothing differs but registers, delivered messages and signals. -/
def OnlyMessages (s t : State) : Prop :=
  t = { s with csr := t.csr, delivered := t.delivered, msixHeld := t.msixHeld, msixSent := t.msixSent }

/-- The command of mailbox m is answered at once, with nothing beside messages and registers changed. -/
def Answered (s t : State) (m : Fin 64) (box who status : Nat) (more : List Nat) : Prop :=
  OnlyMessages s t ∧ Taken t m ∧ Replied t box who (arg s m 0) status more

/-- The power manager of die 0: identity, mailbox of its replies, commands; its step is asked as a command that changes no
register but the mailbox's. -/
def pmKnown : List Nat := [0x0A01, 0x0B01, 0x0B02]

/-- A command of the power manager of die 0 that is next and can be answered (R373, R489). -/
abbrev PmCommand (s : State) (code : Nat) (m : Fin 64) : Prop :=
  Commanded s 19 pmKnown code m 38 ∧ s.isUp 0 = true ∧ s.compDown 3 = false

/-- Partition p's weight in a tick: the sum over both dies, 0 for all while a message is missing (R461, R462). -/
def weightOf (x : AsyTick) (p : Nat) : Nat := if x.w0 = none ∨ x.w1 = none then 0 else nth 0 (x.w0.getD []) p + nth 0 (x.w1.getD []) p

/-- R461's formula over accounts 0 to 16, whose figures together are the whole energy. -/
def Apportioned (idle : Nat) (x : AsyTick) (fs : List Nat) : Prop :=
  let A := ((List.range 16).map (weightOf x)).sum
  let e0 := if A = 0 then x.nj else Nat.min x.nj (idle * (x.dur / 1000))
  let share := fun (p : Nat) => if nth false x.resident p then nth 0 x.share p else 0
  let S := ((List.range 16).map share).sum
  fs.length = 17 ∧ fs.sum = x.nj ∧ ∀ p, p < 16 →
    nth 0 fs p = (if S = 0 then 0 else e0 * share p / S) + (if A = 0 then 0 else (x.nj - e0) * weightOf x p / A)

/-- The period the assay die reckons with (R460): that of its marks, once two have come. -/
def assayPeriod (s : State) : Nat := if s.asy.period = 0 then s.get Fld.TICK_PERIOD.PERIOD_US * 1000 else s.asy.period

/-- The inlet reads outside 10–45 °C by the higher of its valid channels (R458). -/
abbrev InletOut (s : State) : Prop :=
  let at_ := fun (c : Nat) => toSigned 16 (s.get Fld.HK_CH.VALUE c)
  ∃ c ∈ [248, 249], s.get Fld.HK_CH.VALID c = 1 ∧ (∀ k ∈ [248, 249], s.get Fld.HK_CH.VALID k = 1 → at_ k ≤ at_ c) ∧ (at_ c < 160 ∨ 720 < at_ c)

/-- A tick's figures are valid (R462). -/
def tickValid (s : State) (x : AsyTick) : Bool := x.w0.isSome && x.w1.isSome && !x.range && !x.fault && s.asy.calOk

/-- The assay die's sensors are valid for programming flash (R470). -/
abbrev AssayFlashOk (s : State) : Prop :=
  ∀ c, c = 112 ∨ c = 113 → s.get Fld.HK_CH.VALID c = 1 →
    80 ≤ toSigned 16 (s.get Fld.HK_CH.VALUE c) ∧ toSigned 16 (s.get Fld.HK_CH.VALUE c) ≤ 1360

/-- R459–R463: a mark closes the tick it ends with what was measured, or leaves it in a gap, and every nJ enters the lifetime
total; the tick before it is apportioned and its figures go to the step controllers; weights enter the tick they are
for, once. IDLE_MW is 118,000 mW as shipped. -/
def MarksAndFigures : Prop :=
  State.reset.asy.idle = 118000 ∧
  (∀ (s : State) (r : MeterReading) (t0 : Nat), Sound s → s.asy.on = true → s.mod.power = .on → s.tick.bound = s.get Fld.BTICK_NUM.NUM + 1 →
    s.tick.boundAt = s.get Fld.TICK_COUNT.COUNT → s.asy.cur = some t0 → t0 ≠ s.get Fld.BTICK_NUM.NUM →
    let late := s.asy.markAt + 2 * assayPeriod s < s.get Fld.TICK_COUNT.COUNT
    ∃ u, exec (.tickMark r) s = .next u ∧ u.asy.cur = some (s.get Fld.BTICK_NUM.NUM) ∧ u.asy.markAt = s.get Fld.TICK_COUNT.COUNT ∧
      u.asy.gap = false ∧ u.asy.idle = s.asy.idle ∧ SameMemory s u ∧ u.cores = s.cores ∧ u.parts = s.parts ∧
      (s.get Fld.ASY_E_TOTAL.MJ + (s.asy.njLeft + r.nj) / 1000000 < 2 ^ 64 →
        u.get Fld.ASY_E_TOTAL.MJ * 1000000 + u.asy.njLeft = s.get Fld.ASY_E_TOTAL.MJ * 1000000 + s.asy.njLeft + r.nj) ∧
      (s.asy.gap = false → ¬ late → u.power.energy = some r.nj ∧ u.asy.gapNJ = none ∧ ∃ x, u.asy.ticks = [x] ∧ x.t = t0 ∧ x.nj = r.nj ∧
        x.dur = r.dur ∧ x.range = r.range ∧ x.tempOut = r.tempOut ∧ x.fault = r.fault ∧ x.gap = s.asy.gapNJ) ∧
      (s.asy.gap = true ∨ late → u.power.energy = none ∧ u.asy.gapNJ = some (s.asy.gapNJ.getD 0 + r.nj) ∧ u.asy.ticks = []) ∧
      (s.asy.ticks = [] → u.asy.figs = s.asy.figs ∧ u.asy.seq = s.asy.seq) ∧
      ∀ x, s.asy.ticks = [x] → x.t < 2 ^ 48 → x.nj < 2 ^ 64 →
        (∃ fs, u.asy.figs = s.asy.figs ++ [(x.t, fs, tickValid s x)] ∧ (x.w0 ≠ none → Apportioned s.asy.idle x fs) ∧
          (x.w0 = none → ∃ share resident, Apportioned s.asy.idle { x with share := share, resident := resident } fs)) ∧
        u.get Fld.ASY_TICK.BTICK = x.t ∧ u.get Fld.ASY_TICK_E.E_NJ = x.nj ∧
        (1 ≤ s.asy.recTicks → (∀ f, s.asy.filling = some f → f.last / s.asy.recTicks = x.t / s.asy.recTicks) →
          ((x.t + 1) % s.asy.recTicks = 0 → u.asy.filling = none ∧ u.asy.seq = s.asy.seq + 1 ∧
            u.get Fld.ASY_REC_SEQ.SEQ = s.asy.seq % 2 ^ 64) ∧
          ((x.t + 1) % s.asy.recTicks ≠ 0 → u.asy.seq = s.asy.seq ∧ ∃ f, u.asy.filling = some f ∧ f.last = x.t))) ∧
  (∀ s : State, (s.asy.on = true ∧ s.asy.gap = false ∧ s.asy.cur ≠ none ∧
      s.asy.markAt + 2 * assayPeriod s ≤ s.get Fld.TICK_COUNT.COUNT →
      exec .assayGap s = .next { s with asy := { s.asy with gap := true } }) ∧
    (s.get Fld.TICK_COUNT.COUNT < s.asy.markAt + 2 * assayPeriod s → exec .assayGap s = .next s)) ∧
  (∀ (s : State) (d : Fin 2) (w : List Nat) (x : AsyTick), s.asy.on = true → s.isUp d = true → s.asy.ticks = [x] → w.length = 16 →
    (∀ v ∈ w, v < 2 ^ 40) →
    ((if d.val = 0 then x.w0 else x.w1) = none → ∃ y, exec (.weightMessage d w) s = .next { s with asy := { s.asy with ticks := [y] } } ∧
      (if d.val = 0 then y.w0 else y.w1) = some w ∧ (if d.val = 0 then y.w1 = x.w1 else y.w0 = x.w0) ∧
      y = { x with w0 := y.w0, w1 := y.w1, share := y.share, resident := y.resident, tempOut := y.tempOut } ∧
      (d.val = 1 → y.share = x.share ∧ y.resident = x.resident ∧ y.tempOut = x.tempOut) ∧
      (d.val = 0 → (y.tempOut = true ↔ x.tempOut = true ∨ InletOut s) ∧ ∀ p : Fin 16, nth 0 y.share p = nth 0 (s.part p).shares 0 ∧
        (nth false y.resident p = true ↔ s.get Fld.PT_CORES.CORES p ≠ 0 ∨ ∃ e ∈ (s.part p).ranges, e.count ≠ 0))) ∧
    ((if d.val = 0 then x.w0 else x.w1) ≠ none → exec (.weightMessage d w) s = .next s)) ∧
  ∀ (s : State) (n : Nat) (fs : List Nat) (v : Bool) (l : List (Nat × List Nat × Bool)), Sound s → s.asy.on = true → s.isUp 0 = true →
    s.asy.figs = (n, fs, v) :: l →
    ∃ t, exec .assayFigures s = .next t ∧ t = { s with asy := { s.asy with figs := l }, parts := t.parts } ∧
      ∀ p : Fin 16, t.part p = { s.part p with figs := (s.part p).figs ++ [(n, nth 0 fs p, v)] }

/-- R467: the rings' configuration is taken from a permitted sender's words, each ring 4 KiB aligned and of 2^4 slots or
more, and answered. -/
def RingConfiguration : Prop :=
  ∀ (s : State) (m : Fin 64), Sound s → PmCommand s 0x0A01 m →
    let a := arg s m 3 % 16
    let b := arg s m 3 / 256 % 16
    let good := arg s m 1 % 4096 = 0 ∧ arg s m 2 % 4096 = 0 ∧ 4 ≤ a ∧ 4 ≤ b
    (¬ Permitted s m → ∃ t, exec .assayRingConfig s = .next t ∧ Answered s t m 38 0x3000 3 []) ∧
    (Permitted s m → ¬ good → ∃ t, exec .assayRingConfig s = .next t ∧ Answered s t m 38 0x3000 1 []) ∧
    (Permitted s m → good → ∃ t g, exec .assayRingConfig s = .next t ∧ t.asy.rings = some g ∧ 4096 * g.recAt = arg s m 1 ∧ g.recLog2 = a ∧
      4096 * g.tickAt = arg s m 2 ∧ g.tickLog2 = b ∧ Taken t m ∧ Replied t 38 0x3000 (arg s m 0) 0 [] ∧ SameMemory s t ∧
      t.cores = s.cores ∧ t.parts = s.parts ∧ (s.asy.recQ = [] → s.asy.tickQ = [] → g.recProd = 0 ∧ g.tickProd = 0 ∧ t.host = s.host))

/-- R468–R473, R19: installs and calibrations only through the chain out of bypass; each event waits for its entry, and none
starts meanwhile; the entry programmed, the counter moves by one but for ISLAND_POWER and the log grows until full; the
watchdog and the return change no counter. -/
def SealEvents : Prop :=
  (∀ (s : State), Sound s → s.asy.on = true →
    let begins := fun (i : Instr) (e : SealEvent) => ∃ t, exec i s = .next t ∧ t = { s with csr := t.csr, asy := { s.asy with sealing := some e } } ∧
      t.get Fld.ASY_SEAL.PENDING = 1 ∧ t.get Fld.ASY_SEAL.SEAL_COUNT = s.asy.count % 2 ^ 32
    (∀ (dg : BitVec 256) (ver : BitVec 16) (cal : BitVec 32) (idle : BitVec 25) (n : BitVec 16),
      (s.asy.sealing = none → s.asy.attached = true →
        begins (.assayFirmwareInstall dg ver) ⟨1, dg.toNat, ver.toNat, 0, 0⟩ ∧
        begins (.calibrationChange dg cal idle n) ⟨2, dg.toNat, cal.toNat, idle.toNat, n.toNat⟩) ∧
      (s.asy.sealing ≠ none ∨ s.asy.attached = false →
        exec (.assayFirmwareInstall dg ver) s = .next s ∧ exec (.calibrationChange dg cal idle n) s = .next s)) ∧
    (s.asy.sealing = none → begins .assayDebugAttach ⟨3, 0, 0, 0, 0⟩) ∧ (s.asy.sealing ≠ none → exec .assayDebugAttach s = .next s)) ∧
  (∀ (s : State), Sound s → s.asy.lost = true → ∃ t, exec .islandPowerReturn s = .next t ∧ t = { s with
      csr := t.csr, asy := { s.asy with on := true, lost := false, sealing := some ⟨4, 0, 0, 0, 0⟩ } } ∧ t.get Fld.ASY_SEAL.PENDING = 1) ∧
  (∀ (s : State), Sound s → s.asy.on = true → ∃ t, exec .assayWatchdog s = .next t ∧ t = { s with
      csr := t.csr, asy := { s.asy with on := false, gap := true } } ∧
    BitsBut [(Fld.ASY_FAULT.FAULTS, 0, 0), (Fld.ASY_STATE.STATE, 0, 0)] s t ∧ t.get Fld.ASY_STATE.STATE = 0 ∧
    t.get Fld.ASY_FAULT.FAULTS = Nat.min (s.get Fld.ASY_FAULT.FAULTS + 1) (2 ^ 32 - 1)) ∧
  (∀ (s : State), Sound s → s.asy.on = false → s.asy.lost = false → ∃ t, exec .assayDieReturn s = .next t ∧
    t = { s with csr := t.csr, asy := { s.asy with on := true } } ∧ t.get Fld.ASY_STATE.STATE = 2) ∧
  ∀ (s : State) (e : SealEvent), Sound s → s.asy.on = true → s.asy.sealing = some e → e.event < 16 → AssayFlashOk s →
    s.asy.count < 2 ^ 32 → s.asy.rings = none →
    let n := s.asy.slog.length
    let count := if e.event = 4 then s.asy.count else (s.asy.count + 1) % 2 ^ 32
    ∃ t, exec .sealEntryProgrammed s = .next t ∧ t = { s with csr := t.csr, asy := t.asy, free := t.free } ∧ t.asy.sealing = none ∧
      t.asy.count = count ∧ t.get Fld.ASY_SEAL.SEAL_COUNT = count ∧ t.get Fld.ASY_SEAL.PENDING = 0 ∧
      t.asy.seq = s.asy.seq ∧ t.asy.prevRec = s.asy.prevRec ∧
      (t.asy.fwVer = s.asy.fwVer ∨ e.event = 1 ∧ t.asy.fwVer = e.ver) ∧ (e.event ≠ 2 → t.asy.calOk = s.asy.calOk) ∧
      t.asy.attached = (s.asy.attached || e.event == 3) ∧ t.asy.calId = (if e.event = 2 then e.ver else s.asy.calId) ∧
      t.asy.idle = (if e.event = 2 then e.idle else s.asy.idle) ∧ t.asy.recTicks = (if e.event = 2 then e.ticks else s.asy.recTicks) ∧
      (1024 ≤ n → t.asy.slog = s.asy.slog ∧ t.get Fld.ASY_SEAL.LOG_FULL = 1) ∧
      (n < 1024 → ∃ b, t.asy.slog = s.asy.slog ++ [b] ∧ b.length = 64 ∧ t.get Fld.ASY_SEAL.LOG_USED = n + 1 ∧
        ofBytes (b.take 8) = 0x5345414C + e.event * 2 ^ 32 ∧ ofBytes ((b.drop 8).take 8) = count + n * 2 ^ 32 ∧
        ofBytes ((b.drop 16).take 32) = e.digest % 2 ^ 256 ∧
        ofBytes ((b.drop 48).take 8) = (if s.asy.markAt = 0 then 0 else s.get Fld.TICK_COUNT.COUNT) ∧
        ∀ i, i < 8 → t.get Fld.ASY_SENT.WORD (n % 8) i = ofBytes ((b.drop (8 * i)).take 8))

end Sys2Proof.Spec

/-- R459–R463, R467–R473, R19: a mark closes the tick it ends with what was measured, or leaves it in a gap, and its energy enters the
lifetime total; the tick before it is apportioned by R461's formula, whose seventeen figures make the whole energy, and goes on to the
step controllers; weights enter their tick once; the rings take their configuration from a permitted sender; installs and
calibrations go only through the chain out of bypass, one event at a time, and a programmed entry moves the counter by one but for
ISLAND_POWER; the watchdog and the return change no counter. -/
def Obligations.AssayDie : Prop := MarksAndFigures ∧ RingConfiguration ∧ SealEvents

namespace Sys2Proof.Spec

/-! The security core, firmware updates and the debug chain. -/

/-- The commands of the security core (R483). -/
def secKnown : List Nat := [0x0101, 0x0103, 0x0201, 0x0202, 0x0301, 0x0302]

/-- A command of the security core that is next and can be answered, the core running or in an update (R373, R483). -/
abbrev SecCommand (s : State) (code : Nat) (m : Fin 64) : Prop :=
  Commanded s 21 secKnown code m 41 ∧ s.isUp 0 = true ∧ (s.get Fld.SEC_STATE.STATE = 1 ∨ s.get Fld.SEC_STATE.STATE = 2)

/-- Registers that taking a message and replying change. -/
def messageBases : List Nat :=
  [Reg.MB_DATA, Reg.MB_RDATA, Reg.S_CTRL, Reg.S_STAT, Reg.R_CTRL, Reg.R_PEEK, Reg.DB_PEND, Reg.DB_RING, Reg.DB_MASK, Reg.DB_CFG,
   Reg.MSIX_PBA, Reg.MBX_DROP, Reg.MBX_ERR].map Reg.base

/-- Bytes [a, a + n) lie in the data of one stack, in units that no partition owns and no region holds (R485). -/
abbrev FreeUnits (s : State) (a n : Nat) : Prop :=
  ∃ st o, st < 20 ∧ a = st * stackSpan + o ∧ o + n ≤ 49104 * 0x200000 ∧
    ∀ u, (∃ i, i < n ∧ (o + i) / 0x200000 = u) → (∀ p, p < 16 → s.owns p st u = false) ∧
      ∀ q, q < 32 → s.get Fld.REG_STAT.STATE q ≠ 0 → ¬ inRegion s q st u

/-- Bytes of a measurement register. -/
def mregBytes (s : State) (i : Nat) : List Byte := (List.range 8).flatMap (fun w => bytesOf 8 (s.get Fld.MREG.VALUE i w))

/-- Measurement register i extended with an event code and a digest, and no other (R482). -/
def Extended (s t : State) (i code : Nat) (digest : List Byte) : Prop :=
  (∀ w, w < 8 → t.get Fld.MREG.VALUE i w = bits (ofBytes (shake256 (mregBytes s i ++ bytesOf 8 code ++ digest) 64)) (64 * w + 63) (64 * w)) ∧
    ∀ j, j < 16 → j ≠ i → ∀ w, w < 8 → t.get Fld.MREG.VALUE j w = s.get Fld.MREG.VALUE j w

/-- A component's image in the slot that does not run verifies and is not marked failed. -/
abbrev Startable (s : State) (c : Fin 6) (x : Image) : Prop :=
  (s.get Fld.SEC_SLOT.FAILED).testBit c = false ∧ x.good = true ∧
    nth none s.sec.flash.slots (2 * c + (if (s.get Fld.SEC_SLOT.ACTIVE).testBit c then 0 else 1)) = some x

/-- R482–R484: commands of senders that may not are denied; QUOTE writes what it says it signs, or answers NO_ID; EXTEND extends
MREG14 with the words it brings. -/
def QuotesAndExtends : Prop :=
  (∀ (s : State) (m : Fin 64) (h : ImageHead) (e : Nat × Instr), Sound s →
    e ∈ ([(0x0101, .quote), (0x0103, .extend), (0x0201, .stage h), (0x0202, .activate), (0x0301, .csrRead), (0x0302, .csrWrite)] : List (Nat × Instr)) →
    SecCommand s e.1 m → ¬ Permitted s m → ∃ t, exec e.2 s = .next t ∧ Answered s t m 41 0x4000 3 []) ∧
  (∀ (s : State) (m : Fin 64), Sound s → SecCommand s 0x0101 m → Permitted s m →
    (s.get Fld.SEC_STATE.ID_OK = 0 → ∃ t, exec .quote s = .next t ∧ Answered s t m 41 0x4000 4 []) ∧
    (s.get Fld.SEC_STATE.ID_OK = 1 → ∃ t, exec .quote s = .next t ∧ Answered s t m 41 0x4000 0 [] ∧
      Counted 64 (s.get Fld.SEC_QSEQ.SEQ) 1 (t.get Fld.SEC_QSEQ.SEQ) ∧
      let q := fun i => t.get Fld.SEC_QUOTE.WORD i
      let mask := arg s m 5 % 65536
      q 0 = 0x151544E46 ∧ (∀ i, i < 4 → q (1 + i) = arg s m (1 + i)) ∧ q 5 = mask + s.get Fld.SEC_DBG.ATTACHED * 65536 ∧
        q 6 = s.get Fld.TICK_COUNT.COUNT ∧ q 7 + q 8 * 2 ^ 64 = s.sec.devId % 2 ^ 128 ∧ (∀ i, 9 ≤ i → i < 16 → q i = 0) ∧
        ∀ i w, i < 16 → w < 8 → q (16 + 8 * i + w) = if mask.testBit i then s.get Fld.MREG.VALUE i w else 0)) ∧
  ∀ (s : State) (m : Fin 64), Sound s → SecCommand s 0x0103 m → Permitted s m →
    ∃ t, exec .extend s = .next t ∧ Answered s t m 41 0x4000 0 [] ∧
      Extended s t 14 0x0E ((List.range 8).flatMap (fun i => bytesOf 8 (arg s m (1 + i))))

/-- R485, R486: STAGE is refused while one is in progress, for bad arguments, an image that does not verify, or flash too warm, else
programs the idle slot and replies when done; ACTIVATE claims a leap tick long enough for the drain and the restart. -/
def StagesAndActivations : Prop :=
  (∀ (s : State) (m : Fin 64) (h : ImageHead), Sound s → SecCommand s 0x0201 m → Permitted s m →
    let a := arg s m 1
    let n := arg s m 2
    let c := arg s m 3
    let fails := fun (status : Nat) (f : Fld) => ∃ t, exec (.stage h) s = .next t ∧ Taken t m ∧
      Replied t 41 0x4000 (arg s m 0) status [] ∧ t.get Fld.SEC_UPD.COMPONENT = c ∧ t.get Fld.SEC_UPD.RESULT = 4 ∧ t.get f = 1 ∧
      t.sec = s.sec ∧ t.mem = s.mem
    (s.sec.stage ≠ none ∨ s.sec.upd ≠ none → ∃ t, exec (.stage h) s = .next t ∧ Answered s t m 41 0x4000 2 []) ∧
    (s.sec.stage = none → s.sec.upd = none → (0x800000 < n ∨ 5 < c ∨ 1 ≤ n ∧ ¬ FreeUnits s a n) →
      ∃ t, exec (.stage h) s = .next t ∧ Answered s t m 41 0x4000 1 []) ∧
    (s.sec.stage = none → s.sec.upd = none → 1 ≤ n → n ≤ 0x800000 → c ≤ 5 → FreeUnits s a n → (∀ i, i < n → Intact s (a + i) ∧ Unarmed s (a + i)) →
      s.stackUp (a / stackSpan) = true →
      (h.good = false ∨ h.comp.toNat ≠ c → fails 5 Fld.SEC_ERR.UPDATE_FAIL) ∧
      (h.good = true → h.comp.toNat = c → s.flashOk = false → fails 6 Fld.SEC_ERR.FLASH_TEMP) ∧
      (h.good = true → h.comp.toNat = c → s.flashOk = true → ∃ t r, exec (.stage h) s = .next t ∧ Taken t m ∧ t.sec = { s.sec with stage := some r } ∧
        r.comp = c ∧ r.tag = arg s m 0 ∧ r.image.version = h.version.toNat ∧ r.image.good = true ∧
        r.image.digest = ofBytes (shake256 (bytesOf n (readBytesOf s a n)) 64) ∧ t.get Fld.SEC_UPD.COMPONENT = c ∧
        t.get Fld.R_PEEK.FULL 41 = 0 ∧ t.mem = s.mem))) ∧
  (∀ (s : State) (r : StageRun), Sound s → s.isUp 0 = true → s.sec.stage = some r → r.comp < 6 → ReplyFree s 41 →
    let slot := 2 * r.comp + (if (s.get Fld.SEC_SLOT.ACTIVE).testBit r.comp then 0 else 1)
    ∃ t, exec .stageDone s = .next t ∧ t.sec.stage = none ∧ nth none t.sec.flash.slots slot = some r.image ∧
      (∀ i, i ≠ slot → nth none t.sec.flash.slots i = nth none s.sec.flash.slots i) ∧ t.get Fld.SEC_UPD.RESULT = 1 ∧
      (∀ c, c < 6 → (t.get Fld.SEC_SLOT.FAILED).testBit c = (decide (c ≠ r.comp) && (s.get Fld.SEC_SLOT.FAILED).testBit c)) ∧
      t.get Fld.SEC_SLOT.ACTIVE = s.get Fld.SEC_SLOT.ACTIVE ∧ Replied t 41 0x4000 r.tag 0 [] ∧ SameMemory s t ∧ t.cores = s.cores ∧ t.parts = s.parts) ∧
  ∀ (s : State) (m : Fin 64), Sound s → SecCommand s 0x0202 m → Permitted s m →
    let c := arg s m 1
    (5 < c → ∃ t, exec .activate s = .next t ∧ Answered s t m 41 0x4000 1 []) ∧
    (c ≤ 5 → s.sec.stage ≠ none ∨ s.sec.upd ≠ none → ∃ t, exec .activate s = .next t ∧ Answered s t m 41 0x4000 2 []) ∧
    (∀ f : Fin 6, c = f → s.sec.stage = none → s.sec.upd = none →
      ((∀ x, ¬ Startable s f x) → ∃ t, exec .activate s = .next t ∧ Answered s t m 41 0x4000 5 [] ∧ t.get Fld.SEC_UPD.RESULT = 4 ∧
        t.get Fld.SEC_ERR.UPDATE_FAIL = 1) ∧
      ((∃ x, Startable s f x) → c = 0 → ∃ t, exec .activate s = .next t ∧ Answered s t m 41 0x4000 0 [] ∧ t.get Fld.SEC_UPD.COMPONENT = 0) ∧
      ((∃ x, Startable s f x) → 1 ≤ c → s.get Fld.LEAP_CLAIM.PENDING = 0 → s.get Fld.LEAP_CTRL.STATE = 0 → 1 ≤ s.get Fld.TICK_PERIOD.PERIOD_US →
        let us := 1000 + (if c ≤ 2 then 3000 else if c ≤ 4 then 2000 else 1000)
        let period := s.get Fld.TICK_PERIOD.PERIOD_US
        ∃ t, exec .activate s = .next t ∧ Taken t m ∧ Replied t 41 0x4000 (arg s m 0) 0 [] ∧
          Claimed s t 4 ((us + period - 1) / period % 128) ∧ t.sec.upd = some ⟨c, 0, 0⟩ ∧ t.get Fld.SEC_UPD.COMPONENT = c))

/-- R486, R482, R54: a component drains in its leap tick, restarts, and runs its new image, or after 10 ms its old one. -/
def ComponentUpdates : Prop :=
  ∀ (s : State) (c : Fin 6) (u : UpdRun), Sound s → s.isUp 0 = true → s.sec.upd = some u → u.comp = c →
    (u.phase = 0 → s.get Fld.LEAP_CTRL.STATE = 2 → s.tick.claimed = true → 4 ∈ s.tick.work →
      ∃ t, exec (.componentRestart c) s = .next t ∧ t = { s with csr := t.csr, sec := { s.sec with upd := some { u with phase := 1 } } } ∧
        BitsBut [(Fld.SEC_STATE.STATE, 0, 0)] s t ∧ t.get Fld.SEC_STATE.STATE = 2 ∧ t.rcvDrains (16 + c) = decide (1 ≤ c.val ∧ c.val ≤ 4)) ∧
    (u.phase = 1 → ∃ t, exec (.componentDrainDone c) s = .next t ∧ (t.get Fld.DB_PEND.PEND 0).testBit 6 = true ∧ t.compDown c = true ∧
      t.compDrains c = false ∧ t.sec = { s.sec with upd := some { u with phase := 3, began := s.get Fld.TICK_COUNT.COUNT } } ∧ SameMemory s t ∧
      t.cores = s.cores ∧ t.parts = s.parts) ∧
    (u.phase = 3 →
      let runs := fun (t : State) (x : Image) => t.sec.upd = none ∧ t.get Fld.SEC_VER.VERSION c = x.version % 2 ^ 32 ∧
        Extended s t 12 c (bytesOf 64 x.digest) ∧ t.get Fld.SEC_STATE.STATE = 1 ∧ 4 ∉ t.tick.work ∧ t.sec.flash = s.sec.flash ∧ SameMemory s t ∧
        (c.val = 5 → 1 ∈ t.tick.work ∧ (∀ k : Fin 20, s.get Fld.STK_STATUS.STATE k = 2 → t.get Fld.STK_STATUS.STATE k = 1) ∧
          (∀ p, p < 4 → s.get Fld.PORT_STAT.UP p ≠ 0 → p ∈ t.net.retrain) ∧ (s.isUp 1 = true → t.mod.idl = .training)) ∧
        (c.val ≠ 5 → (∀ k : Fin 20, t.get Fld.STK_STATUS.STATE k = s.get Fld.STK_STATUS.STATE k) ∧ t.net = s.net ∧ t.mod = s.mod) ∧
        (∀ d : Fin 2, c.val ≠ 3 + d.val → t.dpower d = s.dpower d)
      (∀ x, Startable s c x → s.get Fld.TICK_COUNT.COUNT ≤ u.began + 10000000 → ∃ t, exec (.newImageRunning c) s = .next t ∧ runs t x ∧ t.get Fld.SEC_UPD.RESULT = 2 ∧
        ∀ b, b < 6 → (t.get Fld.SEC_SLOT.ACTIVE).testBit b = ((s.get Fld.SEC_SLOT.ACTIVE).testBit b != decide (b = c.val))) ∧
      (∀ x, nth none s.sec.flash.slots (2 * c + (if (s.get Fld.SEC_SLOT.ACTIVE).testBit c then 1 else 0)) = some x →
        u.began + 10000000 ≤ s.get Fld.TICK_COUNT.COUNT → ∃ t, exec (.newImageTimeout c) s = .next t ∧ runs t x ∧ t.get Fld.SEC_UPD.RESULT = 3 ∧
          t.get Fld.SEC_SLOT.ACTIVE = s.get Fld.SEC_SLOT.ACTIVE ∧ t.get Fld.SEC_ERR.UPDATE_FAIL = 1 ∧
          ∀ b, b < 6 → (t.get Fld.SEC_SLOT.FAILED).testBit b = ((s.get Fld.SEC_SLOT.FAILED).testBit b || decide (b = c.val))))

/-- R483, R487: CSR_READ and CSR_WRITE reach the window as the host would and answer BAD_ARG outside it; an attach is counted and
measured, halts a core of it until the detach. -/
def RegisterCommandsAndDebug : Prop :=
  (∀ (s : State) (m : Fin 64) (e : Nat × Instr × List Nat), Sound s →
    e ∈ ([(0x0301, .csrRead, [0]), (0x0302, .csrWrite, [])] : List (Nat × Instr × List Nat)) → SecCommand s e.1 m → Permitted s m →
    (2 ^ 28 ≤ arg s m 1 ∨ arg s m 1 % 8 ≠ 0 ∨ (∃ r i j, regAt (arg s m 1) = some (r, i, j) ∧ s.csrUp (arg s m 1) = false)) →
    ∃ t, exec e.2.1 s = .next t ∧ Answered s t m 41 0x4000 1 e.2.2) ∧
  (∀ (s : State) (m : Fin 64) (r : Reg) (i j : Nat), Sound s → SecCommand s 0x0301 m → Permitted s m → arg s m 1 < 2 ^ 28 → arg s m 1 % 8 = 0 →
    regAt (arg s m 1) = some (r, i, j) → r.base ∉ liveBases → r.base ∉ messageBases → s.csrUp (arg s m 1) = true →
    ∃ t v, exec .csrRead s = .next t ∧ Answered s t m 41 0x4000 0 [v] ∧
      (∀ b, v.testBit b = (r.fields.any (fun f => f.access != .wo && decide (f.lo ≤ b) && decide (b ≤ f.hi)) && (s.word r i j).testBit b)) ∧
      ∀ f ∈ r.fields, ∀ b, f.lo ≤ b → b ≤ f.hi → (t.word r i j).testBit b = (f.access != .rc && (s.word r i j).testBit b)) ∧
  (∀ (s : State) (m : Fin 64) (r : Reg) (i j : Nat), Sound s → SecCommand s 0x0302 m → Permitted s m → arg s m 1 < 2 ^ 28 → arg s m 1 % 8 = 0 →
    regAt (arg s m 1) = some (r, i, j) → r.base ∉ actingBases → r.base ∉ messageBases → ¬ inAssay r → s.csrUp (arg s m 1) = true →
    ∃ t, exec .csrWrite s = .next t ∧ Answered s t m 41 0x4000 0 [] ∧
      ∀ f ∈ r.fields, ∀ b, f.lo ≤ b → b ≤ f.hi →
        (t.word r i j).testBit b = bitAfterWrite f.access (s.locked r i) true ((s.word r i j).testBit b) ((arg s m 2).testBit b)) ∧
  (∀ (s : State), Sound s → nth false s.dieUp 0 = true → s.mod.power.clocked = true → s.get Fld.SEC_DBG.ACTIVE = 0 → ∃ t, exec .debugAttach s = .next t ∧ t = { s with
      csr := t.csr, free := t.free } ∧ t.get Fld.SEC_DBG.ATTACHED = 1 ∧ t.get Fld.SEC_DBG.ACTIVE = 1 ∧
    t.get Fld.SEC_DBG.ATTACH_COUNT = Nat.min (s.get Fld.SEC_DBG.ATTACH_COUNT + 1) (2 ^ (Fld.SEC_DBG.ATTACH_COUNT.hi + 1 - Fld.SEC_DBG.ATTACH_COUNT.lo) - 1) ∧
    ∀ i w, i < 15 → w < 8 → t.get Fld.MREG.VALUE i w = s.get Fld.MREG.VALUE i w) ∧
  (∀ (s : State) (c : Fin 12), Sound s → s.get Fld.SEC_DBG.ACTIVE = 1 → s.isUp (dieOfCore c) = true →
    ∃ t, exec (.debugHalt c) s = .next t ∧ t = { s with cores := t.cores } ∧ t.core c = { s.core c with run := .halted } ∧
      ∀ d, d ≠ c.val → t.core d = s.core d) ∧
  ∀ (s : State), Sound s → s.get Fld.SEC_DBG.ACTIVE = 1 → ∃ t, exec .debugDetach s = .next t ∧ t = { s with
      csr := t.csr, cores := t.cores } ∧ BitsBut [(Fld.SEC_DBG.ACTIVE, 0, 0)] s t ∧ t.get Fld.SEC_DBG.ACTIVE = 0 ∧
    ∀ c : Fin 12, t.core c = if (s.core c).run = .halted then { s.core c with run := .idle } else s.core c

end Sys2Proof.Spec

/-- R476, R482–R487: the security core denies senders that may not command it; QUOTE writes what it signs, EXTEND extends MREG14; STAGE
fails as its table says or programs the idle slot; ACTIVATE claims a leap tick; a component drains in it, restarts, and runs its new
image, or after 10 ms its old one; CSR_READ and CSR_WRITE reach the window as the host would; a debug attach is counted, halts cores
and is undone by the detach. BAD_ARG for a component above 5 and for an
offset outside the window, and a leap tick of the drain and the restart together, are the model's readings (log entry 21). -/
def Obligations.SecurityCore : Prop := QuotesAndExtends ∧ StagesAndActivations ∧ ComponentUpdates ∧ RegisterCommandsAndDebug

namespace Sys2Proof.Spec

/-! Power states and resets. -/

/-- A field of a register's instance keeps its value, or takes its Reset value (R9, R10). -/
def KeepsField (s t : State) (r : Reg) (i j : Nat) (f : Field) : Prop := bits (t.word r i j) f.hi f.lo = bits (s.word r i j) f.hi f.lo
def ResetsField (t : State) (r : Reg) (i j : Nat) (f : Field) : Prop := bits (t.word r i j) f.hi f.lo = bits (r.resetWord i j) f.hi f.lo

/-- Bytes of the stacks are the same (R494). -/
def SameStacks (s t : State) : Prop := ∀ a, a < 0x20000000000 → byteAt t.mem a = byteAt s.mem a

/-- ENTER is accepted (R489). -/
abbrev MayEnter (s : State) : Prop :=
  s.mod.power = .on ∧ (∀ p, p < 16 → s.get Fld.STEP_STATE.STATE p = 0 ∨ s.get Fld.STEP_STATE.STATE p = 3 ∨ s.get Fld.STEP_STATE.STATE p = 4) ∧
    s.get Fld.LEAP_CTRL.STATE = 0 ∧ (∀ c, c < 4 → s.get Fld.CH_CFG.EN c = 0) ∧ s.sec.stage = none

/-- A command that the power manager of die 0 answers: in operation, and while the module leaves D1 or D2 (R373, R489, R492). -/
abbrev PmServed (s : State) (code : Nat) (m : Fin 64) : Prop :=
  Commanded s 19 pmKnown code m 38 ∧ s.compDown 3 = false ∧
    (s.isUp 0 = true ∨ nth false s.dieUp 0 = true ∧ (s.mod.power = .leaving 1 ∨ s.mod.power = .leaving 2))

/-- R489, R491, R492: ENTER and RESET are answered before they act, denied, refused or carried out as their words and the module's
condition say. -/
def PowerCommands : Prop :=
  (∀ (s : State) (m : Fin 64), Sound s → PmServed s 0x0B01 m →
    let dest := arg s m 1 % 4
    let wake := arg s m 2 % 2 ^ 48
    let bad := dest = 0 ∨ dest = 3 ∧ wake ≠ 0
    (¬ Permitted s m → ∃ t, exec .enter s = .next t ∧ Answered s t m 38 0x3000 3 []) ∧
    (Permitted s m → bad → ∃ t, exec .enter s = .next t ∧ Answered s t m 38 0x3000 1 []) ∧
    (Permitted s m → ¬ bad → ¬ MayEnter s → ∃ t, exec .enter s = .next t ∧ Answered s t m 38 0x3000 2 []) ∧
    (Permitted s m → ¬ bad → MayEnter s → ∃ t, exec .enter s = .next t ∧ Taken t m ∧ Replied t 38 0x3000 (arg s m 0) 0 [] ∧
      t.mod = { s.mod with power := .entering dest, wakeAt := wake, exitReq := false } ∧ (∀ p : Fin 4, t.get Fld.PORT_STAT.UP p = 0) ∧
      (∀ k : Fin 20, t.get Fld.STK_STATUS.STATE k = if s.get Fld.STK_STATUS.STATE k = 2 then 3 else s.get Fld.STK_STATUS.STATE k) ∧
      SameMemory s t ∧ t.cores = s.cores ∧ t.parts = s.parts)) ∧
  ∀ (s : State) (m : Fin 64), Sound s → PmServed s 0x0B02 m →
    let scope := arg s m 1 % 4
    (¬ Permitted s m → ∃ t, exec .reset s = .next t ∧ Answered s t m 38 0x3000 3 []) ∧
    (Permitted s m → scope = 0 → ∃ t, exec .reset s = .next t ∧ Answered s t m 38 0x3000 1 []) ∧
    (Permitted s m → ∀ d : Fin 2, scope = d + 1 → nth false s.dieUp d = true → s.mod.power.clocked = true →
      ∃ u t, exec .reset s = .next t ∧ Answered s u m 38 0x3000 0 [] ∧ exec (.dieReset d) u = .next t) ∧
    (Permitted s m → scope = 3 → ∃ u t, exec .reset s = .next t ∧ Answered s u m 38 0x3000 0 [] ∧ exec .warmReset u = .next t)

/-- R10, R491–R494: entry into D1 keeps what lists D1, into D2 what lists D2 and not the shared buffers, into Standby only the island;
a quiesced partition keeps its configuration and another none; PMCSR or WAKE_AT starts an exit, kept for the end of an
entry; the exit wakes the stacks, or is a cold reset where D2's digests differ. -/
def Dormancy : Prop :=
  (∀ (s : State) (dest : Nat), Sound s → s.mod.power = .entering dest → dest = 1 ∨ dest = 2 →
    ∃ t, exec .dormancyEntryDone s = .next t ∧ t.mod.power = (if s.mod.exitReq then .leaving dest else .asleep dest) ∧
      t.mod.wakeAt = s.mod.wakeAt ∧ t.isUp 0 = false ∧ t.isUp 1 = false ∧ SameStacks s t ∧
      (dest = 1 → t.mem = s.mem ∧ t.gran = s.gran ∧ (∀ c : Fin 12, (t.core c).trf = (s.core c).trf) ∧ t.delivered = s.delivered) ∧
      (dest = 2 → (∀ a, 0x20000000000 ≤ a → a < 0x20003000000 → byteAt t.mem a = 0) ∧ (∀ c : Fin 12, (t.core c).trf = [])) ∧
      (∀ c : Fin 12, (t.core c).queue = [] ∧ (t.core c).rc = [] ∧ ∀ d ∈ (t.core c).td, d.valid = false) ∧
      (∀ (k : Fin 20) (sl : Nat), sl < 17 → nth 0 (t.stack k).level sl = ((nth 16 (t.stack k).depth sl * 10240000000 : Nat) : Int) ∧
        if sl = 16 ∨ s.get Fld.STEP_STATE.STATE sl = 4 then nth 16 (t.stack k).depth sl = nth 16 (s.stack k).depth sl ∧
          nth 0 (t.stack k).rate sl = nth 0 (s.stack k).rate sl ∧ nth 0xFFFF (t.stack k).deferLeft sl = s.get Fld.SL_CFG.REF_DEFER k sl
        else nth 16 (t.stack k).depth sl = 16 ∧ nth 0 (t.stack k).rate sl = 0 ∧ nth 0xFFFF (t.stack k).deferLeft sl = 0xFFFF) ∧
      (∀ p : Fin 16, t.part p = if s.get Fld.STEP_STATE.STATE p = 4 then { s.part p with semq := [] } else PartSt.reset) ∧
      (∀ p : Fin 16, t.get Fld.STEP_STATE.STATE p = (if s.get Fld.STEP_STATE.STATE p = 4 then 4 else 0) ∧
        t.get Fld.STEP_CFG.LEN_M1 p = (if s.get Fld.STEP_STATE.STATE p = 4 then s.get Fld.STEP_CFG.LEN_M1 p else 0)) ∧
      ∀ (r : Reg) (f : Field) (i j : Nat), f ∈ r.fields → regAt (r.off i j) = some (r, i, j) → r.base ≠ Reg.STK_STATUS.base →
        (f.kept ∉ [Kept.none, .d1, .d12q] → KeepsField s t r i j f) ∧ (f.kept = .d1 → dest = 1 → KeepsField s t r i j f) ∧
        (f.kept = .none → r.base ∉ [Reg.PWR_DIE.base, Reg.OPP_NEXT.base, Reg.PWR_BUDGET.base] → ResetsField t r i j f) ∧
        (f.kept = .d1 → dest = 2 → ResetsField t r i j f)) ∧
  (∀ (s : State), Sound s → s.mod.power = .entering 3 → ∃ t, exec .dormancyEntryDone s = .next t ∧ t.mod.power = .asleep 3 ∧ t.mem = [] ∧
    t.gran = [] ∧ t.cores = State.reset.cores ∧ t.parts = State.reset.parts ∧ t.asy = s.asy ∧ t.host = s.host ∧
    t.get Fld.TICK_COUNT.COUNT = s.get Fld.TICK_COUNT.COUNT ∧ t.get Fld.BTICK_NUM.NUM = s.get Fld.BTICK_NUM.NUM) ∧
  (∀ (s : State) (i : Instr) (n : Nat), i = .pmcsrD0Write ∨ i = .wakeAtReached ∧ 1 ≤ s.mod.wakeAt ∧ s.mod.wakeAt ≤ s.get Fld.BTICK_NUM.NUM →
    n = 1 ∨ n = 2 →
    (s.mod.power = .asleep n → exec i s = .next { s with mod := { s.mod with power := .leaving n } }) ∧
    (s.mod.power = .entering n → exec i s = .next { s with mod := { s.mod with exitReq := true } }) ∧
    (s.mod.power = .on → exec i s = .next s)) ∧
  (∀ (s : State), s.mod.wakeAt = 0 ∨ s.get Fld.BTICK_NUM.NUM < s.mod.wakeAt → exec .wakeAtReached s = .next s) ∧
  ∀ (s : State) (n : Nat), Sound s → s.mod.power = .leaving n → n = 1 ∨ n = 2 →
    (n = 1 ∨ s.sec.flash.digests = s.sec.measured → ∃ t, exec .dormancyExitDone s = .next t ∧ t = { s with
        csr := t.csr, stks := t.stks, net := { s.net with lanes := t.net.lanes }
        mod := { s.mod with power := .on, wakeAt := 0, exitReq := false } } ∧
      BitsBut ((Fld.SEC_STATE.STATE, 0, 0) :: (List.range 20).map (fun k => (Fld.STK_STATUS.STATE, k, 0)) ++
        (List.range 4).flatMap (fun p => [(Fld.PORT_STAT.UP, p, 0), (Fld.PORT_STAT.TRAINING, p, 0)])) s t ∧ t.get Fld.SEC_STATE.STATE = 1 ∧
      (∀ k : Fin 20, t.get Fld.STK_STATUS.STATE k = (if s.get Fld.STK_STATUS.STATE k = 3 then 2 else s.get Fld.STK_STATUS.STATE k) ∧
        t.stack k = { s.stack k with refNext := if s.get Fld.STK_STATUS.STATE k = 3 then [] else (s.stack k).refNext }) ∧
      ∀ p : Fin 4, s.get Fld.PORT_CFG.EN p = 1 → t.isUp (p / 2) = true → nth true s.sec.loaded 5 = true →
        t.get Fld.PORT_STAT.UP p = 0 ∧ t.get Fld.PORT_STAT.TRAINING p = [1, 3, 15].getD (s.get Fld.PORT_CFG.BREAKOUT p) 1) ∧
    (n = 2 → s.sec.flash.digests ≠ s.sec.measured → exec .dormancyExitDone s = exec .coldReset s)

/-- Die d is in reset with what the Die event leaves (R488, R494, R495): its cores, its partitions and the fields homed on it that
do not list Die at their reset values, its stacks in self-refresh with their bytes, and a report owed. -/
def DieDown (s t : State) (d : Nat) (ds : List Nat) (scope cause : Nat) (keep : Kept → Bool) : Prop :=
  nth false t.dieUp d = false ∧ t.isUp d = false ∧
    (∀ c : Fin 12, dieOfCore c = d → t.core c = CoreSt.reset) ∧
    (∀ p : Fin 16, d = 0 ∨ s.hasDie p 1 = true → t.part p = PartSt.reset) ∧
    (∀ k : Fin 20, dieOfStack k = d →
      t.get Fld.STK_STATUS.STATE k = if s.get Fld.STK_STATUS.STATE k = 4 ∧ scope ≠ 3 then 4 else 3) ∧
    (∀ (r : Reg) (f : Field) (i j : Nat), f ∈ r.fields → regAt (r.off i j) = some (r, i, j) → r.homeDie i ∈ ds →
      r.base ≠ Reg.STK_STATUS.base → r.base ≠ Reg.AGE_EVT.base → keep f.kept = false → ResetsField t r i j f) ∧
    (0 ∈ ds → SameStacks s t) ∧
    t.get Fld.TICK_COUNT.COUNT = s.get Fld.TICK_COUNT.COUNT ∧ t.get Fld.BTICK_NUM.NUM = s.get Fld.BTICK_NUM.NUM ∧
    ∃ x, t.mod.resets = s.mod.resets ++ [x] ∧ x.scope = scope ∧ x.cause = cause ∧ x.btick = s.get Fld.BTICK_NUM.NUM ∧ x.csr = 0

/-- The Kept across entries that list a die reset, and a warm reset. -/
def listsDie (k : Kept) : Bool := k == .die || k == .warm || k == .cold || k == .standby
def listsWarm (k : Kept) : Bool := k == .warm || k == .cold || k == .standby

/-- The stamp of a partition in a reset report (R501). -/
def stampWord (s : State) (p : Nat) : Nat :=
  let x := nth ⟨0, 0, 0⟩ s.mod.stamps p
  x.commits % 2 ^ 56 + x.gen * 2 ^ 56 + x.copy * 2 ^ 57 + p * 2 ^ 60

/-- R386, R488, R490, R494, R495, R501: a die reset takes its die down with its cause; a watchdog resets its controller's die, the
security core's the module; a warm reset and a CXL Reset take both dies down and keep the stacks; a die returns with its stacks UP
and the report of R501. -/
def DieAndWarmResets : Prop :=
  (∀ (s : State) (d : Fin 2), Sound s → nth false s.dieUp d = true → s.mod.power.clocked = true →
    ∃ t, exec (.dieReset d) s = .next t ∧ DieDown s t d [d.val] (d + 1) 1 listsDie ∧ ∀ e, e < 2 → e ≠ d.val → nth false t.dieUp e = nth false s.dieUp e) ∧
  (∀ (s : State) (d : Fin 2) (w : Fin 3), Sound s → s.isUp d = true →
    (w.val ≤ 1 → ∃ t, exec (.watchdogExpiry d w) s = .next t ∧ DieDown s t d [d.val] (d + 1) (2 + w) listsDie) ∧
    (w.val = 2 → d.val = 0 → ∃ t, exec (.watchdogExpiry d w) s = .next t ∧ DieDown s t 0 [0, 1] 3 4 listsWarm ∧ DieDown s t 1 [0, 1] 3 4 listsWarm) ∧
    (w.val = 2 → d.val = 1 → exec (.watchdogExpiry d w) s = .next s)) ∧
  (∀ (s : State) (e : Instr × Nat), Sound s → s.mod.power.warmable = true → e ∈ ([(.warmReset, 1), (.cxlReset, 5)] : List (Instr × Nat)) →
    ∃ t, exec e.1 s = .next t ∧ DieDown s t 0 [0, 1] 3 e.2 listsWarm ∧ DieDown s t 1 [0, 1] 3 e.2 listsWarm ∧
      t.mod.power = .on ∧ t.link.bias = [] ∧ t.link.hdm = LinkSt.reset.hdm ∧ t.mod.stamps = s.mod.stamps ∧ t.asy.seq = s.asy.seq) ∧
  ∀ (s : State) (d : Fin 2) (x : ResetRun), Sound s → s.mod.resets = [x] → nth true s.dieUp d = false →
    (x.scope = d + 1 ∧ nth false s.dieUp (1 - d) = true ∨ x.scope = 3) → s.mod.power.clocked = true → s.get Fld.THERM_STAT.HOLD = 0 → s.mod.idlTest = false → s.asy.rings = none →
    s.link.active = true → ReplyFree s 34 →
    let ps := (List.range 16).filter (fun p => x.ended.testBit p)
    ∃ t, exec (.dieResetDone d) s = .next t ∧ t.isUp 0 = true ∧ t.isUp 1 = true ∧ t.mod.resets = [] ∧
      (∀ k : Fin 20, x.scope = 3 ∨ dieOfStack k = d → s.get Fld.STK_STATUS.STATE k = 3 → t.get Fld.STK_STATUS.STATE k = (if t.stacksTrain then 2 else 4)) ∧
      (ps.length ≤ 13 → (∀ p, (nth ⟨0, 0, 0⟩ s.mod.stamps p).gen < 2 ∧ (nth ⟨0, 0, 0⟩ s.mod.stamps p).copy < 2) →
        x.cause < 16 → x.ended < 2 ^ 16 → x.idl < 2 ^ 16 → x.pan < 2 ^ 16 → x.csr < 2 ^ 16 → x.btick < 2 ^ 48 →
        t.get Fld.R_PEEK.FULL 34 = 1 ∧ t.get Fld.R_PEEK.SENDER 34 = 0x2000 ∧ t.get Fld.R_PEEK.LEN 34 = Nat.max 8 (3 + ps.length) ∧
        t.get Fld.MB_DATA.DATA 34 0 = 0x0C01 ∧ t.get Fld.MB_DATA.DATA 34 1 = x.scope + 16 * x.cause + 65536 * x.btick ∧
        t.get Fld.MB_DATA.DATA 34 2 = x.ended + 65536 * x.idl + 2 ^ 32 * x.pan + 2 ^ 48 * x.csr ∧
        (∀ k, k < ps.length → t.get Fld.MB_DATA.DATA 34 (3 + k) = stampWord s (nth 0 ps k)) ∧
        (t.get Fld.DB_PEND.PEND 0).testBit (s.get Fld.MB_CFG.DB 34) = true)

/-- R473, R488, R494: a cold reset loses everything but the assay die, both flashes and THERM_TRIP; a loss of standby power also the
assay island, whose counter and seal log stand and whose record numbers go on past the next checkpoint. -/
def ColdResets : Prop :=
  ∀ (s : State), Sound s →
    (∃ t, exec .coldReset s = .next t ∧ t.pending = s.pending ∧ t.host = s.host ∧ t.mem = [] ∧ t.gran = [] ∧ t.cores = State.reset.cores ∧
      t.parts = State.reset.parts ∧ t.stks = State.reset.stks ∧ t.mod = State.reset.mod ∧ t.dieUp = State.reset.dieUp ∧ t.link.active = false ∧
      (∀ (r : Reg) (f : Field) (i j : Nat), f ∈ r.fields → regAt (r.off i j) = some (r, i, j) →
        (f.kept ∉ [Kept.cold, .standby] → ResetsField t r i j f) ∧ (f.kept ∈ [Kept.cold, .standby] → KeepsField s t r i j f)) ∧
      t.asy.seq = s.asy.seq ∧ t.asy.prevRec = s.asy.prevRec ∧ t.asy.count = s.asy.count ∧ t.asy.slog = s.asy.slog ∧ t.asy.recQ = s.asy.recQ ∧
      t.asy.tickQ = s.asy.tickQ ∧ t.asy.gap = true ∧ (s.sec.stage = none → t.sec.flash = s.sec.flash)) ∧
    ∃ t, exec .standbyPowerLoss s = .next t ∧ t.mod.power = .dark ∧ t.mem = [] ∧ t.cores = State.reset.cores ∧ t.parts = State.reset.parts ∧
      t.host = s.host ∧ t.isUp 0 = false ∧ t.isUp 1 = false ∧
      (∀ (r : Reg) (f : Field) (i j : Nat), f ∈ r.fields → regAt (r.off i j) = some (r, i, j) →
        (f.kept ≠ .standby → ResetsField t r i j f) ∧ (f.kept = .standby → KeepsField s t r i j f)) ∧
      t.asy.on = false ∧ t.asy.lost = true ∧ t.asy.count = s.asy.count ∧ t.asy.slog = s.asy.slog ∧ t.asy.fwVer = s.asy.fwVer ∧
      t.asy.calId = s.asy.calId ∧ t.asy.recQ = [] ∧ t.asy.tickQ = [] ∧ t.asy.seq % 65536 = 0 ∧ s.asy.seq < t.asy.seq ∧
      t.asy.seq ≤ s.asy.seq + 65536 ∧ (s.sec.stage = none → t.sec.flash = s.sec.flash)

end Sys2Proof.Spec

/-- R386, R473, R488–R495, R501: ENTER and RESET are answered before they act; D1 and D2 keep the fields that list them and what a
quiesced partition holds; an exit wakes the stacks, or is a cold reset where digests differ; a die reset, a watchdog's, a warm and
a CXL Reset take their dies down and keep the stacks' bytes; a die returns with its report; a cold reset and a loss of standby power
keep what their entries list. That CSR_DROP is always 0 is the model's
choice (log entry 20). -/
def Obligations.PowerStatesAndResets : Prop := PowerCommands ∧ Dormancy ∧ DieAndWarmResets ∧ ColdResets

namespace Sys2Proof.Spec

/-! Bring-up and test. -/

/-- A test request refused (R506, R507): nothing but the flag changes. -/
def TestRefused (s t : State) : Prop := OnlyRegs [(Fld.TEST_ERR.REFUSED, 0, 0)] s t ∧ t.get Fld.TEST_ERR.REFUSED = 1

/-- A unit of stack k is owned, or a region lies in it (R506, R507). -/
abbrev StackTaken (s : State) (k : Nat) : Prop :=
  ∃ u, (∃ p, p < 16 ∧ s.owns p k u = true) ∨ ∃ q, q < 32 ∧ s.get Fld.REG_STAT.STATE q ≠ 0 ∧ inRegion s q k u

/-- A spare row that serves a row of the same bank of stack k (R502, R504). -/
abbrev SpareUsed (s : State) (k bank spare : Nat) : Prop := ∃ e ∈ (s.stack k).remap, e.1 < 2 ^ 26 ∧ e.1 / 32768 = bank ∧ e.2 = spare + 1

/-- The granule of a row (R204): pseudo-channel c, bank b of 32, row. -/
def rowGranule (k c b row : Nat) : Nat := (k * stackSpan + row * 0x400000 + b / 16 * 0x200000 + c * 0x10000 + b % 16 * 0x1000) / 4096

/-- R502, R504: a direct repair remaps one row to its spare at once and answers in RESULT; with COPY the data stand, without it only the
row's own lines change; a spare in use changes nothing. -/
def DirectRepairs : Prop :=
  ∀ (s : State) (k : Fin 20) (v : Word), Sound s → s.serves (dieOfStack k) = true →
    let w := v.toNat
    let row := bits w 24 10
    let bank := 32 * bits w 4 0 + bits w 9 5
    let spare := bits w 28 25
    let written := fun (t : State) => t.get Fld.TEST_REP.PCH k = bits w 4 0 ∧ t.get Fld.TEST_REP.BANK k = bits w 9 5 ∧
      t.get Fld.TEST_REP.ROW k = row ∧ t.get Fld.TEST_REP.SPARE k = spare ∧ t.get Fld.TEST_REP.COPY k = bits w 30 30 ∧ t.get Fld.TEST_REP.GO k = 0
    let remapped := fun (t : State) => written t ∧ t.get Fld.TEST_REP.RESULT k = 1 ∧ (∀ j : Fin 20, j ≠ k → t.stack j = s.stack j) ∧
      t.stack k = { s.stack k with remap := (t.stack k).remap } ∧ smFind (t.stack k).remap (32768 * bank + row) = some (spare + 1) ∧
      ∀ x, x ≠ 32768 * bank + row → smFind (t.stack k).remap x = smFind (s.stack k).remap x
    (bits w 63 63 = 0 → ∃ t, exec (.testRepair k v) s = .next t ∧ OnlyRegs [(allOf Reg.TEST_REP, k, 0)] s t ∧ written t ∧
      t.get Fld.TEST_REP.RESULT k = s.get Fld.TEST_REP.RESULT k) ∧
    (bits w 63 63 = 1 → row < 24576 → SpareUsed s k bank spare →
      ∃ t, exec (.testRepair k v) s = .next t ∧ OnlyRegs [(allOf Reg.TEST_REP, k, 0)] s t ∧ written t ∧ t.get Fld.TEST_REP.RESULT k = 2) ∧
    (bits w 63 63 = 1 → row < 24576 → ¬ SpareUsed s k bank spare → bits w 30 30 = 1 →
      ∃ t, exec (.testRepair k v) s = .next t ∧ t = { s with csr := t.csr, stks := t.stks } ∧
        BitsBut [(allOf Reg.TEST_REP, k, 0), (allOf Reg.TEST_SPARES, k, 0)] s t ∧ remapped t) ∧
    (bits w 63 63 = 1 → row < 24576 → ¬ SpareUsed s k bank spare → bits w 30 30 = 0 → row < 24552 →
      let g := rowGranule k (bits w 4 0) (bits w 9 5) row
      ∃ t, exec (.testRepair k v) s = .next t ∧ remapped t ∧ BytesBut s.mem t.mem (4096 * g) 4096 ∧
        (t.granule g).crc = (s.granule g).crc ∧ (t.granule g).valid = (s.granule g).valid ∧ (t.granule g).state = (s.granule g).state ∧
        (∀ h, h ≠ g → t.granule h = s.granule h) ∧
        ∀ a, 4096 * g ≤ a → a < 4096 * g + 4096 → (s.granule g).valid.getLsbD (a / 64 % 64) = false → byteAt t.mem a = byteAt s.mem a)

/-- A byte address lies in a pseudo-channel of stack k that the mask selects. -/
abbrev tested (s : State) (k a : Nat) : Prop :=
  a / stackSpan = k ∧ (s.get Fld.TEST_BIST.PCH_MASK k).testBit (a % stackSpan / 65536 % 32) = true

/-- R507: a self test starts only on a stack that nothing owns and that runs none; its end leaves every line it touched unwritten and every other as it was,
and says pass or fail with the count and the first line. -/
def SelfTests : Prop :=
  (∀ (s : State) (k : Fin 20) (v : Word), Sound s → s.serves (dieOfStack k) = true →
    let w := v.toNat
    let pat := if bits w 2 1 = 3 then 0 else bits w 2 1
    let written := fun (t : State) => t.get Fld.TEST_BIST.PATTERN k = pat ∧ t.get Fld.TEST_BIST.AUTO k = bits w 4 4 ∧
      t.get Fld.TEST_BIST.PCH_MASK k = bits w 63 32
    (bits w 0 0 = 1 → StackTaken s k ∨ s.get Fld.TEST_BIST.GO k = 1 → ∃ t, exec (.testBist k v) s = .next t ∧ TestRefused s t) ∧
    (bits w 0 0 = 1 → ¬ StackTaken s k → s.get Fld.TEST_BIST.GO k = 0 → ∃ t, exec (.testBist k v) s = .next t ∧ written t ∧
      t.get Fld.TEST_BIST.GO k = 1 ∧ t.get Fld.TEST_BSTAT.STATE k = 1 ∧ t.get Fld.TEST_BSTAT.FAILS k = 0 ∧ t.get Fld.TEST_BFIRST.LINE k = 0 ∧
      SameMemory s t ∧ t.cores = s.cores ∧ t.parts = s.parts ∧ t.stackUp k = false ∧
      (pat = 0 → bits w 63 32 = 2 ^ 32 - 1 → (t.stack k).bucket = (s.stack k).bucket - chargeOf true 1030792151040)) ∧
    (bits w 0 0 = 0 → ∃ t, exec (.testBist k v) s = .next t ∧ OnlyRegs [(allOf Reg.TEST_BIST, k, 0)] s t ∧ written t ∧
      t.get Fld.TEST_BIST.GO k = s.get Fld.TEST_BIST.GO k)) ∧
  ∀ (s : State) (k : Fin 20) (fails : List Nat), Sound s → s.isUp (dieOfStack k) = true → s.get Fld.TEST_BIST.GO k = 1 →
    s.get Fld.TEST_BSTAT.FAILS k = 0 → (∀ ln ∈ fails, tested s k (64 * ln)) → fails.Nodup → fails.length < 2 ^ 32 →
    ∃ t, exec (.bistDone k fails) s = .next t ∧ t.get Fld.TEST_BIST.GO k = 0 ∧ t.get Fld.TEST_BSTAT.STATE k = (if fails = [] then 2 else 3) ∧
      t.get Fld.TEST_BSTAT.FAILS k = fails.length ∧
      (∀ a, tested s k a → byteAt t.mem a = 0 ∧ smGet 0#512 t.ecc (a / 64) = 0#512) ∧
      (∀ g, tested s k (4096 * g) → t.granule g = Gran.empty) ∧
      (∀ a, ¬ tested s k a → byteAt t.mem a = byteAt s.mem a) ∧ (∀ g, ¬ tested s k (4096 * g) → t.granule g = s.granule g) ∧
      (∀ ln ∈ fails, (∀ x ∈ fails, ln ≤ x) → t.get Fld.TEST_BFIRST.LINE k = ln) ∧
      (s.get Fld.TEST_BIST.AUTO k = 0 → t.stks = s.stks) ∧
      ∀ j : Fin 20, j ≠ k → t.stack j = s.stack j

/-- R505, R506: RETRY lets every stack that gave up train again; margining waits for the next leap tick; each loopback starts only under
its condition, and one of the inter-die link takes die 1 down while it runs. -/
def LinkTests : Prop :=
  (∀ (s : State) (v : Word), Sound s → s.serves 0 = true →
    (bits v.toNat 63 63 = 1 → ∃ t, exec (.testTrainRetry v) s = .next t ∧ t = { s with csr := t.csr, stks := t.stks } ∧
      BitsBut [(Fld.TEST_TRAIN.GAVE_UP, 0, 0)] s t ∧ t.get Fld.TEST_TRAIN.GAVE_UP = 0 ∧
      ∀ k : Fin 20, t.stack k = if (s.get Fld.TEST_TRAIN.GAVE_UP).testBit k then { s.stack k with trainTries := 0 } else s.stack k) ∧
    (bits v.toNat 63 63 = 0 → exec (.testTrainRetry v) s = .next s)) ∧
  (∀ (s : State) (k : Fin 20) (v : Word), Sound s → s.serves (dieOfStack k) = true →
    ∃ t, exec (.testMargin k v) s = .next t ∧ OnlyRegs [(Fld.TEST_MARGIN.GO, k, 0)] s t ∧
      t.get Fld.TEST_MARGIN.GO k = Nat.max (s.get Fld.TEST_MARGIN.GO k) (bits v.toNat 0 0)) ∧
  (∀ (s : State) (d : Fin 2) (v : Word) (i : Instr), Sound s → s.serves d = true → i = .idlMargin d v ∨ i = .idlLoopback d v →
    (bits v.toNat 0 0 = 1 → s.get Fld.LEAP_CTRL.STATE ≠ 2 → ∃ t, exec i s = .next t ∧ TestRefused s t) ∧
    (bits v.toNat 0 0 = 1 → s.get Fld.LEAP_CTRL.STATE = 2 → ∃ t, exec i s = .next t ∧ t = { s with csr := t.csr, mod := t.mod, free := t.free } ∧
      BitsBut [(allOf Reg.TEST_IDL, d, 0)] s t ∧ t.get Fld.TEST_IDL.LOOP d = 1 ∧ t.isUp 1 = false ∧
      t.mod = { s.mod with idlTest := true }) ∧
    (bits v.toNat 0 0 = 0 → ∃ t, exec i s = .next t ∧ t = { s with csr := t.csr, mod := t.mod } ∧
      BitsBut [(Fld.TEST_IDL.LOOP, d, 0), (Fld.TEST_IDL.MARGIN, d, 0)] s t ∧ t.get Fld.TEST_IDL.LOOP d = 0 ∧
      t.get Fld.TEST_IDL.MARGIN d = Nat.max (s.get Fld.TEST_IDL.MARGIN d) (bits v.toNat 1 1))) ∧
  (∀ (s : State) (k : Fin 20) (v : Word), Sound s → s.serves (dieOfStack k) = true →
    (bits v.toNat 0 0 = 1 → StackTaken s k → ∃ t, exec (.stackLoopback k v) s = .next t ∧ TestRefused s t) ∧
    (bits v.toNat 0 0 = 1 → ¬ StackTaken s k → ∃ t, exec (.stackLoopback k v) s = .next t ∧ t = { s with csr := t.csr, free := t.free } ∧
      BitsBut [(allOf Reg.TEST_SLOOP, k, 0)] s t ∧ t.get Fld.TEST_SLOOP.LOOP k = 1) ∧
    (bits v.toNat 0 0 = 0 → ∃ t, exec (.stackLoopback k v) s = .next t ∧ OnlyRegs [(Fld.TEST_SLOOP.LOOP, k, 0)] s t ∧
      t.get Fld.TEST_SLOOP.LOOP k = 0)) ∧
  ∀ (s : State) (port : Fin 4) (v : Word), Sound s → s.serves (port / 2) = true →
    let asks := bits v.toNat 1 0 ≠ 0 ∨ bits v.toNat 4 4 = 1
    (asks → s.get Fld.PORT_CFG.EN port = 1 → ∃ t, exec (.ethLoopback port v) s = .next t ∧ TestRefused s t) ∧
    (¬ asks ∨ s.get Fld.PORT_CFG.EN port = 0 → ∃ t, exec (.ethLoopback port v) s = .next t ∧ t = { s with csr := t.csr, free := t.free } ∧
      BitsBut [(allOf Reg.TEST_ETH, port, 0), (allOf Reg.TEST_ETH1, port, 0)] s t ∧
      t.get Fld.TEST_ETH.LOOP port = (if bits v.toNat 1 0 = 3 then 0 else bits v.toNat 1 0) ∧ t.get Fld.TEST_ETH.PRBS_EN port = bits v.toNat 4 4)

end Sys2Proof.Spec

/-- R502, R504–R507: a direct repair remaps one row to its spare and answers in RESULT; a self test starts only on a stack that nothing
owns and leaves what it touched unwritten; RETRY lets stacks that gave up train again; each loopback starts only under its condition,
else the request is refused. What the spare held, bit error counts and the
energy of the other patterns are free values, and that a GO while a self test runs is refused is the model's choice (log entry 23). -/
def Obligations.RepairTestAndLoopback : Prop := DirectRepairs ∧ SelfTests ∧ LinkTests
end

