-- ==== Sys2Proof/Laws/Bits.lean ====
section
/-!
SUPPORT. Bit fields: what a field holds after it or another one is replaced.
-/
namespace Sys2Proof.Machine

/-- A number split at a field's place. -/
theorem setBits_eq (v hi lo x : Nat) :
    setBits v hi lo x = v % 2 ^ lo + 2 ^ lo * (x % 2 ^ (hi + 1 - lo) + 2 ^ (hi + 1 - lo) * (v / 2 ^ lo / 2 ^ (hi + 1 - lo))) := by
  unfold setBits
  simp only [Nat.shiftRight_eq_div_pow, Nat.shiftLeft_eq]
  generalize hw : hi + 1 - lo = w
  have h1 := Nat.mod_add_div v (2 ^ lo)
  have h2 := Nat.mod_add_div (v / 2 ^ lo) (2 ^ w)
  generalize v / 2 ^ lo = q at *
  generalize hp : 2 ^ lo = p at *
  generalize 2 ^ w = m at *
  generalize q / m = c at *
  generalize q % m = b at *
  generalize x % m = y at *
  generalize v % p = a at *
  subst h2
  subst h1
  have : p * (b + m * c) = b * p + p * (m * c) := by ring
  rw [this]
  have e : p * (y + m * c) = y * p + p * (m * c) := by ring
  rw [e]
  omega

/-- A replaced field holds the low bits of its new value. -/
theorem bits_setBits_same (v hi lo x : Nat) : bits (setBits v hi lo x) hi lo = x % 2 ^ (hi + 1 - lo) := by
  rw [setBits_eq, bits, Nat.shiftRight_eq_div_pow, Nat.add_mul_div_left _ _ (Nat.two_pow_pos lo),
    Nat.div_eq_of_lt (Nat.mod_lt _ (Nat.two_pow_pos lo)), Nat.zero_add, Nat.add_mul_mod_self_left, Nat.mod_mod]

/-- A field above a replaced one stands. -/
theorem bits_setBits_above (v hi lo x hi' lo' : Nat) (h : hi < lo') (hl : lo ≤ hi + 1) :
    bits (setBits v hi lo x) hi' lo' = bits v hi' lo' := by
  obtain ⟨k, rfl⟩ : ∃ k, lo' = lo + (hi + 1 - lo) + k := ⟨lo' - (hi + 1), by omega⟩
  have e : (setBits v hi lo x) / 2 ^ lo / 2 ^ (hi + 1 - lo) = v / 2 ^ lo / 2 ^ (hi + 1 - lo) := by
    rw [setBits_eq, Nat.add_mul_div_left _ _ (Nat.two_pow_pos lo), Nat.div_eq_of_lt (Nat.mod_lt _ (Nat.two_pow_pos lo)),
      Nat.zero_add, Nat.add_mul_div_left _ _ (Nat.two_pow_pos _), Nat.div_eq_of_lt (Nat.mod_lt _ (Nat.two_pow_pos _)), Nat.zero_add]
  simp only [bits, Nat.shiftRight_eq_div_pow, Nat.pow_add, ← Nat.div_div_eq_div_mul, e]

/-- A field below a replaced one stands. -/
theorem bits_setBits_below (v hi lo x hi' lo' : Nat) (h : hi' < lo) : bits (setBits v hi lo x) hi' lo' = bits v hi' lo' := by
  by_cases hh : hi' + 1 ≤ lo'
  · have : hi' + 1 - lo' = 0 := by omega
    simp [bits, this, Nat.mod_one]
  have key : ∀ r : Nat, bits r hi' lo' = (r % 2 ^ lo) / 2 ^ lo' % 2 ^ (hi' + 1 - lo') := by
    intro r
    obtain ⟨k, hk⟩ : ∃ k, lo = lo' + (hi' + 1 - lo') + k := ⟨lo - (hi' + 1), by omega⟩
    rw [bits, Nat.shiftRight_eq_div_pow, hk, Nat.pow_add, Nat.pow_add, Nat.mul_assoc, Nat.mod_mul_right_div_self,
      Nat.mod_mul_right_mod]
  rw [key, key v, setBits_eq, Nat.add_mul_mod_self_left, Nat.mod_mod]

/-- A field replaced within a 64-bit word leaves a 64-bit word. -/
theorem setBits_lt (v hi lo x : Nat) (hv : v < 2 ^ 64) (hh : hi < 64) (hl : lo ≤ hi) : setBits v hi lo x < 2 ^ 64 := by
  rw [setBits_eq]
  have e : (2 : Nat) ^ 64 = 2 ^ lo * (2 ^ (hi + 1 - lo) * 2 ^ (63 - hi)) := by
    rw [← Nat.pow_add, ← Nat.pow_add]; congr 1; omega
  have c : v / 2 ^ lo / 2 ^ (hi + 1 - lo) < 2 ^ (63 - hi) := by
    rw [Nat.div_div_eq_div_mul, Nat.div_lt_iff_lt_mul (by positivity)]
    rw [e] at hv
    linarith [Nat.mul_comm (2 ^ (63 - hi)) (2 ^ lo * 2 ^ (hi + 1 - lo)), Nat.mul_assoc (2 ^ lo) (2 ^ (hi + 1 - lo)) (2 ^ (63 - hi))]
  have a := Nat.mod_lt v (Nat.two_pow_pos lo)
  have b := Nat.mod_lt x (Nat.two_pow_pos (hi + 1 - lo))
  rw [e]
  generalize 2 ^ lo = p at *
  generalize 2 ^ (hi + 1 - lo) = m at *
  generalize 2 ^ (63 - hi) = n at *
  generalize v / p / m = y at *
  have h1 : x % m + m * y < m * n := by nlinarith [Nat.mul_le_mul_left m c]
  nlinarith [Nat.mul_le_mul_left p h1]

/-- A field is below its width's power. -/
theorem bits_lt (v hi lo : Nat) : bits v hi lo < 2 ^ (hi + 1 - lo) := Nat.mod_lt _ (Nat.two_pow_pos _)

end Sys2Proof.Machine
end

