-- ==== Sys2Proof/Laws/Maps.lean ====
section
/-!
SUPPORT. Sparse maps: reads after writes, and that every operation keeps the canonical form.
-/
namespace Sys2Proof.Machine

variable {α : Type}

/-- A key is above a bound, if there is one. -/
def aboveBound (b : Option Nat) (k : Nat) : Prop := ∀ x, b = some x → x < k

theorem smSortedFrom_cons (b : Option Nat) (k : Nat) (v : α) (m : SMap α) :
    smSortedFrom b ((k, v) :: m) = true ↔ aboveBound b k ∧ smSortedFrom (some k) m = true := by
  cases b <;> simp [smSortedFrom, aboveBound]

theorem smSortedFrom_weaken (b c : Option Nat) (m : SMap α) (h : smSortedFrom b m = true)
    (hc : ∀ k, aboveBound b k → aboveBound c k) : smSortedFrom c m = true := by
  cases m with
  | nil => cases c <;> rfl
  | cons e m => obtain ⟨k, v⟩ := e; rw [smSortedFrom_cons] at h ⊢; exact ⟨hc _ h.1, h.2⟩

/-- A sorted map lists no key at or below its bound. -/
theorem smFind_eq_none_of_bound (x q : Nat) (m : SMap α) (h : smSortedFrom (some x) m = true) (hq : q ≤ x) : smFind m q = none := by
  induction m generalizing x with
  | nil => rfl
  | cons e m ih =>
    obtain ⟨k, v⟩ := e
    rw [smSortedFrom_cons] at h
    have hk : x < k := h.1 x rfl
    rw [smFind, if_neg (by omega)]
    exact ih k h.2 (by omega)

/-- Reading a key after it is inserted. -/
@[simp] theorem smFind_smInsert_same (m : SMap α) (q : Nat) (x : α) : smFind (smInsert m q x) q = some x := by
  induction m with
  | nil => simp [smInsert, smFind]
  | cons e m ih =>
    obtain ⟨k, v⟩ := e
    unfold smInsert
    split
    · simp [smFind]
    · split
      · simp [smFind]
      · rename_i h _; simp [smFind, h, ih]

/-- Reading another key after an insertion. -/
theorem smFind_smInsert_ne (m : SMap α) (q r : Nat) (x : α) (h : r ≠ q) : smFind (smInsert m q x) r = smFind m r := by
  induction m with
  | nil => simp [smInsert, smFind, Ne.symm h]
  | cons e m ih =>
    obtain ⟨k, v⟩ := e
    unfold smInsert
    split
    · subst_vars; simp [smFind, Ne.symm h]
    · split
      · simp [smFind, Ne.symm h]
      · simp [smFind, ih]

/-- Reading another key after an erasure. -/
theorem smFind_smErase_ne (m : SMap α) (q r : Nat) (h : r ≠ q) : smFind (smErase m q) r = smFind m r := by
  induction m with
  | nil => rfl
  | cons e m ih =>
    obtain ⟨k, v⟩ := e
    unfold smErase
    split
    · subst_vars; simp [smFind, Ne.symm h]
    · split
      · rfl
      · simp [smFind, ih]

/-- Reading a key after it is erased from a sorted map. -/
theorem smFind_smErase_same (b : Option Nat) (m : SMap α) (q : Nat) (h : smSortedFrom b m = true) : smFind (smErase m q) q = none := by
  induction m generalizing b with
  | nil => rfl
  | cons e m ih =>
    obtain ⟨k, v⟩ := e
    rw [smSortedFrom_cons] at h
    unfold smErase
    split
    · subst_vars; exact smFind_eq_none_of_bound _ _ _ h.2 (le_refl _)
    · split
      · rename_i hk hq; rw [smFind, if_neg hk]; exact smFind_eq_none_of_bound _ _ _ h.2 (by omega)
      · rename_i hk hq; rw [smFind, if_neg hk]; exact ih _ h.2

variable [DecidableEq α]

/-- Reading another key after a write. -/
theorem smGet_smPut_ne (d : α) (m : SMap α) (q r : Nat) (x : α) (h : r ≠ q) : smGet d (smPut d m q x) r = smGet d m r := by
  unfold smGet smPut
  split
  · rw [smFind_smErase_ne _ _ _ h]
  · rw [smFind_smInsert_ne _ _ _ _ h]

/-- Reading a key after it is written in a map in canonical form. -/
theorem smGet_smPut_same (d : α) (m : SMap α) (q : Nat) (x : α) (h : smWf d m = true) : smGet d (smPut d m q x) q = x := by
  unfold smGet smPut
  split
  · rename_i hx
    simp only [smWf, Bool.and_eq_true] at h
    rw [smFind_smErase_same none m q h.1, hx, Option.getD_none]
  · rw [smFind_smInsert_same, Option.getD_some]

omit [DecidableEq α] in
theorem smSortedFrom_smInsert (b : Option Nat) (m : SMap α) (q : Nat) (x : α) (h : smSortedFrom b m = true) (hq : aboveBound b q) :
    smSortedFrom b (smInsert m q x) = true := by
  induction m generalizing b with
  | nil => rw [smInsert, smSortedFrom_cons]; exact ⟨hq, rfl⟩
  | cons e m ih =>
    obtain ⟨k, v⟩ := e
    rw [smSortedFrom_cons] at h
    unfold smInsert
    split
    · subst_vars; rw [smSortedFrom_cons]; exact h
    · split
      · rename_i hk hlt
        rw [smSortedFrom_cons]
        refine ⟨hq, ?_⟩
        rw [smSortedFrom_cons]
        exact ⟨fun y hy => by simp only [Option.some.injEq] at hy; omega, h.2⟩
      · rename_i hk hlt
        rw [smSortedFrom_cons]
        exact ⟨h.1, ih _ h.2 (fun y hy => by simp only [Option.some.injEq] at hy; omega)⟩

omit [DecidableEq α] in
theorem smSortedFrom_smErase (b : Option Nat) (m : SMap α) (q : Nat) (h : smSortedFrom b m = true) :
    smSortedFrom b (smErase m q) = true := by
  induction m generalizing b with
  | nil => exact h
  | cons e m ih =>
    obtain ⟨k, v⟩ := e
    have h' := h
    rw [smSortedFrom_cons] at h
    unfold smErase
    split
    · exact smSortedFrom_weaken _ _ _ h.2 (fun y hy x hx => lt_trans (h.1 x hx) (hy k rfl))
    · split
      · exact h'
      · rw [smSortedFrom_cons]; exact ⟨h.1, ih _ h.2⟩

omit [DecidableEq α] in
theorem smSortedFrom_filterMap {β : Type} (b : Option Nat) (m : SMap α) (f : Nat × α → Option (Nat × β))
    (hf : ∀ e e', f e = some e' → e'.1 = e.1) (h : smSortedFrom b m = true) : smSortedFrom b (m.filterMap f) = true := by
  induction m generalizing b with
  | nil => cases b <;> rfl
  | cons e m ih =>
    obtain ⟨k, v⟩ := e
    rw [smSortedFrom_cons] at h
    rw [List.filterMap_cons]
    split
    · exact ih b (smSortedFrom_weaken _ _ _ h.2 (fun y hy x hx => lt_trans (h.1 x hx) (hy k rfl)))
    · rename_i e' he
      obtain ⟨k', v'⟩ := e'
      have hk : k' = k := hf _ _ he
      subst hk
      rw [smSortedFrom_cons]
      exact ⟨h.1, ih _ h.2⟩

omit [DecidableEq α] in
theorem smSortedFrom_filter (b : Option Nat) (m : SMap α) (p : Nat × α → Bool) (h : smSortedFrom b m = true) :
    smSortedFrom b (m.filter p) = true := by
  induction m generalizing b with
  | nil => exact h
  | cons e m ih =>
    obtain ⟨k, v⟩ := e
    rw [smSortedFrom_cons] at h
    rw [List.filter_cons]
    split
    · rw [smSortedFrom_cons]; exact ⟨h.1, ih _ h.2⟩
    · exact ih b (smSortedFrom_weaken _ _ _ h.2 (fun y hy x hx => lt_trans (h.1 x hx) (hy k rfl)))

omit [DecidableEq α] in
theorem mem_smInsert (m : SMap α) (q : Nat) (x : α) (e : Nat × α) (h : e ∈ smInsert m q x) : e = (q, x) ∨ e ∈ m := by
  induction m with
  | nil => simpa [smInsert] using h
  | cons f m ih =>
    obtain ⟨k, v⟩ := f
    unfold smInsert at h
    split at h
    · rcases List.mem_cons.1 h with h | h
      · exact .inl h
      · exact .inr (List.mem_cons_of_mem _ h)
    · split at h
      · rcases List.mem_cons.1 h with h | h
        · exact .inl h
        · exact .inr h
      · rcases List.mem_cons.1 h with h | h
        · exact .inr (h ▸ List.mem_cons_self)
        · rcases ih h with h | h
          · exact .inl h
          · exact .inr (List.mem_cons_of_mem _ h)

omit [DecidableEq α] in
theorem mem_smErase (m : SMap α) (q : Nat) (e : Nat × α) (h : e ∈ smErase m q) : e ∈ m := by
  induction m with
  | nil => exact h
  | cons f m ih =>
    obtain ⟨k, v⟩ := f
    unfold smErase at h
    split at h
    · exact List.mem_cons_of_mem _ h
    · split at h
      · exact h
      · rcases List.mem_cons.1 h with h | h
        · exact h ▸ List.mem_cons_self
        · exact List.mem_cons_of_mem _ (ih h)

theorem smWf_iff (d : α) (m : SMap α) : smWf d m = true ↔ smSortedFrom none m = true ∧ ∀ e ∈ m, e.2 ≠ d := by
  simp [smWf, List.all_eq_true]

/-- A write keeps the canonical form. -/
theorem smWf_smPut (d : α) (m : SMap α) (q : Nat) (x : α) (h : smWf d m = true) : smWf d (smPut d m q x) = true := by
  rw [smWf_iff] at h ⊢
  unfold smPut
  split
  · exact ⟨smSortedFrom_smErase _ _ _ h.1, fun e he => h.2 e (mem_smErase _ _ _ he)⟩
  · rename_i hx
    refine ⟨smSortedFrom_smInsert _ _ _ _ h.1 (fun y hy => by cases hy), fun e he => ?_⟩
    rcases mem_smInsert _ _ _ _ he with rfl | he
    · exact hx
    · exact h.2 e he

/-- Removing entries keeps the canonical form. -/
theorem smWf_smErase (d : α) (m : SMap α) (q : Nat) (h : smWf d m = true) : smWf d (smErase m q) = true := by
  rw [smWf_iff] at h ⊢
  exact ⟨smSortedFrom_smErase _ _ _ h.1, fun e he => h.2 e (mem_smErase _ _ _ he)⟩

theorem smWf_filter (d : α) (m : SMap α) (p : Nat × α → Bool) (h : smWf d m = true) : smWf d (m.filter p) = true := by
  rw [smWf_iff] at h ⊢
  exact ⟨smSortedFrom_filter _ _ _ h.1, fun e he => h.2 e (List.mem_filter.1 he).1⟩

theorem smWf_smDrop (d : α) (m : SMap α) (a n : Nat) (h : smWf d m = true) : smWf d (smDrop m a n) = true := smWf_filter d m _ h

theorem smWf_nil (d : α) : smWf d ([] : SMap α) = true := rfl

omit [DecidableEq α] in
/-- Two sorted maps whose keys do not meet, one after the other. -/
theorem smSortedFrom_append (b : Option Nat) (m n : SMap α) (hm : smSortedFrom b m = true) (hn : smSortedFrom b n = true)
    (h : ∀ e ∈ m, ∀ f ∈ n, e.1 < f.1) : smSortedFrom b (m ++ n) = true := by
  induction m generalizing b with
  | nil => simpa using hn
  | cons e m ih =>
    obtain ⟨k, v⟩ := e
    rw [smSortedFrom_cons] at hm
    rw [List.cons_append, smSortedFrom_cons]
    refine ⟨hm.1, ih (some k) hm.2 ?_ (fun e he f hf => h e (List.mem_cons_of_mem _ he) f hf)⟩
    cases n with
    | nil => rfl
    | cons f n =>
      obtain ⟨j, w⟩ := f
      rw [smSortedFrom_cons] at hn ⊢
      exact ⟨fun y hy => by cases hy; exact h _ List.mem_cons_self _ List.mem_cons_self, hn.2⟩

/-- The cells of a list of bytes are sorted and lie in their range. -/
theorem cellsOfList_aux (a i : Nat) (l : List Byte) :
    let m := ((upFrom i l.length).zip l).filterMap (fun e => if e.2 = 0#8 then none else some (a + e.1, e.2))
    smSortedFrom none m = true ∧ ∀ e ∈ m, a + i ≤ e.1 ∧ e.1 < a + i + l.length ∧ e.2 ≠ 0#8 := by
  induction l generalizing i with
  | nil => exact ⟨rfl, by simp [upFrom]⟩
  | cons x l ih =>
    have ih := ih (i + 1)
    simp only [List.length_cons, upFrom, List.zip_cons_cons, List.filterMap_cons] at ih ⊢
    by_cases hx : x = 0#8
    · simp only [hx, ↓reduceIte]
      exact ⟨ih.1, fun e he => by have := ih.2 e he; exact ⟨by omega, by omega, this.2.2⟩⟩
    · simp only [hx, ↓reduceIte]
      constructor
      · rw [smSortedFrom_cons]
        refine ⟨fun y hy => (by cases hy), ?_⟩
        generalize hm : (List.filterMap _ _ : SMap Byte) = m at ih ⊢
        cases m with
        | nil => rfl
        | cons f m =>
          obtain ⟨j, w⟩ := f
          have hj := (ih.2 (j, w) List.mem_cons_self).1
          have hs := ih.1
          rw [smSortedFrom_cons] at hs ⊢
          exact ⟨fun y hy => by cases hy; simp only at hj; omega, hs.2⟩
      · intro e he
        rcases List.mem_cons.1 he with rfl | he
        · exact ⟨by simp, by simp, hx⟩
        · have := ih.2 e he; exact ⟨by omega, by omega, this.2.2⟩

theorem length_bytesOf (n v : Nat) : (bytesOf n v).length = n := by
  induction n generalizing v with
  | zero => rfl
  | succ n ih => simp [bytesOf, ih]

/-- Replacing a range of a memory by cells that lie in it keeps the canonical form. -/
theorem wf_smSplice (m cells : SMap Byte) (a n : Nat) (h : Memory.wf m = true) (hs : smSortedFrom none cells = true)
    (hc : ∀ e ∈ cells, a ≤ e.1 ∧ e.1 < a + n ∧ e.2 ≠ 0#8) : Memory.wf (smSplice m a n cells) = true := by
  unfold Memory.wf at h ⊢
  rw [smWf_iff] at h ⊢
  unfold smSplice
  constructor
  · apply smSortedFrom_append
    · apply smSortedFrom_append _ _ _ (smSortedFrom_filter _ _ _ h.1) hs
      intro e he f hf
      have := (List.mem_filter.1 he).2
      have := hc f hf
      simp at *; omega
    · exact smSortedFrom_filter _ _ _ h.1
    · intro e he f hf
      have h2 := (List.mem_filter.1 hf).2
      rcases List.mem_append.1 he with he | he
      · have := (List.mem_filter.1 he).2; simp at *; omega
      · have := hc e he; simp at *; omega
  · intro e he
    rcases List.mem_append.1 he with he | he
    · rcases List.mem_append.1 he with he | he
      · exact h.2 e (List.mem_filter.1 he).1
      · exact (hc e he).2.2
    · exact h.2 e (List.mem_filter.1 he).1

/-- Writing a list of bytes keeps the canonical form. -/
theorem wf_smPokeList (m : SMap Byte) (a : Nat) (l : List Byte) (h : Memory.wf m = true) : Memory.wf (smPokeList m a l) = true := by
  have := cellsOfList_aux a 0 l
  exact wf_smSplice _ _ _ _ h this.1 (fun e he => by have := this.2 e he; exact ⟨by omega, by omega, this.2.2⟩)

theorem cellsOf_eq (a n v : Nat) : cellsOf a n v = cellsOfList a (bytesOf n v) := by
  unfold cellsOf cellsOfList; rw [length_bytesOf]

/-- Writing n bytes of a number keeps the canonical form. -/
theorem wf_smPoke (m : SMap Byte) (a n v : Nat) (h : Memory.wf m = true) : Memory.wf (smPoke m a n v) = true := by
  have := wf_smPokeList m a (bytesOf n v) h
  unfold smPokeList at this; unfold smPoke
  rw [length_bytesOf] at this
  rw [cellsOf_eq]; exact this

end Sys2Proof.Machine
end

