-- ==== Sys2Proof/Laws/Bytes.lean ====
section
/-!
SUPPORT. Bytes of a sparse memory: what a read gives after a write, inside and outside the bytes written, and the number a range
spells.
-/
namespace Sys2Proof.Machine

theorem smFind_append {α : Type} (m n : SMap α) (q : Nat) : smFind (m ++ n) q = (smFind m q).or (smFind n q) := by
  induction m with
  | nil => simp [smFind]
  | cons e m ih =>
    obtain ⟨k, v⟩ := e
    by_cases h : k = q <;> simp [smFind, h, ih]

theorem smFind_filter {α : Type} (m : SMap α) (p : Nat → Bool) (q : Nat) :
    smFind (m.filter (fun e => p e.1)) q = if p q = true then smFind m q else none := by
  induction m with
  | nil => simp [smFind]
  | cons e m ih =>
    obtain ⟨k, v⟩ := e
    by_cases hk : p k = true
    · rw [List.filter_cons_of_pos (by simpa using hk)]
      by_cases h : k = q
      · subst h; simp [smFind, hk]
      · simp [smFind, h, ih]
    · rw [List.filter_cons_of_neg (by simpa using hk)]
      by_cases h : k = q
      · subst h; simp [ih, hk]
      · simp [smFind, h, ih]

/-- A key outside the places of a list of bytes is not among its cells. -/
theorem smFind_cells_out (a i : Nat) (l : List Byte) (q : Nat) (h : q < a + i ∨ a + i + l.length ≤ q) :
    smFind (((upFrom i l.length).zip l).filterMap (fun e => if e.2 = 0#8 then none else some (a + e.1, e.2))) q = none := by
  induction l generalizing i with
  | nil => rfl
  | cons x l ih =>
    simp only [List.length_cons, upFrom, List.zip_cons_cons, List.filterMap_cons] at h ⊢
    have ih := ih (i + 1) (by omega)
    split
    · exact ih
    · rename_i e he
      split at he
      · cases he
      · cases he; rw [smFind, if_neg (by omega)]; exact ih

/-- The cells of a list of bytes read as its bytes. -/
theorem smGet_cells (a i : Nat) (l : List Byte) (j : Nat) (h : j < l.length) :
    smGet 0#8 (((upFrom i l.length).zip l).filterMap (fun e => if e.2 = 0#8 then none else some (a + e.1, e.2))) (a + i + j) = l[j] := by
  induction l generalizing i j with
  | nil => simp at h
  | cons x l ih =>
    simp only [List.length_cons, upFrom, List.zip_cons_cons, List.filterMap_cons]
    cases j with
    | zero =>
      split
      · rename_i he
        split at he
        · rename_i hx
          have := smFind_cells_out a (i + 1) l (a + i + 0) (by omega)
          rw [smGet, this, Option.getD_none, List.getElem_cons_zero, hx]
        · cases he
      · rename_i e he
        split at he
        · cases he
        · cases he; simp [smGet, smFind]
    | succ j =>
      have hj : j < l.length := by simpa using h
      have ih := ih (i + 1) j hj
      rw [show a + (i + 1) + j = a + i + (j + 1) by omega] at ih
      split
      · exact ih
      · rename_i e he
        split at he
        · cases he
        · cases he
          unfold smGet
          rw [smFind, if_neg (by omega)]
          exact ih

theorem smFind_smSplice (m cells : SMap Byte) (a n q : Nat) :
    smFind (smSplice m a n cells) q =
      ((if q < a then smFind m q else none).or (smFind cells q)).or (if a + n ≤ q then smFind m q else none) := by
  unfold smSplice
  rw [smFind_append, smFind_append]
  have h1 := smFind_filter m (fun k => decide (k < a)) q
  have h2 := smFind_filter m (fun k => decide (a + n ≤ k)) q
  simp only [decide_eq_true_eq] at h1 h2
  rw [h1, h2]

/-- A byte inside a written list of bytes reads as written. -/
theorem smGet_smPokeList_in (m : SMap Byte) (a : Nat) (l : List Byte) (j : Nat) (h : j < l.length) :
    smGet 0#8 (smPokeList m a l) (a + j) = l[j] := by
  have e := smGet_cells a 0 l j h
  unfold smPokeList
  unfold smGet at e ⊢
  rw [smFind_smSplice, if_neg (by omega), if_neg (by omega), Option.or_none, Option.none_or]
  exact e

/-- A byte outside a written list of bytes reads as before. -/
theorem smGet_smPokeList_out (m : SMap Byte) (a : Nat) (l : List Byte) (q : Nat) (h : q < a ∨ a + l.length ≤ q) :
    smGet 0#8 (smPokeList m a l) q = smGet 0#8 m q := by
  have e := smFind_cells_out a 0 l q (by omega)
  unfold smPokeList smGet
  rw [smFind_smSplice]
  have e : smFind (cellsOfList a l) q = none := e
  rw [e, Option.or_none]
  rcases h with h | h
  · rw [if_pos h, if_neg (by omega), Option.or_none]
  · rw [if_neg (by omega), if_pos h, Option.none_or]

theorem getElem_bytesOf (n v j : Nat) (h : j < n) : (bytesOf n v)[j]'(by rw [length_bytesOf]; exact h) = BitVec.ofNat 8 (v / 256 ^ j) := by
  induction n generalizing v j with
  | zero => omega
  | succ n ih =>
    cases j with
    | zero => simp [bytesOf]
    | succ j =>
      simp only [bytesOf, List.getElem_cons_succ]
      rw [ih (v / 256) j (by omega), Nat.div_div_eq_div_mul, Nat.pow_succ, Nat.mul_comm]

/-- A byte of a written number reads as its byte, least significant first. -/
theorem smGet_smPoke_in (m : SMap Byte) (a n v j : Nat) (h : j < n) :
    smGet 0#8 (smPoke m a n v) (a + j) = BitVec.ofNat 8 (v / 256 ^ j) := by
  have e := smGet_smPokeList_in m a (bytesOf n v) j (by rw [length_bytesOf]; exact h)
  rw [getElem_bytesOf n v j h] at e
  unfold smPokeList at e
  rw [length_bytesOf, ← cellsOf_eq] at e
  exact e

/-- A byte outside a written number reads as before. -/
theorem smGet_smPoke_out (m : SMap Byte) (a n v q : Nat) (h : q < a ∨ a + n ≤ q) : smGet 0#8 (smPoke m a n v) q = smGet 0#8 m q := by
  have e := smGet_smPokeList_out m a (bytesOf n v) q (by rw [length_bytesOf]; exact h)
  unfold smPokeList at e
  rw [length_bytesOf, ← cellsOf_eq] at e
  exact e

/-- The number a range of a memory spells is the sum of its bytes at their places. -/
theorem smBytes_eq (m : SMap Byte) (a n : Nat) (h : smSortedFrom none m = true) :
    smBytes m a n = ∑ i ∈ Finset.range n, (smGet 0#8 m (a + i)).toNat * 256 ^ i := by
  have key : ∀ (b : Option Nat) (m : SMap Byte) (acc : Nat), smSortedFrom b m = true →
      (smRange m a n).foldl (fun acc e => acc + e.2.toNat <<< (8 * (e.1 - a))) acc =
        acc + ∑ i ∈ Finset.range n, (smGet 0#8 m (a + i)).toNat * 256 ^ i := by
    intro b m
    induction m generalizing b with
    | nil => intro acc _; simp [smRange, smGet, smFind]
    | cons e m ih =>
      obtain ⟨k, v⟩ := e
      intro acc hs
      rw [smSortedFrom_cons] at hs
      have hk : smFind m k = none := smFind_eq_none_of_bound k k m hs.2 (le_refl k)
      have ih := ih (some k)
      by_cases hr : a ≤ k ∧ k < a + n
      · have e1 : smRange ((k, v) :: m) a n = (k, v) :: smRange m a n := by simp [smRange, hr]
        rw [e1, List.foldl_cons, ih _ hs.2, Nat.add_assoc]
        congr 1
        have e2 : ∀ i ∈ Finset.range n, (smGet 0#8 ((k, v) :: m) (a + i)).toNat * 256 ^ i =
            (if i = k - a then v.toNat * 256 ^ (k - a) else 0) + (smGet 0#8 m (a + i)).toNat * 256 ^ i := by
          intro i _
          by_cases hi : i = k - a
          · have : a + i = k := by omega
            rw [this, if_pos hi]
            simp [smGet, smFind, hk, hi]
          · have : k ≠ a + i := by omega
            rw [if_neg hi]
            simp [smGet, smFind, this]
        rw [Finset.sum_congr rfl e2, Finset.sum_add_distrib, Finset.sum_ite_eq' (Finset.range n) (k - a) (fun _ => v.toNat * 256 ^ (k - a)),
          if_pos (Finset.mem_range.2 (by omega)), Nat.shiftLeft_eq, Nat.pow_mul]
      · have e1 : smRange ((k, v) :: m) a n = smRange m a n := by
          unfold smRange
          rw [List.filter_cons_of_neg]
          simpa using fun x => Nat.le_of_not_lt fun y => hr ⟨x, y⟩
        rw [e1, ih _ hs.2]
        congr 1
        apply Finset.sum_congr rfl
        intro i hi
        have : k ≠ a + i := by have := Finset.mem_range.1 hi; omega
        simp [smGet, smFind, this]
  have := key none m 0 h
  rw [Nat.zero_add] at this
  exact this

end Sys2Proof.Machine
end

