-- ==== Sys2Proof/Laws/State.lean ====
section
/-!
SUPPORT. Records and updates: what each named update of the state leaves in each field, so that no proof unfolds a record.
-/
namespace Sys2Proof.Machine

/-! ### setWord -/

@[simp] theorem setWord_csr (s : State) (r : Reg) (i j w : Nat) : (s.setWord r i j w).csr = smPut 0#64 s.csr (r.off i j) (BitVec.ofNat 64 w ^^^ BitVec.ofNat 64 (r.resetWord i j)) := rfl
@[simp] theorem setWord_pending (s : State) (r : Reg) (i j w : Nat) : (s.setWord r i j w).pending = s.pending := rfl
@[simp] theorem setWord_mem (s : State) (r : Reg) (i j w : Nat) : (s.setWord r i j w).mem = s.mem := rfl
@[simp] theorem setWord_gran (s : State) (r : Reg) (i j w : Nat) : (s.setWord r i j w).gran = s.gran := rfl
@[simp] theorem setWord_ecc (s : State) (r : Reg) (i j w : Nat) : (s.setWord r i j w).ecc = s.ecc := rfl
@[simp] theorem setWord_metaFlip (s : State) (r : Reg) (i j w : Nat) : (s.setWord r i j w).metaFlip = s.metaFlip := rfl
@[simp] theorem setWord_flipped (s : State) (r : Reg) (i j w : Nat) : (s.setWord r i j w).flipped = s.flipped := rfl
@[simp] theorem setWord_csumBad (s : State) (r : Reg) (i j w : Nat) : (s.setWord r i j w).csumBad = s.csumBad := rfl
@[simp] theorem setWord_cores (s : State) (r : Reg) (i j w : Nat) : (s.setWord r i j w).cores = s.cores := rfl
@[simp] theorem setWord_stks (s : State) (r : Reg) (i j w : Nat) : (s.setWord r i j w).stks = s.stks := rfl
@[simp] theorem setWord_parts (s : State) (r : Reg) (i j w : Nat) : (s.setWord r i j w).parts = s.parts := rfl
@[simp] theorem setWord_pans (s : State) (r : Reg) (i j w : Nat) : (s.setWord r i j w).pans = s.pans := rfl
@[simp] theorem setWord_batches (s : State) (r : Reg) (i j w : Nat) : (s.setWord r i j w).batches = s.batches := rfl
@[simp] theorem setWord_batchSeq (s : State) (r : Reg) (i j w : Nat) : (s.setWord r i j w).batchSeq = s.batchSeq := rfl
@[simp] theorem setWord_sealing (s : State) (r : Reg) (i j w : Nat) : (s.setWord r i j w).sealing = s.sealing := rfl
@[simp] theorem setWord_colls (s : State) (r : Reg) (i j w : Nat) : (s.setWord r i j w).colls = s.colls := rfl
@[simp] theorem setWord_host (s : State) (r : Reg) (i j w : Nat) : (s.setWord r i j w).host = s.host := rfl
@[simp] theorem setWord_dieUp (s : State) (r : Reg) (i j w : Nat) : (s.setWord r i j w).dieUp = s.dieUp := rfl
@[simp] theorem setWord_msixHeld (s : State) (r : Reg) (i j w : Nat) : (s.setWord r i j w).msixHeld = s.msixHeld := rfl
@[simp] theorem setWord_msixSent (s : State) (r : Reg) (i j w : Nat) : (s.setWord r i j w).msixSent = s.msixSent := rfl
@[simp] theorem setWord_repairDue (s : State) (r : Reg) (i j w : Nat) : (s.setWord r i j w).repairDue = s.repairDue := rfl
@[simp] theorem setWord_sent (s : State) (r : Reg) (i j w : Nat) : (s.setWord r i j w).sent = s.sent := rfl
@[simp] theorem setWord_tx (s : State) (r : Reg) (i j w : Nat) : (s.setWord r i j w).tx = s.tx := rfl
@[simp] theorem setWord_tick (s : State) (r : Reg) (i j w : Nat) : (s.setWord r i j w).tick = s.tick := rfl
@[simp] theorem setWord_power (s : State) (r : Reg) (i j w : Nat) : (s.setWord r i j w).power = s.power := rfl
@[simp] theorem setWord_answer (s : State) (r : Reg) (i j w : Nat) : (s.setWord r i j w).answer = s.answer := rfl
@[simp] theorem setWord_delivered (s : State) (r : Reg) (i j w : Nat) : (s.setWord r i j w).delivered = s.delivered := rfl
@[simp] theorem setWord_net (s : State) (r : Reg) (i j w : Nat) : (s.setWord r i j w).net = s.net := rfl
@[simp] theorem setWord_link (s : State) (r : Reg) (i j w : Nat) : (s.setWord r i j w).link = s.link := rfl
@[simp] theorem setWord_mod (s : State) (r : Reg) (i j w : Nat) : (s.setWord r i j w).mod = s.mod := rfl
@[simp] theorem setWord_sec (s : State) (r : Reg) (i j w : Nat) : (s.setWord r i j w).sec = s.sec := rfl
@[simp] theorem setWord_asy (s : State) (r : Reg) (i j w : Nat) : (s.setWord r i j w).asy = s.asy := rfl
@[simp] theorem setWord_age (s : State) (r : Reg) (i j w : Nat) : (s.setWord r i j w).age = s.age := rfl
@[simp] theorem setWord_free (s : State) (r : Reg) (i j w : Nat) : (s.setWord r i j w).free = s.free := rfl

/-! ### set -/

@[simp] theorem set_csr (s : State) (f : Fld) (v i j : Nat) : (s.set f v i j).csr = (s.setWord f.reg i j (setBits (s.word f.reg i j) f.hi f.lo v)).csr := rfl
@[simp] theorem set_pending (s : State) (f : Fld) (v i j : Nat) : (s.set f v i j).pending = s.pending := rfl
@[simp] theorem set_mem (s : State) (f : Fld) (v i j : Nat) : (s.set f v i j).mem = s.mem := rfl
@[simp] theorem set_gran (s : State) (f : Fld) (v i j : Nat) : (s.set f v i j).gran = s.gran := rfl
@[simp] theorem set_ecc (s : State) (f : Fld) (v i j : Nat) : (s.set f v i j).ecc = s.ecc := rfl
@[simp] theorem set_metaFlip (s : State) (f : Fld) (v i j : Nat) : (s.set f v i j).metaFlip = s.metaFlip := rfl
@[simp] theorem set_flipped (s : State) (f : Fld) (v i j : Nat) : (s.set f v i j).flipped = s.flipped := rfl
@[simp] theorem set_csumBad (s : State) (f : Fld) (v i j : Nat) : (s.set f v i j).csumBad = s.csumBad := rfl
@[simp] theorem set_cores (s : State) (f : Fld) (v i j : Nat) : (s.set f v i j).cores = s.cores := rfl
@[simp] theorem set_stks (s : State) (f : Fld) (v i j : Nat) : (s.set f v i j).stks = s.stks := rfl
@[simp] theorem set_parts (s : State) (f : Fld) (v i j : Nat) : (s.set f v i j).parts = s.parts := rfl
@[simp] theorem set_pans (s : State) (f : Fld) (v i j : Nat) : (s.set f v i j).pans = s.pans := rfl
@[simp] theorem set_batches (s : State) (f : Fld) (v i j : Nat) : (s.set f v i j).batches = s.batches := rfl
@[simp] theorem set_batchSeq (s : State) (f : Fld) (v i j : Nat) : (s.set f v i j).batchSeq = s.batchSeq := rfl
@[simp] theorem set_sealing (s : State) (f : Fld) (v i j : Nat) : (s.set f v i j).sealing = s.sealing := rfl
@[simp] theorem set_colls (s : State) (f : Fld) (v i j : Nat) : (s.set f v i j).colls = s.colls := rfl
@[simp] theorem set_host (s : State) (f : Fld) (v i j : Nat) : (s.set f v i j).host = s.host := rfl
@[simp] theorem set_dieUp (s : State) (f : Fld) (v i j : Nat) : (s.set f v i j).dieUp = s.dieUp := rfl
@[simp] theorem set_msixHeld (s : State) (f : Fld) (v i j : Nat) : (s.set f v i j).msixHeld = s.msixHeld := rfl
@[simp] theorem set_msixSent (s : State) (f : Fld) (v i j : Nat) : (s.set f v i j).msixSent = s.msixSent := rfl
@[simp] theorem set_repairDue (s : State) (f : Fld) (v i j : Nat) : (s.set f v i j).repairDue = s.repairDue := rfl
@[simp] theorem set_sent (s : State) (f : Fld) (v i j : Nat) : (s.set f v i j).sent = s.sent := rfl
@[simp] theorem set_tx (s : State) (f : Fld) (v i j : Nat) : (s.set f v i j).tx = s.tx := rfl
@[simp] theorem set_tick (s : State) (f : Fld) (v i j : Nat) : (s.set f v i j).tick = s.tick := rfl
@[simp] theorem set_power (s : State) (f : Fld) (v i j : Nat) : (s.set f v i j).power = s.power := rfl
@[simp] theorem set_answer (s : State) (f : Fld) (v i j : Nat) : (s.set f v i j).answer = s.answer := rfl
@[simp] theorem set_delivered (s : State) (f : Fld) (v i j : Nat) : (s.set f v i j).delivered = s.delivered := rfl
@[simp] theorem set_net (s : State) (f : Fld) (v i j : Nat) : (s.set f v i j).net = s.net := rfl
@[simp] theorem set_link (s : State) (f : Fld) (v i j : Nat) : (s.set f v i j).link = s.link := rfl
@[simp] theorem set_mod (s : State) (f : Fld) (v i j : Nat) : (s.set f v i j).mod = s.mod := rfl
@[simp] theorem set_sec (s : State) (f : Fld) (v i j : Nat) : (s.set f v i j).sec = s.sec := rfl
@[simp] theorem set_asy (s : State) (f : Fld) (v i j : Nat) : (s.set f v i j).asy = s.asy := rfl
@[simp] theorem set_age (s : State) (f : Fld) (v i j : Nat) : (s.set f v i j).age = s.age := rfl
@[simp] theorem set_free (s : State) (f : Fld) (v i j : Nat) : (s.set f v i j).free = s.free := rfl

/-! ### bump -/

@[simp] theorem bump_csr (s : State) (f : Fld) (n i j : Nat) : (s.bump f n i j).csr = (s.set f (satAdd (2 ^ (f.hi + 1 - f.lo) - 1) (s.get f i j) n) i j).csr := rfl
@[simp] theorem bump_pending (s : State) (f : Fld) (n i j : Nat) : (s.bump f n i j).pending = s.pending := rfl
@[simp] theorem bump_mem (s : State) (f : Fld) (n i j : Nat) : (s.bump f n i j).mem = s.mem := rfl
@[simp] theorem bump_gran (s : State) (f : Fld) (n i j : Nat) : (s.bump f n i j).gran = s.gran := rfl
@[simp] theorem bump_ecc (s : State) (f : Fld) (n i j : Nat) : (s.bump f n i j).ecc = s.ecc := rfl
@[simp] theorem bump_metaFlip (s : State) (f : Fld) (n i j : Nat) : (s.bump f n i j).metaFlip = s.metaFlip := rfl
@[simp] theorem bump_flipped (s : State) (f : Fld) (n i j : Nat) : (s.bump f n i j).flipped = s.flipped := rfl
@[simp] theorem bump_csumBad (s : State) (f : Fld) (n i j : Nat) : (s.bump f n i j).csumBad = s.csumBad := rfl
@[simp] theorem bump_cores (s : State) (f : Fld) (n i j : Nat) : (s.bump f n i j).cores = s.cores := rfl
@[simp] theorem bump_stks (s : State) (f : Fld) (n i j : Nat) : (s.bump f n i j).stks = s.stks := rfl
@[simp] theorem bump_parts (s : State) (f : Fld) (n i j : Nat) : (s.bump f n i j).parts = s.parts := rfl
@[simp] theorem bump_pans (s : State) (f : Fld) (n i j : Nat) : (s.bump f n i j).pans = s.pans := rfl
@[simp] theorem bump_batches (s : State) (f : Fld) (n i j : Nat) : (s.bump f n i j).batches = s.batches := rfl
@[simp] theorem bump_batchSeq (s : State) (f : Fld) (n i j : Nat) : (s.bump f n i j).batchSeq = s.batchSeq := rfl
@[simp] theorem bump_sealing (s : State) (f : Fld) (n i j : Nat) : (s.bump f n i j).sealing = s.sealing := rfl
@[simp] theorem bump_colls (s : State) (f : Fld) (n i j : Nat) : (s.bump f n i j).colls = s.colls := rfl
@[simp] theorem bump_host (s : State) (f : Fld) (n i j : Nat) : (s.bump f n i j).host = s.host := rfl
@[simp] theorem bump_dieUp (s : State) (f : Fld) (n i j : Nat) : (s.bump f n i j).dieUp = s.dieUp := rfl
@[simp] theorem bump_msixHeld (s : State) (f : Fld) (n i j : Nat) : (s.bump f n i j).msixHeld = s.msixHeld := rfl
@[simp] theorem bump_msixSent (s : State) (f : Fld) (n i j : Nat) : (s.bump f n i j).msixSent = s.msixSent := rfl
@[simp] theorem bump_repairDue (s : State) (f : Fld) (n i j : Nat) : (s.bump f n i j).repairDue = s.repairDue := rfl
@[simp] theorem bump_sent (s : State) (f : Fld) (n i j : Nat) : (s.bump f n i j).sent = s.sent := rfl
@[simp] theorem bump_tx (s : State) (f : Fld) (n i j : Nat) : (s.bump f n i j).tx = s.tx := rfl
@[simp] theorem bump_tick (s : State) (f : Fld) (n i j : Nat) : (s.bump f n i j).tick = s.tick := rfl
@[simp] theorem bump_power (s : State) (f : Fld) (n i j : Nat) : (s.bump f n i j).power = s.power := rfl
@[simp] theorem bump_answer (s : State) (f : Fld) (n i j : Nat) : (s.bump f n i j).answer = s.answer := rfl
@[simp] theorem bump_delivered (s : State) (f : Fld) (n i j : Nat) : (s.bump f n i j).delivered = s.delivered := rfl
@[simp] theorem bump_net (s : State) (f : Fld) (n i j : Nat) : (s.bump f n i j).net = s.net := rfl
@[simp] theorem bump_link (s : State) (f : Fld) (n i j : Nat) : (s.bump f n i j).link = s.link := rfl
@[simp] theorem bump_mod (s : State) (f : Fld) (n i j : Nat) : (s.bump f n i j).mod = s.mod := rfl
@[simp] theorem bump_sec (s : State) (f : Fld) (n i j : Nat) : (s.bump f n i j).sec = s.sec := rfl
@[simp] theorem bump_asy (s : State) (f : Fld) (n i j : Nat) : (s.bump f n i j).asy = s.asy := rfl
@[simp] theorem bump_age (s : State) (f : Fld) (n i j : Nat) : (s.bump f n i j).age = s.age := rfl
@[simp] theorem bump_free (s : State) (f : Fld) (n i j : Nat) : (s.bump f n i j).free = s.free := rfl

/-! ### setCore -/

@[simp] theorem setCore_cores (s : State) (c : Nat) (k : CoreSt) : (s.setCore c k).cores = setNth s.cores c k := rfl
@[simp] theorem setCore_pending (s : State) (c : Nat) (k : CoreSt) : (s.setCore c k).pending = s.pending := rfl
@[simp] theorem setCore_csr (s : State) (c : Nat) (k : CoreSt) : (s.setCore c k).csr = s.csr := rfl
@[simp] theorem setCore_mem (s : State) (c : Nat) (k : CoreSt) : (s.setCore c k).mem = s.mem := rfl
@[simp] theorem setCore_gran (s : State) (c : Nat) (k : CoreSt) : (s.setCore c k).gran = s.gran := rfl
@[simp] theorem setCore_ecc (s : State) (c : Nat) (k : CoreSt) : (s.setCore c k).ecc = s.ecc := rfl
@[simp] theorem setCore_metaFlip (s : State) (c : Nat) (k : CoreSt) : (s.setCore c k).metaFlip = s.metaFlip := rfl
@[simp] theorem setCore_flipped (s : State) (c : Nat) (k : CoreSt) : (s.setCore c k).flipped = s.flipped := rfl
@[simp] theorem setCore_csumBad (s : State) (c : Nat) (k : CoreSt) : (s.setCore c k).csumBad = s.csumBad := rfl
@[simp] theorem setCore_stks (s : State) (c : Nat) (k : CoreSt) : (s.setCore c k).stks = s.stks := rfl
@[simp] theorem setCore_parts (s : State) (c : Nat) (k : CoreSt) : (s.setCore c k).parts = s.parts := rfl
@[simp] theorem setCore_pans (s : State) (c : Nat) (k : CoreSt) : (s.setCore c k).pans = s.pans := rfl
@[simp] theorem setCore_batches (s : State) (c : Nat) (k : CoreSt) : (s.setCore c k).batches = s.batches := rfl
@[simp] theorem setCore_batchSeq (s : State) (c : Nat) (k : CoreSt) : (s.setCore c k).batchSeq = s.batchSeq := rfl
@[simp] theorem setCore_sealing (s : State) (c : Nat) (k : CoreSt) : (s.setCore c k).sealing = s.sealing := rfl
@[simp] theorem setCore_colls (s : State) (c : Nat) (k : CoreSt) : (s.setCore c k).colls = s.colls := rfl
@[simp] theorem setCore_host (s : State) (c : Nat) (k : CoreSt) : (s.setCore c k).host = s.host := rfl
@[simp] theorem setCore_dieUp (s : State) (c : Nat) (k : CoreSt) : (s.setCore c k).dieUp = s.dieUp := rfl
@[simp] theorem setCore_msixHeld (s : State) (c : Nat) (k : CoreSt) : (s.setCore c k).msixHeld = s.msixHeld := rfl
@[simp] theorem setCore_msixSent (s : State) (c : Nat) (k : CoreSt) : (s.setCore c k).msixSent = s.msixSent := rfl
@[simp] theorem setCore_repairDue (s : State) (c : Nat) (k : CoreSt) : (s.setCore c k).repairDue = s.repairDue := rfl
@[simp] theorem setCore_sent (s : State) (c : Nat) (k : CoreSt) : (s.setCore c k).sent = s.sent := rfl
@[simp] theorem setCore_tx (s : State) (c : Nat) (k : CoreSt) : (s.setCore c k).tx = s.tx := rfl
@[simp] theorem setCore_tick (s : State) (c : Nat) (k : CoreSt) : (s.setCore c k).tick = s.tick := rfl
@[simp] theorem setCore_power (s : State) (c : Nat) (k : CoreSt) : (s.setCore c k).power = s.power := rfl
@[simp] theorem setCore_answer (s : State) (c : Nat) (k : CoreSt) : (s.setCore c k).answer = s.answer := rfl
@[simp] theorem setCore_delivered (s : State) (c : Nat) (k : CoreSt) : (s.setCore c k).delivered = s.delivered := rfl
@[simp] theorem setCore_net (s : State) (c : Nat) (k : CoreSt) : (s.setCore c k).net = s.net := rfl
@[simp] theorem setCore_link (s : State) (c : Nat) (k : CoreSt) : (s.setCore c k).link = s.link := rfl
@[simp] theorem setCore_mod (s : State) (c : Nat) (k : CoreSt) : (s.setCore c k).mod = s.mod := rfl
@[simp] theorem setCore_sec (s : State) (c : Nat) (k : CoreSt) : (s.setCore c k).sec = s.sec := rfl
@[simp] theorem setCore_asy (s : State) (c : Nat) (k : CoreSt) : (s.setCore c k).asy = s.asy := rfl
@[simp] theorem setCore_age (s : State) (c : Nat) (k : CoreSt) : (s.setCore c k).age = s.age := rfl
@[simp] theorem setCore_free (s : State) (c : Nat) (k : CoreSt) : (s.setCore c k).free = s.free := rfl

/-! ### setPart -/

@[simp] theorem setPart_parts (s : State) (p : Nat) (k : PartSt) : (s.setPart p k).parts = setNth s.parts p k := rfl
@[simp] theorem setPart_pending (s : State) (p : Nat) (k : PartSt) : (s.setPart p k).pending = s.pending := rfl
@[simp] theorem setPart_csr (s : State) (p : Nat) (k : PartSt) : (s.setPart p k).csr = s.csr := rfl
@[simp] theorem setPart_mem (s : State) (p : Nat) (k : PartSt) : (s.setPart p k).mem = s.mem := rfl
@[simp] theorem setPart_gran (s : State) (p : Nat) (k : PartSt) : (s.setPart p k).gran = s.gran := rfl
@[simp] theorem setPart_ecc (s : State) (p : Nat) (k : PartSt) : (s.setPart p k).ecc = s.ecc := rfl
@[simp] theorem setPart_metaFlip (s : State) (p : Nat) (k : PartSt) : (s.setPart p k).metaFlip = s.metaFlip := rfl
@[simp] theorem setPart_flipped (s : State) (p : Nat) (k : PartSt) : (s.setPart p k).flipped = s.flipped := rfl
@[simp] theorem setPart_csumBad (s : State) (p : Nat) (k : PartSt) : (s.setPart p k).csumBad = s.csumBad := rfl
@[simp] theorem setPart_cores (s : State) (p : Nat) (k : PartSt) : (s.setPart p k).cores = s.cores := rfl
@[simp] theorem setPart_stks (s : State) (p : Nat) (k : PartSt) : (s.setPart p k).stks = s.stks := rfl
@[simp] theorem setPart_pans (s : State) (p : Nat) (k : PartSt) : (s.setPart p k).pans = s.pans := rfl
@[simp] theorem setPart_batches (s : State) (p : Nat) (k : PartSt) : (s.setPart p k).batches = s.batches := rfl
@[simp] theorem setPart_batchSeq (s : State) (p : Nat) (k : PartSt) : (s.setPart p k).batchSeq = s.batchSeq := rfl
@[simp] theorem setPart_sealing (s : State) (p : Nat) (k : PartSt) : (s.setPart p k).sealing = s.sealing := rfl
@[simp] theorem setPart_colls (s : State) (p : Nat) (k : PartSt) : (s.setPart p k).colls = s.colls := rfl
@[simp] theorem setPart_host (s : State) (p : Nat) (k : PartSt) : (s.setPart p k).host = s.host := rfl
@[simp] theorem setPart_dieUp (s : State) (p : Nat) (k : PartSt) : (s.setPart p k).dieUp = s.dieUp := rfl
@[simp] theorem setPart_msixHeld (s : State) (p : Nat) (k : PartSt) : (s.setPart p k).msixHeld = s.msixHeld := rfl
@[simp] theorem setPart_msixSent (s : State) (p : Nat) (k : PartSt) : (s.setPart p k).msixSent = s.msixSent := rfl
@[simp] theorem setPart_repairDue (s : State) (p : Nat) (k : PartSt) : (s.setPart p k).repairDue = s.repairDue := rfl
@[simp] theorem setPart_sent (s : State) (p : Nat) (k : PartSt) : (s.setPart p k).sent = s.sent := rfl
@[simp] theorem setPart_tx (s : State) (p : Nat) (k : PartSt) : (s.setPart p k).tx = s.tx := rfl
@[simp] theorem setPart_tick (s : State) (p : Nat) (k : PartSt) : (s.setPart p k).tick = s.tick := rfl
@[simp] theorem setPart_power (s : State) (p : Nat) (k : PartSt) : (s.setPart p k).power = s.power := rfl
@[simp] theorem setPart_answer (s : State) (p : Nat) (k : PartSt) : (s.setPart p k).answer = s.answer := rfl
@[simp] theorem setPart_delivered (s : State) (p : Nat) (k : PartSt) : (s.setPart p k).delivered = s.delivered := rfl
@[simp] theorem setPart_net (s : State) (p : Nat) (k : PartSt) : (s.setPart p k).net = s.net := rfl
@[simp] theorem setPart_link (s : State) (p : Nat) (k : PartSt) : (s.setPart p k).link = s.link := rfl
@[simp] theorem setPart_mod (s : State) (p : Nat) (k : PartSt) : (s.setPart p k).mod = s.mod := rfl
@[simp] theorem setPart_sec (s : State) (p : Nat) (k : PartSt) : (s.setPart p k).sec = s.sec := rfl
@[simp] theorem setPart_asy (s : State) (p : Nat) (k : PartSt) : (s.setPart p k).asy = s.asy := rfl
@[simp] theorem setPart_age (s : State) (p : Nat) (k : PartSt) : (s.setPart p k).age = s.age := rfl
@[simp] theorem setPart_free (s : State) (p : Nat) (k : PartSt) : (s.setPart p k).free = s.free := rfl

/-! ### setStack -/

@[simp] theorem setStack_stks (s : State) (t : Nat) (k : StackSt) : (s.setStack t k).stks = setNth s.stks t k := rfl
@[simp] theorem setStack_pending (s : State) (t : Nat) (k : StackSt) : (s.setStack t k).pending = s.pending := rfl
@[simp] theorem setStack_csr (s : State) (t : Nat) (k : StackSt) : (s.setStack t k).csr = s.csr := rfl
@[simp] theorem setStack_mem (s : State) (t : Nat) (k : StackSt) : (s.setStack t k).mem = s.mem := rfl
@[simp] theorem setStack_gran (s : State) (t : Nat) (k : StackSt) : (s.setStack t k).gran = s.gran := rfl
@[simp] theorem setStack_ecc (s : State) (t : Nat) (k : StackSt) : (s.setStack t k).ecc = s.ecc := rfl
@[simp] theorem setStack_metaFlip (s : State) (t : Nat) (k : StackSt) : (s.setStack t k).metaFlip = s.metaFlip := rfl
@[simp] theorem setStack_flipped (s : State) (t : Nat) (k : StackSt) : (s.setStack t k).flipped = s.flipped := rfl
@[simp] theorem setStack_csumBad (s : State) (t : Nat) (k : StackSt) : (s.setStack t k).csumBad = s.csumBad := rfl
@[simp] theorem setStack_cores (s : State) (t : Nat) (k : StackSt) : (s.setStack t k).cores = s.cores := rfl
@[simp] theorem setStack_parts (s : State) (t : Nat) (k : StackSt) : (s.setStack t k).parts = s.parts := rfl
@[simp] theorem setStack_pans (s : State) (t : Nat) (k : StackSt) : (s.setStack t k).pans = s.pans := rfl
@[simp] theorem setStack_batches (s : State) (t : Nat) (k : StackSt) : (s.setStack t k).batches = s.batches := rfl
@[simp] theorem setStack_batchSeq (s : State) (t : Nat) (k : StackSt) : (s.setStack t k).batchSeq = s.batchSeq := rfl
@[simp] theorem setStack_sealing (s : State) (t : Nat) (k : StackSt) : (s.setStack t k).sealing = s.sealing := rfl
@[simp] theorem setStack_colls (s : State) (t : Nat) (k : StackSt) : (s.setStack t k).colls = s.colls := rfl
@[simp] theorem setStack_host (s : State) (t : Nat) (k : StackSt) : (s.setStack t k).host = s.host := rfl
@[simp] theorem setStack_dieUp (s : State) (t : Nat) (k : StackSt) : (s.setStack t k).dieUp = s.dieUp := rfl
@[simp] theorem setStack_msixHeld (s : State) (t : Nat) (k : StackSt) : (s.setStack t k).msixHeld = s.msixHeld := rfl
@[simp] theorem setStack_msixSent (s : State) (t : Nat) (k : StackSt) : (s.setStack t k).msixSent = s.msixSent := rfl
@[simp] theorem setStack_repairDue (s : State) (t : Nat) (k : StackSt) : (s.setStack t k).repairDue = s.repairDue := rfl
@[simp] theorem setStack_sent (s : State) (t : Nat) (k : StackSt) : (s.setStack t k).sent = s.sent := rfl
@[simp] theorem setStack_tx (s : State) (t : Nat) (k : StackSt) : (s.setStack t k).tx = s.tx := rfl
@[simp] theorem setStack_tick (s : State) (t : Nat) (k : StackSt) : (s.setStack t k).tick = s.tick := rfl
@[simp] theorem setStack_power (s : State) (t : Nat) (k : StackSt) : (s.setStack t k).power = s.power := rfl
@[simp] theorem setStack_answer (s : State) (t : Nat) (k : StackSt) : (s.setStack t k).answer = s.answer := rfl
@[simp] theorem setStack_delivered (s : State) (t : Nat) (k : StackSt) : (s.setStack t k).delivered = s.delivered := rfl
@[simp] theorem setStack_net (s : State) (t : Nat) (k : StackSt) : (s.setStack t k).net = s.net := rfl
@[simp] theorem setStack_link (s : State) (t : Nat) (k : StackSt) : (s.setStack t k).link = s.link := rfl
@[simp] theorem setStack_mod (s : State) (t : Nat) (k : StackSt) : (s.setStack t k).mod = s.mod := rfl
@[simp] theorem setStack_sec (s : State) (t : Nat) (k : StackSt) : (s.setStack t k).sec = s.sec := rfl
@[simp] theorem setStack_asy (s : State) (t : Nat) (k : StackSt) : (s.setStack t k).asy = s.asy := rfl
@[simp] theorem setStack_age (s : State) (t : Nat) (k : StackSt) : (s.setStack t k).age = s.age := rfl
@[simp] theorem setStack_free (s : State) (t : Nat) (k : StackSt) : (s.setStack t k).free = s.free := rfl

/-! ### setPan -/

@[simp] theorem setPan_pans (s : State) (u : Nat) (x : PanSt) : (s.setPan u x).pans = smPut .reset s.pans u x := rfl
@[simp] theorem setPan_pending (s : State) (u : Nat) (x : PanSt) : (s.setPan u x).pending = s.pending := rfl
@[simp] theorem setPan_csr (s : State) (u : Nat) (x : PanSt) : (s.setPan u x).csr = s.csr := rfl
@[simp] theorem setPan_mem (s : State) (u : Nat) (x : PanSt) : (s.setPan u x).mem = s.mem := rfl
@[simp] theorem setPan_gran (s : State) (u : Nat) (x : PanSt) : (s.setPan u x).gran = s.gran := rfl
@[simp] theorem setPan_ecc (s : State) (u : Nat) (x : PanSt) : (s.setPan u x).ecc = s.ecc := rfl
@[simp] theorem setPan_metaFlip (s : State) (u : Nat) (x : PanSt) : (s.setPan u x).metaFlip = s.metaFlip := rfl
@[simp] theorem setPan_flipped (s : State) (u : Nat) (x : PanSt) : (s.setPan u x).flipped = s.flipped := rfl
@[simp] theorem setPan_csumBad (s : State) (u : Nat) (x : PanSt) : (s.setPan u x).csumBad = s.csumBad := rfl
@[simp] theorem setPan_cores (s : State) (u : Nat) (x : PanSt) : (s.setPan u x).cores = s.cores := rfl
@[simp] theorem setPan_stks (s : State) (u : Nat) (x : PanSt) : (s.setPan u x).stks = s.stks := rfl
@[simp] theorem setPan_parts (s : State) (u : Nat) (x : PanSt) : (s.setPan u x).parts = s.parts := rfl
@[simp] theorem setPan_batches (s : State) (u : Nat) (x : PanSt) : (s.setPan u x).batches = s.batches := rfl
@[simp] theorem setPan_batchSeq (s : State) (u : Nat) (x : PanSt) : (s.setPan u x).batchSeq = s.batchSeq := rfl
@[simp] theorem setPan_sealing (s : State) (u : Nat) (x : PanSt) : (s.setPan u x).sealing = s.sealing := rfl
@[simp] theorem setPan_colls (s : State) (u : Nat) (x : PanSt) : (s.setPan u x).colls = s.colls := rfl
@[simp] theorem setPan_host (s : State) (u : Nat) (x : PanSt) : (s.setPan u x).host = s.host := rfl
@[simp] theorem setPan_dieUp (s : State) (u : Nat) (x : PanSt) : (s.setPan u x).dieUp = s.dieUp := rfl
@[simp] theorem setPan_msixHeld (s : State) (u : Nat) (x : PanSt) : (s.setPan u x).msixHeld = s.msixHeld := rfl
@[simp] theorem setPan_msixSent (s : State) (u : Nat) (x : PanSt) : (s.setPan u x).msixSent = s.msixSent := rfl
@[simp] theorem setPan_repairDue (s : State) (u : Nat) (x : PanSt) : (s.setPan u x).repairDue = s.repairDue := rfl
@[simp] theorem setPan_sent (s : State) (u : Nat) (x : PanSt) : (s.setPan u x).sent = s.sent := rfl
@[simp] theorem setPan_tx (s : State) (u : Nat) (x : PanSt) : (s.setPan u x).tx = s.tx := rfl
@[simp] theorem setPan_tick (s : State) (u : Nat) (x : PanSt) : (s.setPan u x).tick = s.tick := rfl
@[simp] theorem setPan_power (s : State) (u : Nat) (x : PanSt) : (s.setPan u x).power = s.power := rfl
@[simp] theorem setPan_answer (s : State) (u : Nat) (x : PanSt) : (s.setPan u x).answer = s.answer := rfl
@[simp] theorem setPan_delivered (s : State) (u : Nat) (x : PanSt) : (s.setPan u x).delivered = s.delivered := rfl
@[simp] theorem setPan_net (s : State) (u : Nat) (x : PanSt) : (s.setPan u x).net = s.net := rfl
@[simp] theorem setPan_link (s : State) (u : Nat) (x : PanSt) : (s.setPan u x).link = s.link := rfl
@[simp] theorem setPan_mod (s : State) (u : Nat) (x : PanSt) : (s.setPan u x).mod = s.mod := rfl
@[simp] theorem setPan_sec (s : State) (u : Nat) (x : PanSt) : (s.setPan u x).sec = s.sec := rfl
@[simp] theorem setPan_asy (s : State) (u : Nat) (x : PanSt) : (s.setPan u x).asy = s.asy := rfl
@[simp] theorem setPan_age (s : State) (u : Nat) (x : PanSt) : (s.setPan u x).age = s.age := rfl
@[simp] theorem setPan_free (s : State) (u : Nat) (x : PanSt) : (s.setPan u x).free = s.free := rfl

/-! ### setGranule -/

@[simp] theorem setGranule_gran (s : State) (g : Nat) (x : Gran) : (s.setGranule g x).gran = smPut Gran.empty s.gran g x := rfl
@[simp] theorem setGranule_pending (s : State) (g : Nat) (x : Gran) : (s.setGranule g x).pending = s.pending := rfl
@[simp] theorem setGranule_csr (s : State) (g : Nat) (x : Gran) : (s.setGranule g x).csr = s.csr := rfl
@[simp] theorem setGranule_mem (s : State) (g : Nat) (x : Gran) : (s.setGranule g x).mem = s.mem := rfl
@[simp] theorem setGranule_ecc (s : State) (g : Nat) (x : Gran) : (s.setGranule g x).ecc = s.ecc := rfl
@[simp] theorem setGranule_metaFlip (s : State) (g : Nat) (x : Gran) : (s.setGranule g x).metaFlip = s.metaFlip := rfl
@[simp] theorem setGranule_flipped (s : State) (g : Nat) (x : Gran) : (s.setGranule g x).flipped = s.flipped := rfl
@[simp] theorem setGranule_csumBad (s : State) (g : Nat) (x : Gran) : (s.setGranule g x).csumBad = s.csumBad := rfl
@[simp] theorem setGranule_cores (s : State) (g : Nat) (x : Gran) : (s.setGranule g x).cores = s.cores := rfl
@[simp] theorem setGranule_stks (s : State) (g : Nat) (x : Gran) : (s.setGranule g x).stks = s.stks := rfl
@[simp] theorem setGranule_parts (s : State) (g : Nat) (x : Gran) : (s.setGranule g x).parts = s.parts := rfl
@[simp] theorem setGranule_pans (s : State) (g : Nat) (x : Gran) : (s.setGranule g x).pans = s.pans := rfl
@[simp] theorem setGranule_batches (s : State) (g : Nat) (x : Gran) : (s.setGranule g x).batches = s.batches := rfl
@[simp] theorem setGranule_batchSeq (s : State) (g : Nat) (x : Gran) : (s.setGranule g x).batchSeq = s.batchSeq := rfl
@[simp] theorem setGranule_sealing (s : State) (g : Nat) (x : Gran) : (s.setGranule g x).sealing = s.sealing := rfl
@[simp] theorem setGranule_colls (s : State) (g : Nat) (x : Gran) : (s.setGranule g x).colls = s.colls := rfl
@[simp] theorem setGranule_host (s : State) (g : Nat) (x : Gran) : (s.setGranule g x).host = s.host := rfl
@[simp] theorem setGranule_dieUp (s : State) (g : Nat) (x : Gran) : (s.setGranule g x).dieUp = s.dieUp := rfl
@[simp] theorem setGranule_msixHeld (s : State) (g : Nat) (x : Gran) : (s.setGranule g x).msixHeld = s.msixHeld := rfl
@[simp] theorem setGranule_msixSent (s : State) (g : Nat) (x : Gran) : (s.setGranule g x).msixSent = s.msixSent := rfl
@[simp] theorem setGranule_repairDue (s : State) (g : Nat) (x : Gran) : (s.setGranule g x).repairDue = s.repairDue := rfl
@[simp] theorem setGranule_sent (s : State) (g : Nat) (x : Gran) : (s.setGranule g x).sent = s.sent := rfl
@[simp] theorem setGranule_tx (s : State) (g : Nat) (x : Gran) : (s.setGranule g x).tx = s.tx := rfl
@[simp] theorem setGranule_tick (s : State) (g : Nat) (x : Gran) : (s.setGranule g x).tick = s.tick := rfl
@[simp] theorem setGranule_power (s : State) (g : Nat) (x : Gran) : (s.setGranule g x).power = s.power := rfl
@[simp] theorem setGranule_answer (s : State) (g : Nat) (x : Gran) : (s.setGranule g x).answer = s.answer := rfl
@[simp] theorem setGranule_delivered (s : State) (g : Nat) (x : Gran) : (s.setGranule g x).delivered = s.delivered := rfl
@[simp] theorem setGranule_net (s : State) (g : Nat) (x : Gran) : (s.setGranule g x).net = s.net := rfl
@[simp] theorem setGranule_link (s : State) (g : Nat) (x : Gran) : (s.setGranule g x).link = s.link := rfl
@[simp] theorem setGranule_mod (s : State) (g : Nat) (x : Gran) : (s.setGranule g x).mod = s.mod := rfl
@[simp] theorem setGranule_sec (s : State) (g : Nat) (x : Gran) : (s.setGranule g x).sec = s.sec := rfl
@[simp] theorem setGranule_asy (s : State) (g : Nat) (x : Gran) : (s.setGranule g x).asy = s.asy := rfl
@[simp] theorem setGranule_age (s : State) (g : Nat) (x : Gran) : (s.setGranule g x).age = s.age := rfl
@[simp] theorem setGranule_free (s : State) (g : Nat) (x : Gran) : (s.setGranule g x).free = s.free := rfl

/-! ### send -/

@[simp] theorem send_sent (s : State) (m : Sent) : (s.send m).sent = s.sent ++ [m] := rfl
@[simp] theorem send_pending (s : State) (m : Sent) : (s.send m).pending = s.pending := rfl
@[simp] theorem send_csr (s : State) (m : Sent) : (s.send m).csr = s.csr := rfl
@[simp] theorem send_mem (s : State) (m : Sent) : (s.send m).mem = s.mem := rfl
@[simp] theorem send_gran (s : State) (m : Sent) : (s.send m).gran = s.gran := rfl
@[simp] theorem send_ecc (s : State) (m : Sent) : (s.send m).ecc = s.ecc := rfl
@[simp] theorem send_metaFlip (s : State) (m : Sent) : (s.send m).metaFlip = s.metaFlip := rfl
@[simp] theorem send_flipped (s : State) (m : Sent) : (s.send m).flipped = s.flipped := rfl
@[simp] theorem send_csumBad (s : State) (m : Sent) : (s.send m).csumBad = s.csumBad := rfl
@[simp] theorem send_cores (s : State) (m : Sent) : (s.send m).cores = s.cores := rfl
@[simp] theorem send_stks (s : State) (m : Sent) : (s.send m).stks = s.stks := rfl
@[simp] theorem send_parts (s : State) (m : Sent) : (s.send m).parts = s.parts := rfl
@[simp] theorem send_pans (s : State) (m : Sent) : (s.send m).pans = s.pans := rfl
@[simp] theorem send_batches (s : State) (m : Sent) : (s.send m).batches = s.batches := rfl
@[simp] theorem send_batchSeq (s : State) (m : Sent) : (s.send m).batchSeq = s.batchSeq := rfl
@[simp] theorem send_sealing (s : State) (m : Sent) : (s.send m).sealing = s.sealing := rfl
@[simp] theorem send_colls (s : State) (m : Sent) : (s.send m).colls = s.colls := rfl
@[simp] theorem send_host (s : State) (m : Sent) : (s.send m).host = s.host := rfl
@[simp] theorem send_dieUp (s : State) (m : Sent) : (s.send m).dieUp = s.dieUp := rfl
@[simp] theorem send_msixHeld (s : State) (m : Sent) : (s.send m).msixHeld = s.msixHeld := rfl
@[simp] theorem send_msixSent (s : State) (m : Sent) : (s.send m).msixSent = s.msixSent := rfl
@[simp] theorem send_repairDue (s : State) (m : Sent) : (s.send m).repairDue = s.repairDue := rfl
@[simp] theorem send_tx (s : State) (m : Sent) : (s.send m).tx = s.tx := rfl
@[simp] theorem send_tick (s : State) (m : Sent) : (s.send m).tick = s.tick := rfl
@[simp] theorem send_power (s : State) (m : Sent) : (s.send m).power = s.power := rfl
@[simp] theorem send_answer (s : State) (m : Sent) : (s.send m).answer = s.answer := rfl
@[simp] theorem send_delivered (s : State) (m : Sent) : (s.send m).delivered = s.delivered := rfl
@[simp] theorem send_net (s : State) (m : Sent) : (s.send m).net = s.net := rfl
@[simp] theorem send_link (s : State) (m : Sent) : (s.send m).link = s.link := rfl
@[simp] theorem send_mod (s : State) (m : Sent) : (s.send m).mod = s.mod := rfl
@[simp] theorem send_sec (s : State) (m : Sent) : (s.send m).sec = s.sec := rfl
@[simp] theorem send_asy (s : State) (m : Sent) : (s.send m).asy = s.asy := rfl
@[simp] theorem send_age (s : State) (m : Sent) : (s.send m).age = s.age := rfl
@[simp] theorem send_free (s : State) (m : Sent) : (s.send m).free = s.free := rfl

/-! ### Parts of the block by number, after an update -/

theorem nth_setNth_same {α : Type} (d : α) (l : List α) (i : Nat) (x : α) (h : i < l.length) : nth d (setNth l i x) i = x := by
  simp [nth, setNth, h]

theorem nth_setNth_ne {α : Type} (d : α) (l : List α) (i j : Nat) (x : α) (h : j ≠ i) : nth d (setNth l i x) j = nth d l j := by
  simp [nth, setNth, List.getElem?_set_ne (Ne.symm h)]

@[simp] theorem length_setNth {α : Type} (l : List α) (i : Nat) (x : α) : (setNth l i x).length = l.length := by simp [setNth]

theorem core_setCore_same (s : State) (c : Nat) (k : CoreSt) (h : c < s.cores.length) : (s.setCore c k).core c = k :=
  nth_setNth_same _ _ _ _ h

theorem core_setCore_ne (s : State) (c d : Nat) (k : CoreSt) (h : d ≠ c) : (s.setCore c k).core d = s.core d :=
  nth_setNth_ne _ _ _ _ _ h

theorem part_setPart_same (s : State) (p : Nat) (k : PartSt) (h : p < s.parts.length) : (s.setPart p k).part p = k :=
  nth_setNth_same _ _ _ _ h

theorem part_setPart_ne (s : State) (p q : Nat) (k : PartSt) (h : q ≠ p) : (s.setPart p k).part q = s.part q :=
  nth_setNth_ne _ _ _ _ _ h

theorem stack_setStack_same (s : State) (t : Nat) (k : StackSt) (h : t < s.stks.length) : (s.setStack t k).stack t = k :=
  nth_setNth_same _ _ _ _ h

theorem stack_setStack_ne (s : State) (t v : Nat) (k : StackSt) (h : v ≠ t) : (s.setStack t k).stack v = s.stack v :=
  nth_setNth_ne _ _ _ _ _ h

@[simp] theorem core_setWord (s : State) (r : Reg) (i j w c : Nat) : (s.setWord r i j w).core c = s.core c := rfl
@[simp] theorem part_setWord (s : State) (r : Reg) (i j w p : Nat) : (s.setWord r i j w).part p = s.part p := rfl
@[simp] theorem stack_setWord (s : State) (r : Reg) (i j w t : Nat) : (s.setWord r i j w).stack t = s.stack t := rfl
@[simp] theorem core_set (s : State) (f : Fld) (v i j c : Nat) : (s.set f v i j).core c = s.core c := rfl
@[simp] theorem part_set (s : State) (f : Fld) (v i j p : Nat) : (s.set f v i j).part p = s.part p := rfl
@[simp] theorem stack_set (s : State) (f : Fld) (v i j t : Nat) : (s.set f v i j).stack t = s.stack t := rfl
@[simp] theorem word_setCore (s : State) (c : Nat) (k : CoreSt) (r : Reg) (i j : Nat) : (s.setCore c k).word r i j = s.word r i j := rfl
@[simp] theorem word_setPart (s : State) (p : Nat) (k : PartSt) (r : Reg) (i j : Nat) : (s.setPart p k).word r i j = s.word r i j := rfl
@[simp] theorem word_setStack (s : State) (t : Nat) (k : StackSt) (r : Reg) (i j : Nat) : (s.setStack t k).word r i j = s.word r i j := rfl
@[simp] theorem get_setCore (s : State) (c : Nat) (k : CoreSt) (f : Fld) (i j : Nat) : (s.setCore c k).get f i j = s.get f i j := rfl
@[simp] theorem get_setPart (s : State) (p : Nat) (k : PartSt) (f : Fld) (i j : Nat) : (s.setPart p k).get f i j = s.get f i j := rfl
@[simp] theorem get_setStack (s : State) (t : Nat) (k : StackSt) (f : Fld) (i j : Nat) : (s.setStack t k).get f i j = s.get f i j := rfl

/-! ### The shape and the canonical form -/

theorem all_setNth {α : Type} (p : α → Bool) (l : List α) (i : Nat) (x : α) (h : l.all p = true) (hx : p x = true) :
    (setNth l i x).all p = true := by
  rw [List.all_eq_true] at h ⊢
  intro y hy
  rcases List.mem_or_eq_of_mem_set hy with hy | rfl
  · exact h y hy
  · exact hx

/-- A core whose register files have their lengths keeps the block's shape. -/
theorem shaped_setCore (s : State) (c : Nat) (k : CoreSt) (h : s.shaped = true) (hx : k.x.length = 32) (hd : k.td.length = 32) :
    (s.setCore c k).shaped = true := by
  have := all_setNth (fun k : CoreSt => k.x.length == 32 && k.td.length == 32) s.cores c k
  simp only [State.shaped, Bool.and_eq_true, setCore_cores, length_setNth] at h ⊢
  simp only [setCore_stks, setCore_parts, setCore_dieUp, setCore_link, setCore_power, setCore_sec, setCore_mod, setCore_net]
  have e := this (by simp_all) (by simp [hx, hd])
  simp_all

/-- A partition with its twelve counters keeps the block's shape. -/
theorem shaped_setPart (s : State) (p : Nat) (k : PartSt) (h : s.shaped = true) (hk : k.acc.length = 12) : (s.setPart p k).shaped = true := by
  have := all_setNth (fun k : PartSt => k.acc.length == 12) s.parts p k
  simp only [State.shaped, Bool.and_eq_true, setPart_parts, length_setNth] at h ⊢
  simp only [setPart_stks, setPart_cores, setPart_dieUp, setPart_link, setPart_power, setPart_sec, setPart_mod, setPart_net]
  have e := this (by simp_all) (by simp [hk])
  simp_all

/-- Registers do not matter to the shape. -/
@[simp] theorem shaped_setWord (s : State) (r : Reg) (i j w : Nat) : (s.setWord r i j w).shaped = s.shaped := rfl
@[simp] theorem shaped_set (s : State) (f : Fld) (v i j : Nat) : (s.set f v i j).shaped = s.shaped := rfl
@[simp] theorem shaped_bump (s : State) (f : Fld) (n i j : Nat) : (s.bump f n i j).shaped = s.shaped := rfl
@[simp] theorem shaped_send (s : State) (m : Sent) : (s.send m).shaped = s.shaped := rfl
@[simp] theorem shaped_setPan (s : State) (u : Nat) (x : PanSt) : (s.setPan u x).shaped = s.shaped := rfl
@[simp] theorem shaped_setGranule (s : State) (g : Nat) (x : Gran) : (s.setGranule g x).shaped = s.shaped := rfl

/-- The register map of a state in canonical form is one. -/
theorem csr_wf (s : State) (h : s.canonical = true) : smWf 0#64 s.csr = true := by
  simp only [State.canonical, Bool.and_eq_true, and_assoc] at h
  exact h.2.2.2.2.1

/-- Setting a register keeps the canonical form. -/
theorem canonical_setWord (s : State) (r : Reg) (i j w : Nat) (h : s.canonical = true) : (s.setWord r i j w).canonical = true := by
  have e := smWf_smPut 0#64 s.csr (r.off i j) (BitVec.ofNat 64 w ^^^ BitVec.ofNat 64 (r.resetWord i j)) (csr_wf s h)
  simp only [State.canonical, Bool.and_eq_true, and_assoc] at h ⊢
  obtain ⟨h1, h2, h3, h4, h5, h6, h7, h8, h9, h10, h11, h12, h13, h14, h15, h16, h17, h18, h19, h20⟩ := h
  simp only [setWord_mem, setWord_gran, setWord_ecc, setWord_metaFlip, setWord_host, setWord_csumBad, setWord_pans, setWord_msixHeld,
    setWord_msixSent, setWord_net, setWord_link, setWord_cores, setWord_stks, setWord_parts, setWord_batches, setWord_age, setWord_csr, setWord_flipped, setWord_tx]
  exact ⟨h1, h2, h3, h4, e, h6, h7, h8, h9, h10, h11, h12, h13, h14, h15, h16, h17, h18, h19, h20⟩

theorem canonical_set (s : State) (f : Fld) (v i j : Nat) (h : s.canonical = true) : (s.set f v i j).canonical = true :=
  canonical_setWord s _ _ _ _ h

theorem canonical_bump (s : State) (f : Fld) (n i j : Nat) (h : s.canonical = true) : (s.bump f n i j).canonical = true :=
  canonical_set s _ _ _ _ h

/-- A core in canonical form keeps the block's. -/
theorem canonical_setCore (s : State) (c : Nat) (k : CoreSt) (h : s.canonical = true) (hk : k.canonical = true) :
    (s.setCore c k).canonical = true := by
  have e := all_setNth CoreSt.canonical s.cores c k
  simp only [State.canonical, Bool.and_eq_true, and_assoc] at h ⊢
  obtain ⟨h1, h2, h3, h4, h5, h6, h7, h8, h9, h10, h11, h12, h13, h14, h15, h16, h17, h18, h19, h20⟩ := h
  simp only [setCore_mem, setCore_gran, setCore_ecc, setCore_metaFlip, setCore_host, setCore_csumBad, setCore_pans, setCore_msixHeld,
    setCore_msixSent, setCore_net, setCore_link, setCore_cores, setCore_stks, setCore_parts, setCore_batches, setCore_age, setCore_csr, setCore_flipped, setCore_tx]
  exact ⟨h1, h2, h3, h4, h5, h6, h7, h8, h9, h10, h11, h12, h13, e h14 hk, h15, h16, h17, h18, h19, h20⟩

/-- A core of a state in canonical form is in canonical form. -/
theorem core_canonical (s : State) (c : Nat) (h : s.canonical = true) : (s.core c).canonical = true := by
  simp only [State.canonical, Bool.and_eq_true, and_assoc] at h
  have e : s.cores.all CoreSt.canonical = true := h.2.2.2.2.2.2.2.2.2.2.2.2.2.1
  rw [List.all_eq_true] at e
  unfold State.core nth
  cases hk : s.cores[c]? with
  | none => decide
  | some k => exact e k (List.mem_of_getElem? hk)

end Sys2Proof.Machine
end

