-- ==== Sys2Proof/Laws/Csr.lean ====
section
/-!
SUPPORT. Registers and their fields: a read after a write gives what was written, and every other register and field stands.
-/
namespace Sys2Proof.Machine

/-- A register's content is a 64-bit number. -/
theorem word_lt (s : State) (r : Reg) (i j : Nat) : s.word r i j < 2 ^ 64 := BitVec.isLt _

/-- A register reads as it was set. -/
theorem word_setWord_same (s : State) (r : Reg) (i j w : Nat) (h : smWf 0#64 s.csr = true) (hw : w < 2 ^ 64) :
    (s.setWord r i j w).word r i j = w := by
  unfold State.word State.setWord
  rw [smGet_smPut_same _ _ _ _ h, BitVec.xor_assoc, BitVec.xor_self, BitVec.xor_zero, BitVec.toNat_ofNat, Nat.mod_eq_of_lt hw]

/-- Setting one register leaves those at other offsets. -/
theorem word_setWord_ne (s : State) (r q : Reg) (i j k l w : Nat) (h : q.off k l ≠ r.off i j) :
    (s.setWord r i j w).word q k l = s.word q k l := by
  unfold State.word State.setWord
  rw [smGet_smPut_ne _ _ _ _ _ h]

/-- A field reads as the low bits of what it was set to. -/
theorem get_set_same (s : State) (f : Fld) (v i j : Nat) (h : smWf 0#64 s.csr = true) (hf : f.lo ≤ f.hi) (hh : f.hi < 64) :
    (s.set f v i j).get f i j = v % 2 ^ (f.hi + 1 - f.lo) := by
  unfold State.get State.set
  rw [word_setWord_same _ _ _ _ _ h (setBits_lt _ _ _ _ (word_lt _ _ _ _) hh hf), bits_setBits_same]

/-- Setting a field leaves the registers at other offsets. -/
theorem get_set_ne (s : State) (f g : Fld) (v i j k l : Nat) (h : g.reg.off k l ≠ f.reg.off i j) : (s.set f v i j).get g k l = s.get g k l := by
  unfold State.get State.set
  rw [word_setWord_ne _ _ _ _ _ _ _ _ h]

/-- Setting a field leaves the fields above and below it in its register. -/
theorem get_set_apart (s : State) (f g : Fld) (v i j : Nat) (h : smWf 0#64 s.csr = true) (hf : f.lo ≤ f.hi) (hh : f.hi < 64)
    (hr : g.reg = f.reg) (hd : f.hi < g.lo ∨ g.hi < f.lo) : (s.set f v i j).get g i j = s.get g i j := by
  unfold State.get State.set
  rw [hr, word_setWord_same _ _ _ _ _ h (setBits_lt _ _ _ _ (word_lt _ _ _ _) hh hf)]
  rcases hd with hd | hd
  · exact bits_setBits_above _ _ _ _ _ _ hd (by omega)
  · exact bits_setBits_below _ _ _ _ _ _ hd

/-- A field is below its width's power. -/
theorem get_lt (s : State) (f : Fld) (i j : Nat) : s.get f i j < 2 ^ (f.hi + 1 - f.lo) := bits_lt _ _ _

end Sys2Proof.Machine
end

