-- ==== Sys2Proof/Laws/Events.lean ====
section
/-!
SUPPORT. Commands and queue pairs: what a command with a condition or a due time can do, and what a packet sent on a queue
pair leaves.
-/
namespace Sys2Proof.Machine

/-- A command whose condition holds has its effect. -/
@[simp] theorem occurs_true (s t : State) : occurs true s t = .next t := rfl

/-- A command whose condition does not hold leaves the state as it was. -/
@[simp] theorem occurs_false (s t : State) : occurs false s t = .next s := rfl

/-- Everything a timed command can do: its effect at once when it is due, its effect after time has passed to its instant, or
nothing where a boundary stands before that instant. -/
theorem dueAt_cases (s : State) (n : Nat) (f : State → State) :
    (n ≤ s.now ∧ s.dueAt n f = .next (f s)) ∨
    (s.now < n ∧ n < s.now + s.toBoundary ∧ s.dueAt n f = .next (f (s.passNs (n - s.now)))) ∨
    (s.now + s.toBoundary ≤ n ∧ s.dueAt n f = .next s) := by
  unfold State.dueAt State.advanceTo
  by_cases h : n ≤ s.now
  · exact .inl ⟨h, if_pos h⟩
  · by_cases g : n < s.now + s.toBoundary
    · exact .inr (.inl ⟨by omega, g, by simp [h, g, Nat.le_of_lt (Nat.lt_of_not_le h), ok]⟩)
    · exact .inr (.inr ⟨by omega, by simp [h, g, ok]⟩)

/-- A timed command stops on no state. -/
theorem dueAt_next (s : State) (n : Nat) (f : State → State) : ∃ t, s.dueAt n f = .next t := by
  obtain ⟨-, h⟩ | ⟨-, -, h⟩ | ⟨-, h⟩ := dueAt_cases s n f <;> exact ⟨_, h⟩

/-- A queue pair reads back what was put in it. -/
theorem qp_setQp_same (s : State) (q : Nat) (x : Qp) (h : smWf .reset s.net.qps = true) : (s.setQp q x).qp q = x :=
  smGet_smPut_same _ _ _ _ h

/-- The other queue pairs stand. -/
theorem qp_setQp_ne (s : State) (q r : Nat) (x : Qp) (h : r ≠ q) : (s.setQp q x).qp r = s.qp r :=
  smGet_smPut_ne _ _ _ _ _ h

/-- A queue pair after a packet is sent on it: the packet waits for its acknowledgement, and the next PSN follows (R413). -/
def Qp.sent (x : Qp) (now : Nat) (m : Msg) : Qp :=
  { x with
    next := (x.next + 1) % 2 ^ 24, unacked := x.unacked ++ [(x.next, m)]
    ackFrom := if x.unacked.isEmpty then now else x.ackFrom }

/-- Everything a sending can do: nothing on a pair in ERROR, else one packet under the pair's next PSN (R413). -/
theorem sendOn_cases (s : State) (q : Nat) (m : Msg) :
    ((s.qp q).error = true ∧ s.sendOn q m = s) ∨
    ((s.qp q).error = false ∧ s.sendOn q m = (s.setQp q ((s.qp q).sent s.now m)).send (.packet q (s.qp q).next m)) := by
  cases h : (s.qp q).error with
  | true => exact .inl ⟨rfl, if_pos h⟩
  | false => exact .inr ⟨rfl, if_neg (by simp [h])⟩

/-- A pair in ERROR stays silent; otherwise the packet stands at the end of what was sent (R413). -/
theorem sendOn_sent (s : State) (q : Nat) (m : Msg) :
    (s.sendOn q m).sent = if (s.qp q).error then s.sent else s.sent ++ [.packet q (s.qp q).next m] := by
  obtain ⟨h, e⟩ | ⟨h, e⟩ := sendOn_cases s q m <;> rw [e, h] <;> rfl

/-- The pair itself after a packet was sent on it (R413). -/
theorem sendOn_qp (s : State) (q : Nat) (m : Msg) (h : (s.qp q).error = false) (w : smWf .reset s.net.qps = true) :
    (s.sendOn q m).qp q = (s.qp q).sent s.now m := by
  obtain ⟨g, -⟩ | ⟨-, e⟩ := sendOn_cases s q m
  · rw [h] at g; cases g
  · rw [e]; exact qp_setQp_same s q _ w

/-- Sending on one queue pair leaves the others. -/
theorem sendOn_ne (s : State) (q r : Nat) (m : Msg) (h : r ≠ q) : (s.sendOn q m).qp r = s.qp r := by
  obtain ⟨-, e⟩ | ⟨-, e⟩ := sendOn_cases s q m <;> rw [e]
  exact qp_setQp_ne s q r _ h

/-- Sending writes no register and no memory, and ends nothing that runs in a core or a partition. -/
theorem sendOn_frame (s : State) (q : Nat) (m : Msg) :
    (s.sendOn q m).csr = s.csr ∧ (s.sendOn q m).cores = s.cores ∧ (s.sendOn q m).parts = s.parts ∧
    (s.sendOn q m).gran = s.gran ∧ (s.sendOn q m).pending = s.pending := by
  obtain ⟨-, e⟩ | ⟨-, e⟩ := sendOn_cases s q m <;> rw [e] <;> exact ⟨rfl, rfl, rfl, rfl, rfl⟩

end Sys2Proof.Machine
end

