-- ==== Sys2Proof/Laws/Scalar.lean ====
section
/-!
SUPPORT. The frame every Axver row runs in: what a row does once its word is fetched, and what setting a scalar register, joining
flags and moving the program counter leave.
-/
namespace Sys2Proof.Machine

/-- X0 reads as zero (R69). -/
@[simp] theorem x_zero (s : State) (c : Nat) : s.x c 0 = 0 := rfl

/-- A write of X0 changes nothing (R69). -/
@[simp] theorem setX_zero (s : State) (c v : Nat) : s.setX c 0 v = s := rfl

/-- A core of the block is in its list. -/
theorem core_in (s : State) (c : Fin 12) (h : s.shaped = true) : c.val < s.cores.length := by
  simp only [State.shaped, Bool.and_eq_true, beq_iff_eq] at h
  omega

/-- A core has 32 scalar registers. -/
theorem length_x (s : State) (c : Nat) (h : s.shaped = true) : (s.core c).x.length = 32 := by
  simp only [State.shaped, Bool.and_eq_true, and_assoc] at h
  have e := h.2.2.2.2.1
  rw [List.all_eq_true] at e
  unfold State.core nth
  cases hk : s.cores[c]? with
  | none => rfl
  | some k =>
    have := e k (List.mem_of_getElem? hk)
    simp only [Bool.and_eq_true, beq_iff_eq] at this
    exact this.1

/-- What a register write leaves: no field of the block but its cores. -/
theorem setX_frame (s : State) (c r v : Nat) : s.setX c r v = { s with cores := (s.setX c r v).cores } := by
  unfold State.setX
  split <;> rfl

/-- A register write touches no other core. -/
theorem core_setX_ne (s : State) (c d r v : Nat) (h : d ≠ c) : (s.setX c r v).core d = s.core d := by
  unfold State.setX
  split
  · rfl
  · exact core_setCore_ne _ _ _ _ h

/-- A register write leaves every other part of its core. -/
theorem core_setX (s : State) (c r v : Nat) (h : c < s.cores.length) :
    (s.setX c r v).core c = { s.core c with x := ((s.setX c r v).core c).x } := by
  unfold State.setX
  split
  · rfl
  · rw [core_setCore_same _ _ _ h]

/-- Every register after a write: the one written holds the value, X0 and the others what they held. -/
theorem x_setX (s : State) (c r v q : Nat) (h : c < s.cores.length) (hx : (s.core c).x.length = 32) (hr : r < 32) :
    (s.setX c r v).x c q = if q = r ∧ q ≠ 0 then v % 2 ^ 64 else s.x c q := by
  by_cases hq : q = 0
  · subst hq; simp
  · by_cases e : q = r
    · subst e
      unfold State.x State.setX
      rw [if_neg hq, if_neg hq, core_setCore_same _ _ _ h, nth_setNth_same _ _ _ _ (by omega)]
      simp [hq]
    · have : ¬ (q = r ∧ q ≠ 0) := fun x => e x.1
      rw [if_neg this]
      unfold State.x State.setX
      rw [if_neg hq, if_neg hq]
      split
      · rfl
      · rw [core_setCore_same _ _ _ h, nth_setNth_ne _ _ _ _ _ e]

/-- Moving the program counter: nothing but the core's program counter changes. -/
theorem next_frame (s : State) (c : Nat) : s.next c = { s with cores := setNth s.cores c { s.core c with pc := (s.core c).pc + 8 } } := rfl

theorem core_next (s : State) (c : Nat) (h : c < s.cores.length) : (s.next c).core c = { s.core c with pc := (s.core c).pc + 8 } :=
  core_setCore_same _ _ _ h

theorem core_next_ne (s : State) (c d : Nat) (h : d ≠ c) : (s.next c).core d = s.core d := core_setCore_ne _ _ _ _ h

theorem x_next (s : State) (c r : Nat) (h : c < s.cores.length) : (s.next c).x c r = s.x c r := by
  unfold State.x
  rw [core_next _ _ h]

/-- Joining flags changes no field of the block but its registers. -/
theorem flag_frame (s : State) (c fl : Nat) : s.flag c fl = { s with csr := (s.flag c fl).csr } := by
  unfold State.flag
  split <;> rfl

@[simp] theorem core_flag (s : State) (c fl d : Nat) : (s.flag c fl).core d = s.core d := by
  unfold State.flag
  split <;> rfl

@[simp] theorem cores_flag (s : State) (c fl : Nat) : (s.flag c fl).cores = s.cores := by
  unfold State.flag
  split <;> rfl

@[simp] theorem flag_zero (s : State) (c : Nat) : s.flag c 0 = s := rfl

/-- FP_FLAGS after flags are joined (R69, R70). -/
theorem word_flag (s : State) (c fl : Nat) (h : smWf 0#64 s.csr = true) (hf : fl < 2 ^ 64) :
    (s.flag c fl).word Reg.FP_FLAGS c 0 = s.word Reg.FP_FLAGS c 0 ||| fl := by
  unfold State.flag
  split
  · subst_vars; simp
  · exact word_setWord_same _ _ _ _ _ h (Nat.or_lt_two_pow (word_lt _ _ _ _) hf)

/-- A row whose word is fetched and legal does what it does; with another OP the event does not occur. -/
theorem axRow_word (s u : State) (c op p w : Nat) (legal : Nat → Bool) (f : Nat → Nat → State → State)
    (hr : s.runsFor c = some p) (hf : s.fetch c p = (.word w, u)) (hw : w >>> 56 = op) (hl : legal w = true) :
    s.axRow c op legal f = .next (f p w u) := by
  subst hw
  simp [State.axRow, hr, hf, hl, ok]

/-- A core that runs no block: the event does not occur. -/
theorem axRow_idle (s : State) (c op : Nat) (legal : Nat → Bool) (f : Nat → Nat → State → State) (hr : s.runsFor c = none) :
    s.axRow c op legal f = .next s := by
  simp [State.axRow, hr, ok]

/-- A register-operand instruction whose word is fetched and legal: flags joined, RD written, the program counter moved. -/
theorem axOp_word (s u : State) (c op p w : Nat) (legal : Nat → Bool) (f : Nat → Nat → Nat → Nat × Nat)
    (hr : s.runsFor c = some p) (hf : s.fetch c p = (.word w, u)) (hw : w >>> 56 = op) (hl : legal w = true) :
    s.axOp c op legal f =
      .next (((u.flag c (f (u.x c (wRS1 w)) (u.x c (wRS2 w)) (u.x c (wRS3 w))).2).setX c (wRD w)
        (f (u.x c (wRS1 w)) (u.x c (wRS2 w)) (u.x c (wRS3 w))).1).next c) :=
  axRow_word s u c op p w legal _ hr hf hw hl

/-- An immediate instruction whose word is fetched and legal: RD written, the program counter moved. -/
theorem axImm_word (s u : State) (c op p w : Nat) (legal : Nat → Bool) (f : Nat → Nat → Nat)
    (hr : s.runsFor c = some p) (hf : s.fetch c p = (.word w, u)) (hw : w >>> 56 = op) (hl : legal w = true) :
    s.axImm c op legal f = .next ((u.setX c (wRD w) (f (u.x c (wRS1 w)) (wSImm w))).next c) :=
  axRow_word s u c op p w legal _ hr hf hw hl

end Sys2Proof.Machine
end

