-- ==== Sys2Proof/Tests/Slice0.lean ====
section
/-!
SUPPORT. The model's own tests: ill-formed commands that WellFormed refuses, the spec's worked examples, and for every
obligation with hypotheses states and operands that meet them.
-/
namespace Sys2Proof.Tests
open Sys2Proof Sys2Proof.Machine Sys2Proof.Spec

-- One declaration after another: theorems that are checked side by side hold more memory at once.
set_option Elab.async false

set_option maxRecDepth 8000
set_option exponentiation.threshold 600

/-- A state with register fields set: field, indices, value. -/
def withRegs (l : List (Fld × Nat × Nat × Nat)) (s : State) : State :=
  l.foldl (fun s e => s.set e.1 e.2.2.2 e.2.1 e.2.2.1) s

/-- The next state of an outcome. -/
def after (o : Host.Outcome State Fault Refusal) : State :=
  match o with
  | .next t => t
  | _ => State.reset

/-- Stack 0 in service, and core 0 the core of partition 3. -/
def tBase : State :=
  withRegs [(Fld.STK_STATUS.STATE, 0, 0, 2), (Fld.CORE_STATUS.ASSIGNED, 0, 0, 1), (Fld.CORE_STATUS.PART, 0, 0, 3),
    (Fld.PT_CORES.CORES, 3, 0, 1)] State.reset

/-- Partition 3 in an active step, owning the first four units of stack 0. -/
def tPart : PartSt := { PartSt.reset with phase := .active, ranges := [⟨0, 0, 4⟩] }

/-- Core 0 at a word of its block at 0x1000, with the given scalar registers. -/
def tCore (w : Nat) (xs : List (Nat × Nat)) : CoreSt :=
  { CoreSt.reset with
    x := xs.foldl (fun l e => setNth l e.1 (BitVec.ofNat 64 e.2)) (List.replicate 32 0#64)
    body := 0x1000, bodyLen := 64, pc := 0x1000, run := .running, ibuf := [(1, cellsOf 0x1000 8 w)] }

/-- The block with core 0 of partition 3 at a word. -/
def tBlk (w : Nat) (xs : List (Nat × Nat)) : State := (tBase.setPart 3 tPart).setCore 0 (tCore w xs)

/-- A word of the scalar formats: OP, RD, RS1, RS2, RS3, the low 36 bits (R98). -/
def rWord (op rd rs1 rs2 rs3 low : Nat) : Nat := op <<< 56 + rd <<< 51 + rs1 <<< 46 + rs2 <<< 41 + rs3 <<< 36 + low

/-- What the statements on a core's instruction ask of the state: it is sound, and core 0 runs the word for partition 3. -/
abbrev AtWord (w : Nat) (xs : List (Nat × Nat)) : Prop := Sound (tBlk w xs) ∧ Runs (tBlk w xs) (tBlk w xs) 0 3 w

/-! ## Hypotheses that can be met -/

theorem witness_RegisterWriteFollowsAccessCodes :
    Sound State.reset ∧ regAt (0xB10000#28).toNat = some (Reg.MSIX_ADDR, 0, 0) ∧ Reg.MSIX_ADDR.base ∉ actingBases ∧
      ¬ inAssay Reg.MSIX_ADDR ∧ State.reset.csrUp (0xB10000#28).toNat = true ∧ State.reset.get Fld.SEC_STATE.STATE ≠ 3 ∧
      (AccessWidth.high ≠ .whole → Reg.MSIX_ADDR.snapshot = false) := by decide

theorem witness_RegisterReadAndRefusedAccesses :
    (Sound State.reset ∧ regAt (0x600010#28).toNat = some (Reg.PWR_BUDGET, 0, 0) ∧ Reg.PWR_BUDGET.base ∉ liveBases ∧
      State.reset.csrUp (0x600010#28).toNat = true ∧ State.reset.get Fld.SEC_STATE.STATE ≠ 3 ∧
      (AccessWidth.low ≠ .whole → Reg.PWR_BUDGET.snapshot = false)) ∧
    (regAt 0 = some (Reg.TICK_COUNT, 0, 0) ∧ AccessWidth.low ≠ .whole ∧ Reg.TICK_COUNT.snapshot = true) ∧
    (let s : State := { State.reset with dieUp := [true, false] };
      regAt 0x1010000 = some (Reg.STK_STATUS, 1, 0) ∧ regAt 0x10A0000 = some (Reg.STK_STATUS, 10, 0) ∧ s.csrUp 0x10A0000 = false) ∧
    (regAt 0x48 = none ∧ State.reset.csrUp 0x48 = true ∧ State.reset.get Fld.SEC_STATE.STATE ≠ 3) ∧
    (regAt 0x900010 = some (Reg.ASY_CFG, 0, 0) ∧ inAssay Reg.ASY_CFG ∧ State.reset.csrUp 0x900010 = true) := by decide

theorem witness_IntegerInstructions :
    (∃ e ∈ registerOps, let w := rWord 0x0E 3 1 2 0 0;
      AtWord w [(1, 5), (2, 0)] ∧ w >>> 56 = e.1 ∧ unusedZero e.2.2.1 w) ∧
    (∃ e ∈ immediateOps, let w := rWord 0x26 3 1 0 0 63;
      AtWord w [(1, 2 ^ 63)] ∧ w >>> 56 = e.1 ∧ bits w 45 32 = 0 ∧ (e.2.2.1 = true → bits w 31 6 = 0)) ∧
    (let w := rWord 0x2A 31 0 0 0 0 + 0xFFFFFFFFFFFF;
      AtWord w [] ∧ w >>> 56 = 0x2A ∧ bits w 50 48 = 0) ∧
    (let w := rWord 0x2B 31 0 0 0 0xFFFF;
      AtWord w [] ∧ w >>> 56 = 0x2B ∧ bits w 50 48 = 0 ∧ bits w 47 16 = 0) := by decide

theorem witness_FloatingPointInstructions :
    (∃ e ∈ floatOps, let w := rWord 0x34 3 1 2 4 0;
      AtWord w [(1, 0x3F800000), (2, 0x7F800000), (4, 0xFF800000)] ∧ w >>> 56 = e.1 ∧ unusedZero e.2.2.1 w) ∧
    (let w := rWord 0x36 3 1 2 0 (3 <<< 32);
      AtWord w [(1, 0x7FC00000)] ∧ w >>> 56 = 0x36 ∧ bits w 40 36 = 0 ∧ bits w 31 0 = 0 ∧ wCC w ≤ 3) ∧
    (let w := rWord 0x37 3 1 0 0 (3 <<< 32);
      AtWord w [(1, 2 ^ 64 - 1)] ∧ w >>> 56 = 0x37 ∧ bits w 45 36 = 0 ∧ bits w 31 0 = 0 ∧ wCC w ≤ 3) := by decide

theorem witness_BranchesAndJumps :
    (∃ e ∈ branchOps, let w := rWord 0x52 0 1 2 0 0xFFFFFFF8;
      AtWord w [(1, 2 ^ 63), (2, 0)] ∧ w >>> 56 = e.1 ∧ bits w 55 51 = 0 ∧ bits w 40 32 = 0 ∧ bits w 2 0 = 0 ∧
        ((tBlk w [(1, 2 ^ 63), (2, 0)]).core 0).pc < 2 ^ 63) ∧
    (let w := rWord 0x56 1 0 0 0 0x10;
      AtWord w [] ∧ w >>> 56 = 0x56 ∧ bits w 50 32 = 0 ∧ bits w 2 0 = 0) ∧
    (let w := rWord 0x57 1 1 0 0 0x10;
      AtWord w [(1, 0x1008)] ∧ w >>> 56 = 0x57 ∧ bits w 45 32 = 0 ∧ bits w 2 0 = 0) := by decide

theorem witness_SpecialRegisterInstructions :
    (let w := rWord 0x38 3 0 0 0 (4 <<< 32);
      AtWord w [] ∧ w >>> 56 = 0x38 ∧ bits w 50 36 = 0 ∧ bits w 31 0 = 0 ∧ wCC w ≤ 4) ∧
    (let w := rWord 0x38 3 0 0 0 (2 <<< 32);
      AtWord w [] ∧ wCC w = 2 ∧ seedBusy ((tBlk w []).core 0) = false) ∧
    (let w := rWord 0x39 0 1 0 0 (2 <<< 32);
      AtWord w [(1, 7)] ∧ w >>> 56 = 0x39 ∧ bits w 55 51 = 0 ∧ bits w 45 36 = 0 ∧ bits w 31 0 = 0 ∧ wCC w = 2 ∧
        seedBusy ((tBlk w [(1, 7)]).core 0) = false) ∧
    (let w := rWord 0x3A 3 1 0 0 0;
      AtWord w [(1, 262145)] ∧ w >>> 56 = 0x3A ∧ bits w 45 0 = 0) ∧
    (let w := rWord 0x3B 3 0 0 0 0;
      AtWord w [] ∧ w >>> 56 = 0x3B ∧ bits w 50 32 = 0) := by decide

/-- Core 0 at a word with X1 at the last word of its range, and its read cache holding that line. -/
def tCached (w : Nat) : State :=
  let s := tBlk w [(1, 0x7FFFF8)];
  s.setCore 0 { s.core 0 with cfg := setBits (s.core 0).cfg 16 16 1, rc := [(0x1FFFF, (7#512, false))] }

theorem witness_Loads :
    (let w := rWord 0x41 3 1 0 0 (7 <<< 32);
      let u := tBlk w [(1, 0x7FFFF8)];
      AtWord w [(1, 0x7FFFF8)] ∧ w >>> 56 = 0x41 ∧ bits w 45 36 = 0 ∧ wORD w ≤ 2 ∧ AccessOk u 3 (mAddr u 0 w) (wBytes w) false ∧
        (u.core 0).storeOverlaps (mAddr u 0 w) (wBytes w) = false ∧ Clean u (mAddr u 0 w)) ∧
    (let w := rWord 0x40 3 1 0 0 (3 <<< 32);
      let u := tCached w;
      Sound u ∧ Runs u u 0 3 w ∧ w >>> 56 = 0x40 ∧ bits w 45 36 = 0 ∧ wORD w = 0 ∧ AccessOk u 3 (mAddr u 0 w) (wBytes w) false ∧
        (u.core 0).storeOverlaps (mAddr u 0 w) (wBytes w) = false ∧ Clean u (mAddr u 0 w) ∧
        smFind (u.core 0).rc (mAddr u 0 w / 64) = some (7#512, false)) := by decide

/-- Core 0 of partition 3 with one store queued to the last word of its range. -/
def tStore : State :=
  let s := tBlk 0 [];
  s.setCore 0 { s.core 0 with stq := [⟨0x1000, 0x7FFFF8, 8, 5⟩] }

theorem witness_StoresEnterTheQueueAndDrain :
    (let w := rWord 0x42 0 1 2 0 (11 <<< 32);
      let xs := [(1, 0x7FFFF8), (2, 9)];
      let u := tBlk w xs;
      AtWord w xs ∧ w >>> 56 = 0x42 ∧ bits w 55 51 = 0 ∧ bits w 40 36 = 0 ∧ wORD w = 2 ∧ u.fullDone 0 = true ∧
        AccessOk u 3 (mAddr u 0 w) (wBytes w) true ∧ (u.core 0).stq.length < 16) ∧
    (Sound tStore ∧ tStore.partOf 0 = some 3 ∧ (tStore.core 0).stq ≠ [] ∧
      ∀ e ∈ (tStore.core 0).stq, tStore.answers e.addr = true ∧ 0 < e.size ∧ e.addr % e.size = 0 ∧ e.size ∣ 64 ∧ Clean tStore e.addr ∧
        Unarmed tStore e.addr) := by decide

theorem witness_Atomics :
    let w := rWord 0x45 3 1 2 4 (15 <<< 32);
    let xs := [(1, 0x7FFFF8), (2, 9)];
    let u := tBlk w xs;
    AtWord w xs ∧ w >>> 56 = 0x45 ∧ wBytes w = 8 ∧ wORD w = 3 ∧ u.fullDone 0 = true ∧ AccessOk u 3 (mAddr u 0 w) 8 true ∧
      (u.core 0).stq = [] ∧ Clean u (mAddr u 0 w) ∧ Unarmed u (mAddr u 0 w) := by decide

theorem witness_CsrInstructions :
    (let w := rWord 0x58 3 0 0 0 0;
      let u := tBlk w [];
      AtWord w [] ∧ w >>> 56 = 0x58 ∧ bits w 45 28 = 0 ∧ regAt 0 = some (Reg.TICK_COUNT, 0, 0) ∧ Reg.TICK_COUNT.base ∉ liveBases ∧
        u.coreGrant 0 3 0 0 false = true ∧ u.csrUp 0 = true) ∧
    (let w := rWord 0x59 0 0 1 0 0x2000040;
      let u := tBlk w [(1, 0x1F)];
      AtWord w [(1, 0x1F)] ∧ w >>> 56 = 0x59 ∧ bits w 55 51 = 0 ∧ bits w 40 28 = 0 ∧ regAt 0x2000040 = some (Reg.FP_FLAGS, 0, 0) ∧
        Reg.FP_FLAGS.base ∉ actingBases ∧ u.coreGrant 0 3 0x2000040 0x1F true = true ∧ u.csrUp 0x2000040 = true) ∧
    (let w := rWord 0x58 3 0 0 0 4;
      AtWord w [] ∧ w >>> 56 = 0x58 ∧ bits w 40 28 = 0 ∧ bits w 45 41 = 0 ∧ (tBlk w []).get Fld.FAULT_REC.VALID 0 = 0 ∧ 4 % 8 ≠ 0) ∧
    (let w := rWord 0x59 0 0 1 0 0x600000;
      let u := tBlk w [];
      AtWord w [] ∧ w >>> 56 = 0x59 ∧ bits w 40 28 = 0 ∧ u.coreGrant 0 3 0x600000 0 true = false) := by decide

theorem witness_FencesAndBlockControl :
    (let w := rWord 0x60 0 0 0 0 0;
      let u := tBlk w [];
      AtWord w [] ∧ w >>> 56 = 0x60 ∧ bits w 55 40 = 0 ∧ bits w 31 0 = 0 ∧ wSEL w = 0 ∧ u.writesDone 0 ∧ u.readsDone 0) ∧
    (AtWord 0x6100000000000000 [] ∧ AtWord 0x7000000000000000 [] ∧ AtWord 0x7100000000000000 []) ∧
    (AtWord 0x7200000000000000 [] ∧ (tBlk 0x7200000000000000 []).scalarDone 0 = true) := by decide

theorem witness_Semaphores :
    (let w := rWord 0x62 0 1 0 0 (63 <<< 32);
      let u := tBlk w [(1, 2 ^ 32 - 1)];
      AtWord w [(1, 2 ^ 32 - 1)] ∧ bits w 45 40 = 0 ∧ wSEL w = 63 ∧ w >>> 56 = 0x62 ∧ wRD w = 0 ∧ u.fullDone 0 = true ∧ u.semQueue 3 63 = []) ∧
    (let w := rWord 0x63 0 1 0 0 (63 <<< 32);
      AtWord w [(1, 1)] ∧ bits w 45 40 = 0 ∧ w >>> 56 = 0x63 ∧ wRD w = 0 ∧ (tBlk w [(1, 1)]).semQueue 3 63 = []) ∧
    (let w := rWord 0x64 3 1 0 0 0;
      AtWord w [] ∧ bits w 45 40 = 0 ∧ w >>> 56 = 0x64) ∧
    (let w := rWord 0x65 3 0 0 0 (63 <<< 32);
      AtWord w [] ∧ bits w 45 40 = 0 ∧ w >>> 56 = 0x65 ∧ wRS1 w = 0 ∧ bits w 31 0 = 0) ∧
    (Sound State.reset ∧ State.reset.serves 0 = true ∧ State.reset.semQueue 15 (bits (0xFFFFFFFF0000003F#64).toNat 5 0) = []) := by decide

theorem witness_PostAndWindowTime :
    (let w := rWord 0x73 0 1 0 0 (15 <<< 32 + 256);
      let xs := [(1, 0x7FFF00)];
      let u := tBlk w xs;
      AtWord w xs ∧ w >>> 56 = 0x73 ∧ bits w 55 51 = 0 ∧ bits w 45 40 = 0 ∧ wSEL w = 15 ∧ wSEL w ∉ [0, 1, 3] ∧ bits w 31 0 = 256 ∧
        u.scalarReach 3 0x7FFF00 256 false = true ∧ u.answers 0x7FFF00 = true ∧ (u.core 0).stq = [] ∧
        (u.part 3).staging.length < 8192 ∧ ∀ i, i < 256 → Clean u (0x7FFF00 + i)) ∧
    (let w := rWord 0x74 3 0 0 0 (2 <<< 32);
      AtWord w [] ∧ w >>> 56 = 0x74 ∧ bits w 50 40 = 0 ∧ bits w 31 0 = 0 ∧ wSEL w = 2) := by decide

theorem witness_IllegalWordsAndFetchesFault :
    (let w := rWord 0x29 0 0 0 0 0;
      AtWord w [] ∧ (tBlk w []).get Fld.FAULT_REC.VALID 0 = 0 ∧
        ∀ r ∈ [(0x01, 0x18), (0x20, 0x28), (0x2A, 0x2B), (0x30, 0x37), (0x38, 0x3B), (0x40, 0x45), (0x50, 0x57), (0x58, 0x59),
          (0x60, 0x65), (0x70, 0x74), (0x80, 0x80), (0x88, 0x9A), (0xA0, 0xA4), (0xB0, 0xB6), (0xC0, 0xC1), (0xD0, 0xD3)],
          ¬ (r.1 ≤ w >>> 56 ∧ w >>> 56 ≤ r.2)) ∧
    (let s := (tBlk 0 []).setCore 0 { tCore 0 [] with pc := 0x1040 };
      Sound s ∧ s.runsFor 0 = some 3 ∧ s.get Fld.FAULT_REC.VALID 0 = 0 ∧
        (s.core 0).body + (s.core 0).bodyLen < (s.core 0).pc + 8) := by decide

/-- Core 0 at an engine instruction, with scalar registers, vector length and descriptor registers. -/
def tEng (w : Nat) (xs : List (Nat × Nat)) (vl : Nat) (tds : List (Nat × Nat)) : State :=
  let s := tBlk w xs
  s.setCore 0 { s.core 0 with
    vl := vl, td := tds.foldl (fun l e => setNth l e.1 ⟨true, BitVec.ofNat 512 e.2⟩) (List.replicate 32 ⟨false, 0#512⟩) }

/-- What the statements on an engine instruction ask of the state. -/
abbrev AtEng (w : Nat) (xs : List (Nat × Nat)) (vl : Nat) (tds : List (Nat × Nat)) : Prop :=
  let s := tEng w xs vl tds
  Sound s ∧ Runs s s 0 3 w ∧ EnginesIdle s 0 ∧ s.inEve 3 = false

/-- What the statements on a vector instruction ask of the state. -/
abbrev AtVec (w : Nat) (xs : List (Nat × Nat)) (vl : Nat) : Prop :=
  let q := entryOf (tEng w xs vl []) 0 .ve w [vRS w] []
  AtEng w xs vl [] ∧ lgV (w >>> 56) w = true ∧ 1 ≤ ((tEng w xs vl []).core 0).vrow ∧ trfRange (q.vReads ++ q.vWrites) = none

/-- A word of format V (R130): OP, DST, DFMT, SA, AFMT, AMODE, SB, BFMT, BMODE, SR, RS. -/
def vWord (op dst df sa af am sb bf bm sr rs : Nat) : Nat :=
  op <<< 56 + dst <<< 47 + df <<< 44 + sa <<< 35 + af <<< 32 + am <<< 30 + sb <<< 21 + bf <<< 18 + bm <<< 16 + sr <<< 15 + rs <<< 9

/-- A word of format X: OP, SLOT, TDA, TDB, TDC, the bit of XSCAT. -/
def xWord (op slot a b c add : Nat) : Nat := op <<< 56 + slot <<< 47 + a <<< 42 + b <<< 37 + c <<< 32 + add <<< 31

/-- A descriptor of rank 1 or 2 (R185): base, format, kind, mode, extents, byte stride of dimension 1. -/
def tDesc (base fmt kind mode e0 e1 stride : Nat) : Nat :=
  base + fmt <<< 44 + kind <<< 48 + mode <<< 50 + (if e1 = 0 then 0 else 1 <<< 52) + e0 <<< 64 + e1 <<< 96 + stride <<< 192

theorem witness_VectorElementInstructions :
    (∃ e ∈ vectorOps, let w := vWord 0x8B 383 1 0 1 2 1 1 1 0 0; AtVec w [] 8192 ∧ w >>> 56 = e.1) ∧
    (∃ e ∈ vectorOps, let w := vWord 0x8E 383 3 0 1 0 0 0 0 1 0; AtVec w [] 64 ∧ w >>> 56 = e.1 ∧ vSR w = true) := by
  refine ⟨?_, ?_⟩ <;> decide

theorem witness_VectorRowScaleAndMaskInstructions :
    (∃ e ∈ rowOps, let w := vWord 0x95 383 0 0 1 0 0 0 0 0 0; AtVec w [] 513 ∧ w >>> 56 = e.1) ∧
    (let w := vWord 0x96 383 1 0 0 0 0 0 0 0 1; AtVec w [(1, 0x3F800000)] 8192 ∧ w >>> 56 = 0x96) ∧
    (let w := vWord 0x98 383 1 0 3 0 1 0 0 0 0; AtVec w [] 8192 ∧ w >>> 56 = 0x98) ∧
    (let w := vWord 0x9A 383 1 0 1 0 0 0 0 0 1; AtVec w [(1, 2 ^ 63)] 8192 ∧ w >>> 56 = 0x9A) ∧
    (let w := vWord 0x99 383 1 0 1 0 0 0 0 0 1; AtVec w [(1, 2 ^ 63)] 8192 ∧ w >>> 56 = 0x99) ∧
    (let w := vWord 0x97 382 3 0 1 0 383 0 0 1 0;
      AtVec w [] 33 ∧ w >>> 56 = 0x97 ∧ slotBytes * wSlot w + elemBytes (vDFMT w) 33 ≤ slotBytes * vSB w) := by
  refine ⟨?_, ?_, ?_, ?_, ?_, ?_⟩ <;> decide

theorem witness_MatrixProduct :
    (let w := 0x80 <<< 56 + 376 <<< 47 + 1 <<< 42 + 2 <<< 37 + 3 <<< 32 + 3 <<< 29 + 3 <<< 26 + 1 <<< 23 + 7 <<< 20;
      let xs := [(1, 0x80010000), (2, 0x80030002), (3, 1)];
      AtEng w xs 0 [] ∧ w >>> 56 = 0x80 ∧ lgMma w = true ∧ aFIN w = true ∧ aACC w = true ∧ aBANK w = true ∧
        (let q := entryOf (tEng w xs 0 []) 0 .mxu w [1, 2, 3] []; trfRange (q.mReads ++ q.mWrites) = none)) ∧
    (let s := (tBlk 0 []).setCore 0 { tCore 0 [] with ftq := [⟨4, 383, 0, 16384⟩] };
      Sound s ∧ (s.core 0).ftq = ⟨4, 383, 0, 16384⟩ :: [] ∧ (s.core 0).queue = [] ∧ ∀ r ∈ ([] : List Tile), 4 ≤ r.seq) := by
  refine ⟨?_, ?_⟩ <;> decide

theorem witness_DescriptorInstructions :
    (let w := rWord 0xA0 31 1 0 0 0;
      let u := tBlk w [(1, 0x7FFFC0)];
      AtWord w [(1, 0x7FFFC0)] ∧ w >>> 56 = 0xA0 ∧ bits w 45 32 = 0 ∧ u.scalarReach 3 0x7FFFC0 64 false = true ∧
        u.answers 0x7FFFC0 = true ∧ (u.core 0).storeOverlaps 0x7FFFC0 64 = false ∧ lineSound u 0 (bit (u.core 0).cfg 16) (0x7FFFC0 / 64) ∧
        lineSound u 0 (bit (u.core 0).cfg 16) (0x7FFFC0 / 64 + 1)) ∧
    (let w := rWord 0xA1 31 0 1 0 0;
      let d := tDesc 0x2000 1 0 1 64 0 0;
      AtEng w [(1, d % 2 ^ 64)] 0 [(31, d)] ∧ w >>> 56 = 0xA1 ∧ bits w 50 46 = 0 ∧ bits w 36 0 = 0 ∧ bits w 40 37 ≤ 7 ∧
        (tEng w [(1, d % 2 ^ 64)] 0 [(31, d)]).createOk 3 d = true) ∧
    (let w := rWord 0xA1 31 0 1 14 0;
      AtWord w [] ∧ w >>> 56 = 0xA1 ∧ bits w 50 46 = 0 ∧ bits w 36 0 = 0 ∧ bits w 40 37 = 7 ∧
        (nth ⟨false, 0⟩ ((tBlk w []).core 0).td 31).valid = false) ∧
    (let w := rWord 0xA2 1 0 31 0 0; AtWord w [] ∧ w >>> 56 = 0xA2 ∧ bits w 50 46 = 0 ∧ bits w 40 0 = 0) ∧
    (let w := rWord 0xA3 31 0 0 0 0; AtWord w [] ∧ w >>> 56 = 0xA3 ∧ bits w 50 0 = 0) ∧
    (let w := rWord 0xA4 0 1 0 0 0;
      let u := tBlk w [(1, 0x7FFFC0)];
      AtWord w [(1, 0x7FFFC0)] ∧ w >>> 56 = 0xA4 ∧ bits w 45 32 = 0 ∧ u.scalarReach 3 0x7FFFC0 64 true = true ∧
        (u.core 0).stq.length < 16) := by
  refine ⟨?_, ?_, ?_, ?_, ?_, ?_⟩ <;> decide

theorem witness_CreatedDescriptorsStayInTheirRanges :
    let d := (tBlk 0 []).descOf (tDesc 0x7FFFC0 0 0 0 16 0 0);
    (tBlk 0 []).createOk 3 (tDesc 0x7FFFC0 0 0 0 16 0 0) = true ∧ 0 < d.count ∧ ∃ a ∈ d.rowAddrs d.base, a ≤ 0x7FFFFF ∧ 0x7FFFFF < a + d.rowBytes := by
  decide

/-- A DATA descriptor of 32 BF16 elements in partition 3's range: base, mode. -/
def tData (base mode : Nat) : Nat := tDesc base 1 0 mode 32 0 0

theorem witness_Transfers :
    (let w := xWord 0xB0 383 1 0 0 0;
      let u := tEng w [] 0 [(1, tData 0x7FFFC0 0)];
      let a := u.descOf (tData 0x7FFFC0 0);
      AtEng w [] 0 [(1, tData 0x7FFFC0 0)] ∧ w >>> 56 = 0xB0 ∧ bits w 41 31 = 0 ∧ bits w 30 0 = 0 ∧
        383 * slotBytes + a.size ≤ slotCount * slotBytes ∧ wSlot w < slotCount ∧ 0 < a.count ∧ a.mode = 0 ∧ u.answers (u.readBase 3 a) = true ∧
        (∀ g ∈ a.granules (u.readBase 3 a), ComputeOk u 0 (a.cache && bit (u.core 0).cfg 16) a.unchecked g) ∧
        (a.cache && bit (u.core 0).cfg 16) = false) ∧
    (∀ m ∈ [1, 2], let w := xWord 0xB1 383 1 0 0 0;
      let u := tEng w [] 0 [(1, tData 0x7FFFC0 m)];
      let a := u.descOf (tData 0x7FFFC0 m);
      AtEng w [] 0 [(1, tData 0x7FFFC0 m)] ∧ w >>> 56 = 0xB1 ∧ bits w 41 31 = 0 ∧ 0 < a.count ∧ a.mode = m ∧ a.kind = 0 ∧ a.fmt ≤ 2 ∧
        wSlot w < slotCount ∧ 383 * slotBytes + a.size ≤ slotCount * slotBytes ∧ u.answers (u.writeBase 3 a) = true ∧ Apart (rowsOf a (u.writeBase 3 a)) ∧ WriteOk u (rowsOf a (u.writeBase 3 a))) ∧
    (let w := xWord 0xB2 0 1 2 0 0;
      let tds := [(1, tData 0x3000 0), (2, tData 0x2000 1)];
      let u := tEng w [] 0 tds;
      let a := u.descOf (tData 0x3000 0);
      let b := u.descOf (tData 0x2000 1);
      AtEng w [] 0 tds ∧ w >>> 56 = 0xB2 ∧ wSlot w = 0 ∧ bits w 36 31 = 0 ∧ a.width = b.width ∧ a.count = b.count ∧
        0 < a.count ∧ a.mode = 0 ∧ b.mode = 1 ∧ u.answers (u.readBase 3 a) = true ∧ u.answers (u.writeBase 3 b) = true ∧
        (a.cache && bit (u.core 0).cfg 16) = false ∧
        (∀ g ∈ a.granules (u.readBase 3 a), ComputeOk u 0 (a.cache && bit (u.core 0).cfg 16) a.unchecked g) ∧
        Apart (rowsOf b (u.writeBase 3 b)) ∧ WriteOk u (rowsOf b (u.writeBase 3 b))) ∧
    (let w := xWord 0xB6 0 1 0 0 0;
      let u := tEng w [] 0 [(1, tData 0x7FFFC0 0)];
      let a := u.descOf (tData 0x7FFFC0 0);
      AtEng w [] 0 [(1, tData 0x7FFFC0 0)] ∧ w >>> 56 = 0xB6 ∧ bits w 41 31 = 0 ∧
        wSlot w = 0 ∧ a.mode = 0 ∧ 0 < a.count ∧ u.answers (u.readBase 3 a) = true ∧
        (∀ x ∈ rowsOf a (u.readBase 3 a), ∀ y, x.1 ≤ y → y < x.1 + x.2 → lineSound u 0 true (y / 64)) ∧
        roomFor u 0 ((rowsOf a (u.readBase 3 a)).flatMap (fun x => (List.range ((x.1 + x.2 - 1) / 64 - x.1 / 64 + 1)).map (x.1 / 64 + ·))) = true) := by
  refine ⟨?_, ?_, ?_, ?_⟩ <;> decide

/-- A table of two rows of 32 BF16 elements at 0x2000, an index list of two at 0x3000 (all indices zero), rows at 0x4000. -/
def tGather (mode n : Nat) : List (Nat × Nat) :=
  [(1, tDesc 0x2000 1 0 mode 32 2 64), (2, tDesc 0x3000 0 1 0 n 0 0), (3, tDesc 0x4000 1 0 1 32 2 64)]

/-- What the statements on gathers and scatters ask in common. -/
abbrev AtGather (w mode n : Nat) : Prop :=
  let u := tEng w [] 0 (tGather mode n)
  let a := u.descOf (tDesc 0x2000 1 0 mode 32 2 64)
  let b := u.descOf (tDesc 0x3000 0 1 0 n 0 0)
  AtEng w [] 0 (tGather mode n) ∧ bits w 30 0 = 0 ∧ (a.cache && bit (u.core 0).cfg 16) = false ∧
    Settled u 0 (if bit (u.core 0).cfg 16 then (List.range n).map (fun i => (u.readBase 3 b + 4 * i) / 64) else []) ∧ b.kind = 1 ∧ b.mode = 0 ∧ b.count = n ∧ a.outer = 2 ∧ u.readBase 3 b % 64 = 0 ∧
    u.answers (u.readBase 3 b) = true ∧
    (∀ i, i < n → lineSound u 0 (bit (u.core 0).cfg 16) ((u.readBase 3 b + 4 * i) / 64)) ∧
    ∀ i, i < n → rowAt u 0 a b (u.readBase 3 b) i = some 0

theorem witness_GathersAndScatters :
    (let w := xWord 0xB3 383 1 2 0 0;
      let u := tEng w [] 0 (tGather 0 2);
      let a := u.descOf (tDesc 0x2000 1 0 0 32 2 64);
      AtGather w 0 2 ∧ w >>> 56 = 0xB3 ∧ bits w 36 31 = 0 ∧ a.mode = 0 ∧ a.kind = 0 ∧ a.subByteRow = false ∧
        u.answers (u.readBase 3 a) = true ∧ (∀ x ∈ a.rowPieces (u.readBase 3 a) 0, ∀ g ∈ granulesOf x.1 x.2,
          ComputeOk u 0 (a.cache && bit (u.core 0).cfg 16) a.unchecked g) ∧
        383 * slotBytes + ceilDiv (2 * a.outerBits) 8 ≤ slotCount * slotBytes) ∧
    (let w := xWord 0xB4 0 1 2 3 0;
      let u := tEng w [] 0 (tGather 0 2);
      let a := u.descOf (tDesc 0x2000 1 0 0 32 2 64);
      let d := u.descOf (tDesc 0x4000 1 0 1 32 2 64);
      let l := (List.range 2).flatMap (fun i => d.rowPieces (u.writeBase 3 d) i);
      AtGather w 0 2 ∧ a.mode = 0 ∧ a.kind = 0 ∧ a.subByteRow = false ∧ u.answers (u.readBase 3 a) = true ∧
        (∀ x ∈ a.rowPieces (u.readBase 3 a) 0, ∀ g ∈ granulesOf x.1 x.2,
          ComputeOk u 0 (a.cache && bit (u.core 0).cfg 16) a.unchecked g) ∧ w >>> 56 = 0xB4 ∧ wSlot w = 0 ∧ bits w 31 31 = 0 ∧ d.mode = 1 ∧ d.kind = 0 ∧ d.subByteRow = false ∧
        d.outerBytes = a.outerBytes ∧ 2 ≤ d.outer ∧ u.answers (u.writeBase 3 d) = true ∧ Apart l ∧ WriteOk u l) ∧
    (∀ add ∈ [0, 1], let w := xWord 0xB5 383 1 2 0 add;
      let u := tEng w [] 0 (tGather 1 1);
      let a := u.descOf (tDesc 0x2000 1 0 1 32 2 64);
      let l := [0].flatMap (fun j => a.rowPieces (u.writeBase 3 a) j);
      AtGather w 1 1 ∧ w >>> 56 = 0xB5 ∧ bits w 36 32 = 0 ∧ bits w 31 31 = add ∧ wSlot w < slotCount ∧
        383 * slotBytes + ceilDiv a.outerBits 8 ≤ slotCount * slotBytes ∧ u.readBase 3 a = u.writeBase 3 a ∧ a.kind = 0 ∧ a.mode = 1 ∧ a.fmt ≤ 2 ∧ 0 ≤ a.lo ∧
        a.subByteRow = false ∧ u.answers (u.writeBase 3 a) = true ∧ Apart l ∧ WriteOk u l ∧
        (∀ x ∈ l, ∀ y, x.1 ≤ y → y < x.1 + x.2 → Clean u y)) := by
  refine ⟨?_, ?_, ?_⟩ <;> decide

theorem witness_PhasesAndPanBatches :
    (let w := rWord 0xC0 0 1 0 0 (3 <<< 32);
      let u := tBlk w [(1, 0x7FFFC0)];
      AtEng w [(1, 0x7FFFC0)] 0 [] ∧ w >>> 56 = 0xC0 ∧ bits w 55 51 = 0 ∧ bits w 45 40 = 0 ∧ bits w 31 0 = 0 ∧ wSEL w = 3 ∧
        AccessOk u 3 0x7FFFC0 64 false ∧ PhaseFree u 0 3) ∧
    (let w := 0xC1 <<< 56 + 15; AtWord w [] ∧ bits w 55 32 = 0 ∧ bits w 31 4 = 0 ∧ ∀ i, i < 4 → PhaseFree (tBlk w []) 0 i) ∧
    (let w := 0xD0 <<< 56 + 383 <<< 47 + 1023 <<< 37 + 1 <<< 32 + 2 <<< 27;
      AtEng w [(1, 5)] 0 [] ∧ w >>> 56 = 0xD0 ∧ bits w 26 0 = 0 ∧ wSlot w < slotCount ∧ (tEng w [(1, 5)] 0 []).delivering 0 = false) ∧
    (let w := 0xD1 <<< 56 + 382 <<< 47 + 1 <<< 35 + 383 <<< 26 + 1 <<< 21 + 15 <<< 17;
      let u := tEng w [] 0 [];
      AtEng w [] 0 [] ∧ w >>> 56 = 0xD1 ∧ bits w 16 0 = 0 ∧ wSlot w < slotCount ∧ bits w 34 26 < slotCount ∧ bits w 25 21 = 1 ∧
        slotBytes * wSlot w + 16 * 2 ≤ slotCount * slotBytes ∧ slotBytes * bits w 34 26 + slotBytes ≤ slotCount * slotBytes ∧
        bits w 20 17 = 15 ∧ bits w 46 35 + 1 = 2 ∧ u.delivering 0 = false ∧ TagFree u 0 15 ∧
        ∀ i, i < 2 → bits (trfNum u 0 (wSlot w) (16 * i) 16) 119 115 < 20) ∧
    (let w := 0xD2 <<< 56 + 0xFFFF; AtWord w [] ∧ bits w 55 32 = 0 ∧ bits w 31 16 = 0 ∧ ∀ i, i < 16 → TagFree (tBlk w []) 0 i) ∧
    (let w := rWord 0xD3 31 0 0 0 0; AtWord w [] ∧ w >>> 56 = 0xD3 ∧ bits w 50 0 = 0) := by
  refine ⟨?_, ?_, ?_, ?_, ?_, ?_⟩ <;> decide

theorem witness_EngineQueuesFillAndTheEveHoldsIssues :
    (let w := xWord 0xB0 383 1 0 0 0;
      let s := (tBlk w []).setCore 0 { tCore w [] with queue := List.replicate 32 ⟨0, .xe, w, 0x1000, 0, 512, [], [], none⟩ };
      Runs s s 0 3 w ∧ w >>> 56 = 0xB0 ∧ bits w 30 0 = 0 ∧ wSlot w < slotCount ∧ bits w 41 31 = 0 ∧
        32 ≤ ((s.core 0).queue.filter (fun q => q.eng = .xe)).length) ∧
    (let w := xWord 0xB0 383 1 0 0 0;
      let s := (tBase.setPart 3 { tPart with eve := true }).setCore 0 (tCore w []);
      Sound s ∧ Runs s s 0 3 w ∧ EnginesIdle s 0 ∧ s.inEve 3 = true ∧ w >>> 56 = 0xB0 ∧ bits w 30 0 = 0 ∧ wSlot w < slotCount ∧ bits w 41 31 = 0) := by
  refine ⟨?_, ?_⟩ <;> decide

theorem witness_EngineFaults :
    (let w := 0x80 <<< 56 + 1; AtWord w [] ∧ (tBlk w []).get Fld.FAULT_REC.VALID 0 = 0 ∧ w >>> 56 = 0x80 ∧ lgMma w = false) ∧
    (let w := vWord 0x88 384 0 0 0 0 0 0 0 0 0; AtWord w [] ∧ w >>> 56 = 0x88 ∧ lgV 0x88 w = false) ∧
    (let w := vWord 0x88 383 0 382 0 0 382 0 0 0 0;
      let q := entryOf (tEng w [] 8192 []) 0 .ve w [vRS w] [];
      AtEng w [] 8192 [] ∧ w >>> 56 = 0x88 ∧ lgV 0x88 w = true ∧
        ∃ x ∈ q.vReads ++ q.vWrites, slotCount * slotBytes < x.slot * slotBytes + x.bytes ∧
          ∀ y ∈ q.vReads ++ q.vWrites, slotCount * slotBytes < y.slot * slotBytes + y.bytes → x.slot ≤ y.slot) ∧
    (let w := xWord 0xB0 383 31 0 0 0;
      AtEng w [] 0 [] ∧ bits w 30 0 = 0 ∧ bits w 41 31 = 0 ∧ (nth ⟨false, 0⟩ ((tEng w [] 0 []).core 0).td (xTDA w)).valid = false) := by
  refine ⟨?_, ?_, ?_, ?_⟩ <;> decide

/-- A pan command (R233). -/
def pWord (opc sr acc da db dc ob ac cnt af func flg imm : Nat) : Nat :=
  opc <<< 120 + sr <<< 109 + acc <<< 108 + da <<< 96 + db <<< 84 + dc <<< 72 + ob <<< 60 + ac <<< 50 + cnt <<< 34 + af <<< 31 +
    func <<< 20 + flg <<< 16 + imm

/-- Partition 3's batch with one payload block, its 64-byte units given, on pan 0. -/
def tBatch (units : List Nat) : Batch :=
  { id := 7, core := 0, part := 3, tag := 0, pc := 0x1000, npay := 1
    payload := ((List.range units.length).flatMap (fun i => cellsOf (64 * i) 64 (nth 0 units i)))
    words := [], await := [], paid := [], held := [0], pans := [0], item := none }

/-- A batch that has just begun on a pan. -/
def tRun : PanRun :=
  { batch := 7, micro := 0, cmds := 0, flags := 0, idxOob := 0, skipped := 0, sealLost := 0, bytes := 0, clocks := 0, mhz := 1400, seed := 1
    stopped := false, fault := none, cmd := 0, left := [], reads := [], banks := [], closing := [] }

/-- Pan 0 about to run a command of the batch. -/
def tPan (w : Nat) (units : List Nat) : State :=
  { (tBase.setPart 3 tPart).setPan 0 { PanSt.reset with queue := [(7, 0, w)], run := some tRun } with batches := [tBatch units] }

/-- What the statements on a pan command ask of the state. -/
abbrev AtPan (w : Nat) (units : List Nat) : Prop := Sound (tPan w units) ∧ PanAt (tPan w units) 0 (tBatch units) tRun 0 w

theorem witness_PanLoadStoreCopy :
    (let w := pWord 1 0 0 255 0 0 4095 0 1 0 0 1 0;
      AtPan w [] ∧ cOPC w = 1 ∧ cUnused w 1 [.da, .ob, .cnt, .flg] = false ∧ cFLG w = 1 ∧ 64 * (cDA w + cCNT w) ≤ 1 * slotBytes ∧
        64 * (cOB w + cCNT w) ≤ 262144) ∧
    (let us := [tDesc 0 1 0 0 32 0 0];
      let w := pWord 1 0 0 0 0 0 4095 0 0 0 0 0 0;
      let s := tPan w us;
      let a := descAt (tBatch us) 0;
      AtPan w us ∧ cUnused w 1 [.da, .ob, .flg] = false ∧ DescFine s (tBatch us) 0 0 true ∧ a.mode = 0 ∧ 64 * cOB w + a.size ≤ 262144 ∧
        PanReadOk s 0 a (s.panReadBase 3 a)) ∧
    (let us := [tDesc 0x1FFF00 3 0 1 256 0 0 - 0x1F0000];
      let w := pWord 2 1 0 0 0 0 0 0 0 0 0 0 0;
      let s := tPan w us;
      let a := descAt (tBatch us) 0;
      AtPan w us ∧ cOPC w = 2 ∧ cUnused w 1 [.da, .sr, .flg, .ac] = false ∧ DescFine s (tBatch us) 0 0 true ∧ a.kind = 0 ∧
        PanWriteOk s 0 (tBatch us) a ∧ cSR w = true ∧ a.fmt = 3 ∧ 16 * cAC w + a.count ≤ 16384) ∧
    (let us := [tDesc 0x10000 1 0 1 32 0 0 - 0x10000];
      let w := pWord 2 0 0 0 0 0 4095 0 0 1 0 1 0;
      let s := tPan w us;
      let a := descAt (tBatch us) 0;
      AtPan w us ∧ cOPC w = 2 ∧ cUnused w 1 [.da, .sr, .flg, .ob, .af] = false ∧ cFLG w = 1 ∧ DescFine s (tBatch us) 0 0 true ∧ a.kind = 0 ∧
        PanWriteOk s 0 (tBatch us) a ∧ cSR w = false ∧ 64 * cOB w + elemBytes (cAF w) a.count ≤ 262144 ∧
        (s.pan 0).obBad (cOB w) (elemBytes (cAF w) a.count) = false) ∧
    (let us := [tDesc 0 1 0 0 32 0 0, tDesc 0x10000 1 0 1 32 0 0];
      let w := pWord 9 0 0 0 0 1 0 0 0 0 0 0 0;
      let s := tPan w us;
      let a := descAt (tBatch us) 0;
      let c := descAt (tBatch us) 1;
      AtPan w us ∧ cOPC w = 9 ∧ cUnused w 0 [.da, .dc] = false ∧ DescFine s (tBatch us) 0 0 true ∧ DescFine s (tBatch us) 0 1 false ∧
        pchOf ((Desc.of ((tBatch us).pay 1 64)).base % stackSpan) = 1 ∧ PanWriteOk s 1 (tBatch us) c ∧ a.width = c.width ∧
        a.count = c.count ∧ PanReadOk s 0 a (s.panReadBase 3 a)) := by
  refine ⟨?_, ?_, ?_, ?_, ?_⟩ <;> decide

/-- A parameter block of PATTN (R240): one query head and token, one visible key, 64 elements a vector. -/
def tPattn : Nat := 0x3F800000 + 1 <<< 32 + 1 <<< 192

theorem witness_PanMatrixAndAttention :
    (let us := [tDesc 0 1 0 0 2 32 64];
      let w := pWord 3 0 1 0 0xFFF 0 0 0 64 1 0 0 0;
      let s := tPan w us;
      let a := descAt (tBatch us) 0;
      AtPan w us ∧ cOPC w = 3 ∧ cUnused w 3 [.da, .db, .ob, .ac, .cnt, .af, .acc, .flg] = false ∧ cCNT w = 64 ∧
        DescFine s (tBatch us) 0 0 true ∧ a.kind = 0 ∧ a.mode = 0 ∧ a.rank = 2 ∧ nth 0 a.ext 0 = 2 ∧ nth 0 a.ext 1 = 32 ∧ a.fmt = 1 ∧
        cAF w = 1 ∧ a.scaled = false ∧ cDB w = 0xFFF ∧ (s.pan 0).obBad 0 (elemBytes 1 (64 * 32)) = false ∧ PanReadOk s 0 a (s.panReadBase 3 a) ∧ elemBytes 1 (64 * 32) ≤ 262144 ∧ 64 * 2 ≤ 16384) ∧
    (let us := [tDesc 0 1 0 0 32768 2 65536, 0, tDesc 0x400000 1 0 0 32768 2 65536, tPattn];
      let w := pWord 4 0 1 0 1 2 0 0 2 1 0 1 3;
      let s := tPan w us;
      let b := tBatch us;
      let a := descAt b 0;
      let c := descAt b 2;
      let q := PattnP.of (b.pay 3 64);
      AtPan w us ∧ cOPC w = 4 ∧ cUnused w 1 [.da, .db, .dc, .ob, .ac, .acc, .af, .imm, .flg, .cnt] = false ∧ cIMM w = 3 ∧
        DescFine s b 0 0 true ∧ DescFine s b 0 2 true ∧ PanIdxOk s 0 b w ∧ poolOk a = true ∧ poolOk c = true ∧ a.width = c.width ∧
        panIdxCount b w = 2 ∧ 16 ≤ 65536 / (2 ^ q.kvh * q.dh * 2) ∧ q.h0 + q.hn ≤ 2 ^ q.kvh ∧ q.u = 1 ∧ q.hn = 1 ∧ q.g = 1 ∧ q.dh = 64 ∧
        panIndex s 0 b w 0 = 0 ∧ panIndex s 0 b w 1 = 0 ∧ q.sees 0 0 = true ∧ q.kvh ≤ 4 ∧
        64 * cOB w + elemBytes 1 64 ≤ 262144 ∧ (s.pan 0).obBad (cOB w) (elemBytes 1 64) = false ∧ 16 * cAC w + 64 + 16 ≤ 16384 ∧ 1 < nth 0 a.ext 1 ∧ 1 < nth 0 c.ext 1 ∧
        (∀ g ∈ granulesOf (s.panReadBase 3 a) (16 * 64 * 2), ComputeOk s 0 false a.unchecked (panDpa 0 (4096 * g) / 4096)) ∧
        ∀ g ∈ granulesOf (s.panReadBase 3 c) (16 * 64 * 2), ComputeOk s 0 false c.unchecked (panDpa 0 (4096 * g) / 4096)) := by
  refine ⟨?_, ?_⟩ <;> decide

theorem witness_PanGatherAndScatterAdd :
    (let us := [tDesc 0 1 0 0 32 2 64, 0];
      let w := pWord 5 0 0 0 1 0 4095 0 1 0 0 1 0;
      let s := tPan w us;
      let b := tBatch us;
      let a := descAt b 0;
      AtPan w us ∧ cOPC w = 5 ∧ cUnused w 3 [.da, .db, .flg, .ob, .cnt] = false ∧ DescFine s b 0 0 true ∧ PanIdxOk s 0 b w ∧ a.mode = 0 ∧
        a.subByteRow = false ∧ panIdxCount b w = 1 ∧ panRowAt s 0 b w 0 a = some 0 ∧
        (∀ q ∈ a.rowPieces (s.panReadBase 3 a) 0, ∀ g ∈ granulesOf q.1 q.2, ComputeOk s 0 false a.unchecked (panDpa 0 (4096 * g) / 4096)) ∧
        64 * cOB w + ceilDiv (1 * a.outerBits) 8 ≤ 262144) ∧
    (let us := [tDesc 0 1 0 0 32 2 64, 0, tDesc 0x1000 1 0 1 32 2 64];
      let w := pWord 5 0 0 0 1 2 0 0 1 0 0 3 0;
      let s := tPan w us;
      let b := tBatch us;
      let a := descAt b 0;
      let c := descAt b 2;
      let l := panPieces 0 ((List.range 1).flatMap (fun j => c.rowPieces (s.panWriteBase 3 c) j));
      AtPan w us ∧ cOPC w = 5 ∧ cUnused w 3 [.da, .db, .flg, .dc, .cnt] = false ∧ DescFine s b 0 0 true ∧ PanIdxOk s 0 b w ∧ a.mode = 0 ∧ a.subByteRow = false ∧ panIdxCount b w = 1 ∧ panRowAt s 0 b w 0 a = some 0 ∧
        (∀ q ∈ a.rowPieces (s.panReadBase 3 a) 0, ∀ g ∈ granulesOf q.1 q.2, ComputeOk s 0 false a.unchecked (panDpa 0 (4096 * g) / 4096)) ∧
        DescFine s b 0 2 true ∧ c.mode = 1 ∧
        c.subByteRow = false ∧ c.outerBytes = a.outerBytes ∧ 1 ≤ c.outer ∧ Apart l ∧ WriteOk s l) ∧
    (let us := [tDesc 0 1 0 1 32 2 64, 1];
      let w := pWord 6 0 0 0 1 0 0 0 1 0 0 1 0;
      let s := tPan w us;
      let b := tBatch us;
      let a := descAt b 0;
      let l := panPieces 0 ([1].flatMap (fun j => a.rowPieces (s.panWriteBase 3 a) j));
      AtPan w us ∧ cOPC w = 6 ∧ cUnused w 1 [.da, .db, .ob, .flg, .cnt] = false ∧ DescFine s b 0 0 true ∧ PanIdxOk s 0 b w ∧ a.kind = 0 ∧
        a.fmt ≤ 2 ∧ a.mode = 1 ∧ panIdxCount b w = 1 ∧ panRowAt s 0 b w 0 a = some 1 ∧ 64 * cOB w + ceilDiv a.outerBits 8 ≤ 262144 ∧
        (s.pan 0).obBad (cOB w) (ceilDiv a.outerBits 8) = false ∧ s.panReadBase 3 a = s.panWriteBase 3 a ∧ Apart l ∧ WriteOk s l ∧
        ∀ x ∈ l, ∀ y, x.1 ≤ y → y < x.1 + x.2 → Clean s y) := by
  refine ⟨?_, ?_, ?_⟩ <;> decide

theorem witness_PanElementAndRowPasses :
    (let us := [tDesc 0 1 0 0 32 0 0, tDesc 0x1000 1 0 0 32 0 0, tDesc 0x2000 3 0 1 32 0 0, 0];
      let w := pWord 7 1 0 0 1 2 0 0 0 0 3 0 3;
      let s := tPan w us;
      let b := tBatch us;
      AtPan w us ∧ cOPC w = 7 ∧ cFUNC w = 3 ∧ 3 ∈ elemOps.map Prod.fst ∧ cUnused w 0 [.da, .db, .dc, .func, .sr, .imm] = false ∧ DescFine s b 0 0 true ∧
        DescFine s b 0 1 true ∧ DescFine s b 0 2 true ∧ PanReadOk s 0 (descAt b 0) (s.panReadBase 3 (descAt b 0)) ∧
        PanReadOk s 0 (descAt b 1) (s.panReadBase 3 (descAt b 1)) ∧ PanWriteOk s 0 b (descAt b 2) ∧ (descAt b 2).fmt = 3 ∧
        (descAt b 2).count = (descAt b 0).count ∧ (∀ j, j < 3 → (descAt b j).kind = 0) ∧ (descAt b 0).mode = 0 ∧ (descAt b 1).mode = 0 ∧
        (descAt b 1).count = (descAt b 0).count ∧ cIMM w < 4096 ∧ 64 * cIMM w + 8 ≤ 1 * slotBytes) ∧
    (let us := [tDesc 0 1 0 0 32 0 0, 0, tDesc 0x2000 3 0 1 32 0 0 + 1 <<< 56, tDesc 0x3000 0 2 1 1 0 0];
      let w := pWord 7 0 0 0 0xFFF 2 0 0 0 0 6 0 0;
      let s := tPan w us;
      let b := tBatch us;
      let c := descAt b 2;
      let sc := descAt b 3;
      let l := panPieces 0 (rowsOf c (s.panWriteBase 3 c) ++ rowsOf sc (s.panWriteBase 3 sc));
      AtPan w us ∧ cOPC w = 7 ∧ cFUNC w = 6 ∧ c.scaled = true ∧ cUnused w 0 [.da, .db, .dc, .func, .sr] = false ∧
        cDB w = 0xFFF ∧ DescFine s b 0 0 true ∧ PanReadOk s 0 (descAt b 0) (s.panReadBase 3 (descAt b 0)) ∧ (descAt b 0).kind = 0 ∧ (descAt b 0).mode = 0 ∧
        c.kind = 0 ∧ c.count = (descAt b 0).count ∧ PanWriteOk s 0 b c ∧ DescFine s b 0 2 true ∧ DescHere s b 0 3 true ∧ scaleMatches c sc = true ∧ sc.mode = 1 ∧ Apart l ∧ WriteOk s l) ∧
    (let us := [tDesc 0 1 0 1 32 0 0, tDesc 0x1000 1 0 1 32 0 0, tDesc 0x2000 1 0 1 32 0 0, tDesc 0x3000 1 0 0 32 0 0, 0];
      let w := pWord 7 0 0 0 0xFFF 0xFFF 0 0 0 0 8 0 4;
      let s := tPan w us;
      let b := tBatch us;
      let l := panPieces 0 ((List.range 3).flatMap (fun j => rowsOf (descAt b j) (s.panWriteBase 3 (descAt b j))));
      AtPan w us ∧ cOPC w = 7 ∧ cFUNC w = 8 ∧ cUnused w 0 [.da, .db, .dc, .func, .sr, .imm] = false ∧
        cDB w = 0xFFF ∧ cDC w = 0xFFF ∧ cIMM w < 4096 ∧ 64 * cIMM w + 28 ≤ 1 * slotBytes ∧ cSR w = false ∧ DescFine s b 0 0 true ∧
        (∀ j, j < 4 → DescHere s b 0 j true ∧ PanReadOk s 0 (descAt b j) (s.panReadBase 3 (descAt b j)) ∧ (descAt b j).count = 32 ∧
          (descAt b j).kind = 0 ∧ (descAt b j).mode = if j < 3 then 1 else 0) ∧
        Apart l ∧ WriteOk s l) ∧
    (let us := [tDesc 0 1 0 0 32 2 64];
      let w := pWord 8 0 1 0 0 0 0 0 0 0 2 0 0;
      let s := tPan w us;
      let b := tBatch us;
      AtPan w us ∧ cOPC w = 8 ∧ cUnused w 0 [.da, .ac, .func, .acc] = false ∧ cFUNC w = 2 ∧ DescFine s b 0 0 true ∧
        PanReadOk s 0 (descAt b 0) (s.panReadBase 3 (descAt b 0)) ∧ (descAt b 0).kind = 0 ∧ (descAt b 0).mode = 0 ∧
        16 * cAC w + 2 ≤ 16384 ∧ 0 < nth 0 (descAt b 0).ext 0) := by
  refine ⟨?_, ?_, ?_, ?_⟩ <;> decide

/-- Whether no write of pan n waits at a stack. -/
abbrev PanIdle (s : State) (n : Nat) : Prop := ∀ k ∈ s.stks, ∀ e ∈ k.queue, ∀ q ∈ e.2, ¬ (q.agent = .pan n ∧ q.isWrite = true)

theorem witness_PanSealFenceAndSync :
    (∀ l ∈ [[], [(0, 0)]],
      let s : State := { (tPan 0 []).setPan 0 { PanSt.reset with run := some { tRun with closing := [0] } } with
        sealing := l, gran := [(0, { valid := 1#64, poison := 0, state := .opened, crc := 0 })] };
      Sound s ∧ (s.pan 0).run = some { tRun with closing := [0] } ∧ s.sealing.contains (0, 0) = decide (l ≠ []) ∧
        (s.granule 0).valid ≠ 0#64 ∧ Unarmed s 0) ∧
    (let us := [tDesc 0 1 0 1 32 0 0];
      let w := pWord 0x0A 0 0 0 0 0 0 0 0 0 0 0 0;
      let s := tPan w us;
      let b := tBatch us;
      let a := descAt b 0;
      AtPan w us ∧ cOPC w = 0x0A ∧ cUnused w 0 [.da] = false ∧ DescFine s b 0 0 true ∧ a.mode = 1 ∧ 0 < a.count ∧
        a.granules (s.panWriteBase 3 a) = [0] ∧
        (∀ x, x < 64 → Clean s (panDpa 0 0 + 64 * x) ∧ Unarmed s (panDpa 0 0 + 64 * x)) ∧ (s.batch 7).isSome = true) ∧
    (let w := pWord 0x0B 0 0 0 0 0 0 0 0 0 0 0 0;
      AtPan w [] ∧ cOPC w = 0x0B ∧ cUnused w 0 [] = false ∧ PanIdle (tPan w []) 0) ∧
    (let us := [tDesc 0 0 0 1 16 0 0];
      let w := pWord 0x0C 0 0 0 0 0 0 0 0 0 0 1 63;
      let s := tPan w us;
      let b := tBatch us;
      let a := descAt b 0;
      AtPan w us ∧ cOPC w = 0x0C ∧ cUnused w 1 [.da, .imm, .flg] = false ∧ DescFine s b 0 0 true ∧ a.mode = 1 ∧ a.rank = 1 ∧ a.size = 64 ∧
        PanWriteOk s 0 b a ∧ bits (cIMM w) 5 0 = 63 ∧ s.semQueue 3 63 = [] ∧ PanIdle s 0) := by
  refine ⟨?_, ?_, ?_, ?_⟩ <;> decide

/-- A batch on its way to stack 0. -/
def tWay : Batch := { tBatch [] with await := [0], words := [(0, 1 <<< 120)], held := [] }

theorem witness_PanBatches :
    (let s : State := { (tPan 0 []).setStack 0 { (tPan 0 []).stack 0 with rate := List.replicate 17 1 } with batches := [tWay], pans := [] };
      Sound s ∧ s.batches.find? (fun x => x.core == 0 && x.item.isNone && (!x.await.isEmpty || !x.words.isEmpty)) = some tWay ∧
        tWay.await = [0] ∧ (s.batches.map Batch.id).Nodup ∧ (∀ e ∈ tWay.words, bits e.2 119 115 = 0) ∧
        4 * tWay.npay - smGet 0 tWay.paid 0 = 4 ∧ 0 < nth 0 (s.stack 0).rate 3 ∧ s.is Fld.SL_SCALE.SCALE 0 = true ∧
        ((3 * 335544320 : Nat) : Int) < nth 0 (s.stack 0).level 3 ∧ ((3 * 335544320 : Nat) : Int) < (s.stack 0).bucket ∧ (∀ v : Fin 32, (s.pan v).queue.length + (tWay.words.filter (fun e => bits e.2 114 110 = v.val)).length ≤ 256) ∧ s.stackUp 0 = true ∧
        s.blocksUsed 0 + tWay.npay ≤ 64 ∧ (s.core 0).queue = []) ∧
    (let s := (tPan 0 []).setPan 0 { PanSt.reset with queue := [(7, 0, 0)] };
      Sound s ∧ (s.pan 0).run = none ∧ (s.pan 0).queue = (7, 0, 0) :: [] ∧ s.batch 7 = some (tBatch []) ∧ s.pansRun 0 = true ∧
        (s.part 3).phase = .active) ∧
    (∀ e ∈ [(0, []), (1, []), (2, []), (2, [PanTask.close [1]]), (2, [PanTask.put true [⟨0, 1, 5⟩]])],
      let r : PanRun := { tRun with micro := e.1, left := e.2 };
      let s := (tPan 0 []).setPan 0 { PanSt.reset with queue := [(7, 0, 0)], run := some r };
      let ends := ({ s with pans := smPut .reset s.pans 0 { s.pan 0 with run := some { r with mhz := s.mhz 0, banks := [] } } } : State);
      Sound s ∧ (s.pan 0).run = some r ∧ s.batch 7 = some (tBatch []) ∧ (∀ x ∈ s.batches, x.words = []) ∧ (s.batches.map Batch.id).Nodup ∧
        r.closing = [] ∧ (s.part 3).phase ≠ .abandoning ∧ s.pansRun 0 = true ∧ smGet 0 (s.stack 0).owed 0 = 0 ∧
        (∀ q ∈ smGet [] (s.stack 0).queue 0, q.agent = .pan 0) ∧
        ∀ x ∈ r.left, ((ends.setRun 0 (fun r => { r with micro := r.micro - 1 })).panTask 0 3 x).1 = none) ∧
    (let s := (tPan 0 []).setPart 3 { tPart with phase := .abandoning };
      Sound s ∧ (s.pan 0).run = some tRun ∧ tRun.closing = [] ∧ s.batch 7 = some (tBatch []) ∧ (s.part 3).phase = .abandoning) ∧
    (AtPan (0x0D <<< 120) [] ∧ 0x0C < cOPC (0x0D <<< 120)) ∧
    (let s := (tPan 0 []).setPan 0 { PanSt.reset with run := some tRun };
      Sound s ∧ (s.pan 0).run = some tRun ∧ tRun.micro = 0 ∧ s.batch 7 = some (tBatch []) ∧ (tBatch []).item = none ∧ (∀ x ∈ s.batches, x.words = []) ∧
        (∀ k ∈ s.stks, ∀ e ∈ k.queue, ∀ q ∈ e.2, q.agent ≠ .pan 0) ∧ (tBatch []).pans = [0] ∧
        (∀ e ∈ (s.pan 0).queue, e.1 ≠ 7) ∧ ∀ c : Fin 12, (s.core c).queue = []) ∧
    (let s := (tPan 0 []).setPan 0 { PanSt.reset with run := some { tRun with fault := some (0x0A, 0x1000, 0) } };
      Sound s ∧ (s.pan 0).run = some { tRun with fault := some (0x0A, 0x1000, 0) } ∧ s.get Fld.FAULT_REC.VALID 0 = 0) := by
  refine ⟨?_, ?_, ?_, ?_, ?_, ?_, ?_⟩ <;> decide

theorem witness_BaseTickBoundaries :
    Sound State.reset ∧ State.reset.mod.power ≠ .dark ∧ 100 ≤ State.reset.get Fld.TICK_PERIOD.PERIOD_US ∧
      State.reset.get Fld.TICK_PERIOD.PERIOD_US ≤ 100000 ∧
      (State.reset.get Fld.TICK_COUNT.COUNT / (State.reset.get Fld.TICK_PERIOD.PERIOD_US * 1000) + 1) *
        (State.reset.get Fld.TICK_PERIOD.PERIOD_US * 1000) < 2 ^ 64 ∧ (∀ p, p < 16 → (State.reset.part p).phase ≠ .active) ∧
      State.reset.runs (dieOfStack 19) = true ∧ State.reset.mod.power = .on := by decide

/-- Partition 15 in a step, PTP of port 2 enabled and up. -/
def tPtp : State :=
  withRegs [(Fld.TICK_DISC.DISC_EN, 0, 0, 1), (Fld.TICK_DISC.PORT, 0, 0, 3), (Fld.PORT_STAT.UP, 3, 0, 1),
    (Fld.STEP_STATE.STATE, 15, 0, 1)] State.reset

theorem witness_TickWritesAndPtp :
    (Sound State.reset ∧ bits (99#64).toNat 16 0 < 100 ∧ 100000 < bits (100001#64).toNat 16 0 ∧ bits (100#64).toNat 16 0 = 100 ∧
      bits (100000#64).toNat 16 0 = 100000 ∧ NoneSteps State.reset ∧ Sound tPtp ∧ ¬ NoneSteps tPtp ∧
      100 ≤ tPtp.get Fld.TICK_PERIOD.PERIOD_US ∧ tPtp.get Fld.LEAP_CTRL.STATE ≠ 2) ∧
    (let s := { tPtp with tick := { TickSt.reset with goodSyncs := 15 } };
      Sound s ∧ s.isUp 0 = true ∧ s.isUp 1 = true ∧ s.get Fld.TICK_DISC.DISC_EN = 1 ∧ s.get Fld.TICK_DISC.PORT = 3 ∧
        s.get Fld.PTP_CFG.ROLE = 0 ∧ (s.get Fld.PORT_STAT.UP 3).testBit 0 = true ∧ 100 ≤ s.get Fld.TICK_PERIOD.PERIOD_US ∧
        1000 * s.get Fld.TICK_DISC.STEP_THRESH_US < (-(2 ^ 40) : Int).natAbs) ∧
    (let s := withRegs [(Fld.TICK_SYNC.STATE, 0, 0, 2)] State.reset; Sound s ∧ s.get Fld.TICK_SYNC.STATE = 2) ∧
    (let s := { withRegs [(Fld.TICK_SYNC.STATE, 0, 0, 3), (Fld.TICK_COUNT.COUNT, 0, 0, 2000000000)] State.reset with
        tick := { TickSt.reset with lostAt := some 0 } };
      Sound s ∧ s.get Fld.TICK_SYNC.STATE = 3 ∧ s.tick.lostAt = some 0 ∧ 0 + 2000000000 ≤ s.get Fld.TICK_COUNT.COUNT) ∧
    (let s := withRegs [(Fld.PTP_CFG.ROLE, 0, 0, 1), (Fld.PTP_CFG.MASTER_PORTS, 0, 0, 8), (Fld.PORT_STAT.UP, 3, 0, 1)] State.reset;
      s.isUp 0 = true ∧ s.isUp 1 = true ∧ s.get Fld.PTP_CFG.ROLE = 1 ∧ (s.get Fld.PTP_CFG.MASTER_PORTS).testBit 3 = true ∧
        (s.get Fld.PORT_STAT.UP 3).testBit 0 = true ∧ nth 0 s.net.syncAt 3 ≤ s.get Fld.TICK_COUNT.COUNT) := by
  refine ⟨?_, ?_, ?_, ?_, ?_⟩ <;> decide

/-- A leap tick with a state, an unarmed claim for base tick 1, and the boundary of base tick 0 just reached. -/
def tLeap (st claim : Nat) (down : Nat) : State :=
  { withRegs [(Fld.LEAP_CTRL.STATE, 0, 0, st), (Fld.LEAP_CTRL.LEN, 0, 0, 1), (Fld.LEAP_CLAIM.PENDING, 0, 0, claim),
      (Fld.LEAP_CLAIM.CLAIM_AT, 0, 0, 1), (Fld.STK_STATUS.STATE, 19, 0, down)] State.reset with
    tick := { TickSt.reset with bound := 1 } }

theorem witness_LeapTicks :
    (Sound (tLeap 0 0 0) ∧ (tLeap 0 0 0).word Reg.TICK_ERR 0 0 = 0 ∧ (tLeap 0 0 0).get Fld.LEAP_CTRL.STATE = 0 ∧
      (tLeap 2 0 0).get Fld.LEAP_CTRL.STATE = 2 ∧ bit (0x100#64).toNat 8 = true ∧ bit (0x100#64).toNat 9 = false ∧
      (tLeap 0 0 0).get Fld.LEAP_CLAIM.PENDING ≠ 1 ∧ bit (0x200#64).toNat 9 = true ∧ bit (0x200#64).toNat 8 = false) ∧
    (Sound (tLeap 0 1 0) ∧ (tLeap 0 1 0).get Fld.LEAP_CLAIM.PENDING = 1 ∧ (tLeap 0 1 0).tick.claimed = false ∧
      (tLeap 0 1 0).get Fld.LEAP_CLAIM.CLAIM_AT ≤ (tLeap 0 1 0).get Fld.BTICK_NUM.NUM + (tLeap 0 1 0).lmax + 1 ∧
      (tLeap 0 1 0).get Fld.BTICK_NUM.NUM < (tLeap 0 1 0).get Fld.LEAP_CLAIM.CLAIM_AT) ∧
    (let s := tLeap 1 0 4;
      Sound s ∧ s.get Fld.LEAP_CTRL.STATE = 1 ∧ s.tick.bound = s.get Fld.BTICK_NUM.NUM + 1 ∧ s.tick.boundAt = s.get Fld.TICK_COUNT.COUNT ∧
        s.get Fld.LEAP_AT.AT ≤ s.get Fld.BTICK_NUM.NUM ∧ s.tick.pendStep = none ∧ s.age.run = none ∧ s.get Fld.STK_STATUS.STATE 19 = 4 ∧
        s.isUp (dieOfStack 19) = true ∧ (s.get Fld.TEST_TRAIN.GAVE_UP).testBit 19 = false ∧ s.stacksTrain = true) ∧
    (let s := { tLeap 2 0 0 with tick := { TickSt.reset with bound := 1, leapNs := 500000 } };
      Sound s ∧ s.get Fld.LEAP_CTRL.STATE = 2 ∧ s.tick.bound = s.get Fld.BTICK_NUM.NUM + 1 ∧
        s.get Fld.LEAP_CTRL.LEN * (s.get Fld.TICK_PERIOD.PERIOD_US * 1000) ≤ s.tick.leapNs ∧
        (∀ st : Fin 20, s.get Fld.STK_STATUS.STATE st ≠ 1) ∧ (∀ p ∈ s.net.retrain, s.get Fld.PORT_STAT.TRAINING p = 0) ∧
        s.mod.idl ≠ .training ∧ s.sec.upd = none ∧ s.age.run = none) ∧
    (let s := { tLeap 2 0 0 with
        tick := { TickSt.reset with bound := 1, leapNs := 500000 }, sec := { SecSt.reset with upd := some ⟨4, 3, 0⟩ } };
      Sound s ∧ s.get Fld.LEAP_CTRL.STATE = 2 ∧ s.tick.bound = s.get Fld.BTICK_NUM.NUM + 1 ∧ s.tick.boundAt = s.get Fld.TICK_COUNT.COUNT ∧
        s.get Fld.LEAP_CTRL.LEN * (s.get Fld.TICK_PERIOD.PERIOD_US * 1000) ≤ s.tick.leapNs ∧ s.net.retrain = [] ∧ s.mod.idl ≠ .training ∧
        s.sec.upd = some ⟨4, 3, 0⟩ ∧ s.get Fld.LEAP_CTRL.LEN < 64) := by
  refine ⟨?_, ?_, ?_, ?_, ?_⟩ <;> decide

/-- A BLOCK item of core 0. -/
def tItem : AlmItem :=
  { kind := 1, optional := false, expert := false, unit := 0, path := 0, deps := [], body := 0x1000, cycFix := 0, cycTok := 0
    cycPage := 0, eFix := 0, eTok := 0, ePage := 0, bFix := 0, bTok := 0, bPage := 0, alt := 0, xover := 0, expertId := 0, bodyLen := 64 }

/-- An almanac of one entry with that item. -/
def tAlm : Almanac :=
  { base := 0x2000, refMv := 850
    entries := [{ train := true, serve := false, hasColl := false, next := 0, tokMax := 0, seqMax := 0, items := [tItem] }] }

/-- A plan of that entry. -/
def tPlan : Plan :=
  { entry := 0, opens := 0, retry := 0, items := [0], tokens := 0, seqs := 0, pages := 0, pagesBy := [], fin := 0, opp := 0, rows := []
    reserved := [], swaps := [] }

/-- Partition 3 with core 0 and that almanac, its record changed by f, fields set, the boundary of base tick 0 just reached. -/
def tStep (f : PartSt → PartSt) (l : List (Fld × Nat × Nat × Nat)) : State :=
  { (withRegs l tBase).setPart 3 (f { tPart with phase := .idle, alm := some tAlm }) with tick := { TickSt.reset with bound := 1 } }

theorem witness_StepControl :
    (let s := tStep id [(Fld.STEP_STATE.STATE, 3, 0, 1)];
      Sound s ∧ s.serves 0 = true ∧ bits (0x10000#64).toNat 9 0 < bits (0x10000#64).toNat 25 16 ∧
        (bits (1#64).toNat 9 0 ≠ s.get Fld.STEP_CFG.LEN_M1 3 ∧ s.get Fld.STEP_STATE.STATE 3 = 1) ∧
        bits (0#64).toNat 9 0 = s.get Fld.STEP_CFG.LEN_M1 3 ∧ bits (0#64).toNat 25 16 = s.get Fld.STEP_CFG.PHASE 3) ∧
    (let s := tStep id [];
      Sound s ∧ s.serves 0 = true ∧ s.get Fld.STEP_STATE.STATE 3 = 0 ∧ s.wornBars 3 = false ∧ s.get Fld.ALM_NEXT.VALID 3 = 0 ∧
        (s.part 3).alm ≠ none) ∧
    (let s := tStep (fun k => { k with phase := .ready }) [(Fld.STEP_STATE.STATE, 3, 0, 1)];
      Sound s ∧ s.serves 0 = true ∧ s.get Fld.STEP_STATE.STATE 3 = 1 ∧ s.stepping 3 = true) ∧
    (let s := tStep (fun k => { k with startPend := true }) [(Fld.STEP_STATE.STATE, 3, 0, 5)];
      Sound s ∧ s.get Fld.STEP_STATE.STATE 3 = 5 ∧ s.stepping 3 = false) ∧
    (let s := tStep id [(Fld.STEP_STATE.STATE, 3, 0, 3)];
      Sound s ∧ s.serves 0 = true ∧ s.get Fld.STEP_STATE.STATE 3 = 3 ∧ (s.part 3).startPend = false ∧ (s.part 3).resumePend = false ∧
        (s.part 3).alm ≠ none ∧ s.wornBars 3 = false) := by
  refine ⟨?_, ?_, ?_, ?_, ?_⟩ <;> decide

/-- Core 0 with no block. -/
def tStill (s : State) (k : CoreSt) : State := s.setCore 0 k

theorem witness_WindowsAndBlocks :
    (let s := tStep (fun k => { k with startPend := true }) [];
      Sound s ∧ PlainBoundary s 3 ∧ (s.part 3).phase = .idle ∧ (s.part 3).startPend = true ∧ s.get Fld.STEP_STATE.STATE 3 ≠ 5 ∧
        (s.part 3).inDoubt = false ∧ (s.part 3).stopAtBoundary = false ∧ (s.part 3).nextPlan = none ∧ s.get Fld.LEAP_CTRL.STATE = 0) ∧
    (let s := tStep (fun k => { k with phase := .opening }) [(Fld.STEP_STATE.STATE, 3, 0, 1)];
      Sound s ∧ s.isUp 0 = true ∧ (s.part 3).phase = .opening ∧ s.stepEntry 3 = tAlm.entries.head? ∧ [tItem].length ≤ 1024) ∧
    (let s := tStep (fun k => { k with phase := .active, plan := some tPlan }) [(Fld.STEP_STATE.STATE, 3, 0, 1)];
      Sound s ∧ s.partOf 0 = some 3 ∧ (s.core 0).run = .idle ∧ (s.part 3).eve = false ∧
        s.get Fld.TICK_COUNT.COUNT + s.eveNs 3 < (s.part 3).openAt + windowOf s 3 ∧ s.isUp (dieOfCore 0) = true ∧
        (s.part 3).plan = some tPlan ∧ (0, tItem) ∈ s.planItems 3 ∧ tItem.kind = 1 ∧ tItem.unit = 0 ∧ s.itemReady 3 0 tItem = true) ∧
    (let s := tStill (tStep (fun k => { k with phase := .active, plan := some tPlan, issued := [0] }) [(Fld.STEP_STATE.STATE, 3, 0, 1)])
        { CoreSt.reset with run := .ended, cyc := 5000 };
      Sound s ∧ s.partOf 0 = some 3 ∧ (s.core 0).run = .ended ∧ s.engineIdle 0 = true ∧ (s.part 3).phase = .active ∧ s.isUp (dieOfCore 0) = true ∧ (s.part 3).plan = some tPlan ∧
        s.planItem 3 (s.core 0).item = some tItem ∧ tItem.expert = false ∧
        ∀ e ∈ s.planItems 3, (e.1 = (s.core 0).item ∨ e.1 ∈ (s.part 3).issued) ∧ e.2.expert = false) ∧
    (let s := tStep (fun k => { k with phase := .active, plan := some tPlan }) [(Fld.STEP_STATE.STATE, 3, 0, 1)];
      let at_ := (s.part 3).openAt + windowOf s 3 - s.eveNs 3;
      Sound s ∧ s.isUp 0 = true ∧ (s.part 3).phase = .active ∧ 100 ≤ s.get Fld.TICK_PERIOD.PERIOD_US ∧ (s.part 3).eve = false ∧ s.get Fld.TICK_COUNT.COUNT ≤ at_ ∧
        at_ / (s.get Fld.TICK_PERIOD.PERIOD_US * 1000) = s.get Fld.TICK_COUNT.COUNT / (s.get Fld.TICK_PERIOD.PERIOD_US * 1000) ∧
        at_ < 2 ^ 64) := by
  refine ⟨?_, ?_, ?_, ?_, ?_⟩ <;> decide

/-- Partition 3 on cores 0 and 6. -/
def tCross (f : PartSt → PartSt) (now : Nat) : State :=
  tStep f [(Fld.STEP_STATE.STATE, 3, 0, 1), (Fld.PT_CORES.CORES, 3, 0, 0x41), (Fld.TICK_COUNT.COUNT, 0, 0, now)]

theorem witness_TicksCommitsAndAbandonments :
    (let s := tStep (fun k => { k with phase := .active, plan := some tPlan, issued := [0], done := [0] }) [(Fld.STEP_STATE.STATE, 3, 0, 1)];
      Sound s ∧ PlainBoundary s 3 ∧ (s.part 3).phase = .active ∧ s.get Fld.STEP_STATE.STATE 3 = 1 ∧
        (∀ c ∈ s.coresOf 3, (s.core c).stq = []) ∧ s.coresOf 3 = [0] ∧ (∀ c ∈ s.coresOf 3, CoreStill (s.core c)) ∧
        (∀ st : Fin 20, (s.stack st).queue = []) ∧ s.batches = [] ∧ s.colls = [] ∧ s.leftItem 3 = none ∧ s.swapsLeft 3 = false ∧ s.votes 3 = false) ∧
    (let s := tStill (tStep (fun k => { k with phase := .active, plan := some tPlan, issued := [0], eve := true, eveStalled := true })
          [(Fld.STEP_STATE.STATE, 3, 0, 1)]) (tCore 0 []);
      Sound s ∧ PlainBoundary s 3 ∧ (s.part 3).eve = true ∧ (s.part 3).eveStalled = true ∧ 0 ∈ s.coresOf 3 ∧ (s.core 0).run = .running ∧
        (∀ c ∈ s.coresOf 3, (s.core c).stq = []) ∧ ∀ d ∈ s.coresOf 3, d < 0 → (s.core d).run ≠ .running) ∧
    (let s := tCross (fun k => { k with phase := .ready }) 2000;
      Sound s ∧ (s.part 3).phase = .ready ∧ (s.part 3).die1Ready = false ∧ CrossDie s 3 ∧ s.isUp 0 = true ∧ s.isUp 1 = true ∧
        s.get Fld.TICK_COUNT.COUNT ≤ (s.part 3).tickAt + 2000 ∧ s.votes 3 = false ∧ (s.part 3).tickAt + 2000 ≤ s.get Fld.TICK_COUNT.COUNT) ∧
    (let s := tCross (fun k => { k with phase := .ready, die1Ready := true, plan := some tPlan }) 0;
      Sound s ∧ (s.part 3).phase = .ready ∧ (s.part 3).die1Ready = true ∧ s.votes 3 = false ∧ s.stepEntry 3 = tAlm.entries.head? ∧
        (s.part 3).plan ≠ none ∧ s.get Fld.ALM_NEXT.VALID 3 = 0 ∧ (s.part 3).stopReq = false ∧ (s.part 3).stopAtBoundary = false ∧
        (s.part 3).nextPlan = none ∧ s.get Fld.LEAP_CTRL.STATE = 0 ∧ s.get Fld.TICK_COUNT.COUNT < (s.part 3).tickAt + windowOf s 3) ∧
    (∀ stop q : Bool, let s := tStep (fun k => { k with phase := .abandoning, abandon := some ⟨.fault, 1, 0, stop⟩, passed := q }) [(Fld.STEP_STATE.STATE, 3, 0, 1)];
      (s.part 3).passed = q ∧ (s.part 3).stopReq = false ∧ (s.part 3).stopAtBoundary = false ∧ s.get Fld.LEAP_CTRL.STATE = 0 ∧
        (s.part 3).tickAt ≤ s.get Fld.TICK_COUNT.COUNT ∧ s.get Fld.TICK_COUNT.COUNT < (s.part 3).tickAt + windowOf s 3 ∧
      Sound s ∧ s.isUp 0 = true ∧ (s.part 3).phase = .abandoning ∧ (s.part 3).abandon = some ⟨.fault, 1, 0, stop⟩ ∧ s.pans = [] ∧
        s.get Fld.STEP_STATE.RETRY_COUNT 3 < bits (s.part 3).stepCfg 51 48) ∧
    (let s := tStep (fun k => { k with phase := .abandoning, abandon := some ⟨.overrun, 6, 0, false⟩, stepCfg := 0 }) [];
      Sound s ∧ s.isUp 0 = true ∧ (s.part 3).phase = .abandoning ∧ s.pans = [] ∧ (s.part 3).stopAtBoundary = false ∧ (s.part 3).stopReq = false ∧
        bits (s.part 3).stepCfg 51 48 ≤ s.get Fld.STEP_STATE.RETRY_COUNT 3) := by
  refine ⟨?_, ?_, ?_, ?_, ?_, ?_⟩ <;> decide


/-! Stacks and errors. -/

/-- A request of partition 3 for a granule of stack 0. -/
def tReq : Req := { agent := .scalar 0, sluice := 3, inStack := false, isWrite := false, dpa := 0, size := 4096 }

/-- The block with stack 0's hidden state changed. -/
def tStk (f : StackSt → StackSt) (l : List (Fld × Nat × Nat × Nat)) : State :=
  let s := withRegs l tBase
  s.setStack 0 (f (s.stack 0))

/-- A pan within a micro-operation, holding a bank. -/
def tMicro : PanRun := { tRun with micro := 1, banks := [5] }

theorem witness_RefreshRequestsAndSluices :
    (let s := { (tStk (fun k => { k with queue := [(5, [tReq])], refNext := [(5, 1)] }) [(Fld.TICK_COUNT.COUNT, 0, 0, 2)]).setPan 6
        { PanSt.reset with queue := [(7, 0, 0)], run := some tMicro } with batches := [tBatch []] };
      Sound s ∧ s.get Fld.STK_STATUS.STATE 0 = 2 ∧ (∀ u : Fin 32, smGet 0 (s.stack 0).refNext u ≤ s.get Fld.TICK_COUNT.COUNT ∧ smGet 0 (s.stack 0).fresh u = 0) ∧
        (PanHolds s 0 6 tMicro ∧ smGet 0 (s.stack 0).fresh 6 * (s.get Fld.STK_CFG.TREFI_10NS 0 * 10) ≤ 2000) ∧
        (s.pan 7).run = none ∧ smGet [] (s.stack 0).queue 7 = [] ∧ (s.pan 5).run = none ∧ (smGet [] (s.stack 0).queue 5).head? = some tReq) ∧
    (∀ d ∈ [0, 1], let s := tStk (fun k => { k with queue := [(5, [tReq])], rate := List.replicate 17 1, deferLeft := List.replicate 17 d }) [];
      s.mayIssue tReq.sluice 0 = true ∧ tReq ∈ smGet [] (s.stack 0).queue 5 ∧ nth 0 (s.stack 0).deferLeft tReq.sluice = d ∧
        smGet 0 (s.stack 0).owed 5 + 1 < s.get Fld.STK_CFG.REF_POSTPONE_MAX 0) ∧
    (let s := tStk (fun k => { k with nrrDue := [32 * 31 + 31] }) [];
      Sound s ∧ s.get Fld.STK_STATUS.STATE 0 = 2 ∧ 32 * (31 : Fin 32).val + (31 : Fin 32).val ∈ (s.stack 0).nrrDue) ∧
    (∀ g ∈ [0, 100], let s := tStk (fun k => { k with
          queue := [(0, [tReq])], bucket := 1, level := setNth k.level 3 1, rate := List.replicate 17 1, grants := if g = 0 then [] else [(3, g)] }) [];
      Sound s ∧ s.stackUp 0 = true ∧ (smGet [] (s.stack 0).queue 0)[0]? = some tReq ∧
        (s.stack 0).eligible (smGet [] (s.stack 0).queue 0) 0 tReq = true ∧ smGet 0 (s.stack 0).owed 0 = 0 ∧ tReq.sluice ≤ 17 ∧
        0 < (s.stack 0).bucket ∧ 0 < nth 0 (s.stack 0).level tReq.sluice ∧ 0 < nth 0 (s.stack 0).rate tReq.sluice ∧
        s.get Fld.SL_SCALE.SCALE 0 ≠ 0 ∧ (s.pan 0).run = none ∧ grantsOf s 0 0 3 = g ∧ slWeightOf s 0 3 = 100 ∧
        ∀ x, x < 17 → s.mayIssue x 0 = true → (∃ q ∈ smGet [] (s.stack 0).queue 0, q.sluice = x) → x = 3) ∧
    (let s := tBase.setPart 3 tPart; s.owns 3 0 (0 % stackSpan / 0x200000) = true) ∧
    (let s := tBase; Sound s ∧ s.serves (dieOfStack 19) = true) := by
  refine ⟨?_, ?_, ?_, ?_, ?_, ?_⟩ <;> decide

set_option maxRecDepth 100000 in
theorem witness_RakeReadsAndCorrects :
    (let s := { tStk (fun k => { k with bucket := 1 }) [(Fld.RAKE_DEBT.GRANULES, 0, 0, 1), (Fld.RAKE_CFG.DEEP, 0, 0, 1)] with
        ecc := [(0, 1#512)], gran := [(0, { valid := 3, poison := 0, state := .shut, crc := 5 })] };
      Sound s ∧ s.stackUp 0 = true ∧ s.mod.power = .on ∧ s.get Fld.RAKE_CTRL.PAUSE 0 = 0 ∧ 0 < (s.stack 0).bucket ∧
        0 < s.get Fld.RAKE_DEBT.GRANULES 0 ∧ s.get Fld.RAKE_POS.NEXT 0 = 64 * 0 ∧ DataGranule s 0 ∧ 4096 * 0 / stackSpan = 0 ∧
        smGet [] (s.stack 0).queue (pchOf (4096 * 0 % stackSpan)) = [] ∧ s.get Fld.STK_FLIP_CTRL.ARM_DATA 0 = 0 ∧
        (s.get Fld.RAKE_CFG.DEEP 0 = 1 → s.sharedAt (4096 * 0) = none) ∧
        ∀ i, i < 64 → s.linePoisoned (64 * 0 + i) = false ∧ smGet 0#3 s.metaFlip (64 * 0 + i) = 0#3 ∧
          (maskSymbols (smGet 0#512 s.ecc (64 * 0 + i))).length ≤ 1) ∧
    (let s := { tBase with gran := [(0, { valid := 3, poison := 0, state := .shut, crc := 5 })] };
      (∀ i, i < 64 → (maskSymbols (smGet 0#512 s.ecc (64 * 0 + i))).length = 0) ∧ (s.granule 0).state = .shut ∧ (s.granule 0).poison = 0 ∧
        smFind s.csumBad 0 = none ∧ ¬ Verified s 0) ∧
    Sound tBase ∧ tBase.serves (dieOfStack 19) = true := by
  refine ⟨?_, ?_, ?_⟩ <;> decide +kernel

/-- A sealed granule of zeros. -/
def tSealed : Gran := { valid := 0, poison := 0, state := .shut, crc := 0x98F94189 }

/-- Region 2 of stack 0 from unit 0, its mirror in stack 1 from unit 4, granule 1 in poison entry 15, its replica as given. -/
def tMirror (k : Gran) : State :=
  { withRegs [(Fld.STK_STATUS.STATE, 1, 0, 2), (Fld.REG_STAT.STATE, 2, 0, 3), (Fld.REG_LOC.COUNT, 2, 0, 4), (Fld.REG_LOC.MIRROR, 2, 0, 1),
      (Fld.REG_MIR.MSTACK, 2, 0, 1), (Fld.REG_MIR.MFIRST, 2, 0, 4), (Fld.ERR_POISON.VALID, 15, 0, 1),
      (Fld.ERR_POISON.GRANULE, 15, 0, 1)] tBase with
    gran := [((stackSpan + 4 * 0x200000) / 4096 + 1, k)], repairDue := [15] }

set_option maxRecDepth 100000 in
theorem witness_ErrorRepairAndInjection_mirror :
    ∀ k, k ∈ [tSealed, { tSealed with state := .opened }] → let s := tMirror k;
      let m := s.replicaOf 2 (4096 * 1) / 4096;
      (Sound s ∧ s.get Fld.ERR_POISON.VALID 15 = 1 ∧ s.get Fld.ERR_POISON.PATH 15 = 0 ∧ s.get Fld.ERR_POISON.GRANULE 15 = 1 ∧
        s.sharedAt (4096 * 1) = some 2 ∧ s.mappersRest 2 = true ∧ 15 ∈ s.repairDue) ∧
        (∀ i, i < 15 → ¬ (s.get Fld.ERR_POISON.VALID i = 1 ∧ s.get Fld.ERR_POISON.GRANULE i = 1)) ∧
        (DataGranule s m ∧ CleanGranule s m ∧ m ≠ 1 ∧ Unarmed s (4096 * 1)) ∧
        (s.granule m).state = k.state ∧ Verified s m := by decide +kernel

set_option maxRecDepth 100000 in
theorem witness_ErrorRepairAndInjection :
    (let s := { tBase with gran := [(1, tSealed), (2, { tSealed with crc := 5 }), (3, { tSealed with state := .opened }),
        (4, { tSealed with valid := 1, poison := 1 })] };
      (Sound s ∧ s.serves 0 = true ∧ bit (0x8000000000000000#64).toNat 63 = true) ∧
        (∀ g, g ∈ [0, 1, 2, 3] → DataGranule s g ∧ CleanGranule s g) ∧ DataGranule s 4 ∧ KnownGranule s 4 ∧
        (s.granule 0).state = .unwritten ∧ (s.granule 3).state = .opened ∧
        ((s.granule 1).state = .shut ∧ Verified s 1) ∧ ((s.granule 2).state = .shut ∧ ¬ Verified s 2) ∧
        (s.lineValid (64 * 4 + 0) = true ∧ s.linePoisoned (64 * 4 + 0) = true) ∧
        (s.get Fld.ERR_REPAIR_CRC.EXPECT ≠ crc32c (granuleBytes s 1) ∧ Unarmed s 4096)) ∧
    (∀ st o, placeOf (4096 * (stackData / 4096)) ≠ .data st o) ∧
    (let s := tBase; Sound s ∧ s.serves 0 = true ∧ s.serves (dieOfStack 19) = true ∧ bit (3#64).toNat 0 = true ∧ bit (3#64).toNat 1 = true) ∧
    (let s := { tBase with link := { tBase.link with active := false }, mod := { tBase.mod with power := .on } };
      Sound s ∧ s.link.active = false ∧ s.mod.power = .on ∧ s.isUp 0 = true ∧ s.isUp 1 = true) := by
  refine ⟨?_, ?_, ?_, ?_⟩
  · decide +kernel
  · intro st o h
    have : placeOf (4096 * (stackData / 4096)) = .csum 0 := by decide
    rw [this] at h
    cases h
  · decide
  · decide

/-! The serving loop. -/

/-- Bytes of the stacks without error, poison or armed flips, on a state that has none. -/
theorem good_of (s : State) (st a n : Nat) (he : s.ecc = []) (hm : s.metaFlip = []) (hp : ∀ e ∈ s.gran, e.2.poison = 0)
    (ht : st < 20) (ha : st * stackSpan ≤ a) (hn : a + n ≤ st * stackSpan + stackData) (hu : s.stackUp st = true)
    (hf : s.get Fld.STK_FLIP_CTRL.ARM_DATA st = 0 ∧ s.get Fld.STK_FLIP_CTRL.ARM_CSUM st = 0) : GoodBytes s a n := by
  intro i hi
  have hb : st * 0x1800000000 ≤ a := ha
  have hl : a + n ≤ st * 0x1800000000 + 102978551808 := hn
  have hpl : placeOf (a + i) = .data st (a + i - st * stackSpan) := by
    have h1 : (a + i) / stackSpan = st := by
      change (a + i) / 0x1800000000 = st
      omega
    have h2 : (a + i) % stackSpan = a + i - st * stackSpan := by
      change (a + i) % 0x1800000000 = a + i - st * 0x1800000000
      omega
    have h3 : a + i < 20 * stackSpan := by
      change a + i < 20 * 0x1800000000
      omega
    unfold placeOf
    rw [if_pos h3]
    simp only [h1, h2]
    rw [if_pos (by omega)]
  have hq : s.linePoisoned ((a + i) / 64) = false := by
    unfold State.linePoisoned State.granule smGet
    have key : ∀ (l : List (Nat × Gran)) (q : Nat), (∀ e ∈ l, e.2.poison = 0) → ((smFind l q).getD Gran.empty).poison = 0 := by
      intro l q
      induction l with
      | nil => intro _; rfl
      | cons e l ih =>
        intro h
        unfold smFind
        split
        · exact h e (by simp)
        · exact ih (fun x hx => h x (by simp [hx]))
    rw [key _ _ hp]
    simp
  refine ⟨⟨st, _, hpl, hu⟩, ?_, ?_⟩
  · simp [Intact, intactAt, hpl, hq, he, hm, smGet, smFind]
  · simp [Unarmed, unarmedAt, hpl, hf]

/-- A geometry of one layer in one slot a page. -/
def tGeom : Geom := { layers := 1, fmt := 1, kvhLog2 := 4, dh := 128, ns := 1, c0 := 0, stks := 1, window := 0 }

/-- A SUBMIT of a prompt of 3 tokens in entry 5, and words of the ring at host address 0x1000. -/
def tSubmit : Nat := 1 + 5 <<< 16 + 77 <<< 32 + 0x400000 <<< 64 + 3 <<< 128 + 4 <<< 160 + (0x410000 + 1 <<< 48) <<< 256
def tCancel : Nat := 2 + 5 <<< 16 + 77 <<< 32

/-- Partition 3 serving, with a request next in its ring; the sequence table of 64 entries in unit 3, the variants in unit 2. -/
def tServe (r : Nat) (mem : SMap Byte) (gran : SMap Gran) (f : PartSt → PartSt) : State :=
  let p := { tPart with
    alm := some { tAlm with entries := [{ train := false, serve := true, hasColl := false, next := 0, tokMax := 0, seqMax := 0, items := [] }] }
    svCfg := 0x01000000, svReq := 0x1000, serve := { PartSt.reset.serve with
      geoms := [tGeom], tableBase := 0x600000, capLog2 := 6, varBase := 0x500000, nvar := 1, swapPool := [0x100000] } }
  { (withRegs [(Fld.SV_STAT.INSTALLED, 3, 0, 1), (Fld.SV_REQ.HOST, 3, 0, 64), (Fld.STEP_STATE.STATE, 3, 0, 1)] tBase).setPart 3 (f p) with
    host := cellsOf 0x1000 64 r ++ [(0x1400, 1)], mem := mem, gran := gran }

/-- The memory in which entry 5 of the working copy is live for request 77. -/
def tLive : SMap Byte := [(0x601140, 1), (0x601144, 77)]
def tLiveGran : SMap Gran := [(0x601, { valid := 0x20#64, poison := 0, state := .opened, crc := 0 })]

theorem good_tServe (r : Nat) (mem : SMap Byte) (gran : SMap Gran) (f : PartSt → PartSt) (a n : Nat)
    (hp : ∀ e ∈ gran, e.2.poison = 0) (hn : a + n ≤ stackData) : GoodBytes (tServe r mem gran f) a n :=
  good_of _ 0 a n rfl rfl hp (by decide) (by omega) (by omega)
    (show (withRegs _ tBase).stackUp 0 = true by decide) (show (withRegs _ tBase).get _ 0 = 0 ∧ (withRegs _ tBase).get _ 0 = 0 by decide)

theorem witness_ServingRequestsAndSwaps_submit :
    (let s := tServe tSubmit [(0x500000, 1)] [(0x500, { valid := 1, poison := 0, state := .opened, crc := 0 })] id;
      let at_ := (s.part 3).serve.copyBase (1 - s.get Fld.SV_STAT.COPY 3) + 64 * 5;
      (Sound s ∧ s.nextRequest 3 = some tSubmit ∧ dw tSubmit 0 7 0 = 1 ∧ reqBad tSubmit = false ∧ dw tSubmit 0 31 16 = 5 ∧
        5 < 2 ^ (s.part 3).serve.capLog2 ∧ readBytesOf s at_ 64 % 4 = 0 ∧
        s.placeReason 3 (dw tSubmit 1 41 0) (dw tSubmit 2 31 0) (dw tSubmit 2 63 32) (64 * dw tSubmit 4 41 6) (dw tSubmit 4 63 48)
          (64 * dw tSubmit 5 41 6) = 0 ∧ dw tSubmit 3 19 12 < (s.part 3).serve.nvar ∧ (readByte s 0x500000).toNat % 2 = 1 ∧
        (64 * dw tSubmit 4 41 6 + 4 * dw tSubmit 4 63 48 ≤ at_ ∧ (s.part 3).serve.geoms[1]? = none)) ∧
        GoodBytes s at_ 64 ∧ GoodBytes s 0x500000 8 ∧ GoodBytes s (64 * dw tSubmit 4 41 6) (4 * dw tSubmit 4 63 48)) ∧
    (∀ e ∈ [(tSubmit, tLive, tLiveGran), (tSubmit, [], []), (tSubmit + 59 <<< 16, [], []), (tSubmit + 1 <<< 41 <<< 64, [], [])],
      let s := tServe e.1 e.2.1 e.2.2 id;
      let k := (s.part 3).serve;
      let at_ := k.copyBase (1 - s.get Fld.SV_STAT.COPY 3) + 64 * dw e.1 0 31 16;
      let why := s.placeReason 3 (dw e.1 1 41 0) (dw e.1 2 31 0) (dw e.1 2 63 32) (64 * dw e.1 4 41 6) (dw e.1 4 63 48) (64 * dw e.1 5 41 6);
      (Sound s ∧ s.nextRequest 3 = some e.1 ∧ dw e.1 0 7 0 = 1 ∧ reqBad e.1 = false ∧ (2 ^ k.capLog2 ≤ dw e.1 0 31 16 ↔ dw e.1 0 31 16 = 64) ∧
        (readBytesOf s at_ 64 % 4 ≠ 0 ↔ e.2.1 = tLive) ∧ (why ≠ 0 ↔ dw e.1 1 41 41 = 1) ∧ (readByte s (k.varBase + 16 * dw e.1 3 19 12)).toNat % 2 = 0) ∧
        at_ + 64 ≤ 0x800000 ∧ k.varBase + 16 * dw e.1 3 19 12 = 0x500000) ∧
    (∀ e ∈ [(tLive, tLiveGran), ([], [])], ∀ r a n, a + n ≤ 0x800000 → GoodBytes (tServe r e.1 e.2 id) a n) := by
  refine ⟨⟨by decide, ?_, ?_, ?_⟩, by decide, ?_⟩
  iterate 3 exact good_tServe _ _ _ _ _ _ (by decide) (by decide)
  intro m hm r a n h
  have : (0x800000 : Nat) ≤ stackData := by decide
  simp only [List.mem_cons, List.not_mem_nil, or_false] at hm
  obtain rfl | rfl := hm <;> exact good_tServe _ _ _ _ _ _ (by decide) (by omega)

theorem witness_ServingRequestsAndSwaps_cancel :
    (∀ m ∈ [(tLive, tLiveGran), ([], [])], let s := tServe tCancel m.1 m.2 id;
      let at_ := (s.part 3).serve.copyBase (1 - s.get Fld.SV_STAT.COPY 3) + 64 * 5;
      (Sound s ∧ s.nextRequest 3 = some tCancel ∧ dw tCancel 0 7 0 = 2 ∧ reqBad tCancel = false) ∧
        ((readBytesOf s at_ 64 % 4 ≠ 0 ∧ seqReq (readBytesOf s at_ 64) = dw tCancel 0 63 32) ↔ m.1 = tLive)) ∧
    (∀ m ∈ [(tLive, tLiveGran), ([], [])], GoodBytes (tServe tCancel m.1 m.2 id) 0x601140 64) ∧
    (let s := tServe 3 [] [] id; Sound s ∧ s.nextRequest 3 = some 3 ∧ reqBad 3 = true) := by
  refine ⟨by decide, ?_, by decide⟩
  intro m hm
  simp only [List.mem_cons, List.not_mem_nil, or_false] at hm
  obtain rfl | rfl := hm <;> exact good_tServe _ _ _ _ _ _ (by decide) (by decide)

/-- A swap of the first slot. -/
def tSwap (restore : Bool) : Swap :=
  { seq := 0, geom := 0, page := 0, stack := 0, pch := 0, slot := 0, image := 0, restore := restore, ran := false, bad := false }

/-- Partition 3 in a serving step whose plan holds that swap. -/
def tSwapping (restore : Bool) : State := tServe 0 [] [] (fun k => { k with plan := some { tPlan with swaps := [tSwap restore] } })

theorem witness_ServingRequestsAndSwaps_swaps :
    (∀ r : Bool, let s := tSwapping r; let pl := { tPlan with swaps := [tSwap r] };
      Sound s ∧ (s.part 3).phase = .active ∧ s.inEve 3 = false ∧ s.pcieOnly = false ∧ (s.part 3).plan = some pl ∧
        (s.part 3).serve.geoms[(tSwap r).geom]? = some tGeom ∧ s.stackUp (tSwap r).stack = true ∧ pl.nextSwap r = some (tSwap r)) ∧
    (∀ r : Bool, ∀ q, q < 2 * tGeom.layers → GoodBytes (tSwapping r) (tGeom.page 0 0 0 (q / 2) (q % 2)) 65536) ∧
    1 ≤ tGeom.ns ∧ ∀ q, q < 2 → ∀ q', q' < 2 → q ≠ q' → tGeom.page 0 0 0 (q / 2) (q % 2) ≠ tGeom.page 0 0 0 (q' / 2) (q' % 2) := by
  refine ⟨by decide, ?_, by decide⟩
  intro r q hq
  refine good_tServe _ _ _ _ _ _ (by decide) ?_
  obtain rfl | rfl : q = 0 ∨ q = 1 := by have : 2 * tGeom.layers = 2 := by decide
                                         omega
  · decide
  · decide

/-- The record of tGeom in memory at 0x400000, and the states of a partition at rest that installs its table. -/
def tGeomRec : Nat := 0 + 1 <<< 8 + 4 <<< 12 + 1 <<< 32 + 1 <<< 64
def tInstall (r : Nat) : State :=
  { (withRegs [(Fld.SV_GEOM.BASE, 3, 0, 0x10000), (Fld.SV_TABLE.BASE, 3, 0, 0x600), (Fld.SV_TABLE.CAP_LOG2, 3, 0, 6)] tBase).setPart 3
      { tPart with phase := .idle } with mem := cellsOf 0x400000 64 r, gran := [(0x400, { valid := 1, poison := 0, state := .opened, crc := 0 })] }

theorem witness_ServingRequestsAndSwaps_install :
    (let s := withRegs [(Fld.STEP_STATE.STATE, 3, 0, 5)] tBase; Sound s ∧ s.serves 0 = true ∧ s.get Fld.STEP_STATE.STATE 3 = 5) ∧
    (∀ r ∈ [tGeomRec, tGeomRec + 1 <<< 11], let s := tInstall r;
      Sound s ∧ s.serves 0 = true ∧ s.get Fld.STEP_STATE.STATE 3 = 0 ∧ s.get Fld.SV_GEOM.TWO 3 = 0 ∧
        (s.geomOk 3 (readBytesOf s (64 * s.get Fld.SV_GEOM.BASE 3) 64) = true ↔ r = tGeomRec) ∧
        s.ownAll 3 (4096 * s.get Fld.SV_TABLE.BASE 3) 8192 = true ∧ 6 ≤ s.get Fld.SV_TABLE.CAP_LOG2 3 ∧
        (∀ i, i < 2 ^ s.get Fld.SV_TABLE.CAP_LOG2 3 → (readByte s (4096 * s.get Fld.SV_TABLE.BASE 3 + 64 * i)).toNat % 4 = 0)) ∧
    (∀ r, GoodBytes (tInstall r) 0x400000 64 ∧ GoodBytes (tInstall r) 0x600000 8192) ∧
    (∀ e ∈ [(0x600, 3), (0x800, 0)],
      let s := { withRegs [(Fld.SV_TABLE.BASE, 3, 0, e.1)] (tInstall tGeomRec) with
        mem := cellsOf 0x400000 64 tGeomRec ++ cellsOf 0x600000 64 e.2, gran := (tInstall 0).gran ++ [(0x600, { valid := 1, poison := 0, state := .opened, crc := 0 })] };
      Sound s ∧ s.geomOk 3 (readBytesOf s 0x400000 64) = true ∧ (s.ownAll 3 (4096 * s.get Fld.SV_TABLE.BASE 3) 8192 = true ↔ e.2 = 3) ∧
        ((readByte s (4096 * s.get Fld.SV_TABLE.BASE 3)).toNat % 4 = 3 ↔ e.2 = 3)) ∧
    (let s := tBase; Sound s ∧ s.serves 0 = true ∧ s.serves (dieOfCore 11) = true ∧ (s.core 11).run = .idle ∧ (tCore 0 []).run ≠ .idle) := by
  refine ⟨by decide, by decide, ?_, by decide, by decide⟩
  intro r
  constructor <;> exact good_of _ 0 _ _ rfl rfl (List.forall_mem_singleton.mpr rfl) (by decide) (by decide) (by decide)
    (show (withRegs _ tBase).stackUp 0 = true by decide) (show (withRegs _ tBase).get _ 0 = 0 ∧ (withRegs _ tBase).get _ 0 = 0 by decide)

/-! Partitions, regions, mailboxes and doorbells. -/

/-- A state of partition 3 at a step state. -/
def tPt (st : Nat) (l : List (Fld × Nat × Nat × Nat)) : State := withRegs ((Fld.STEP_STATE.STATE, 3, 0, st) :: l) tBase

/-- Region 31 of stack 0 at a state, of one unit, its replica in the last unit of stack 19. -/
def tRegion (st mir : Nat) (l : List (Fld × Nat × Nat × Nat)) : State :=
  withRegs ([(Fld.REG_STAT.STATE, 31, 0, st), (Fld.REG_LOC.COUNT, 31, 0, 1), (Fld.REG_LOC.MIRROR, 31, 0, mir),
    (Fld.REG_MIR.MSTACK, 31, 0, 19), (Fld.REG_MIR.MFIRST, 31, 0, 49103), (Fld.STK_STATUS.STATE, 19, 0, 2)] ++ l) tBase

theorem witness_PartitionsAndRegions_writes :
    (∀ st, st ∈ [1, 2, 5] → Sound (tPt st []) ∧ (tPt st []).serves 0 = true ∧ (tPt st []).get Fld.STEP_STATE.STATE 3 = st) ∧
    (let s := tPt 4 [(Fld.CORE_STATUS.ASSIGNED, 11, 0, 1), (Fld.CORE_STATUS.PART, 11, 0, 15)];
      Sound s ∧ s.serves 0 = true ∧ s.get Fld.STEP_STATE.STATE 3 = 4 ∧
        (∃ c : Fin 12, (bits (0x800#64).toNat 11 0).testBit c = true ∧ s.get Fld.CORE_STATUS.ASSIGNED c = 1 ∧ s.get Fld.CORE_STATUS.PART c ≠ 3) ∧
        ¬ ∃ c : Fin 12, (bits (0x7FF#64).toNat 11 0).testBit c = true ∧ s.get Fld.CORE_STATUS.ASSIGNED c = 1 ∧ s.get Fld.CORE_STATUS.PART c ≠ 3) ∧
    (let s := tPt 3 [(Fld.PT_SB.SB0_BASE, 15, 0, 100), (Fld.PT_SB.SB0_SIZE, 15, 0, 92)];
      let meets := fun (w : Nat) => ∃ q : Fin 16, q ≠ 3 ∧
        (SpansShare (bits w 7 0) (bits w 15 8) (s.get Fld.PT_SB.SB0_BASE q) (s.get Fld.PT_SB.SB0_SIZE q) ∨
          SpansShare (bits w 23 16) (bits w 31 24) (s.get Fld.PT_SB.SB1_BASE q) (s.get Fld.PT_SB.SB1_SIZE q));
      let out := fun (w : Nat) => 192 < bits w 7 0 + bits w 15 8 ∨ 192 < bits w 23 16 + bits w 31 24;
      Sound s ∧ s.serves 0 = true ∧ s.get Fld.STEP_STATE.STATE 3 = 3 ∧ (out 0xC1000000 ∧ ¬ meets 0xC1000000) ∧
        (meets 0x01BF ∧ ¬ out 0x01BF) ∧ (¬ meets 0x64C0 → True) ∧ ¬ out 0x6400 ∧ ¬ meets 0x6400) := by
  have share : ∀ a n b m, SpansShare a n b m ↔ (1 ≤ n ∧ 1 ≤ m ∧ a < b + m ∧ b < a + n) := by
    intro a n b m
    constructor
    · rintro ⟨u, h1, h2, h3, h4⟩
      omega
    · rintro ⟨h1, h2, h3, h4⟩
      exact ⟨max a b, by omega, by omega, by omega, by omega⟩
  simp only [share]
  refine ⟨?_, ?_, ?_⟩ <;> decide

theorem witness_PartitionsAndRegions_states :
    (∀ st, st < 4 → ∀ mir, mir < 2 → let s := tRegion st mir [];
      Sound s ∧ s.serves 0 = true ∧ s.get Fld.REG_STAT.STATE 31 = st ∧ s.get Fld.REG_LOC.STACK 31 ≤ 19 ∧
        s.get Fld.REG_LOC.FIRST 31 + s.get Fld.REG_LOC.COUNT 31 ≤ 49104 ∧ s.get Fld.REG_LOC.MIRROR 31 = mir ∧
        s.get Fld.REG_MIR.MSTACK 31 ≤ 19 ∧ s.get Fld.REG_MIR.MFIRST 31 + s.get Fld.REG_LOC.COUNT 31 ≤ 49104 ∧
        s.get Fld.REG_MIR.MSTACK 31 ≠ s.get Fld.REG_LOC.STACK 31 ∧
        ¬ ∃ p : Fin 16, (s.part p).regions.testBit 31 = true ∨ (s.get Fld.PT_REGIONS.MAP p).testBit 31 = true) ∧
    (let s := tRegion 0 0 [(Fld.PT_REGIONS.MAP, 15, 0, 0x80000000)];
      Sound s ∧ ∃ p : Fin 16, (s.part p).regions.testBit 31 = true ∨ (s.get Fld.PT_REGIONS.MAP p).testBit 31 = true) := by
  refine ⟨?_, ?_⟩ <;> decide

theorem witness_PartitionsAndRegions_load :
    Loadable (tRegion 0 1 []) 31 ∧
    (let s := withRegs [] tBase; Sound s ∧ s.serves 0 = true ∧ s.get Fld.REG_STAT.STATE 31 = 0 ∧ ¬ Loadable s 31) := by
  have hm : ∀ st u, inRegion (tRegion 0 1 []) 31 st u → (st = 0 ∧ u = 0) ∨ (st = 19 ∧ u = 49103) := by
    intro st u h
    have e : (tRegion 0 1 []).get Fld.REG_LOC.COUNT 31 = 1 ∧ (tRegion 0 1 []).get Fld.REG_LOC.STACK 31 = 0 ∧
        (tRegion 0 1 []).get Fld.REG_LOC.FIRST 31 = 0 ∧ (tRegion 0 1 []).get Fld.REG_MIR.MSTACK 31 = 19 ∧
        (tRegion 0 1 []).get Fld.REG_MIR.MFIRST 31 = 49103 := by decide
    obtain ⟨e1, e2, e3, e4, e5⟩ := e
    simp only [inRegion, e1, e2, e3, e4, e5] at h
    omega
  refine ⟨⟨by decide, by decide, by decide, by decide, ?_⟩, by decide, by decide, by decide, ?_⟩
  · intro st u h
    have hq : ∀ q, q < 32 → q ≠ 31 → (tRegion 0 1 []).get Fld.REG_STAT.STATE q = 0 := by decide
    refine ⟨?_, fun q h1 h2 h3 => absurd (hq q h1 h2) h3⟩
    obtain ⟨rfl, rfl⟩ | ⟨rfl, rfl⟩ := hm st u h <;> decide
  · rintro ⟨h, -⟩
    revert h
    decide

/-- A region being sealed: one byte of its first granule differs from the replica. -/
def tSealing (mir : Nat) : State :=
  { tRegion 2 mir [] with mem := [(0, 5)], gran := [(0, { valid := 1, poison := 0, state := .opened, crc := 0 })] }

theorem good_tSealing (mir st a n : Nat) (ht : st = 0 ∨ st = 19) (ha : st * stackSpan ≤ a) (hn : a + n ≤ st * stackSpan + stackData) (hm : mir < 2) :
    GoodBytes (tSealing mir) a n := by
  obtain rfl | rfl : mir = 0 ∨ mir = 1 := by omega
  all_goals
    obtain rfl | rfl := ht
    all_goals exact good_of _ _ _ _ rfl rfl (List.forall_mem_singleton.mpr rfl) (by decide) ha hn (by decide) (by decide)

theorem witness_PartitionsAndRegions_seal (mir : Nat) (hm : mir < 2) (i : Nat) (hi : i < 512) :
    SealableGranule (tSealing mir) (regionGranule (tSealing mir) 31 i) ∧ SealableGranule (tSealing mir) (replicaGranule (tSealing mir) 31 i) := by
  have e : ∀ mir, mir < 2 → regionGranule (tSealing mir) 31 0 = 0 ∧ replicaGranule (tSealing mir) 31 0 = 503291392 := by decide
  have e1 : regionGranule (tSealing mir) 31 i = i := by
    have := (e mir hm).1
    simp only [regionGranule] at this ⊢
    omega
  have e2 : 4096 * replicaGranule (tSealing mir) 31 i = 2061481541632 + 4096 * i := by
    have := (e mir hm).2
    simp only [replicaGranule] at this ⊢
    omega
  have g1 := good_tSealing mir 0 (4096 * i) 4096 (.inl rfl) (by omega) (show _ ≤ 102978551808 by omega) hm
  have g2 := good_tSealing mir 19 (2061481541632 + 4096 * i) 4096 (.inr rfl) (show 1958505086976 ≤ _ by omega)
    (show _ ≤ 2061483638784 by omega) hm
  have b : ∀ page, (tSealing mir).bias page = 0 := fun _ => rfl
  refine ⟨⟨?_, ?_, ?_⟩, ?_, ?_, ?_⟩
  · intro j hj
    rw [e1]
    exact (g1 (64 * j) (by omega)).2.1
  · rw [e1]
    exact (g1 0 (by omega)).2.2
  · rw [b]
    decide
  · intro j hj
    rw [e2]
    exact (g2 (64 * j) (by omega)).2.1
  · rw [e2]
    exact (g2 0 (by omega)).2.2
  · rw [b]
    decide

set_option maxRecDepth 100000 in
theorem witness_PartitionsAndRegions_mismatch :
    let s := tSealing 1; Sound s ∧ s.get Fld.REG_STAT.STATE 31 = 2 ∧ s.stackUp 0 = true ∧ s.stackUp 19 = true ∧
      crc32c (granuleBytes s (regionGranule s 31 0)) ≠ crc32c (granuleBytes s (replicaGranule s 31 0)) := by decide +kernel

/-- Both copies hold nothing: no granule differs, and all are unwritten. -/
theorem witness_PartitionsAndRegions_same :
    let s := tRegion 2 1 []; Sound s ∧ s.get Fld.REG_STAT.STATE 31 = 2 ∧ s.mem = [] ∧ s.gran = [] ∧ (s.granule 0).state = .unwritten ∧
      ∀ page, s.bias page ≠ 2 :=
  ⟨by decide, by decide, rfl, rfl, rfl, fun _ h => by revert h; exact (by decide : (0 : Nat) ≠ 2)⟩

/-- Mailbox 63 with fields. -/
def tBox (l : List (Fld × Nat × Nat × Nat)) : State := withRegs l tBase

theorem witness_MailboxesAndDoorbells_go :
    (let s := tBox [(Fld.S_STAT.OWNED, 63, 0, 1), (Fld.S_STAT.OWNER, 63, 0, 5)];
      Sound s ∧ s.serves 0 = true ∧ s.maySend (0#16).toNat 63 = true ∧ ¬ OwnsBox s 0 63 ∧ s.maySend (5#16).toNat 63 = true ∧ OwnsBox s 5 63) ∧
    (let v := (0x110#64).toNat; bit v 8 = true ∧ bit v 9 = false ∧ ¬ (bits v 4 0 < 8 ∨ 16 < bits v 4 0)) ∧
    (let v := (0x107#64).toNat; bit v 8 = true ∧ bit v 9 = false ∧ (bits v 4 0 < 8 ∨ 16 < bits v 4 0)) ∧
    (let s := { tBox [(Fld.MB_CFG.RCV, 63, 0, 20)] with dieUp := [true, false] };
      Sound s ∧ s.serves 0 = true ∧ OwnsBox s 0 63 ∧ s.rcvDown (s.get Fld.MB_CFG.RCV 63) = true) ∧
    (let s := { tBox [(Fld.MB_CFG.RCV, 63, 0, 20)] with
        sec := { tBase.sec with upd := some { comp := 4, phase := 1, began := 0 } } };
      Sound s ∧ s.serves 0 = true ∧ OwnsBox s 0 63 ∧ s.rcvDown (s.get Fld.MB_CFG.RCV 63) = false ∧ s.rcvDrains (s.get Fld.MB_CFG.RCV 63) = true) ∧
    (let s := tBox [(Fld.S_STAT.OWNED, 63, 0, 1), (Fld.R_PEEK.FULL, 63, 0, 1), (Fld.MB_CFG.RCV, 63, 0, 4)];
      Sound s ∧ s.serves 0 = true ∧ OwnsBox s 0 63 ∧ s.rcvDown (s.get Fld.MB_CFG.RCV 63) = false ∧ s.rcvDrains (s.get Fld.MB_CFG.RCV 63) = false ∧
        s.get Fld.R_PEEK.FULL 63 = 1) ∧
    ∀ r, r ∈ [21, 22] → let s := tBox [(Fld.MB_CFG.RCV, 63, 0, r)];
      Sound s ∧ s.serves 0 = true ∧ OwnsBox s 0 63 ∧ s.rcvDown (s.get Fld.MB_CFG.RCV 63) = false ∧ s.rcvDrains (s.get Fld.MB_CFG.RCV 63) = false ∧
        s.get Fld.R_PEEK.FULL 63 = 0 ∧ s.get Fld.ETH_DEV.MODE = 0 := by
  refine ⟨?_, ?_, ?_, ?_, ?_, ?_, ?_⟩ <;> decide

theorem witness_MailboxesAndDoorbells_forward :
    ∀ mg : Bool, ∀ e ∈ [(1, 22), (2, 0)],
      let s := { tBox [(Fld.MB_CFG.RCV, 63, 0, e.2), (Fld.ETH_DEV.MODE, 0, 0, e.1)] with net := { tBase.net with mgmt := mg } };
      Sound s ∧ s.serves 0 = true ∧ s.maySend (0#16).toNat 63 = true ∧ OwnsBox s 0 63 ∧ s.rcvDown e.2 = false ∧ s.rcvDrains e.2 = false ∧
        s.get Fld.R_PEEK.FULL 63 = 0 ∧ s.get Fld.ETH_DEV.MODE = e.1 ∧ s.get Fld.MB_CFG.RCV 63 = e.2 ∧ (s.net.mgmt = true ↔ mg = true) ∧
        (s.qp 0x100).error = false := by decide

theorem witness_MailboxesAndDoorbells :
    (let s := tBox [(Fld.S_STAT.OWNED, 63, 0, 1), (Fld.S_STAT.OWNER, 63, 0, 5), (Fld.R_PEEK.FULL, 0, 0, 1)];
      Sound s ∧ s.serves 0 = true ∧ s.mod.outbox = [] ∧ s.maySend (5#16).toNat 63 = true ∧ s.get Fld.S_STAT.OWNED 63 = 1 ∧
        s.get Fld.S_STAT.OWNER 63 = (5#16).toNat ∧ s.mayTake (0#16).toNat 0 = true ∧ s.get Fld.R_PEEK.FULL 0 = 1 ∧
        s.mayTake (0#16).toNat 63 = true ∧ s.get Fld.R_PEEK.FULL 63 = 0) ∧
    (let s := tBox [(Fld.MSIX_CTRL.MASK, 63, 0, 0), (Fld.CXLC_LINK.UP, 0, 0, 1)];
      Sound s ∧ s.serves 0 = true ∧ s.get Fld.ETH_DEV.MODE ≠ 2 ∧ s.get Fld.MSIX_CTRL.MASK 63 = 0 ∧
      s.mayRing (0#16).toNat 0 0xFFFFFFFF = true ∧ s.rcvDown 0 = false ∧ s.mayDoor (0#16).toNat 21 = true) ∧
    (let s := { tBase with dieUp := [true, false] };
      Sound s ∧ s.serves 0 = true ∧ s.mayRing (0#16).toNat 20 1 = true ∧ s.rcvDown 20 = true) := by
  refine ⟨?_, ?_, ?_⟩ <;> decide

/-! The CXL host link. -/

/-- The block with its first two decoders committed: 256 MiB at 0x10000000 on stack 0, the rest of the data on the next. -/
def tLink (active : Bool) (l : List (Fld × Nat × Nat × Nat)) : State :=
  let s := withRegs ([(Fld.STK_STATUS.STATE, 19, 0, 2)] ++ l) tBase
  let off : Hdm := { on := false, error := false, base := 0, size := 0, dpa := 0 }
  { s with
    gran := [(1, { valid := 1, poison := 0, state := .opened, crc := 0 })]
    link := { s.link with active := active, hdm := [{ on := true, error := false, base := 0x10000000, size := 0x10000000, dpa := 0 },
      { on := true, error := false, base := 0x100000000, size := 0x1DFF0000000, dpa := 0x10000000 }, off, off] } }

theorem hdm_tLink (active : Bool) (l : List (Fld × Nat × Nat × Nat)) (n : Nat) : (tLink active l).hdm n = (tLink true []).hdm n := rfl

theorem mapped_tLink (active : Bool) (l : List (Fld × Nat × Nat × Nat)) (h : (tLink active l).pcieOnly = false) :
    Mapped (tLink active l) 0x10000000 0 ∧ Mapped (tLink active l) 0x100000000 0x10000000 ∧
      Mapped (tLink active l) (0x100000000 + 0x1DFF0000000 - 1) 0x1DFFFFFFFFF := by
  simp only [Mapped, hdm_tLink active l]
  exact ⟨⟨h, 0, by decide⟩, ⟨h, 1, by decide⟩, ⟨h, 1, by decide⟩⟩

theorem witness_CxlMemoryAccesses_mapped :
    ∀ l ∈ [[], [(Fld.STK_STATUS.STATE, 0, 0, 4)], [(Fld.REG_STAT.STATE, 31, 0, 2), (Fld.REG_LOC.COUNT, 31, 0, 1)],
      [(Fld.REG_STAT.STATE, 31, 0, 3), (Fld.REG_LOC.COUNT, 31, 0, 1)]], ∀ active : Bool, (tLink active l).pcieOnly = false := by decide

theorem witness_CxlMemoryAccesses :
    (let s := tLink true [];
      (Sound s ∧ Intact s 0x1000 ∧ Unarmed s 0x1000 ∧ s.link.run = none ∧ (1#64) ≠ 0) ∧ Served s 0x1000 ∧ ¬ RegionDrops s 0x1000) ∧
    (let s := tLink false []; Sound s ∧ ¬ Served s 0 ∧ DropCounter s 0 Fld.CXLC_DROP.NOT_ACTIVE) ∧
    (let s := tLink true [(Fld.STK_STATUS.STATE, 0, 0, 4)]; Sound s ∧ ¬ Served s 0 ∧ DropCounter s 0 Fld.CXLC_DROP.DOWN) ∧
    (let s := tLink true []; DropCounter s 0x17FFFFFFC0 Fld.CXLC_DROP.UNMAPPED) ∧
    (let s := tLink true [(Fld.REG_STAT.STATE, 31, 0, 2), (Fld.REG_LOC.COUNT, 31, 0, 1)];
      Sound s ∧ DropCounter s 0 Fld.CXLC_DROP.REGION) ∧
    (let s := tLink true [(Fld.REG_STAT.STATE, 31, 0, 3), (Fld.REG_LOC.COUNT, 31, 0, 1)];
      Sound s ∧ DropCounter s 0x1FFFC0 Fld.CXLC_DROP.REGION) := by
  refine ⟨⟨by decide, ⟨by decide, by decide, by decide, 0, 0x1000, by decide⟩, ?_⟩, ⟨by decide, ?_, .inl (by decide)⟩,
    ⟨by decide, ?_, .inr (.inl (by decide))⟩, .inr (.inr (.inl ⟨by decide, by decide, by decide, ?_, rfl⟩)),
    ⟨by decide, .inr (.inr (.inr ⟨⟨by decide, by decide, by decide, 0, 0, by decide⟩, .inl ⟨31, by decide⟩, rfl⟩))⟩,
    ⟨by decide, .inr (.inr (.inr ⟨⟨by decide, by decide, by decide, 0, 0x1FFFC0, by decide⟩, .inr ⟨by decide, by decide⟩, rfl⟩))⟩⟩
  · rintro (⟨r, h1, h2, -⟩ | ⟨h, -⟩)
    · have : ∀ r, r < 32 → (tLink true []).get Fld.REG_STAT.STATE r ≠ 2 := by decide
      exact this r h1 h2
    · revert h
      decide
  · rintro ⟨h, -⟩
    revert h
    decide
  · rintro ⟨-, -, h, -⟩
    revert h
    decide
  · intro st o h
    have e : placeOf 0x17FFFFFFC0 = .csum 0 := by decide
    rw [e] at h
    cases h

theorem witness_DecodersAndBiasCommands :
    (let s := tLink true []; Sound s ∧ s.serves 0 = true ∧ s.pcieOnly = false ∧ (s.hdm (2 : Fin 4)).on = false ∧ (∀ m, m < (2 : Fin 4).val → (s.hdm m).on = true) ∧
      (s.hdm (3 : Fin 4)).on = false ∧ ¬ ∀ m, m < (3 : Fin 4).val → (s.hdm m).on = true) ∧
    (let s := tBase; (s.hdm (0 : Fin 4)).on = false ∧ (0x1E000000000#64).toNat % 2 ^ 28 = 0 ∧ 0 + (0#64).toNat + (0x1E000000000#64).toNat ≤ 0x1E000000000) ∧
    (let w := (0x80000100001EFFFF#64).toNat;
      bit w 63 = true ∧ bits w 19 0 + bits w 39 20 = 983040 ∧ 0 < bits w 39 20 ∧ tBase.get Fld.BIAS_STAT.BUSY ≠ 1) ∧
    (let w := (0x80000000001F0000#64).toNat; bit w 63 = true ∧ 983040 < bits w 19 0 + bits w 39 20) ∧
    (let w := (0x80000000000EFFFF#64).toNat; bit w 63 = true ∧ bits w 39 20 = 0 ∧ bits w 19 0 + bits w 39 20 = 983039) ∧
    (let s := { tBase with link := { tBase.link with run := some ⟨5, 2, true, 0⟩ } }; Sound s ∧ s.link.run = some ⟨5, 2, true, 0⟩) := by
  refine ⟨?_, ?_, ?_, ?_, ?_, ?_⟩ <;> decide

/-! The host DMA engine. -/

/-- Channel 3 enabled, with one descriptor posted in its ring at host address 0x1000. -/
def tDma (w0 w1 w2 : Nat) (l : List (Fld × Nat × Nat × Nat)) (jobs : List HdmaJob) : State :=
  let s := withRegs ([(Fld.CH_CFG.EN, 3, 0, 1), (Fld.CH_BASE.HOST, 3, 0, 16), (Fld.CH_TAIL.TAIL, 3, 0, 1)] ++ l) tBase
  { s with host := cellsOf 0x1000 8 w0 ++ cellsOf 0x1008 8 w1 ++ cellsOf 0x1010 8 w2, link := { s.link with jobs := [[], [], [], jobs] } }

/-- The word 2 of a descriptor: bytes, direction, device. -/
def tDmaWord (n dir dev : Nat) : Nat := n + dir <<< 32 + dev <<< 40

theorem witness_HostDmaChannels_ready :
    ∀ w ∈ [(0, 0, tDmaWord 64 0 0), (0, 0, tDmaWord 64 1 0), (0, 0, tDmaWord 0 0 0), (0, 1, tDmaWord 64 0 0), (0, 0x17FA000000, tDmaWord 64 0 0),
        (0, 0x1800000000, tDmaWord 64 0 0), (0, 0, tDmaWord 64 0 1), (0, 0, tDmaWord (64 + 2 ^ 33) 0 1)],
      let s := tDma w.1 w.2.1 w.2.2 [] [];
      Sound s ∧ hdmaReady s 3 ∧ hdmaWord s 3 0 = w.1 ∧ hdmaWord s 3 1 = w.2.1 ∧ hdmaWord s 3 2 = w.2.2 ∧ hdmaWord s 3 3 = 0 := by
  decide

theorem witness_HostDmaChannels_checks :
    hdmaFails (tDma 0 1 (tDmaWord 64 0 0) [] []) 0 1 (tDmaWord 64 0 0) 0 6 ∧
    hdmaFails (tDma 0 0x17FA000000 (tDmaWord 64 0 0) [] []) 0 0x17FA000000 (tDmaWord 64 0 0) 0 1 ∧
    hdmaFails (tDma 0 0 (tDmaWord 64 0 0) [(Fld.REG_STAT.STATE, 31, 0, 3), (Fld.REG_LOC.COUNT, 31, 0, 1)] []) 0 0 (tDmaWord 64 0 0) 0 4 ∧
    hdmaFails (tDma 0 0 (tDmaWord 64 1 0) [] []) 0 0 (tDmaWord 64 1 0) 0 0 ∧
    hdmaFails (tDma 0 0 (tDmaWord 0 0 0) [] []) 0 0 (tDmaWord 0 0 0) 0 0 ∧
    hdmaFails (tDma 0 0 (tDmaWord 64 0 0) [] []) 0 0 (tDmaWord 64 0 0) 0 0 ∧
    hdmaFails (tDma 0 0x1800000000 (tDmaWord 64 0 0) [] []) 0 0x1800000000 (tDmaWord 64 0 0) 0 0 := by
  have none3 : ∀ w0 w1 w2 r, r < 32 → ¬ ((tDma w0 w1 w2 [] []).get Fld.REG_STAT.STATE r = 2 ∨ (tDma w0 w1 w2 [] []).get Fld.REG_STAT.STATE r = 3) := by
    intro w0 w1 w2
    show ∀ r, r < 32 → ¬ ((withRegs _ tBase).get Fld.REG_STAT.STATE r = 2 ∨ (withRegs _ tBase).get Fld.REG_STAT.STATE r = 3)
    decide
  refine ⟨.inl ⟨by decide, rfl⟩, .inr (.inl ⟨by decide, ?_, rfl⟩), .inr (.inr (.inl ⟨by decide, .inr ⟨0, 0, 63, by decide⟩, ?_, rfl⟩)),
    .inr (.inr (.inr ⟨by decide, .inr ⟨0, 0, 63, by decide⟩, ?_, rfl⟩)), .inr (.inr (.inr ⟨by decide, .inl (by decide), ?_, rfl⟩)),
    .inr (.inr (.inr ⟨by decide, .inr ⟨0, 0, 63, by decide⟩, ?_, rfl⟩)), .inr (.inr (.inr ⟨by decide, .inr ⟨1, 0, 63, by decide⟩, ?_, rfl⟩))⟩
  · rintro (h | ⟨st, o, o', h, -⟩)
    · revert h
      decide
    · have e : placeOf (if bit (tDmaWord 64 0 0) 32 = true then 0 else 0x17FA000000) = .csum 0 := by decide
      rw [e] at h
      cases h
  · exact ⟨by decide, by decide, 31, by decide, 0, by decide, by decide, by decide, .inr ⟨by decide, by decide⟩⟩
  · rintro ⟨h, -⟩
    revert h
    decide
  · rintro ⟨-, h, -⟩
    exact h (by decide)
  · rintro ⟨-, -, r, h, g, -, -, -, hs⟩
    exact none3 _ _ _ r h (hs.imp id And.left)
  · rintro ⟨-, -, r, h, g, -, -, -, hs⟩
    exact none3 _ _ _ r h (hs.imp id And.left)

theorem witness_HostDmaChannels :
    (let s := tDma 0 0 (tDmaWord 64 1 0) [] [];
      s.stackUp 0 = true ∧ s.stackUp 1 = false ∧ LinesIntact s 0 64 ∧ LinesSettled s 0 64 ∧ LinesUnarmed s 0 64 ∧ bits (hdmaWord s 3 2) 31 0 / 64 = 1 ∧ (s.lineValid 0 = false)) ∧
    (let s := { tDma 0 0 (tDmaWord 64 0 1) [(Fld.ETH_DEV.MODE, 0, 0, 1)] [] with net := { tBase.net with mgmt := true } };
      Sound s ∧ hdmaReady s 3 ∧ bits (hdmaWord s 3 2) 45 40 = 1 ∧ ¬ hdmaReserved (hdmaWord s 3 2) (hdmaWord s 3 3) ∧
        s.get Fld.ETH_DEV.MODE = 1 ∧ s.net.mgmt = true ∧ (s.qp (0x100 + 1)).error = false) ∧
    (let s := tDma 0 0 (tDmaWord 64 0 1) [] []; bits (hdmaWord s 3 2) 45 40 ≠ 0 ∧ ¬ s.get Fld.ETH_DEV.MODE = 1) ∧
    (let s := tDma 0 0 (tDmaWord (64 + 2 ^ 33) 0 1) [] []; bits (hdmaWord s 3 2) 45 40 ≠ 0 ∧ hdmaReserved (hdmaWord s 3 2) (hdmaWord s 3 3)) ∧
    (∀ int : Bool, let j : HdmaJob := ⟨2, 64, 0, int, 0, false, [0, 0, tDmaWord 64 1 0, 0]⟩;
      let s := tDma 0 0 (tDmaWord 64 1 0) [(Fld.MSIX_CTRL.MASK, 0, 0, 0)] [j];
      Sound s ∧ s.jobs (3 : Fin 4) = [j] ∧ s.isUp 0 = true ∧ s.serves 0 = true ∧ s.pcieOnly = false ∧ j.left = 0 ∧ j.awaits = false ∧ j.status < 256 ∧ j.moved < 2 ^ 32 ∧ s.anyReq (fun r => r.agent = .hdma (3 : Fin 4)) = false ∧
        s.get Fld.MSIX_CTRL.MASK (s.get Fld.CH_CFG.VEC (3 : Fin 4)) = 0 ∧ s.get Fld.CH_CFG.EN (3 : Fin 4) = 1) ∧
    (∀ dir, dir < 2 → ∀ up, up ∈ [2, 4] → let j : HdmaJob := ⟨0, 64, 128, false, 0, false, [0, 0, tDmaWord 192 dir 0, 0]⟩;
      let s := tDma 0 0 (tDmaWord 192 dir 0) [(Fld.STK_STATUS.STATE, 0, 0, up)] [j];
      Sound s ∧ s.jobs (3 : Fin 4) = j :: [] ∧ s.isUp 0 = true ∧ s.pcieOnly = false ∧ j.left ≠ 0 ∧ (s.stackUp (j.dpa / stackSpan) = true ↔ up = 2) ∧
        j.moved % 64 = 0 ∧ j.left % 64 = 0 ∧ (nth 0 j.words 0 + j.moved) % 64 = 0 ∧ (nth 0 j.words 1 + j.moved) % 64 = 0 ∧
        (bit (nth 0 j.words 2) 32 = true ↔ dir = 1) ∧ inOneStack 64 j.left = true ∧ LinesUnarmed s 64 j.left ∧ LinesSettled s 64 j.left ∧
        LinesIntact s 64 j.left) ∧
    (let s := tDma 0 0 0 [] []; Sound s ∧ s.jobs (3 : Fin 4) = [] ∧ s.serves 0 = true ∧ s.get Fld.CH_CFG.EN (3 : Fin 4) = 1) := by
  refine ⟨?_, ?_, ?_, ?_, ?_, ?_, ?_⟩ <;> decide

/-! Ethernet. -/

/-- Group 2 of devices 0 (this one) and 1, device 1 at address 0x0A000001, the first sublink of port 0 up, management on. -/
def tNet (l : List (Fld × Nat × Nat × Nat)) (qps : SMap Qp) : State :=
  let s := withRegs ([(Fld.GRP_CFG.MEMBERS, 2, 0, 2), (Fld.GRP_CFG.PART, 2, 0, 3), (allOf Reg.GRP_MAP, 2, 0, 0x0100),
    (Fld.ETH_DT0.ADDR0, 1, 0, 0x0A000001), (Fld.PORT_IP.IP, 0, 0, 0xFFFFFFFF), (Fld.PORT_STAT.UP, 0, 0, 1), (Fld.PORT_CFG.EN, 0, 0, 1),
    (Fld.ETH_TMO.RETRY, 0, 0, 1)] ++ l) tBase
  { s with net := { s.net with mgmt := true, qps := qps } }

theorem witness_PortsLinksAndGroups :
    (let s := tNet [] []; Sound s ∧ PortLive s 0 ∧ (s.get Fld.PORT_STAT.UP 0).testBit 0 = true ∧
      (s.get Fld.PORT_IP.IP 0 + 0) % 2 ^ 32 = (0xFFFFFFFF#32).toNat ∧ (∀ j, j < 4 → ¬ (s.get Fld.PORT_IP.IP 0 + j) % 2 ^ 32 = (9#32).toNat)) ∧
    (let s := { tNet [] [] with sec := { tBase.sec with loaded := List.replicate 6 true } };
      Sound s ∧ s.isUp ((0 : Fin 4) / 2) = true ∧ s.mod.power = .on ∧ nth true s.sec.loaded 5 = true ∧ s.get Fld.PORT_CFG.EN 0 = 1 ∧
        0 < [1, 2, 4, 1].getD (s.breakout 0) 1) ∧
    ((tNet [(Fld.PORT_STAT.UP, 0, 0, 0)] []).get Fld.PORT_STAT.UP 0 = 0 ∧ (tNet [] []).get Fld.PORT_STAT.TRAINING 0 = 0) ∧
    (let s := tNet [] []; (s.get Fld.PORT_STAT.UP 0).testBit 0 = true ∧ s.colls = [] ∧ s.net.qps = []) := by
  refine ⟨?_, ?_, ?_, ?_⟩ <;> decide

theorem witness_PortsLinksAndGroups_enable :
    (let s := tNet [] []; (Sound s ∧ s.serves 0 = true ∧ bit (0x80030002#64).toNat 31 = true ∧ s.get Fld.GRP_CFG.EN 2 = 0) ∧
      mayEnable s 2 (bits (0x80030002#64).toNat 6 0) (bits (0x80030002#64).toNat 13 8) (bits (0x80030002#64).toNat 19 16) ∧
      ¬ mayEnable s 2 (bits (0x80030001#64).toNat 6 0) (bits (0x80030101#64).toNat 13 8) (bits (0x80030001#64).toNat 19 16)) ∧
    tBase.get Fld.GRP_CFG.EN 2 = 0 ∧ (tNet [(Fld.GRP_CFG.EN, 2, 0, 1)] []).get Fld.GRP_CFG.EN 2 = 1 := by
  refine ⟨⟨by decide, ⟨by decide, by decide, by decide, by decide, ?_, by decide, by decide, ?_⟩, ?_⟩, by decide, by decide⟩
  · have h : ∀ i, i < 2 → ∀ j, j < 2 → i ≠ j → mapDev (tNet [] []) 2 i ≠ mapDev (tNet [] []) 2 j := by decide
    exact fun i j hi hj => h i hi j hj
  · have h : ∀ h, h < 16 → (tNet [] []).get Fld.GRP_CFG.EN h ≠ 1 := by decide
    exact fun x hx he => absurd he (h x hx)
  · rintro ⟨-, -, h, -⟩
    revert h
    decide

/-- A queue pair with two packets not acknowledged. -/
def tQp : Qp := { Qp.reset with next := 2, expect := 5, unacked := [(0, .ask 0 0), (1, .ask 0 1)] }

/-- The pair to rank 1 of group 2 over link 0 of die 0, and the management pair to device 1, both so. -/
def tPairs (x : Qp) : State := tNet [(Fld.GRP_CFG.EN, 2, 0, 1)] [(0x101, x), (0x1401, x)]

theorem witness_QueuePairs :
    (∀ q ∈ [0x101, 0x1401], let s := tPairs tQp;
      Sound s ∧ PortLive s 0 ∧ s.qpExists q = true ∧ (s.qp q).error = false ∧ (s.qp q).unacked ≠ [] ∧ (s.qp q).tries < s.get Fld.ETH_TMO.RETRY ∧ 0 < s.get Fld.ETH_TMO.RETRY ∧
        (s.qp q).unacked = [(0, .ask 0 0)] ++ ((1#24).toNat, .ask 0 1) :: [] ∧ (∀ e ∈ [(0, Msg.ask 0 0)], e.1 ≠ (1#24).toNat)) ∧
    (let s := (tPairs tQp).set Fld.TICK_COUNT.COUNT 100000000; Sound s ∧
      ∀ q ∈ [0x101, 0x1401], s.qpExists q = true ∧ (s.qp q).tries < s.get Fld.ETH_TMO.RETRY ∧ (s.qp q).unacked ≠ [] ∧
        (s.qp q).ccFrom + 1000 * s.get Fld.ETH_CC.TIMER_US ≤ s.now ∧ (s.qp q).ackFrom + 1000 * s.get Fld.ETH_TMO.ACK_TIMEOUT_US ≤ s.now) ∧
    (let s := (tPairs { tQp with tries := 1 }).set Fld.TICK_COUNT.COUNT 100000000;
      Sound s ∧ (s.qp 0x1401).ackFrom + 1000 * s.get Fld.ETH_TMO.ACK_TIMEOUT_US ≤ s.now ∧ s.qpExists 0x1401 = true ∧ (s.qp 0x1401).error = false ∧ (s.qp 0x1401).unacked ≠ [] ∧
        s.get Fld.ETH_TMO.RETRY ≤ (s.qp 0x1401).tries ∧ s.colls = [] ∧ s.net.fwd = [] ∧ (∀ c, c < 4 → s.jobs c = [])) ∧
    (let s := tPairs tQp; Sound s ∧ s.isUp 0 = true ∧ s.qpExists (0x100 + (1 : Fin 64)) = true ∧ s.qpExists 0x1401 = true) ∧
    (let s := (tPairs { tQp with error := true, errorAt := 0 }).set Fld.TICK_COUNT.COUNT 1000000;
      Sound s ∧ (s.qp 0x101).error = true ∧ (s.qp 0x101).errorAt + 1000000 ≤ s.now ∧ 0x101 < 0x1000) ∧
    (let s := (tPairs { tQp with error := true, errorAt := 0 }).set Fld.TICK_COUNT.COUNT 1;
      let t := { s with tick := { TickSt.reset with bound := 1, boundAt := 1 } };
      Sound t ∧ (t.qp 0x1401).error = true ∧ (t.qp 0x1401).errorAt < t.now ∧ t.atBoundary = true ∧
        t.stepDue (t.get Fld.GRP_CFG.PART ((0x1401 - 0x1000) / 0x200)) = true) := by
  refine ⟨?_, ?_, ?_, ?_, ?_, ?_⟩ <;> decide

/-- A packet for the management pair to device 1. -/
def tPacket (op : PktOp) (psn : BitVec 24) (ce : Bool) : Packet := { src := 0x0A000001, qpn := 0x101, psn := psn, op := op, ce := ce }

theorem witness_QueuePairs_receive :
    (let s := tPairs tQp; let k := tPacket .send 5 false;
      Sound s ∧ PortLive s 0 ∧ k.qpn.toNat < 65536 ∧ s.qpExists 0x101 = true ∧ (s.qp 0x101).error = false ∧ (s.qp 0x101).expect = 5 ∧
        0x101 < 0x1000 ∧ k.psn.toNat = 5) ∧
    (∀ op psn ce, Known (tPairs tQp) (tPacket op psn ce)) ∧
    (let s := tPairs tQp; s.get Fld.ETH_DT0.ADDR0 1 ≠ 0 ∧ ¬ Known s { tPacket .ack 0 false with src := 9 }) ∧
    ((5 + 2 ^ 24 - (4#24).toNat) % 2 ^ 24 < 2 ^ 23 ∧ (4#24).toNat ≠ 5 ∧ 2 ^ 23 ≤ (5 + 2 ^ 24 - (6#24).toNat) % 2 ^ 24) ∧
    ((tPairs tQp).qp 0x101).lastCnp = none ∧ (∀ e ∈ ((tPairs tQp).qp 0x101).unacked, e.1 ≠ (7#24).toNat) := by
  refine ⟨by decide, ?_, by decide, by decide, by decide, by decide⟩
  intro op psn ce
  exact ⟨(by decide : (0x0A000001#32) ≠ 0), 1, by decide, by decide, .inl (by decide : (tPairs tQp).get Fld.ETH_DT0.ADDR0 1 = (0x0A000001#32).toNat)⟩

/-! Collective phases. -/

/-- A one-dimensional descriptor of 64 FP16-width elements over group 2, sharded over axis A where shd is 1. -/
def tDist (base mode shd : Nat) : Nat :=
  base + 1 <<< 44 + mode <<< 50 + 1 <<< 62 + 64 <<< 64 + 2 <<< 448 + 1 <<< 456 + shd <<< 472

/-- A hand-off of core 0 for a GATHER whose descriptor lies at 0x3000. -/
def tPhase : CollPhase :=
  { die := 0, core := 0, part := 3, tag := 1, pc := 0x1000, dpa := 0x3000, item := none, started := false, began := 0, key := 0, op := 0
    group := 0, redop := 0, src := 0, dst := 0, scratch := 0, line := [], heard := [], arrived := [], got := [], put := false, readBy := [] }

/-- Partition 3 of group 2 in a step, with that hand-off waiting. -/
def tColl (cs : List CollPhase) : State :=
  { (tNet [(Fld.GRP_CFG.EN, 2, 0, 1), (Fld.STEP_STATE.STATE, 3, 0, 1)] []).setPart 3 { tPart with alm := some tAlm, openTick := 9 } with
    mem := cellsOf 0x3000 64 (1 + 2 <<< 4 + 0x3040 <<< 64 + 0x3080 <<< 128) ++ cellsOf 0x3040 64 (tDist 0x10000 0 1) ++
      cellsOf 0x3080 64 (tDist 0x20000 1 0)
    gran := [(3, { valid := 7, poison := 0, state := .opened, crc := 0 })], colls := cs }

/-- The phase once started. -/
def tPhaseOn : CollPhase :=
  { tPhase with started := true, key := 9, op := 1, group := 2, src := BitVec.ofNat 512 (tDist 0x10000 0 1)
                dst := BitVec.ofNat 512 (tDist 0x20000 1 0), line := [0, 1] }

/-- Whether the descriptors of a hand-off make a given phase. -/
def makes (s : State) (x y : CollPhase) : Bool := match (s.loadPhase x).1 with | .ok z => z == y | .error _ => false

theorem loadPhase_of (s : State) (x y : CollPhase) (h : makes s x y = true) : s.loadPhase x = (.ok y, (s.loadPhase x).2) := by
  unfold makes at h
  split at h
  · rename_i z e
    have : z = y := by simpa using h
    rw [← this, ← e]
  · exact absurd h (by simp)

theorem witness_CollectivePhases_start :
    let s := tColl [tPhase]; let u := (s.loadPhase tPhase).2;
      (Sound s ∧ s.isUp (0 : Fin 2) = true ∧ s.colls.find? (fun z => z.die == (0 : Fin 2).val && !z.started) = some tPhase ∧
        (s.colls.filter (fun z => z.die == (0 : Fin 2).val && z.started)).length < 8 ∧ (s.part tPhase.part).phase = .active ∧
        makes s tPhase tPhaseOn = true ∧
        (let v : State := { u with colls := u.colls.map (fun z => if z = tPhase then tPhaseOn else z) }
         (v.getImage ⟨.coll tPhaseOn.die, some tPhaseOn.part⟩ none tPhaseOn.part (v.localDesc tPhaseOn.srcD)).2.1 = none) ∧
        s.upLinks tPhaseOn.die ≠ [] ∧ s.phaseDown tPhaseOn = false ∧ s.net.pubs = [] ∧ tPhaseOn.heard = [] ∧ lineOthers s tPhaseOn ≠ [] ∧
        s.net.mgmt = true ∧ ∀ r, r ∈ lineOthers s tPhaseOn → (s.qp (0x100 + mapDev s tPhaseOn.group r)).error = false) ∧
        s.loadPhase tPhase = (.ok tPhaseOn, u) :=
  have h : makes (tColl [tPhase]) tPhase tPhaseOn = true := by decide
  ⟨by decide, loadPhase_of _ _ _ h⟩

theorem witness_CollectivePhases :
    (let s := tColl [tPhaseOn]; let pub : Publication := ⟨2, 1, 9, 1⟩;
      Sound s ∧ s.isUp (0 : Fin 2) = true ∧ s.phaseAt (0 : Fin 2) pub.group pub.tag = some tPhaseOn ∧ tPhaseOn.key = pub.btick.toNat ∧
        pub.rank.val ∉ tPhaseOn.heard ∧ pub.rank.val ∈ lineOthers s tPhaseOn ∧ 0 < s.needBytes tPhaseOn pub.rank ∧
        smGet [] tPhaseOn.got pub.rank = [] ∧ s.upLinks (0 : Fin 2) ≠ [] ∧ tPhaseOn.die = (0 : Fin 2).val ∧
        (tPhaseOn.key ≠ (8#48).toNat ∧ s.phaseAt (0 : Fin 2) 2 3 = none)) ∧
    (let x := { tPhaseOn with heard := [1], line := [0, 1, 2] }; let s := tColl [x];
      let k : Piece := ⟨2, 1, 1, 0, List.replicate 64 0⟩;
      Sound s ∧ s.isUp (0 : Fin 2) = true ∧ s.phaseAt (0 : Fin 2) k.group k.tag = some x ∧ k.rank.val ∈ x.heard ∧
        k.index ∉ smGet [] x.got k.rank ∧ 0 < Nat.min 65536 (s.needBytes x k.rank - 65536 * k.index) ∧
        k.data.length = Nat.min 65536 (s.needBytes x k.rank - 65536 * k.index) ∧ s.phaseDown x = false ∧ Map.sorted x.got = true ∧
        2 ∈ lineOthers s x ∧ 2 ∉ x.heard) ∧
    (let x := { tPhaseOn with heard := [1], put := true, readBy := [1] }; let s := tColl [x];
      Sound s ∧ s.isUp (0 : Fin 2) = true ∧ runningPhase s 0 0 = some x ∧ PhaseShaped x ∧ x.put = true ∧ (∀ r, r ∈ lineOthers s x → r ∈ x.readBy) ∧
        s.anyReq (fun q => q.agent = .coll (0 : Fin 2) && q.sluice == x.part) = false ∧ x.item = none) ∧
    (∀ item ∈ [none, some 0], let x := { tPhaseOn with item := item };
      let s := (tColl [x]).set Fld.TICK_COUNT.COUNT 4000000000;
      Sound s ∧ s.isUp (0 : Fin 2) = true ∧ runningPhase s 0 0 = some x ∧ PhaseShaped x ∧
        (lineOthers s x).find? (fun r => !x.heard.contains r) = some 1 ∧ x.began + 1000 * s.get Fld.ETH_TMO.COLL_TIMEOUT_US ≤ s.now ∧
        s.phaseAt (0 : Fin 2) (2 : Fin 16) (1 : Fin 4) = some x ∧ (1 : Fin 64).val ∈ lineOthers s x) := by
  refine ⟨?_, ?_, ?_, ?_⟩ <;> decide

/-! Votes and forwarded traffic. -/

/-- Partition 3 in the step of window 9, which votes through group 2 of three members at a rank, a time after its tick. -/
def tVote (rank now : Nat) (f : PartSt → PartSt) : State :=
  (tNet [(Fld.GRP_CFG.EN, 2, 0, 1), (Fld.GRP_CFG.MEMBERS, 2, 0, 3), (Fld.GRP_CFG.RANK, 2, 0, rank), (Fld.STEP_STATE.STATE, 3, 0, 1),
    (Fld.TICK_COUNT.COUNT, 0, 0, now)] []).setPart 3 (f { tPart with
      alm := some { tAlm with entries := [{ train := true, serve := false, hasColl := true, next := 0, tokMax := 0, seqMax := 0, items := [tItem] }] }
      phase := .ready, openTick := 9 })

theorem witness_GroupVotes :
    (∀ heard ∈ [[], [2]], let s := tVote 0 15000 (fun k => { k with heard := heard });
      Sound s ∧ Voting s 2 3 (9#48).toNat ∧ s.get Fld.GRP_CFG.RANK 2 = 0 ∧ (s.part 3).decision = none ∧
        (1 : Fin 64) ≠ 0 ∧ (1 : Fin 64).val < s.get Fld.GRP_CFG.MEMBERS 2 ∧ (s.part 3).phase = .ready ∧ ¬ CrossDie s 3 ∧
        (s.part 3).tickAt + 15000 ≤ s.now ∧
        ((∀ r, r < s.get Fld.GRP_CFG.MEMBERS 2 → 1 ≤ r → r = (1 : Fin 64).val ∨ r ∈ (s.part 3).heard) ↔ heard = [2])) ∧
    (let s := tVote 1 20000 id;
      Sound s ∧ Voting s 2 3 (9#48).toNat ∧ s.get Fld.GRP_CFG.RANK 2 ≠ 0 ∧ (s.part 3).decision = none ∧ (s.part 3).phase = .ready ∧
        ¬ CrossDie s 3 ∧ (s.part 3).inDoubt = false ∧ (s.part 3).tickAt + 20000 ≤ s.now) ∧
    (let s := tVote 1 20000 (fun k => { k with inDoubt := true, askAt := 20000 });
      Sound s ∧ Voting s 2 3 (bits (0x8001000000000009#64).toNat 47 0) ∧ (s.part 3).inDoubt = true ∧ (s.part 3).decision = none ∧
        (s.part 3).askAt ≤ s.now ∧ s.net.mgmt = true ∧ (s.qp (0x100 + mapDev s 2 0)).error = false ∧ s.serves 0 = true ∧ bit (0x8001000000000009#64).toNat 63 = true ∧
        bit (0x8001000000000009#64).toNat 48 = true ∧ bit (9#64).toNat 63 = false) ∧
    (∀ st ∈ [2, 4], let s := (tVote 0 15000 (fun k => { k with phase := .idle })).set Fld.STEP_STATE.STATE 3 st;
      Sound s ∧ LeaderIdle s 2 3 (9#48).toNat ∧ (2 : Fin 64) ≠ 0 ∧ (2 : Fin 64).val < s.get Fld.GRP_CFG.MEMBERS 2) := by
  refine ⟨?_, ?_, ?_, ?_⟩ <;> decide

/-- A forwarded message of device 1 for mailbox 63. -/
def tFwd (len : Nat) : FwdMsg := { dev := 1, src := 5, mailbox := 63, len := len, words := List.replicate 16 7 }

/-- The gateway of an Ethernet set with fields. -/
def tGate (l : List (Fld × Nat × Nat × Nat)) : State := tNet ([(Fld.ETH_DEV.MODE, 0, 0, 1)] ++ l) []

theorem witness_ForwardedMessagesAndDma :
    (∀ rcv ∈ [20, 21], let s := tGate [(Fld.MB_CFG.RCV, 63, 0, rcv)];
      let t := { s with dieUp := [true, false] };
      let u := { s with sec := { tBase.sec with upd := some { comp := 4, phase := 1, began := 0 } } };
      (Sound s ∧ s.isUp 0 = true ∧ s.qpExists (0x100 + (tFwd 16).dev) = true ∧ (s.qp (0x100 + (tFwd 16).dev)).error = false ∧
        s.get Fld.ETH_DEV.MODE = 1 ∧ s.get Fld.MB_CFG.RCV (tFwd 16).mailbox = rcv ∧ s.rcvDown rcv = false ∧ s.rcvDrains rcv = false ∧
        s.get Fld.R_PEEK.FULL (tFwd 16).mailbox = 0 ∧ ¬ ((tFwd 16).len < 8 ∨ 16 < (tFwd 16).len) ∧ ((tFwd 17).len < 8 ∨ 16 < (tFwd 17).len) ∧
        (tFwd 16).words.length = 16) ∧
        (rcv = 20 → Sound t ∧ t.isUp 0 = true ∧ t.rcvDown rcv = true) ∧ (rcv = 20 → Sound u ∧ u.rcvDown rcv = false ∧ u.rcvDrains rcv = true)) ∧
    (let s := tGate [(Fld.R_PEEK.FULL, 63, 0, 1), (Fld.MB_CFG.RCV, 63, 0, 21)]; Sound s ∧ s.rcvDown (s.get Fld.MB_CFG.RCV 63) = false ∧
      s.rcvDrains (s.get Fld.MB_CFG.RCV 63) = false ∧ s.get Fld.R_PEEK.FULL 63 = 1) ∧
    (let s := { tGate [] with net := { (tGate []).net with fwd := [5, 64] } }; Sound s ∧ s.net.fwd.Nodup ∧ 5 ∈ s.net.fwd ∧ 64 ∈ s.net.fwd) ∧
    (let s := tNet [(Fld.ETH_DEV.MODE, 0, 0, 2), (Fld.ETH_DEV.DEV_NUM, 0, 0, 1)] [];
      Sound s ∧ s.isUp 0 = true ∧ s.get Fld.ETH_DEV.MODE = 2 ∧ s.qpExists 0x100 = true ∧ (s.qp 0x100).error = false) ∧
    hdmaFails (tNet [(Fld.ETH_DEV.MODE, 0, 0, 2), (Fld.ETH_DEV.DEV_NUM, 0, 0, 1)] []) 1 0 (tDmaWord 64 0 1) 0 6 ∧
    hdmaFails (tNet [(Fld.ETH_DEV.MODE, 0, 0, 2), (Fld.ETH_DEV.DEV_NUM, 0, 0, 1)] []) 0 0 (tDmaWord 64 1 1) 0 0 ∧
    (∀ dir ∈ [0, 1], let j : HdmaJob := ⟨0, 0, 0, false, 1, true, [0x40, 0x80, tDmaWord 64 dir 1, 0]⟩;
      let s := { tGate [(Fld.CH_CFG.EN, 3, 0, 1)] with link := { tBase.link with jobs := [[], [], [], [j]] } };
      Sound s ∧ s.isUp 0 = true ∧ s.jobs (3 : Fin 4) = [j] ∧ j.awaits = true ∧ j.words.length = 4 ∧ (∀ w ∈ j.words, w < 2 ^ 64) ∧
        s.get Fld.CH_CFG.SIZE_LOG2 (3 : Fin 4) ≤ 15 ∧ bits (j.words.getD 2 0) 31 0 = 64 ∧ (bit (j.words.getD 2 0) 32 = true ↔ dir = 1) ∧
        s.net.mgmt = true ∧ (s.qp (0x100 + j.dev)).error = false) := by
  refine ⟨by decide, by decide, by decide, by decide, .inl ⟨.inr (.inl (by decide)), rfl⟩,
    .inr (.inr (.inr ⟨by decide, .inr ⟨0, 0, 63, by decide⟩, ?_, rfl⟩)), by decide⟩
  rintro ⟨h, -⟩
  revert h
  decide

/-! Power, thermal control and ageing. -/

/-- The block in a power state after a round of housekeeping, with fields. -/
def tHk (round : Nat) (l : List (Fld × Nat × Nat × Nat)) : State :=
  let s := withRegs l tBase
  { s with power := { s.power with round := round } }

theorem witness_PowerAndThermalControl :
    (let s := withRegs [(Fld.TICK_COUNT.COUNT, 0, 0, tBase.tick.boundAt + 40000)] { tBase with power := { tBase.power with dies := tBase.power.dies.map (fun d => { d with ramp := some 7 }) } };
      Sound s ∧ s.isUp (1 : Fin 2) = true ∧ s.get Fld.PWR_DIE.EMERG (1 : Fin 2) = 0 ∧ (s.dpower (1 : Fin 2)).ramp = some 7 ∧
        s.tick.boundAt + Nat.min 40000 (100 * (s.get Fld.PWR_VT.V_MV (1 : Fin 2) 7 - s.get Fld.PWR_VT.V_MV (1 : Fin 2) (s.get Fld.PWR_DIE.OPP (1 : Fin 2)))) ≤ s.now) ∧
    (let s := tBase; Sound s ∧ s.isUp 0 = true ∧ s.isUp (1 : Fin 2) = true ∧ s.mod.power = .on ∧
      0 ≤ 1000 * s.get Fld.PWR_CFG.FAST_W ∧ 1000 * s.get Fld.PWR_CFG.FAST_W < 1000 * s.get Fld.PWR_CFG.FAST_W + 1) ∧
    (let s := tHk 0 []; Sound s ∧ s.mod.power = .on ∧ s.power.round = 0 ∧
      (([⟨0, 400⟩, ⟨255, 400⟩, ⟨113, 0x7000⟩] : List HkReading).map (fun r => r.channel)).Nodup) ∧
    (let s := (tHk 1 []).set Fld.TICK_COUNT.COUNT 8000000; let T := s.get Fld.THERM_CFG.DIE_EMERG_C;
      let u := entered s [⟨31, BitVec.ofNat 16 (16 * T)⟩, ⟨111, BitVec.ofNat 16 (16 * s.get Fld.THERM_CFG.STK_EMERG_C)⟩];
      Sound s ∧ s.power.roundAt + 8000000 ≤ s.now ∧ s.isUp (1 : Fin 2) = true ∧ s.compDown (3 + (1 : Fin 2)) = false ∧ 1 ≤ s.power.round ∧ NoneOff u ∧ HotDie u (1 : Fin 2) (s.get Fld.THERM_CFG.DIE_THR_C) ∧
        HotDie u (1 : Fin 2) T ∧ HotStack u 19 (s.get Fld.THERM_CFG.STK_EMERG_C)) ∧
    (let s := tHk 1 [(Fld.STEP_STATE.STATE, 3, 0, 1), (Fld.TICK_COUNT.COUNT, 0, 0, 8000000)];
      let u := entered s [⟨0, BitVec.ofNat 16 (16 * s.get Fld.THERM_CFG.DIE_OFF_C)⟩];
      Sound s ∧ s.mod.power = .on ∧ s.power.roundAt + 8000000 ≤ s.now ∧ s.isUp 0 = true ∧ s.compDown 3 = false ∧ HotDie u 0 (s.get Fld.THERM_CFG.DIE_OFF_C)) ∧
    (∀ v ∈ [85 * 16, 85 * 16 + 1], let s := withRegs [(Fld.THERM_STAT.HOLD, 0, 0, 1), (Fld.HK_CH.VALID, 31, 0, 1), (Fld.HK_CH.VALUE, 31, 0, v)] tBase;
      Sound s ∧ s.mod.power.clocked = true ∧ s.get Fld.THERM_STAT.HOLD = 1 ∧
        (((∀ c, c < 32 → s.get Fld.HK_CH.VALID c = 1 → toSigned 16 (s.get Fld.HK_CH.VALUE c) ≤ 85 * 16) ∧
          ∀ c, c < 112 → 32 ≤ c → s.get Fld.HK_CH.VALID c = 1 → toSigned 16 (s.get Fld.HK_CH.VALUE c) ≤ 80 * 16) ↔ v = 85 * 16)) := by
  refine ⟨?_, ?_, ?_, ?_, ?_, ?_⟩ <;> decide

theorem witness_ReckoningClaims :
    (let s := withRegs [(Fld.AGE_CFG.INTERVAL_H, 0, 0, 24), (Fld.AGE_STAT.HOURS, 0, 0, 24)] tBase;
      Sound s ∧ s.serves 0 = true ∧ s.get Fld.AGE_CFG.INTERVAL_H + s.get Fld.AGE_LAST.HOURS ≤ s.get Fld.AGE_STAT.HOURS ∧
        s.get Fld.AGE_STAT.STATE = 0 ∧ s.get Fld.LEAP_CLAIM.PENDING = 0 ∧ s.get Fld.LEAP_CTRL.STATE = 0 ∧
        s.sec.flash.hours + 24 ≤ s.get Fld.AGE_STAT.HOURS ∧
        ∀ c, c < 32 → s.get Fld.HK_CH.VALID c = 1 → 80 ≤ toSigned 16 (s.get Fld.HK_CH.VALUE c) ∧ toSigned 16 (s.get Fld.HK_CH.VALUE c) ≤ 1360) ∧
    (let s := withRegs [(Fld.AGE_STAT.STATE, 0, 0, 1)] tBase; Sound s ∧ s.serves 0 = true ∧ s.get Fld.AGE_STAT.STATE ≠ 0) := by
  refine ⟨?_, ?_⟩ <;> decide

/-! The assay die, and the messages of the device's processors. -/

/-- A delivered message in mailbox 63 for a receiver: its words, its sender, fields. -/
def tMsg (rcv sender : Nat) (words : List Nat) (l : List (Fld × Nat × Nat × Nat)) : State :=
  { withRegs ([(Fld.MB_CFG.RCV, 63, 0, rcv), (Fld.R_PEEK.FULL, 63, 0, 1), (Fld.R_PEEK.SENDER, 63, 0, sender)] ++
      (List.range words.length).map (fun i => (Fld.MB_DATA.DATA, 63, i, nth 0 words i)) ++ l) tBase with delivered := [63] }

/-- The assay die changed. -/
def tAsy (f : AsySt → AsySt) (l : List (Fld × Nat × Nat × Nat)) : State :=
  { withRegs l tBase with asy := f tBase.asy, tick := { TickSt.reset with bound := 1 } }

/-- A closed tick of base tick 7. -/
def tTick : AsyTick :=
  { t := 7, nj := 97500000, dur := 500000, range := false, tempOut := false, fault := false, w0 := none, w1 := none
    share := List.replicate 16 0, resident := List.replicate 16 false, gap := none }

theorem witness_AssayDie_marks :
    (∀ gap : Bool, let s := tAsy (fun k => { k with on := true, cur := some 9, gap := gap, ticks := [tTick], recTicks := 8 }) [];
      Sound s ∧ s.asy.on = true ∧ s.mod.power = .on ∧ s.tick.bound = s.get Fld.BTICK_NUM.NUM + 1 ∧ s.tick.boundAt = s.get Fld.TICK_COUNT.COUNT ∧
        s.asy.cur = some 9 ∧ 9 ≠ s.get Fld.BTICK_NUM.NUM ∧ s.asy.gap = gap ∧
        ¬ s.asy.markAt + 2 * assayPeriod s < s.get Fld.TICK_COUNT.COUNT ∧ s.asy.ticks = [tTick] ∧ tTick.t < 2 ^ 48 ∧
        tTick.nj < 2 ^ 64 ∧ 1 ≤ s.asy.recTicks ∧ s.asy.filling = none ∧ (tTick.t + 1) % s.asy.recTicks = 0 ∧
        s.get Fld.ASY_E_TOTAL.MJ + (s.asy.njLeft + 1000000) / 1000000 < 2 ^ 64) ∧
    (let s := tAsy (fun k => { k with on := true, cur := some 9, ticks := [], recTicks := 8 }) []; Sound s ∧ s.asy.ticks = []) ∧
    (let s := tAsy (fun k => { k with on := true, cur := some 9, period := 500000 }) [(Fld.TICK_COUNT.COUNT, 0, 0, 1000001)];
      let s := { s with tick := { s.tick with boundAt := 1000001 } };
      Sound s ∧ s.tick.boundAt = s.get Fld.TICK_COUNT.COUNT ∧ s.asy.cur = some 9 ∧ s.asy.markAt + 2 * assayPeriod s < s.get Fld.TICK_COUNT.COUNT) ∧
    (∀ f ∈ [none, some (tBase.asy.newRecord 6)],
      let s := tAsy (fun k => { k with on := true, cur := some 9, ticks := [{ tTick with t := 6, w0 := some [], w1 := some [] }], filling := f, recTicks := 8 }) [];
      Sound s ∧ s.asy.filling = f ∧ (({ tTick with t := 6 } : AsyTick).t + 1) % s.asy.recTicks ≠ 0) ∧
    (let s := tAsy (fun k => { k with on := true, gap := false, cur := some 9 }) [(Fld.TICK_COUNT.COUNT, 0, 0, 2 ^ 40)];
      s.asy.on = true ∧ s.asy.gap = false ∧ s.asy.cur ≠ none ∧
        s.asy.markAt + 2 * assayPeriod s ≤ s.get Fld.TICK_COUNT.COUNT) ∧
    (let s := tAsy id []; s.get Fld.TICK_COUNT.COUNT < s.asy.markAt + 2 * assayPeriod s) ∧
    (∀ x ∈ [tTick, { tTick with w0 := some [], w1 := some [] }], let s := tAsy (fun k => { k with on := true, ticks := [x] }) [];
      let w := List.replicate 16 (2 ^ 40 - 1);
      s.asy.on = true ∧ s.isUp (0 : Fin 2) = true ∧ s.isUp (1 : Fin 2) = true ∧ s.asy.ticks = [x] ∧ w.length = 16 ∧ (∀ v ∈ w, v < 2 ^ 40) ∧
        ¬ InletOut s ∧ InletOut (withRegs [(Fld.HK_CH.VALID, 249, 0, 1), (Fld.HK_CH.VALUE, 249, 0, 721)] s) ∧
        (x.w0 = none ↔ x = tTick) ∧ (x.w1 = none ↔ x = tTick)) ∧
    (let s := tAsy (fun k => { k with on := true, figs := [(7, List.replicate 17 1, true)] }) [];
      Sound s ∧ s.asy.on = true ∧ s.isUp 0 = true ∧ s.asy.figs = (7, List.replicate 17 1, true) :: []) := by
  refine ⟨?_, ?_, ?_, ?_, ?_, ?_, ?_, ?_⟩ <;> decide

theorem oldest_tMsg (rcv sender code : Nat) (words : List Nat) (l : List (Fld × Nat × Nat × Nat)) (known : List Nat)
    (h : (tMsg rcv sender words l).get Fld.MB_CFG.RCV 63 = rcv ∧ (tMsg rcv sender words l).get Fld.MB_DATA.DATA 63 0 % 65536 = code) :
    Oldest (tMsg rcv sender words l) rcv known code 63 :=
  ⟨[], [], rfl, fun _ hk => absurd hk (List.not_mem_nil), h⟩

theorem witness_AssayDie_rings :
    (∀ e ∈ [(0x0000, 0x404), (0x6000, 0x403), (0x5000, 0x404)], let s := tMsg 19 e.1 [0x0A01, 0x1000, 0x2000, e.2] [];
      (Sound s ∧ s.get Fld.MB_CFG.RCV 63 = 19 ∧ s.get Fld.MB_DATA.DATA 63 0 % 65536 = 0x0A01 ∧ s.get Fld.R_PEEK.FULL 63 = 1 ∧ ReplyFree s 38 ∧
        s.isUp 0 = true ∧ s.compDown 3 = false ∧ (Permitted s 63 ↔ e.1 ≠ 0x5000)) ∧
        (arg s 63 1 % 4096 = 0 ∧ arg s 63 2 % 4096 = 0 ∧ 4 ≤ arg s 63 3 / 256 % 16 ∧ (4 ≤ arg s 63 3 % 16 ↔ e.2 = 0x404)) ∧
        (s.asy.recQ = [] ∧ s.asy.tickQ = [])) ∧
    PmCommand (tMsg 19 0 [0x0A01, 0x1000, 0x2000, 0x404] []) 0x0A01 63 := by
  refine ⟨by decide, ⟨oldest_tMsg _ _ _ _ _ _ ?_, ?_, ?_, ?_⟩, ?_, ?_⟩ <;> decide

theorem witness_AssayDie_seals :
    (∀ att : Bool, let s := tAsy (fun k => { k with on := true, sealing := none, attached := att }) [];
      Sound s ∧ s.asy.on = true ∧ s.asy.sealing = none ∧ s.asy.attached = att) ∧
    (let s := tAsy (fun k => { k with on := true, sealing := some ⟨3, 0, 0, 0, 0⟩ }) []; Sound s ∧ s.asy.sealing ≠ none) ∧
    (let s := tAsy (fun k => { k with on := false, lost := true }) []; Sound s ∧ s.asy.lost = true) ∧
    (let s := tAsy (fun k => { k with on := false, lost := false }) []; Sound s ∧ s.asy.on = false ∧ s.asy.lost = false) ∧
    (∀ e ∈ [(⟨1, 5, 6, 0, 0⟩ : SealEvent), ⟨2, 5, 6, 7, 8⟩, ⟨3, 0, 0, 0, 0⟩, ⟨4, 0, 0, 0, 0⟩], ∀ n ∈ [0, 1024],
      let s := tAsy (fun k => { k with on := true, sealing := some e, slog := List.replicate n [] }) [];
      Sound s ∧ s.asy.on = true ∧ s.asy.sealing = some e ∧ e.event < 16 ∧ s.asy.count < 2 ^ 32 ∧ s.asy.rings = none ∧ s.asy.slog.length = n) ∧
    AssayFlashOk tBase := by
  refine ⟨?_, ?_, ?_, ?_, ?_, ?_⟩
  · decide
  · decide
  · decide
  · decide
  · decide
  · rintro c (rfl | rfl) <;> decide

/-! The security core, firmware updates and the debug chain. -/

/-- A command of the security core, which runs, in mailbox 63. -/
def tSec (sender : Nat) (words : List Nat) (l : List (Fld × Nat × Nat × Nat)) : State := tMsg 21 sender words ((Fld.SEC_STATE.STATE, 0, 0, 1) :: l)

theorem command_of (s : State) (code : Nat) (hd : s.delivered = [63])
    (h : s.get Fld.MB_CFG.RCV 63 = 21 ∧ s.get Fld.MB_DATA.DATA 63 0 % 65536 = code ∧ s.get Fld.R_PEEK.FULL 63 = 1 ∧ ReplyFree s 41 ∧
      s.isUp 0 = true ∧ s.get Fld.SEC_STATE.STATE = 1) : SecCommand s code 63 :=
  ⟨⟨⟨[], [], hd, fun _ hk => absurd hk (List.not_mem_nil), h.1, h.2.1⟩, h.2.2.1, by decide, h.2.2.2.1⟩, h.2.2.2.2.1, .inl h.2.2.2.2.2⟩

theorem witness_SecurityCore_quotes :
    (∀ code ∈ [0x0101, 0x0103, 0x0201, 0x0202, 0x0301, 0x0302], ∀ sender ∈ [0x6000, 0x5000], let s := tSec sender [code] [];
      Sound s ∧ s.get Fld.MB_CFG.RCV 63 = 21 ∧ s.get Fld.MB_DATA.DATA 63 0 % 65536 = code ∧ s.get Fld.R_PEEK.FULL 63 = 1 ∧ ReplyFree s 41 ∧
        s.isUp 0 = true ∧ s.get Fld.SEC_STATE.STATE = 1 ∧ (Permitted s 63 ↔ sender = 0x6000)) ∧
    (∀ ok, ok < 2 → let s := tSec 0 [0x0101] [(Fld.SEC_STATE.ID_OK, 0, 0, ok)]; Sound s ∧ Permitted s 63 ∧ s.get Fld.SEC_STATE.ID_OK = ok) ∧
    SecCommand (tSec 0 [0x0101] []) 0x0101 63 := by
  refine ⟨by decide, by decide, command_of _ 0x0101 rfl (by decide)⟩

/-- A STAGE of 8 MiB at unit 100 of stack 0 for component 5, and one of a byte that no stack has. -/
def tStage : List Nat := [0x0201, 100 * 0x200000, 0x800000, 5]

theorem noOwner (s : State) (h : ∀ p, p < 16 → (s.part p).ranges = []) (p st u : Nat) (hp : p < 16) : s.owns p st u = false := by
  unfold State.owns
  rw [h p hp]
  rfl

theorem witness_SecurityCore_stage :
    (let s := tSec 0 tStage [];
      (Sound s ∧ Permitted s 63 ∧ s.sec.stage = none ∧ s.sec.upd = none ∧ arg s 63 1 = 100 * 0x200000 ∧ arg s 63 2 = 0x800000 ∧ arg s 63 3 = 5 ∧
        s.flashOk = true ∧ s.stackUp (arg s 63 1 / stackSpan) = true) ∧ FreeUnits s (100 * 0x200000) 0x800000 ∧
        ∀ i, i < 0x800000 → Intact s (100 * 0x200000 + i) ∧ Unarmed s (100 * 0x200000 + i)) ∧
    (let s := tSec 0 [0x0201, 0x20000000000, 1, 5] []; Sound s ∧ ¬ FreeUnits s 0x20000000000 1) ∧
    (let s := tSec 0 tStage [(Fld.HK_CH.VALID, 0, 0, 1), (Fld.HK_CH.VALUE, 0, 0, 1361)]; Sound s ∧ s.flashOk = false) ∧
    (let r : StageRun := ⟨0x0201, 5, ⟨7, true, 9⟩⟩;
      let s := { tBase with sec := { tBase.sec with stage := some r } };
      Sound s ∧ s.isUp 0 = true ∧ s.sec.stage = some r ∧ r.comp < 6 ∧ ReplyFree s 41) := by
  refine ⟨⟨by decide, ⟨0, 100 * 0x200000, by decide, by decide, by decide, ?_⟩, ?_⟩, ⟨by decide, ?_⟩, by decide, by decide⟩
  · intro u _
    refine ⟨fun p hp => noOwner _ (by decide) p 0 u hp, fun q hq h => ?_⟩
    have : ∀ q, q < 32 → (tSec 0 tStage []).get Fld.REG_STAT.STATE q = 0 := by decide
    exact absurd (this q hq) h
  · intro i hi
    have g := good_of (tSec 0 tStage []) 0 (100 * 0x200000) 0x800000 rfl rfl (fun _ h => absurd h (List.not_mem_nil)) (by decide) (by decide)
      (by decide) (by decide) (by decide) i hi
    exact g.2
  · rintro ⟨st, o, h1, h2, h3, -⟩
    have h : 0x20000000000 = st * 0x1800000000 + o := h2
    omega

/-- Component 5 with an image in its second slot. -/
def tSlot (img : Option Image) : SecSt := { tBase.sec with flash := { tBase.sec.flash with slots := setNth tBase.sec.flash.slots 11 img } }

theorem witness_SecurityCore_activate :
    (let s := tSec 0 [0x0202, 6] []; Sound s ∧ Permitted s 63 ∧ 5 < arg s 63 1) ∧
    (let s := { tSec 0 [0x0202, 5] [] with sec := tSlot (some ⟨7, true, 9⟩) };
      Sound s ∧ Permitted s 63 ∧ arg s 63 1 = (5 : Fin 6) ∧ s.sec.stage = none ∧ s.sec.upd = none ∧ Startable s 5 ⟨7, true, 9⟩ ∧
        s.get Fld.LEAP_CLAIM.PENDING = 0 ∧ s.get Fld.LEAP_CTRL.STATE = 0 ∧ 1 ≤ s.get Fld.TICK_PERIOD.PERIOD_US) ∧
    (let s := tSec 0 [0x0202, 5] []; Sound s ∧ arg s 63 1 = (5 : Fin 6) ∧ ∀ x, ¬ Startable s 5 x) ∧
    (let s := { tSec 0 [0x0202, 0] [] with sec := { tBase.sec with flash := { tBase.sec.flash with
        slots := setNth tBase.sec.flash.slots 1 (some ⟨7, true, 9⟩) } } };
      Sound s ∧ arg s 63 1 = (0 : Fin 6) ∧ Startable s 0 ⟨7, true, 9⟩) ∧
    (let s := { tSec 0 [0x0202, 5] [] with sec := { tBase.sec with upd := some ⟨4, 0, 0⟩ } };
      Sound s ∧ Permitted s 63 ∧ arg s 63 1 ≤ 5 ∧ s.sec.upd ≠ none) ∧
    SecCommand (tSec 0 [0x0202, 6] []) 0x0202 63 := by
  refine ⟨by decide, by decide, ⟨by decide, by decide, ?_⟩, by decide, by decide,
    command_of _ 0x0202 rfl (by decide)⟩
  rintro x ⟨-, -, h⟩
  have e : nth none (tSec 0 [0x0202, 5] []).sec.flash.slots
      (2 * (5 : Fin 6) + (if ((tSec 0 [0x0202, 5] []).get Fld.SEC_SLOT.ACTIVE).testBit (5 : Fin 6) then 0 else 1)) = none := by decide
  rw [e] at h
  cases h

theorem witness_SecurityCore_updates :
    (let s := { withRegs [(Fld.LEAP_CTRL.STATE, 0, 0, 2)] tBase with
        tick := { TickSt.reset with claimed := true, work := [4] }, sec := { tSlot none with upd := some ⟨4, 0, 0⟩ } };
      Sound s ∧ s.isUp 0 = true ∧ s.sec.upd = some ⟨4, 0, 0⟩ ∧ s.get Fld.LEAP_CTRL.STATE = 2 ∧ s.tick.claimed = true ∧ 4 ∈ s.tick.work) ∧
    (let s := { tBase with sec := { tBase.sec with upd := some ⟨4, 1, 0⟩ } }; Sound s ∧ s.isUp 0 = true ∧ s.sec.upd = some ⟨4, 1, 0⟩) ∧
    (let s := { withRegs [(Fld.TICK_COUNT.COUNT, 0, 0, 10000000)] tBase with sec := { tSlot (some ⟨7, true, 9⟩) with upd := some ⟨5, 3, 0⟩ } };
      Sound s ∧ s.isUp 0 = true ∧ s.sec.upd = some ⟨5, 3, 0⟩ ∧ Startable s 5 ⟨7, true, 9⟩ ∧ s.get Fld.TICK_COUNT.COUNT ≤ 0 + 10000000 ∧
        nth none s.sec.flash.slots (2 * (5 : Fin 6) + (if (s.get Fld.SEC_SLOT.ACTIVE).testBit (5 : Fin 6) then 1 else 0)) = some ⟨0, true, 0⟩ ∧
        0 + 10000000 ≤ s.get Fld.TICK_COUNT.COUNT) := by
  refine ⟨?_, ?_, ?_⟩ <;> decide

theorem witness_SecurityCore_registers :
    (∀ a ∈ [2 ^ 28, 4], let s := tSec 0 [0x0301, a] []; Sound s ∧ Permitted s 63 ∧ (2 ^ 28 ≤ arg s 63 1 ∨ arg s 63 1 % 8 ≠ 0)) ∧
    (let s := { tSec 0 [0x0301, Reg.FP_FLAGS.off 11 0] [] with dieUp := [true, false] };
      Sound s ∧ regAt (arg s 63 1) = some (Reg.FP_FLAGS, 11, 0) ∧ s.csrUp (arg s 63 1) = false) ∧
    (let s := tSec 0 [0x0301, Reg.IDX_OOB.off 11 0] [];
      Sound s ∧ Permitted s 63 ∧ arg s 63 1 < 2 ^ 28 ∧ arg s 63 1 % 8 = 0 ∧ regAt (arg s 63 1) = some (Reg.IDX_OOB, 11, 0) ∧
        Reg.IDX_OOB.base ∉ liveBases ∧ Reg.IDX_OOB.base ∉ messageBases ∧ s.csrUp (arg s 63 1) = true) ∧
    (let s := tSec 0 [0x0302, Reg.ERR_REPAIR_CRC.off 0 0, 5] [];
      Sound s ∧ Permitted s 63 ∧ arg s 63 1 < 2 ^ 28 ∧ arg s 63 1 % 8 = 0 ∧ regAt (arg s 63 1) = some (Reg.ERR_REPAIR_CRC, 0, 0) ∧
        Reg.ERR_REPAIR_CRC.base ∉ actingBases ∧ Reg.ERR_REPAIR_CRC.base ∉ messageBases ∧ ¬ inAssay Reg.ERR_REPAIR_CRC ∧ s.csrUp (arg s 63 1) = true) ∧
    (let s := tBase; Sound s ∧ nth false s.dieUp 0 = true ∧ s.mod.power.clocked = true ∧ s.get Fld.SEC_DBG.ACTIVE = 0) ∧
    (let s := withRegs [(Fld.SEC_DBG.ACTIVE, 0, 0, 1)] tBase; Sound s ∧ s.get Fld.SEC_DBG.ACTIVE = 1 ∧ s.isUp (dieOfCore (11 : Fin 12)) = true) ∧
    SecCommand (tSec 0 [0x0302, 5, 6] []) 0x0302 63 := by
  refine ⟨by decide, by decide, by decide, by decide, by decide, by decide,
    command_of _ 0x0302 rfl (by decide)⟩

/-! Power states and resets. -/

theorem pm_of (s : State) (code : Nat) (hd : s.delivered = [63])
    (h : s.get Fld.MB_CFG.RCV 63 = 19 ∧ s.get Fld.MB_DATA.DATA 63 0 % 65536 = code ∧ s.get Fld.R_PEEK.FULL 63 = 1 ∧ ReplyFree s 38 ∧
      s.compDown 3 = false ∧ (s.isUp 0 = true ∨ nth false s.dieUp 0 = true ∧ (s.mod.power = .leaving 1 ∨ s.mod.power = .leaving 2))) :
    PmServed s code 63 :=
  ⟨⟨⟨[], [], hd, fun _ hk => absurd hk (List.not_mem_nil), h.1, h.2.1⟩, h.2.2.1, by decide, h.2.2.2.1⟩, h.2.2.2.2.1, h.2.2.2.2.2⟩

/-- ENTER or RESET in mailbox 63. -/
def tPm (sender : Nat) (words : List Nat) (l : List (Fld × Nat × Nat × Nat)) : State := tMsg 19 sender words l

theorem witness_PowerStatesAndResets_enter :
    (∀ e ∈ [(0, 0x6001, 2, 9), (0, 0x5000, 1, 0), (0, 0x0000, 3, 9), (1, 0x0000, 1, 0), (4, 0x0000, 3, 0)],
      let s := tPm e.2.1 [0x0B01, e.2.2.1, e.2.2.2] [(Fld.STEP_STATE.STATE, 3, 0, e.1)];
      (Sound s ∧ (Permitted s 63 ↔ e.2.1 ≠ 0x5000)) ∧
        ((arg s 63 1 % 4 = 0 ∨ arg s 63 1 % 4 = 3 ∧ arg s 63 2 % 2 ^ 48 ≠ 0) ↔ e.2.2 = (3, 9)) ∧ (MayEnter s ↔ e.1 ≠ 1)) ∧
    PmServed (tPm 0x6001 [0x0B01, 2, 9] []) 0x0B01 63 ∧
    (let s := tPm 0 [0x0B01, 2, 9] []; let t := { s with mod := { s.mod with power := .leaving 2 } };
      Sound t ∧ PmServed t 0x0B01 63 ∧ ¬ MayEnter t) := by
  refine ⟨by decide, pm_of _ 0x0B01 rfl (by decide), by decide, pm_of _ 0x0B01 rfl (by decide), by decide⟩

theorem witness_PowerStatesAndResets_reset :
    (∀ scope, scope < 4 → let s := tPm 0 [0x0B02, scope] [];
      Sound s ∧ Permitted s 63 ∧ arg s 63 1 % 4 = scope ∧ (∀ d, d < 2 → nth false s.dieUp d = true) ∧ s.mod.power.clocked = true) ∧
    (let s := tPm 0x5000 [0x0B02, 1] []; Sound s ∧ ¬ Permitted s 63) ∧ PmServed (tPm 0 [0x0B02, 3] []) 0x0B02 63 := by
  refine ⟨by decide, by decide, pm_of _ 0x0B02 rfl (by decide)⟩

/-- The block in a power state. -/
def tPower (m : PowerMode) (l : List (Fld × Nat × Nat × Nat)) : State :=
  let s := withRegs l tBase
  { s with mod := { s.mod with power := m, wakeAt := 9 } }

theorem witness_PowerStatesAndResets_dormancy :
    (∀ dest, dest < 4 → let s := tPower (.entering dest) []; Sound s ∧ s.mod.power = .entering dest) ∧
    (∀ n ∈ [1, 2], ∀ m ∈ [PowerMode.asleep n, .entering n, .on], (tPower m []).mod.power = m) ∧
    (let s := tPower (.asleep 1) [(Fld.BTICK_NUM.NUM, 0, 0, 9)]; 1 ≤ s.mod.wakeAt ∧ s.mod.wakeAt ≤ s.get Fld.BTICK_NUM.NUM) ∧
    (let s := tPower (.asleep 1) [(Fld.BTICK_NUM.NUM, 0, 0, 8)]; s.get Fld.BTICK_NUM.NUM < s.mod.wakeAt) ∧
    (let s := { tPower (.leaving 1) [(Fld.PORT_CFG.EN, 3, 0, 1)] with sec := { tBase.sec with loaded := List.replicate 6 true } };
      Sound s ∧ s.mod.power = .leaving 1 ∧ s.get Fld.PORT_CFG.EN (3 : Fin 4) = 1 ∧ nth true s.sec.loaded 5 = true) ∧
    (let s := { tPower (.leaving 2) [] with sec := { tBase.sec with measured := tBase.sec.flash.digests } };
      Sound s ∧ s.mod.power = .leaving 2 ∧ s.sec.flash.digests = s.sec.measured) ∧
    (let s := { tPower (.leaving 2) [] with sec := { tBase.sec with measured := List.replicate 12 5 } };
      Sound s ∧ s.mod.power = .leaving 2 ∧ s.sec.flash.digests ≠ s.sec.measured) := by
  refine ⟨?_, ?_, ?_, ?_, ?_, ?_, ?_⟩ <;> decide

theorem witness_PowerStatesAndResets_dies :
    (let s := tBase; Sound s ∧ (∀ d, d < 2 → nth false s.dieUp d = true ∧ s.isUp d = true) ∧ s.mod.power.clocked = true ∧
      s.mod.power.warmable = true) ∧
    (∀ e ∈ [(2, true), (3, false)], let x : ResetRun := ⟨e.1, 4, 9, 0x8008, 0, 0, 0⟩;
      let s := { withRegs [(Fld.STK_STATUS.STATE, 19, 0, 3)] tBase with
        dieUp := [e.2, false], mod := { tBase.mod with resets := [x] }, link := { tBase.link with active := true } };
      Sound s ∧ s.mod.resets = [x] ∧ nth true s.dieUp (1 : Fin 2) = false ∧
        (x.scope = (1 : Fin 2) + 1 ∧ nth false s.dieUp (1 - (1 : Fin 2)) = true ∨ x.scope = 3) ∧ x.cause < 16 ∧ x.ended < 2 ^ 16 ∧ x.btick < 2 ^ 48 ∧
        s.mod.power.clocked = true ∧ s.get Fld.THERM_STAT.HOLD = 0 ∧ s.mod.idlTest = false ∧ s.asy.rings = none ∧ s.link.active = true ∧
        ReplyFree s 34 ∧ ((List.range 16).filter (fun p => x.ended.testBit p)).length ≤ 13 ∧
        (∀ p, p < 16 → (nth ⟨0, 0, 0⟩ s.mod.stamps p).gen < 2 ∧ (nth ⟨0, 0, 0⟩ s.mod.stamps p).copy < 2)) := by
  refine ⟨?_, ?_⟩ <;> decide

/-! Bring-up and test. -/

/-- Stack 19 with a row of bank 1023 on spare 15. -/
def tSpare : State :=
  let s := withRegs [(Fld.STK_STATUS.STATE, 19, 0, 2)] tBase
  s.setStack 19 { s.stack 19 with remap := [(32768 * 1023 + 5, 16)] }

theorem witness_RepairTestAndLoopback_repairs :
    (let s := tSpare; Sound s ∧ s.serves (dieOfStack (19 : Fin 20)) = true) ∧
    (∀ e ∈ [(5, 15), (24575, 14), (24551, 14)], let w := (BitVec.ofNat 64 (31 + 31 <<< 5 + e.1 <<< 10 + e.2 <<< 25 + 1 <<< 63)).toNat;
      bits w 63 63 = 1 ∧ bits w 24 10 = e.1 ∧ e.1 < 24576 ∧ bits w 30 30 = 0 ∧ (e.1 < 24552 ↔ e.1 ≠ 24575) ∧
        (SpareUsed tSpare 19 (32 * bits w 4 0 + bits w 9 5) (bits w 28 25) ↔ e.2 = 15)) ∧
    (let w := (0xC000000000000000#64).toNat; bits w 63 63 = 1 ∧ bits w 30 30 = 0) ∧
    (let w := (0x8000000040000000#64).toNat; bits w 63 63 = 1 ∧ bits w 30 30 = 1) := by
  refine ⟨?_, ?_, ?_, ?_⟩ <;> decide

theorem free_tBase (k : Nat) : ¬ StackTaken tBase k := by
  rintro ⟨u, ⟨p, hp, h⟩ | ⟨q, hq, h, -⟩⟩
  · rw [noOwner tBase (by decide) p k u hp] at h
    cases h
  · have : ∀ q, q < 32 → tBase.get Fld.REG_STAT.STATE q = 0 := by decide
    exact h (this q hq)

theorem witness_RepairTestAndLoopback_self_tests :
    (let s := tBase.setPart 3 tPart; Sound s ∧ s.serves (dieOfStack (0 : Fin 20)) = true ∧ StackTaken s 0) ∧
    (Sound tBase ∧ tBase.serves (dieOfStack (19 : Fin 20)) = true ∧ tBase.get Fld.TEST_BIST.GO 19 = 0 ∧ ¬ StackTaken tBase 19) ∧
    (bits (0xFFFFFFFF00000001#64).toNat 0 0 = 1 ∧ bits (0xFFFFFFFF00000001#64).toNat 63 32 = 2 ^ 32 - 1 ∧ bits (0xFFFFFFFF00000001#64).toNat 2 1 = 0) ∧
    (let s := withRegs [(Fld.TEST_BIST.GO, 19, 0, 1), (Fld.TEST_BIST.PCH_MASK, 19, 0, 0x80000000)] tBase;
      let fails := [(19 * stackSpan + 31 * 65536) / 64 + 5, (19 * stackSpan + 31 * 65536) / 64];
      Sound s ∧ s.isUp (dieOfStack (19 : Fin 20)) = true ∧ s.get Fld.TEST_BIST.GO 19 = 1 ∧ s.get Fld.TEST_BSTAT.FAILS 19 = 0 ∧
        (∀ ln ∈ fails, tested s 19 (64 * ln)) ∧ fails.Nodup ∧ fails.length < 2 ^ 32 ∧ ¬ tested s 19 0) := by
  refine ⟨⟨by decide, by decide, 0, .inl ⟨3, by decide, by decide⟩⟩, ⟨by decide, by decide, by decide, free_tBase 19⟩, by decide, by decide⟩

theorem witness_RepairTestAndLoopback_links :
    (let s := withRegs [(Fld.TEST_TRAIN.GAVE_UP, 0, 0, 1), (Fld.PORT_CFG.EN, 3, 0, 1)] tBase;
      Sound s ∧ s.serves 0 = true ∧ (s.get Fld.TEST_TRAIN.GAVE_UP).testBit 0 = true ∧ s.serves ((3 : Fin 4) / 2) = true ∧ s.get Fld.PORT_CFG.EN 3 = 1 ∧
        s.get Fld.PORT_CFG.EN 2 = 0 ∧ s.get Fld.LEAP_CTRL.STATE ≠ 2) ∧
    (let s := withRegs [(Fld.LEAP_CTRL.STATE, 0, 0, 2)] tBase; Sound s ∧ s.serves (1 : Fin 2) = true ∧ s.get Fld.LEAP_CTRL.STATE = 2) ∧
    (bits (0x11#64).toNat 0 0 = 1 ∧ bits (0x11#64).toNat 1 0 ≠ 0 ∧ bits (0x11#64).toNat 4 4 = 1) := by
  refine ⟨?_, ?_, ?_⟩ <;> decide

/-! ## The invariant is not empty -/

theorem witness_StepKeepsTheBlockSound :
    (Sound tBase ∧ ∃ t, step { tBase with pending := [.readClearRead 0x600010 .whole] } = .next t ∧ t.pending = []) ∧
      (Sound (tBlk (rWord 0x01 3 1 2 0 0) [(1, 5), (2, 6)]) ∧
        ∃ t, step { tBlk (rWord 0x01 3 1 2 0 0) [(1, 5), (2, 6)] with pending := [.axAdd 0] } = .next t ∧ t.x 0 3 = 11) :=
  ⟨⟨by decide, _, rfl, rfl⟩, ⟨by decide, _, rfl, by decide⟩⟩

/-! ## Ill-formed commands are refused -/

/-- Sender classes end at 7 (R378). -/
theorem test_wf_sender :
    [(Instr.mailboxDataWrite 0x8000 0 0 0).wf, (Instr.mailboxGo 0x8000 0 0).wf, (Instr.mailboxAbort 0x9001 0).wf,
      (Instr.mailboxTake 0xF000 0).wf, (Instr.dbRing 0x8000 0 0).wf, (Instr.dbPendClear 0x8000 0 0).wf,
      (Instr.dbMaskWrite 0x8000 0 0).wf, (Instr.mailboxGo 0x1401 0 0).wf] =
    [false, false, false, false, false, false, false, true] := by decide

/-- Queue pairs are the 65,536 of each die (R411). -/
theorem test_wf_queue_pair :
    ((Instr.cnpReceive 0 131072).wf, (Instr.ccTimer 131072).wf, (Instr.ackTimeout 131072).wf, (Instr.sequenceNak 131072 0).wf,
      (Instr.qpResetNotice 0 131072).wf, (Instr.qpRestart 131072).wf, (Instr.qpRestart 131071).wf) =
    (false, false, false, false, false, false, true) := by decide

/-- A piece has at most 64 KiB (R423). -/
theorem test_wf_piece :
    ((Instr.rdmaPieceDone 0 ⟨0, 0, 0, 0, List.replicate 65537 0⟩).wf, (Instr.rdmaPieceDone 0 ⟨0, 0, 0, 0, [1]⟩).wf) = (false, true) := by
  decide +kernel

/-- A forwarded message has 8 to 16 words and a source mailbox up to 64; its reply the like; a forwarded descriptor 4 words. -/
theorem test_wf_forwarded :
    ((Instr.forwardedMessage ⟨0, 65, 0, 8, []⟩).wf, (Instr.forwardedMessage ⟨0, 0, 0, 7, []⟩).wf, (Instr.forwardedMessage ⟨0, 0, 0, 17, []⟩).wf,
      (Instr.forwardedMessage ⟨0, 0, 0, 8, List.replicate 17 0⟩).wf, (Instr.forwardReply ⟨0, 65, 1⟩).wf,
      (Instr.forwardedDmaRequest ⟨0, [0, 0, 0]⟩).wf, (Instr.forwardedMessage ⟨0, 64, 0, 16, [1]⟩).wf) =
    (false, false, false, false, false, false, true) := by decide

/-- A round has at most one reading a channel; a reading of the meter and a BIST line have their widths; a weight message has
sixteen weights of 40 bits. -/
theorem test_wf_readings :
    ((Instr.housekeepingRound (List.replicate 257 ⟨0, 0⟩)).wf, (Instr.tickMark ⟨2 ^ 64, 0, false, false, false⟩).wf,
      (Instr.tickMark ⟨0, 2 ^ 64, false, false, false⟩).wf, (Instr.bistDone 0 [2 ^ 36]).wf, (Instr.weightMessage 0 (List.replicate 15 0)).wf,
      (Instr.weightMessage 0 (List.replicate 16 (2 ^ 40))).wf, (Instr.weightMessage 0 (List.replicate 16 5)).wf) =
    (false, false, false, false, false, false, true) := by decide

/-- Register accesses are aligned (R7). -/
theorem test_wf_offset :
    ((Instr.registerWrite 4 0 .low).wf, (Instr.readClearRead 0x600014 .whole).wf, (Instr.readClearRead 0x600010 .whole).wf) =
    (false, false, true) := by decide

/-! ## Worked examples of the spec -/

/-- Chapter 4: the words of the example as SIG, WAIT, LI and POST read them. -/
theorem test_words_of_chapter_4 :
    (0x6200000500000001 >>> 56, wSEL 0x6200000500000001, bits 0x6200000500000001 31 0) = (0x62, 5, 1) ∧
      (0x6300000500000001 >>> 56, wSEL 0x6300000500000001, wRS1 0x6300000500000001) = (0x63, 5, 0) ∧
      (0x2A48020000004000 >>> 56, wRD 0x2A48020000004000, bits 0x2A48020000004000 47 0) = (0x2A, 9, 0x20000004000) ∧
      (0x7302400200000100 >>> 56, wRS1 0x7302400200000100, wSEL 0x7302400200000100, bits 0x7302400200000100 31 0) = (0x73, 9, 2, 256) := by
  decide

/-- Chapter 4: LI X9 leaves 0x200_0000_4000 there; SIG 5, 1 makes SEM5 one, and WAIT 5, 1 takes it. -/
theorem test_run_of_chapter_4 :
    (after (exec (.axLi 0) (tBlk 0x2A48020000004000 []))).x 0 9 = 0x20000004000 ∧
      (after (exec (.axSig 0) (tBlk 0x6200000500000001 []))).get Fld.SEM_VAL.COUNT 3 5 = 1 ∧
      (after (exec (.axWait 0) ((tBlk 0x6300000500000001 []).set Fld.SEM_VAL.COUNT 1 3 5))).get Fld.SEM_VAL.COUNT 3 5 = 0 := by decide

/-- Chapter 5: the MMA word and the operand registers of chunk 8. -/
theorem test_mma_of_chapter_5 :
    let w := 0x8046A96C6C600000;
    (wSlot w, bits w 46 42, bits w 41 37, bits w 36 32) = (141, 10, 11, 12) ∧
      (aLFMT w, aRFMT w, aDFMT w, aACC w, aFIN w, aBANK w) = (3, 3, 0, true, true, false) ∧ lgMma w = true ∧
      (let o := MOperand.of 0x10080480000 3; (o.vslot, o.sslot, o.scaled, o.k0) = (0, 72, true, 8192)) ∧
      (let o := MOperand.of 0x806B004B 3; (o.vslot, o.sslot, o.scaled, o.k0) = (75, 107, true, 0)) := by decide

/-- Chapter 5: the five indices of the gather at its edges. -/
theorem test_gather_of_chapter_5 :
    ([7, -1, 7, 5000, -4097] : List Int).map (resolveIdx true 4096) = [some 7, some 4095, some 7, none, none] := by decide

/-- Chapter 6: the block of 32 values in FP4: the scale byte, the codes and the flags UF and NX. -/
theorem test_quantize_of_chapter_6 :
    mxQuant 6 (([0x41500000, 0x3F333333, 0xC039999A, 0x3E4CCCCD] ++ List.replicate 28 0x3F800000).map of32) [] =
      (0x80, [0x7, 0x1, 0xB, 0x0] ++ List.replicate 28 0x1, flUF ||| flNX) := by decide +kernel

/-- Chapter 7: the value and the scale descriptor of the tile-major layout, which match. -/
theorem test_descriptors_of_chapter_7 :
    let v := Desc.of (0x0110604840550000 + 0x0000040000000200 <<< 64 + 0x100 <<< 192);
    let s := Desc.of (0x0012004840590000 + 0x0000002000000200 <<< 64 + 0x200 <<< 192 + 0x100000 <<< 384);
    (v.base, v.fmt, v.kind, v.mode, v.rank, v.scaled) = (0x4840550000, 6, 0, 0, 2, true) ∧
      (v.count, v.rowBytes, v.lo, v.hi) = (512 * 1024, 256, 0x4840550000, 0x484058FFFF) ∧
      (s.base, s.kind, s.rank, s.blockDim, s.hi) = (0x4840590000, 2, 2, 1, 0x4840593FFF) ∧ scaleMatches v s = true := by decide

/-- Chapter 7: rank 29 of the 8 × 8 group holds 1,152 columns; devices from 36 of the line of 64 hold none of the 72 heads. -/
theorem test_shards_of_chapter_7 :
    shardExtent 9216 8 5 = 1152 ∧ shardExtent 72 64 35 = 2 ∧ shardExtent 72 64 36 = 0 := by decide

/-- Chapter 8: the key page at DPA 0x49_2345_0000. -/
theorem test_address_of_chapter_8 :
    placeOf 0x4923450000 = .data 3 0x123450000 ∧ pchOf 0x123450000 = 5 ∧ bankOf 0x123450000 = 0 ∧ rowOf 0x123450000 = 1165 ∧
      0x123450000 >>> 21 = 2330 := by decide

/-- Chapter 9: the first PATTN's fields. -/
theorem test_pattn_of_chapter_9 :
    let w := 0x04194002004003000000003180010000;
    (cOPC w, bits w 119 115, bits w 114 110) = (4, 3, 5) ∧ (cDA w, cDB w, cDC w) = (2, 4, 3) ∧ (cOB w, cAC w, cCNT w) = (0, 0, 12) ∧
      (cAF w, cFLG w, cIMM w) = (3, 1, 0) := by decide

/-- Chapter 12: the key page, the value page and the page entry of page 20. -/
theorem test_pages_of_chapter_12 :
    ptSlot 3 5 10 = 0x8065000A ∧
      (let g : Geom := { tGeom with fmt := 3, kvhLog2 := 3, dh := 128, layers := 88, window := 0, ns := 16, c0 := 1040 };
        g.tp = 64 ∧ g.page 3 5 10 40 0 = 0x4923450000 ∧ g.page 3 5 10 40 1 = 0x4925450000 ∧ g.stride = 11558912 ∧ g.slots 1283 = 21) := by
  decide

/-- Chapter 13: ACC_AVG 100 becomes 103 at a commit with D 2 and one token accepted. -/
theorem test_depth_of_chapter_13 :
    (let e := depthUpdate 96 16 64 (2 <<< 20 + 100 <<< 448) 1 2; (dw e 7 8 0, dw e 7 23 16, dw e 0 23 20) = (103, 0, 2)) := by decide

/-- Chapter 19: OPP7 of die 0 needs 905 mV, takes 900 mV at 1,040 MHz and is derated. -/
theorem test_reckoning_of_chapter_19 : reckonPoint 930 1050 850 (8 / 5) 40 = (900, 1040, true) := by decide +kernel

/-- Chapter 20: the tick of 195 W over P4, P9 and P1. -/
theorem test_apportionment_of_chapter_20 :
    let at_ := fun (l : List (Nat × Nat)) => (List.range 16).map (fun p => ((l.find? (fun e => e.1 = p)).map Prod.snd).getD 0);
    let x : AsyTick :=
      { t := 0, nj := 97500000, dur := 500000, range := false, tempOut := false, fault := false
        w0 := some (at_ [(4, 20000000), (1, 2000000)]), w1 := some (at_ [(9, 8000000)]), share := at_ [(4, 600), (9, 300), (1, 100)]
        resident := (List.range 16).map (fun p => decide (p ∈ [1, 4, 9])), gap := none };
    let a := apportion 118000 x;
    a.e0 = 59000000 ∧ (nth 0 a.part 4, nth 0 a.part 9, nth 0 a.part 1, nth 0 a.part 16) = (61066666, 27966666, 8466666, 2) := by decide

/-- Chapter 22: word 3 of the report for P9's stamp. -/
theorem test_stamp_of_chapter_22 :
    ({ State.reset with mod := { State.reset.mod with stamps := setNth State.reset.mod.stamps 9 ⟨41207, 0, 1⟩ } } : State).stampWords [9] =
      [0x920000000000A0F7] := by decide

/-- Chapter 16: HPA 0x249_2345_0000 through decoder 0. -/
theorem test_decoder_of_chapter_16 :
    ({ State.reset with link := { State.reset.link with hdm := [⟨true, false, 0x20000000000, 0x1E000000000, 0⟩] } } : State).hpaToDpa
      0x24923450000 = some 0x4923450000 := by decide

/-- Chapter 3 (R100): a division by zero gives all ones and sets DZ, and the program counter moves on. -/
theorem test_division_by_zero :
    let t := after (exec (.axDiv 0) (tBlk (rWord 0x0E 3 1 2 0 0) [(1, 5)]));
    t.x 0 3 = 2 ^ 64 - 1 ∧ t.get Fld.FP_FLAGS.DZ 0 = 1 ∧ (t.core 0).pc = 0x1008 := by decide

/-- R69: X0 discards a result. -/
theorem test_x0_discards : (after (exec (.axAdd 0) (tBlk (rWord 0x01 0 1 2 0 0) [(1, 5), (2, 6)]))).x 0 0 = 0 := by decide

/-- An ADD that wraps, with a source that is the destination. -/
theorem test_add_wraps : (after (exec (.axAdd 0) (tBlk (rWord 0x01 1 1 2 0 0) [(1, 2 ^ 64 - 1), (2, 2)]))).x 0 1 = 1 := by decide
end Sys2Proof.Tests
end

section
/-!
SUPPORT. Registers at reset and after a write (R4–R7, R9): the layout of the register tables, bit by bit what each access code
does to a field, and what a write of a register with no action of its own leaves of the block.
-/
namespace Sys2Proof.Machine
open Sys2Proof Sys2Proof.Spec

/-! ### The tables, evaluated a part at a time -/

/-- A register's fields lie in its 64 bits, lowest first and apart. -/
abbrev Reg.LaidOut (r : Reg) : Prop := r.fields.Pairwise (fun f g => f.hi < g.lo) ∧ ∀ f ∈ r.fields, f.hi < 64

theorem laidOut_of_mem_regTable : ∀ r ∈ regTable, r.LaidOut := by
  simp only [regTable, List.forall_mem_append]
  and_intros <;> decide

/-- In the reset word of every register each field holds its entry of the Reset column. -/
theorem bits_word0_of_mem_regTable : ∀ r ∈ regTable, ∀ e ∈ r.fields, bits (r.word0 % 2 ^ 64) e.hi e.lo = e.reset := by
  simp only [regTable, List.forall_mem_append]
  and_intros <;> decide

theorem mem_of_regAtIn {l : List Reg} {o : Nat} {r : Reg} {i j : Nat} (h : regAtIn l o = some (r, i, j)) : r ∈ l := by
  induction l with
  | nil => cases h
  | cons q l ih =>
    unfold regAtIn at h
    split at h
    · cases h; exact List.mem_cons_self
    · exact List.mem_cons_of_mem _ (ih h)

theorem mem_regTable_of_regAt {o : Nat} {r : Reg} {i j : Nat} (h : regAt o = some (r, i, j)) : r ∈ regTable := mem_of_regAtIn h

/-- The registers whose reset words are the Reset column's own: not the mailbox and voltage records, nor the host's sluices. -/
theorem resetWord_eq_word0 {r : Reg} {i j : Nat} (hm : r.base ≠ Reg.MB_CFG.base) (hv : r.base ≠ Reg.PWR_VT.base)
    (hs : r.base = Reg.SL_CFG.base → j < 16) : r.resetWord i j = r.word0 := by
  have hj : ¬ (r.base = Reg.SL_CFG.base ∧ j = 16) := fun h => absurd (hs h.1) (by omega)
  simp [Reg.resetWord, hm, hv, hj]

/-- At reset every register holds its reset word. -/
theorem word_reset (r : Reg) (i j : Nat) : State.reset.word r i j = r.resetWord i j % 2 ^ 64 := by
  simp [State.word, State.reset, smGet, smFind]

/-! ### Bits of fields, masks and accesses -/

theorem testBit_bits (v hi lo b : Nat) : (bits v hi lo).testBit b = (decide (b < hi + 1 - lo) && v.testBit (lo + b)) := by
  rw [bits, Nat.testBit_mod_two_pow, Nat.testBit_shiftRight]

/-- A replaced field holds the bits of its new value, and every bit outside it stands. -/
theorem testBit_setBits (v hi lo x b : Nat) :
    (setBits v hi lo x).testBit b = if lo ≤ b ∧ b ≤ hi then x.testBit (b - lo) else v.testBit b := by
  have low := Nat.mod_lt v (Nat.two_pow_pos lo)
  have field := Nat.mod_lt x (Nat.two_pow_pos (hi + 1 - lo))
  rw [setBits_eq, Nat.add_comm, Nat.testBit_two_pow_mul_add _ low]
  by_cases hb : b < lo
  · simp [hb, Nat.testBit_mod_two_pow, show ¬ (lo ≤ b ∧ b ≤ hi) by omega]
  rw [if_neg hb, Nat.add_comm, Nat.testBit_two_pow_mul_add _ field]
  by_cases hf : b ≤ hi
  · simp [Nat.testBit_mod_two_pow, show b - lo < hi + 1 - lo by omega, show lo ≤ b ∧ b ≤ hi by omega]
  · rw [if_neg (by omega), if_neg (by omega), ← Nat.shiftRight_eq_div_pow, ← Nat.shiftRight_eq_div_pow, Nat.testBit_shiftRight,
      Nat.testBit_shiftRight]
    congr 1
    omega

/-- The bits of a 64-bit word that a mask does not take. -/
theorem testBit_and_not {m : Nat} (hm : m < 2 ^ 64) (v b : Nat) (hb : b < 64) :
    (v &&& (2 ^ 64 - 1 - m)).testBit b = (v.testBit b && !m.testBit b) := by
  rw [Nat.testBit_and, show 2 ^ 64 - 1 - m = 2 ^ 64 - (m + 1) by omega, Nat.testBit_two_pow_sub_succ hm]
  simp [hb]

theorem testBit_mergeMask {m : Nat} (hm : m < 2 ^ 64) (new old b : Nat) (hb : b < 64) :
    (mergeMask m new old).testBit b = if m.testBit b then new.testBit b else old.testBit b := by
  rw [mergeMask, Nat.testBit_or, testBit_and_not hm _ _ hb, Nat.testBit_and]
  cases m.testBit b <;> simp

theorem accMask_lt (width : AccessWidth) : accMask width < 2 ^ 64 := by cases width <;> decide

/-- The mask of an access takes the bits the access covers. -/
theorem testBit_accMask (width : AccessWidth) (b : Nat) (hb : b < 64) : (accMask width).testBit b = covers width b := by
  cases width with
  | whole => simp only [accMask, covers, Nat.testBit_two_pow_sub_one, hb, decide_true]
  | low => simp only [accMask, covers, Nat.testBit_two_pow_sub_one]
  | high =>
    rw [accMask, show 2 ^ 64 - 2 ^ 32 = 2 ^ 64 - (2 ^ 32 - 1 + 1) by decide, Nat.testBit_two_pow_sub_succ (by decide),
      Nat.testBit_two_pow_sub_one]
    simp only [covers, hb, decide_true, Bool.true_and, ← decide_not, Nat.not_lt]

/-- The value of an access stands in its half of the register. -/
theorem testBit_accPlace (width : AccessWidth) (v : Word) (b : Nat) (hb : b < 64) :
    (accPlace width v.toNat).testBit b = (placed width v).getLsbD b := by
  cases width with
  | whole => rfl
  | low => rfl
  | high =>
    change ((v.toNat % 2 ^ 32) <<< 32).testBit b = (v <<< 32).getLsbD b
    rw [Nat.testBit_shiftLeft, Nat.testBit_mod_two_pow, BitVec.getLsbD_shiftLeft, ← BitVec.testBit_toNat]
    simp only [hb, show b - 32 < 32 by omega, decide_true, Bool.true_and, ← decide_not, Nat.not_lt]

/-! ### A write by the access codes (R5) -/

/-- A bit of a field after a write is as the field's access code says. -/
theorem testBit_fieldWrite_in (lk : Bool) (f : Field) (old w : Nat) {m b : Nat} (hm : m < 2 ^ 64) (hf : f.hi < 64)
    (hb : f.lo ≤ b ∧ b ≤ f.hi) :
    (fieldWrite lk f old w m).testBit b = bitAfterWrite f.access lk (m.testBit b) (old.testBit b) (w.testBit b) := by
  have h64 : b < 64 := by omega
  have place : f.lo + (b - f.lo) = b := by omega
  have inside : b - f.lo < f.hi + 1 - f.lo := by omega
  have one : bits (w &&& m) f.hi f.lo < 2 ^ 64 :=
    (bits_lt _ _ _).trans_le (Nat.pow_le_pow_right (by decide) (by omega))
  unfold fieldWrite bitAfterWrite
  cases f.access with
  | ro | wo | rc => rfl
  | rw => simp [testBit_setBits, hb, testBit_bits, place, inside, testBit_mergeMask hm _ _ _ h64]
  | rwl => cases lk <;> simp [testBit_setBits, hb, testBit_bits, place, inside, testBit_mergeMask hm _ _ _ h64]
  | w1c =>
    simp only [testBit_setBits, hb, and_self, if_true, testBit_and_not one _ _ (show b - f.lo < 64 by omega), testBit_bits, place, inside,
      decide_true, Bool.true_and, Nat.testBit_and, Bool.and_comm (w.testBit b)]
  | w1s => simp [testBit_setBits, hb, testBit_bits, place, inside, Bool.and_comm]

/-- A write of a field leaves every bit outside it. -/
theorem testBit_fieldWrite_out (lk : Bool) (f : Field) (old w m : Nat) {b : Nat} (hb : ¬ (f.lo ≤ b ∧ b ≤ f.hi)) :
    (fieldWrite lk f old w m).testBit b = old.testBit b := by
  unfold fieldWrite
  cases f.access with
  | ro | wo | rc => rfl
  | rwl => cases lk <;> simp [testBit_setBits, hb]
  | rw | w1c | w1s => simp [testBit_setBits, hb]

/-- Writing a list of fields leaves every bit outside all of them. -/
theorem testBit_foldl_fieldWrite_out (lk : Bool) (fs : List Field) (old w m : Nat) {b : Nat}
    (hb : ∀ f ∈ fs, ¬ (f.lo ≤ b ∧ b ≤ f.hi)) :
    (fs.foldl (fun a f => fieldWrite lk f a w m) old).testBit b = old.testBit b := by
  induction fs generalizing old with
  | nil => rfl
  | cons f fs ih =>
    rw [List.foldl_cons, ih _ (fun g hg => hb g (List.mem_cons_of_mem _ hg)), testBit_fieldWrite_out _ _ _ _ _ (hb f List.mem_cons_self)]

/-- In a list of fields that lie apart each is written by its own access code alone. -/
theorem testBit_foldl_fieldWrite_in (lk : Bool) (fs : List Field) (old w : Nat) {m b : Nat} (hm : m < 2 ^ 64)
    (apart : fs.Pairwise (fun f g => f.hi < g.lo)) (h64 : ∀ f ∈ fs, f.hi < 64) {f : Field} (hf : f ∈ fs) (hb : f.lo ≤ b ∧ b ≤ f.hi) :
    (fs.foldl (fun a f => fieldWrite lk f a w m) old).testBit b =
      bitAfterWrite f.access lk (m.testBit b) (old.testBit b) (w.testBit b) := by
  induction fs generalizing old with
  | nil => cases hf
  | cons g fs ih =>
    rw [List.pairwise_cons] at apart
    rw [List.foldl_cons]
    rcases List.mem_cons.1 hf with rfl | hf'
    · have others : ∀ g ∈ fs, ¬ (g.lo ≤ b ∧ b ≤ g.hi) := fun g hg => by have := apart.1 g hg; omega
      rw [testBit_foldl_fieldWrite_out _ _ _ _ _ others, testBit_fieldWrite_in _ _ _ _ hm (h64 f hf) hb]
    · have first : ¬ (g.lo ≤ b ∧ b ≤ g.hi) := by have := apart.1 f hf'; omega
      rw [ih _ apart.2 (fun g hg => h64 g (List.mem_cons_of_mem _ hg)) hf', testBit_fieldWrite_out _ _ _ _ _ first]

/-- A write leaves a 64-bit word. -/
theorem plainWriteWord_lt (lk : Bool) {r : Reg} (hr : r.LaidOut) {old : Nat} (w m : Nat) (ho : old < 2 ^ 64) :
    plainWriteWord lk r old w m < 2 ^ 64 := by
  refine Nat.lt_pow_two_of_testBit _ (fun b hb => ?_)
  rw [plainWriteWord, testBit_foldl_fieldWrite_out _ _ _ _ _ (fun f hf => by have := hr.2 f hf; omega)]
  exact Nat.testBit_lt_two_pow (ho.trans_le (Nat.pow_le_pow_right (by decide) hb))

/-- The register itself after a plain write. -/
theorem word_plainWrite (s : State) {r : Reg} (i j w m : Nat) (hs : s.canonical = true) (hr : r.LaidOut) :
    (s.plainWrite r i j w m).word r i j = plainWriteWord (s.locked r i) r (s.word r i j) w m :=
  word_setWord_same _ _ _ _ _ (csr_wf s hs) (plainWriteWord_lt _ hr _ _ (word_lt _ _ _ _))

/-- A plain write writes each field by its access code. -/
theorem testBit_word_plainWrite_in (s : State) {r : Reg} (i j w : Nat) {m b : Nat} (hs : s.canonical = true) (hr : r.LaidOut)
    (hm : m < 2 ^ 64) {f : Field} (hf : f ∈ r.fields) (hb : f.lo ≤ b ∧ b ≤ f.hi) :
    ((s.plainWrite r i j w m).word r i j).testBit b =
      bitAfterWrite f.access (s.locked r i) (m.testBit b) ((s.word r i j).testBit b) (w.testBit b) := by
  rw [word_plainWrite s i j w m hs hr]
  exact testBit_foldl_fieldWrite_in _ _ _ _ hm hr.1 hr.2 hf hb

/-- A plain write leaves the reserved bits (R4). -/
theorem testBit_word_plainWrite_out (s : State) {r : Reg} (i j w m : Nat) {b : Nat} (hs : s.canonical = true) (hr : r.LaidOut)
    (hb : ∀ f ∈ r.fields, ¬ (f.lo ≤ b ∧ b ≤ f.hi)) :
    ((s.plainWrite r i j w m).word r i j).testBit b = (s.word r i j).testBit b := by
  rw [word_plainWrite s i j w m hs hr]
  exact testBit_foldl_fieldWrite_out _ _ _ _ _ hb

/-- Setting a register leaves every bit of every other. -/
theorem bitsBut_setWord (s : State) (r : Reg) (i j w : Nat) : BitsBut [(allOf r, i, j)] s (s.setWord r i j w) := by
  intro o b hob
  unfold diffBit
  by_cases ho : o = r.off i j
  · have hb : 64 ≤ b := by
      by_contra hb
      exact hob _ List.mem_cons_self ⟨ho.symm, Nat.zero_le _, show b ≤ 63 by omega⟩
    rw [BitVec.getLsbD_of_ge _ _ hb, BitVec.getLsbD_of_ge _ _ hb]
  · rw [setWord_csr, smGet_smPut_ne _ _ _ _ _ ho]

/-! ### Registers with no action of their own -/

theorem base_ne_of_not_acting {r q : Reg} (h : r.base ∉ actingBases) (hq : q.base ∈ actingBases) : r.base ≠ q.base :=
  fun e => h (e ▸ hq)

section
variable (s : State) {r : Reg} (i j w m : Nat)

theorem actWriteBox_of_not_acting (who : Nat) (h : r.base ∉ actingBases) : s.actWriteBox who r i j w m = none := by
  simp only [actingBases, List.map, List.mem_cons, not_or] at h
  simp [State.actWriteBox, h]

theorem actWrite1_of_not_acting (h : r.base ∉ actingBases) : s.actWrite1 r i j w m = none := by
  simp only [actingBases, List.map, List.mem_cons, not_or] at h
  simp [State.actWrite1, h]

theorem actWrite2_of_not_acting (h : r.base ∉ actingBases) : s.actWrite2 r i j w m = none := by
  simp only [actingBases, List.map, List.mem_cons, not_or] at h
  simp [State.actWrite2, h]

theorem actWrite3_of_not_acting (h : r.base ∉ actingBases) (ha : ¬ inAssay r) : s.actWrite3 r i w m = none := by
  have outside : ¬ (Reg.ASY_STATE.base ≤ r.base ∧ r.base < Reg.SEC_STATE.base) := ha
  simp only [actingBases, List.map, List.mem_cons, not_or] at h
  simp only [State.actWrite3, h, Bool.and_eq_true, decide_eq_true_eq, outside, if_false]

theorem legalize_of_not_acting (h : r.base ∉ actingBases) : s.legalize r i j = s := by
  simp only [actingBases, List.map, List.mem_cons, not_or] at h
  simp [State.legalize, h]

/-- A write of a register with no action of its own goes by the access codes alone. -/
theorem regWrite_of_not_acting (who : Nat) (h : r.base ∉ actingBases) (ha : ¬ inAssay r) :
    s.regWrite who r i j w m = s.plainWrite r i j w m := by
  simp only [State.regWrite, actWriteBox_of_not_acting s i j w m who h, actWrite1_of_not_acting s i j w m h,
    actWrite2_of_not_acting s i j w m h, actWrite3_of_not_acting s i w m h ha, State.rangedWrite, legalize_of_not_acting _ i j h, ite_self]

end

/-- Only a mailbox's GO and a ring meet the receiver's domain (R383). -/
theorem ringDown_of_not_acting (s : State) (who w : Nat) {o : Nat} {r : Reg} {i j : Nat} (hr : regAt o = some (r, i, j))
    (h : r.base ∉ actingBases) : s.ringDown who o w = false := by
  have ctrl : r.base ≠ Reg.S_CTRL.base := base_ne_of_not_acting h (by decide)
  have ring : r.base ≠ Reg.DB_RING.base := base_ne_of_not_acting h (by decide)
  simp [State.ringDown, hr, ctrl, ring]

/-- Only a 32-bit access to a snapshot counter is refused for its width (R7). -/
theorem halfRefused_eq_false {o : Nat} {width : AccessWidth} {r : Reg} {i j : Nat} (hr : regAt o = some (r, i, j))
    (h : width ≠ .whole → r.snapshot = false) : halfRefused o width = false := by
  cases width with
  | whole => simp [halfRefused]
  | low | high => simp [halfRefused, hr, h]

/-- A write by the host of a register with no action of its own: a plain write, answered as done (R5, R7, R26, R28). -/
theorem exec_registerWrite_of_not_acting (s : State) (off : BitVec 28) (v : Word) (width : AccessWidth) {r : Reg} {i j : Nat}
    (hr : regAt off.toNat = some (r, i, j)) (h : r.base ∉ actingBases) (ha : ¬ inAssay r) (up : s.csrUp off.toNat = true)
    (answers : s.get Fld.SEC_STATE.STATE ≠ 3) (half : width ≠ .whole → r.snapshot = false) :
    exec (.registerWrite off v width) s =
      .next ((s.plainWrite r i j (accPlace width v.toNat) (accMask width)).reply .done) := by
  have isOpen : s.windowOpen = true := bne_iff_ne.2 answers
  change execRegisterWrite off v width s = _
  simp only [execRegisterWrite, isOpen, State.windowWrite, up, halfRefused_eq_false hr half, hr, regWrite_of_not_acting s i j _ _ _ h ha,
    ringDown_of_not_acting s _ _ hr h]
  rfl

/-- Settles O4: no register differs from its reset word after reset, and each reset word holds its table's Reset column. -/
theorem resetLeavesResetValues : Obligations.ResetLeavesResetValues := by
  refine ⟨by decide, rfl, fun f e hr he hhi hlo hm hv i j hs => ?_⟩
  rw [State.get, word_reset, resetWord_eq_word0 hm hv hs, hhi, hlo]
  exact bits_word0_of_mem_regTable _ hr e he

/-- Settles O5: the host's write is a plain write, which goes field by field through fields that lie apart. -/
theorem registerWriteFollowsAccessCodes : Obligations.RegisterWriteFollowsAccessCodes := by
  intro s off v width r i j sound hr hact hassay up hopen half
  have laid : r.LaidOut := laidOut_of_mem_regTable r (mem_regTable_of_regAt hr)
  refine ⟨_, exec_registerWrite_of_not_acting s off v width hr hact hassay up hopen half, rfl, bitsBut_setWord s r i j _,
    fun f hf b hlo hhi => ?_, fun b hb => testBit_word_plainWrite_out s i j _ _ sound.2 laid hb⟩
  have h64 : b < 64 := hhi.trans_lt (laid.2 f hf)
  rw [← testBit_accMask width b h64, ← testBit_accPlace width v b h64]
  exact testBit_word_plainWrite_in s i j _ sound.2 laid (accMask_lt width) hf ⟨hlo, hhi⟩

end Sys2Proof.Machine
end

section
/-!
SUPPORT. The invariant of the block (O3) as records: what the shape and the canonical form say of each part of the state, field by
field, so that an operation has to account for the fields it changes and for no other.
-/
namespace Sys2Proof.Machine
open Sys2Proof Sys2Proof.Spec

/-- The register files of a core have their lengths and its maps are in canonical form. -/
structure CoreSt.Wf (k : CoreSt) : Prop where
  x : k.x.length = 32
  td : k.td.length = 32
  trf : Memory.wf k.trf = true
  acc0 : smWf 0 k.acc0 = true
  acc1 : smWf 0 k.acc1 = true
  rc : Map.sorted k.rc = true

/-- The lists by sluice of a stack have 17 entries and its maps rising keys. -/
structure StackSt.Wf (k : StackSt) : Prop where
  level : k.level.length = 17
  deferLeft : k.deferLeft.length = 17
  rate : k.rate.length = 17
  depth : k.depth.length = 17
  queue : Map.sorted k.queue = true
  owed : Map.sorted k.owed = true
  fresh : Map.sorted k.fresh = true
  refNext : Map.sorted k.refNext = true
  grants : Map.sorted k.grants = true
  lastDir : Map.sorted k.lastDir = true
  openRow : Map.sorted k.openRow = true
  passed : Map.sorted k.passed = true
  lastAct : Map.sorted k.lastAct = true
  acts : Map.sorted k.acts = true
  actsOld : Map.sorted k.actsOld = true
  forced : Map.sorted k.forced = true
  weakRows : Map.sorted k.weakRows = true
  remap : Map.sorted k.remap = true

/-- A partition has its twelve counters, and its semaphore queues rising keys. -/
structure PartSt.Wf (k : PartSt) : Prop where
  acc : k.acc.length = 12
  semq : Map.sorted k.semq = true

/-- The operand buffer and the accumulator of a pan are in canonical form. -/
structure PanSt.Wf (k : PanSt) : Prop where
  obuf : Memory.wf k.obuf = true
  acc : smWf 0 k.acc = true

/-- The payload of a batch is in canonical form, its charges by stack have rising keys. -/
structure Batch.Wf (b : Batch) : Prop where
  payload : Memory.wf b.payload = true
  paid : Map.sorted b.paid = true

/-- A power manager has a scale and an emergency scale for each of ten stacks. -/
structure DiePower.Wf (x : DiePower) : Prop where
  scale : x.scale.length = 10
  emScale : x.emScale.length = 10

/-- There are two power managers. -/
structure PowerSt.Wf (x : PowerSt) : Prop where
  dies : x.dies.length = 2
  diesWf : ∀ y ∈ x.dies, y.Wf

/-- There are four ports; the queue pairs have rising keys. -/
structure NetSt.Wf (x : NetSt) : Prop where
  qps : Map.sorted x.qps = true
  lanes : x.lanes.length = 4
  syncAt : x.syncAt.length = 4

/-- There are four decoders and four channels; the pages in host bias have rising keys. -/
structure LinkSt.Wf (x : LinkSt) : Prop where
  hdm : x.hdm.length = 4
  jobs : x.jobs.length = 4
  bias : Map.sorted x.bias = true

/-- Flash has two slots for each of six components and six records. -/
structure FlashSt.Wf (x : FlashSt) : Prop where
  slots : x.slots.length = 12
  records : x.records.length = 6

/-- The security core has six components and twelve measured digests. -/
structure SecSt.Wf (x : SecSt) : Prop where
  flash : x.flash.Wf
  loaded : x.loaded.length = 6
  measured : x.measured.length = 12

/-- There is a commit stamp for each partition. -/
structure ModuleSt.Wf (x : ModuleSt) : Prop where
  stamps : x.stamps.length = 16

/-- The histories and bases of the ageing pairs have rising keys. -/
structure AgeSt.Wf (x : AgeSt) : Prop where
  hist : Map.sorted x.hist = true
  base : Map.sorted x.base = true

/-- The counts of the send queues have rising keys. -/
structure TxSt.Wf (x : TxSt) : Prop where
  busy : Map.sorted x.busy = true
  turns : Map.sorted x.turns = true
  pace : Map.sorted x.pace = true

/-- What the shape and the canonical form of the block say, part by part. -/
structure State.Wf (s : State) : Prop where
  csr : smWf 0#64 s.csr = true
  mem : Memory.wf s.mem = true
  gran : smWf Gran.empty s.gran = true
  ecc : smWf 0#512 s.ecc = true
  metaFlip : smWf 0#3 s.metaFlip = true
  flipped : smWf 0#512 s.flipped = true
  csumBad : Map.sorted s.csumBad = true
  cores : s.cores.length = 12
  coresWf : ∀ k ∈ s.cores, k.Wf
  stks : s.stks.length = 20
  stksWf : ∀ k ∈ s.stks, k.Wf
  parts : s.parts.length = 16
  partsWf : ∀ k ∈ s.parts, k.Wf
  pans : Map.sorted s.pans = true
  pansWf : ∀ e ∈ s.pans, e.2.Wf
  batches : ∀ b ∈ s.batches, b.Wf
  host : Memory.wf s.host = true
  dieUp : s.dieUp.length = 2
  msixHeld : Map.sorted s.msixHeld = true
  msixSent : Map.sorted s.msixSent = true
  tx : s.tx.Wf
  power : s.power.Wf
  net : s.net.Wf
  link : s.link.Wf
  mod : s.mod.Wf
  sec : s.sec.Wf
  age : s.age.Wf

/-! ### The records say what the Boolean predicates say -/

theorem CoreSt.wf_iff (k : CoreSt) : k.Wf ↔ (k.x.length = 32 ∧ k.td.length = 32) ∧ k.canonical = true := by
  simp only [CoreSt.canonical, Bool.and_eq_true]
  exact ⟨fun ⟨a, b, c, d, e, f⟩ => ⟨⟨a, b⟩, ⟨⟨c, d⟩, e⟩, f⟩, fun ⟨⟨a, b⟩, ⟨⟨c, d⟩, e⟩, f⟩ => ⟨a, b, c, d, e, f⟩⟩

theorem StackSt.wf_iff (k : StackSt) : k.Wf ↔
    (k.level.length = 17 ∧ k.deferLeft.length = 17 ∧ k.rate.length = 17 ∧ k.depth.length = 17) ∧ k.canonical = true := by
  simp only [StackSt.canonical, Bool.and_eq_true, and_assoc]
  exact ⟨fun ⟨a, b, c, d, e, f, g, h, i, j, k, l, m, n, o, p, q, r⟩ => ⟨a, b, c, d, e, f, g, h, i, j, k, l, m, n, o, p, q, r⟩,
    fun ⟨a, b, c, d, e, f, g, h, i, j, k, l, m, n, o, p, q, r⟩ => ⟨a, b, c, d, e, f, g, h, i, j, k, l, m, n, o, p, q, r⟩⟩

theorem PartSt.wf_iff (k : PartSt) : k.Wf ↔ k.acc.length = 12 ∧ Map.sorted k.semq = true :=
  ⟨fun ⟨a, b⟩ => ⟨a, b⟩, fun ⟨a, b⟩ => ⟨a, b⟩⟩

theorem PanSt.wf_iff (k : PanSt) : k.Wf ↔ Memory.wf k.obuf = true ∧ smWf 0 k.acc = true :=
  ⟨fun ⟨a, b⟩ => ⟨a, b⟩, fun ⟨a, b⟩ => ⟨a, b⟩⟩

theorem Batch.wf_iff (b : Batch) : b.Wf ↔ Memory.wf b.payload = true ∧ Map.sorted b.paid = true :=
  ⟨fun ⟨a, b⟩ => ⟨a, b⟩, fun ⟨a, b⟩ => ⟨a, b⟩⟩

theorem DiePower.wf_iff (x : DiePower) : x.Wf ↔ x.scale.length = 10 ∧ x.emScale.length = 10 :=
  ⟨fun ⟨a, b⟩ => ⟨a, b⟩, fun ⟨a, b⟩ => ⟨a, b⟩⟩

/-- The invariant of the block, as the statements write it. -/
theorem sound_iff_wf (s : State) : Sound s ↔ s.Wf := by
  simp only [Sound, State.shaped, State.canonical, Bool.and_eq_true, beq_iff_eq, List.all_eq_true, and_assoc]
  constructor
  · rintro ⟨cores, stks, parts, dieUp, files, sluices, counters, hdm, jobs, dies, scales, loaded, measured, slots, records, stamps, lanes,
      syncAt, mem, gran, ecc, metaFlip, csr, host, csumBad, pans, pan, msixHeld, msixSent, qps, bias, core, stk, part, batch, hist, base,
      flipped, busy, turns, pace⟩
    exact
      { csr, mem, gran, ecc, metaFlip, flipped, csumBad, cores, stks, parts, pans, host, dieUp, msixHeld, msixSent
        coresWf := fun k hk => (CoreSt.wf_iff k).2 ⟨files k hk, core k hk⟩
        stksWf := fun k hk => (StackSt.wf_iff k).2 ⟨sluices k hk, stk k hk⟩
        partsWf := fun k hk => ⟨counters k hk, part k hk⟩
        pansWf := fun e he => (PanSt.wf_iff e.2).2 (pan e he)
        batches := fun b hb => (Batch.wf_iff b).2 (batch b hb)
        tx := { busy, turns, pace }
        power := ⟨dies, fun x hx => (DiePower.wf_iff x).2 (scales x hx)⟩
        net := { qps, lanes, syncAt }
        link := { hdm, jobs, bias }
        mod := { stamps }
        sec := { flash := { slots, records }, loaded, measured }
        age := { hist, base } }
  · intro h
    exact ⟨h.cores, h.stks, h.parts, h.dieUp, fun k hk => ((CoreSt.wf_iff k).1 (h.coresWf k hk)).1,
      fun k hk => ((StackSt.wf_iff k).1 (h.stksWf k hk)).1, fun k hk => (h.partsWf k hk).acc, h.link.hdm, h.link.jobs, h.power.dies,
      fun x hx => (DiePower.wf_iff x).1 (h.power.diesWf x hx), h.sec.loaded, h.sec.measured, h.sec.flash.slots, h.sec.flash.records,
      h.mod.stamps, h.net.lanes, h.net.syncAt, h.mem, h.gran, h.ecc, h.metaFlip, h.csr, h.host, h.csumBad, h.pans,
      fun e he => (PanSt.wf_iff e.2).1 (h.pansWf e he), h.msixHeld, h.msixSent, h.net.qps, h.link.bias,
      fun k hk => ((CoreSt.wf_iff k).1 (h.coresWf k hk)).2, fun k hk => ((StackSt.wf_iff k).1 (h.stksWf k hk)).2,
      fun k hk => (h.partsWf k hk).semq, fun b hb => (Batch.wf_iff b).1 (h.batches b hb), h.age.hist, h.age.base, h.flipped, h.tx.busy,
      h.tx.turns, h.tx.pace⟩

/-! ### Rising keys -/

section
variable {α β : Type} {m : SMap α}

theorem sorted_of_smWf [DecidableEq α] {d : α} (h : smWf d m = true) : Map.sorted m = true := ((smWf_iff d m).1 h).1

theorem sorted_smErase {q : Nat} (h : Map.sorted m = true) : Map.sorted (smErase m q) = true := smSortedFrom_smErase _ _ _ h

theorem sorted_smInsert {q : Nat} {x : α} (h : Map.sorted m = true) : Map.sorted (smInsert m q x) = true :=
  smSortedFrom_smInsert _ _ _ _ h fun _ hy => nomatch hy

theorem sorted_smPut [DecidableEq α] {d : α} {q : Nat} {x : α} (h : Map.sorted m = true) : Map.sorted (smPut d m q x) = true := by
  unfold smPut
  split
  · exact sorted_smErase h
  · exact sorted_smInsert h

theorem sorted_filter {p : Nat × α → Bool} (h : Map.sorted m = true) : Map.sorted (m.filter p) = true := smSortedFrom_filter _ _ _ h

theorem sorted_smDrop {a n : Nat} (h : Map.sorted m = true) : Map.sorted (smDrop m a n) = true := sorted_filter h

theorem sorted_filterMap {f : Nat × α → Option (Nat × β)} (h : Map.sorted m = true) (hf : ∀ e e', f e = some e' → e'.1 = e.1) :
    Map.sorted (m.filterMap f) = true := smSortedFrom_filterMap _ _ _ hf h

/-- A map listed from consecutive keys. -/
theorem sorted_filterMap_upFrom {a n : Nat} {f : Nat → Option (Nat × α)} (hf : ∀ i e, f i = some e → e.1 = i) :
    Map.sorted ((upFrom a n).filterMap f) = true := by
  suffices ∀ b, (∀ k, a ≤ k → aboveBound b k) → smSortedFrom b ((upFrom a n).filterMap f) = true from this none fun _ _ => nofun
  induction n generalizing a with
  | zero => rintro (_ | _) - <;> rfl
  | succ n ih =>
    intro b hb
    rw [upFrom, List.filterMap_cons]
    split
    · exact ih b fun k hk => hb k (Nat.le_of_succ_le hk)
    next e he =>
      obtain rfl := hf a e he
      exact (smSortedFrom_cons _ _ _ _).2 ⟨hb _ le_rfl, ih _ fun _ hk _ e' => by cases e'; exact hk⟩

/-- Changing the values of a map leaves its keys rising. -/
theorem sorted_map {f : Nat × α → Nat × β} (h : Map.sorted m = true) (hf : ∀ e, (f e).1 = e.1) : Map.sorted (m.map f) = true := by
  rw [← List.filterMap_eq_map]
  exact sorted_filterMap h fun e e' he => by cases he; exact hf e

theorem sorted_foldl {γ : Type} {l : List γ} {f : SMap α → γ → SMap α} (h : Map.sorted m = true)
    (hf : ∀ m x, Map.sorted m = true → Map.sorted (f m x) = true) : Map.sorted (l.foldl f m) = true := by
  induction l generalizing m with
  | nil => exact h
  | cons x l ih => exact ih (hf m x h)

end

/-! ### Values at reset, and parts that a number names -/

theorem CoreSt.Wf.reset : CoreSt.reset.Wf := by constructor <;> decide
theorem StackSt.Wf.reset : StackSt.reset.Wf := by constructor <;> decide
theorem PartSt.Wf.reset : PartSt.reset.Wf := by constructor <;> decide
theorem PanSt.Wf.reset : PanSt.reset.Wf := by constructor <;> decide
theorem DiePower.Wf.reset : DiePower.reset.Wf := by constructor <;> decide
theorem PowerSt.Wf.reset : PowerSt.reset.Wf :=
  ⟨rfl, fun _ h => by simp only [PowerSt.reset, List.mem_cons, List.not_mem_nil, or_false, or_self] at h; exact h ▸ .reset⟩
theorem NetSt.Wf.reset : NetSt.reset.Wf := by constructor <;> decide
theorem LinkSt.Wf.reset : LinkSt.reset.Wf := by constructor <;> decide
theorem FlashSt.Wf.reset : FlashSt.reset.Wf := by constructor <;> decide
theorem SecSt.Wf.reset : SecSt.reset.Wf := ⟨.reset, by decide, by decide⟩
theorem ModuleSt.Wf.reset : ModuleSt.reset.Wf := by constructor; decide
theorem AgeSt.Wf.reset : AgeSt.reset.Wf := by constructor <;> decide
theorem TxSt.Wf.reset : TxSt.reset.Wf := by constructor <;> decide

section
variable {α : Type} {P : α → Prop} {l : List α}

/-- What holds of every entry and of the value beyond the end holds of the entry at any index. -/
theorem forall_nth {d : α} {i : Nat} (h : ∀ x ∈ l, P x) (hd : P d) : P (nth d l i) := by
  unfold nth
  cases e : l[i]? with
  | none => exact hd
  | some x => exact h x (List.mem_of_getElem? e)

theorem forall_setNth {i : Nat} {x : α} (h : ∀ y ∈ l, P y) (hx : P x) : ∀ y ∈ setNth l i x, P y := by
  intro y hy
  rcases List.mem_or_eq_of_mem_set hy with hy | rfl
  · exact h y hy
  · exact hx

theorem forall_map {β : Type} {Q : β → Prop} {f : α → β} (h : ∀ x ∈ l, P x) (hf : ∀ x, P x → Q (f x)) : ∀ y ∈ l.map f, Q y := by
  simp only [List.mem_map]
  rintro _ ⟨x, hx, rfl⟩
  exact hf x (h x hx)

theorem forall_filter {p : α → Bool} (h : ∀ x ∈ l, P x) : ∀ y ∈ l.filter p, P y := fun y hy => h y (List.mem_filter.1 hy).1

theorem forall_smGet {m : SMap α} {d : α} {q : Nat} (h : ∀ e ∈ m, P e.2) (hd : P d) : P (smGet d m q) := by
  induction m with
  | nil => exact hd
  | cons e m ih =>
    obtain ⟨k, v⟩ := e
    unfold smGet smFind
    split
    · exact h _ List.mem_cons_self
    · exact ih fun e he => h e (List.mem_cons_of_mem _ he)

theorem forall_smPut [DecidableEq α] {m : SMap α} {d : α} {q : Nat} {x : α} (h : ∀ e ∈ m, P e.2) (hx : P x) :
    ∀ e ∈ smPut d m q x, P e.2 := by
  intro e he
  unfold smPut at he
  split at he
  · exact h e (mem_smErase _ _ _ he)
  · rcases mem_smInsert _ _ _ _ he with rfl | he
    · exact hx
    · exact h e he

end

/-! ### Bytes placed in a memory -/

theorem wf_cellsOf (a n v : Nat) : Memory.wf (cellsOf a n v) = true := by
  have cells := cellsOfList_aux a 0 (bytesOf n v)
  rw [cellsOf_eq, Memory.wf, smWf_iff]
  exact ⟨cells.1, fun e he => (cells.2 e he).2.2⟩

/-! ### The parts of a block that keeps the invariant -/

namespace State.Wf
variable {s : State}

theorem core {c : Nat} (h : s.Wf) : (s.core c).Wf := forall_nth h.coresWf .reset
theorem stack {t : Nat} (h : s.Wf) : (s.stack t).Wf := forall_nth h.stksWf .reset
theorem part {p : Nat} (h : s.Wf) : (s.part p).Wf := forall_nth h.partsWf .reset
theorem pan {u : Nat} (h : s.Wf) : (s.pan u).Wf := forall_smGet h.pansWf .reset
theorem dpower {d : Nat} (h : s.Wf) : (s.dpower d).Wf := forall_nth h.power.diesWf .reset
theorem batch {b : Nat} {x : Batch} (h : s.Wf) (e : s.batch b = some x) : x.Wf := h.batches x (List.mem_of_find?_eq_some e)

/-! ### A register, or one part of the block, replaced -/

theorem setWord {r : Reg} {i j w : Nat} (h : s.Wf) : (s.setWord r i j w).Wf := { h with csr := smWf_smPut _ _ _ _ h.csr }
theorem set {f : Fld} {v i j : Nat} (h : s.Wf) : (s.set f v i j).Wf := h.setWord
theorem bump {f : Fld} {v i j : Nat} (h : s.Wf) : (s.bump f v i j).Wf := h.set
theorem count {f : Fld} {v i j : Nat} (h : s.Wf) : (s.count f v i j).Wf := h.set

theorem setCore {c : Nat} {k : CoreSt} (h : s.Wf) (hk : k.Wf) : (s.setCore c k).Wf :=
  { h with cores := (length_setNth _ _ _).trans h.cores, coresWf := forall_setNth h.coresWf hk }
theorem setStack {t : Nat} {k : StackSt} (h : s.Wf) (hk : k.Wf) : (s.setStack t k).Wf :=
  { h with stks := (length_setNth _ _ _).trans h.stks, stksWf := forall_setNth h.stksWf hk }
theorem setPart {p : Nat} {k : PartSt} (h : s.Wf) (hk : k.Wf) : (s.setPart p k).Wf :=
  { h with parts := (length_setNth _ _ _).trans h.parts, partsWf := forall_setNth h.partsWf hk }
theorem setPan {u : Nat} {k : PanSt} (h : s.Wf) (hk : k.Wf) : (s.setPan u k).Wf :=
  { h with pans := sorted_smPut h.pans, pansWf := forall_smPut h.pansWf hk }
theorem setBatch {b : Batch} (h : s.Wf) (hb : b.Wf) : (s.setBatch b).Wf :=
  { h with batches := forall_map h.batches fun x hx => by split; exacts [hb, hx] }
theorem setDpower {d : Nat} {x : DiePower} (h : s.Wf) (hx : x.Wf) : (s.setDpower d x).Wf :=
  { h with power := ⟨(length_setNth _ _ _).trans h.power.dies, forall_setNth h.power.diesWf hx⟩ }
theorem setGranule {g : Nat} {x : Gran} (h : s.Wf) : (s.setGranule g x).Wf := { h with gran := smWf_smPut _ _ _ _ h.gran }

end State.Wf

end Sys2Proof.Machine
end

section
/-!
SUPPORT. How the invariant goes through the shapes that operations are built of: conditionals, loops, results that carry a state, one
field or one part of the block replaced, and the outcome of a command.
-/
namespace Sys2Proof.Machine
open Sys2Proof Sys2Proof.Spec

/-! ### Fields the invariant does not speak of -/

theorem CoreSt.Wf.keep {k : CoreSt} {pc body bodyLen item run vl vrow seed seq queue ftq stq ibuf semWait trfBad trfCe cfg cyc cycStart}
    (h : k.Wf) : CoreSt.Wf { k with
      pc, body, bodyLen, item, run, vl, vrow, seed, seq, queue, ftq, stq, ibuf, semWait, trfBad, trfCe, cfg, cyc, cycStart } :=
  { h with }

theorem StackSt.Wf.keep {k : StackSt} {bucket actEpoch nrrDue rakeCarry trainTries ceOrder} (h : k.Wf) :
    StackSt.Wf { k with bucket, actEpoch, nrrDue, rakeCarry, trainTries, ceOrder } := { h with }

theorem PartSt.Wf.keep {k : PartSt} {alm phase startPend resumePend stopReq quiesceReq stoppedFor stopAtBoundary plan nextPlan openAt
    lastTick eve eveStalled retryLate abandonTick passed entry issued done abandon die1Ready lastColl openTick tickAt heard decision
    inDoubt askAt staging ranges regions shares acctEvery acctEn stepCfg svCfg svSpec svPlace svReq svReqCfg accNJ figs owed accSince
    accFirst accCommits accAbandons energyBad serve} (h : k.Wf) :
    PartSt.Wf { k with
      alm, phase, startPend, resumePend, stopReq, quiesceReq, stoppedFor, stopAtBoundary, plan, nextPlan, openAt,
      lastTick, eve, eveStalled, retryLate, abandonTick, passed, entry, issued, done, abandon, die1Ready, lastColl, openTick, tickAt,
      heard, decision, inDoubt, askAt, staging, ranges, regions, shares, acctEvery, acctEn, stepCfg, svCfg, svSpec, svPlace, svReq,
      svReqCfg, accNJ, figs, owed, accSince, accFirst, accCommits, accAbandons, energyBad, serve } :=
  { h with }

theorem PanSt.Wf.keep {k : PanSt} {queue run obufBad} (h : k.Wf) : PanSt.Wf { k with queue, run, obufBad } := { h with }

theorem Batch.Wf.keep {b : Batch} {words await held pans item} (h : b.Wf) : Batch.Wf { b with words, await, held, pans, item } := { h with }

theorem DiePower.Wf.keep {x : DiePower} {plan reqAt mark reached cool release ramp sensorBad vtBad} (h : x.Wf) :
    DiePower.Wf { x with plan, reqAt, mark, reached, cool, release, ramp, sensorBad, vtBad } := { h with }

theorem PowerSt.Wf.keep {x : PowerSt} {meas energy round roundAt fast} (h : x.Wf) :
    PowerSt.Wf { x with meas, energy, round, roundAt, fast } := { h with }

theorem NetSt.Wf.keep {x : NetSt} {mgmt pubs fwd notices ranges retrain} (h : x.Wf) :
    NetSt.Wf { x with mgmt, pubs, fwd, notices, ranges, retrain } := { h with }

theorem LinkSt.Wf.keep {x : LinkSt} {active run} (h : x.Wf) : LinkSt.Wf { x with active, run } := { h with }

theorem FlashSt.Wf.keep {x : FlashSt} {log remaps hours} (h : x.Wf) : FlashSt.Wf { x with log, remaps, hours } := { h with }

theorem SecSt.Wf.keep {x : SecSt} {idOk stage upd devId} (h : x.Wf) : SecSt.Wf { x with idOk, stage, upd, devId } := { h with }

theorem ModuleSt.Wf.keep {x : ModuleSt} {power wakeAt exitReq resets idlTest idl margins outbox} (h : x.Wf) :
    ModuleSt.Wf { x with power, wakeAt, exitReq, resets, idlTest, idl, margins, outbox } := { h with }

theorem AgeSt.Wf.keep {x : AgeSt} {ns trigger run deferred unlogged worn} (h : x.Wf) :
    AgeSt.Wf { x with ns, trigger, run, deferred, unlogged, worn } := { h with }

theorem TxSt.Wf.keep {x : TxSt} {seen queue wire} (h : x.Wf) : TxSt.Wf { x with seen, queue, wire } := { h with }

/-! ### Maps of a stack replaced -/

theorem StackSt.Wf.bankMaps {k : StackSt} {openRow lastAct acts actsOld actEpoch nrrDue} (h : k.Wf) (ho : Map.sorted openRow = true)
    (hl : Map.sorted lastAct = true) (ha : Map.sorted acts = true) (hp : Map.sorted actsOld = true) :
    StackSt.Wf { k with openRow, lastAct, acts, actsOld, actEpoch, nrrDue } :=
  { h with openRow := ho, lastAct := hl, acts := ha, actsOld := hp }

theorem StackSt.Wf.refreshMaps {k : StackSt} {owed fresh refNext} (h : k.Wf) (ho : Map.sorted owed = true) (hf : Map.sorted fresh = true)
    (hr : Map.sorted refNext = true) : StackSt.Wf { k with owed, fresh, refNext } := { h with owed := ho, fresh := hf, refNext := hr }

theorem StackSt.Wf.weakRowsWith {k : StackSt} {m} (h : k.Wf) (hm : Map.sorted m = true) : StackSt.Wf { k with weakRows := m } :=
  { h with weakRows := hm }

theorem StackSt.Wf.grantsWith {k : StackSt} {m} (h : k.Wf) (hm : Map.sorted m = true) : StackSt.Wf { k with grants := m } :=
  { h with grants := hm }

theorem AgeSt.Wf.histWith {k : AgeSt} {m} (h : k.Wf) (hm : Map.sorted m = true) : AgeSt.Wf { k with hist := m } := { h with hist := hm }

theorem AgeSt.Wf.baseWith {k : AgeSt} {m run trigger} (h : k.Wf) (hm : Map.sorted m = true) :
    AgeSt.Wf { k with base := m, run, trigger } := { h with base := hm }

theorem TxSt.Wf.mapsWith {x : TxSt} {busy turns pace queue wire} (h : x.Wf) (hb : Map.sorted busy = true) (ht : Map.sorted turns = true)
    (hp : Map.sorted pace = true) : TxSt.Wf { x with busy, turns, pace, queue, wire } := { h with busy := hb, turns := ht, pace := hp }

/-! ### A record chosen on a condition -/

section
variable {c : Prop} [Decidable c]

theorem CoreSt.Wf.ite {a b : CoreSt} (ha : a.Wf) (hb : b.Wf) : (if c then a else b).Wf := by split; exacts [ha, hb]
theorem StackSt.Wf.ite {a b : StackSt} (ha : a.Wf) (hb : b.Wf) : (if c then a else b).Wf := by split; exacts [ha, hb]
theorem PanSt.Wf.ite {a b : PanSt} (ha : a.Wf) (hb : b.Wf) : (if c then a else b).Wf := by split; exacts [ha, hb]
theorem PartSt.Wf.ite {a b : PartSt} (ha : a.Wf) (hb : b.Wf) : (if c then a else b).Wf := by split; exacts [ha, hb]

end

/-! ### Parts of a block that keeps the invariant, under the name of the part -/

section
variable {s : State}

theorem CoreSt.Wf.core {c : Nat} (h : s.Wf) : (s.core c).Wf := h.core
theorem StackSt.Wf.stack {t : Nat} (h : s.Wf) : (s.stack t).Wf := h.stack
theorem PartSt.Wf.part {p : Nat} (h : s.Wf) : (s.part p).Wf := h.part
theorem PanSt.Wf.pan {u : Nat} (h : s.Wf) : (s.pan u).Wf := h.pan
theorem FlashSt.Wf.flash (h : s.Wf) : s.sec.flash.Wf := h.sec.flash
theorem DiePower.Wf.dpower {d : Nat} (h : s.Wf) : (s.dpower d).Wf := h.dpower

end

/-! ### A state that carries the invariant through an operation -/

namespace State.Wf
variable {s : State} {α β γ : Type}

theorem keep {pending batchSeq sealing colls repairDue sent tick answer delivered asy free} (h : s.Wf) :
    State.Wf { s with pending, batchSeq, sealing, colls, repairDue, sent, tick, answer, delivered, asy, free } := { h with }

theorem netWith {x : NetSt} (h : s.Wf) (hx : s.Wf → x.Wf) : State.Wf { s with net := x } := { h with net := hx h }
theorem linkWith {x : LinkSt} (h : s.Wf) (hx : s.Wf → x.Wf) : State.Wf { s with link := x } := { h with link := hx h }
theorem modWith {x : ModuleSt} (h : s.Wf) (hx : s.Wf → x.Wf) : State.Wf { s with mod := x } := { h with mod := hx h }
theorem secWith {x : SecSt} (h : s.Wf) (hx : s.Wf → x.Wf) : State.Wf { s with sec := x } := { h with sec := hx h }
theorem ageWith {x : AgeSt} (h : s.Wf) (hx : s.Wf → x.Wf) : State.Wf { s with age := x } := { h with age := hx h }
theorem txWith {x : TxSt} (h : s.Wf) (hx : s.Wf → x.Wf) : State.Wf { s with tx := x } := { h with tx := hx h }
theorem csumBadWith {m : SMap Bool} (h : s.Wf) (hm : s.Wf → Map.sorted m = true) : State.Wf { s with csumBad := m } :=
  { h with csumBad := hm h }

theorem memWith {m : SMap Byte} {free : Nat} (h : s.Wf) (hm : s.Wf → Memory.wf m = true) : State.Wf { s with mem := m, free := free } :=
  { h with mem := hm h }
theorem eccWith {m : SMap Line} (h : s.Wf) (hm : s.Wf → smWf 0#512 m = true) : State.Wf { s with ecc := m } := { h with ecc := hm h }
theorem metaFlipWith {m : SMap (BitVec 3)} (h : s.Wf) (hm : s.Wf → smWf 0#3 m = true) : State.Wf { s with metaFlip := m } :=
  { h with metaFlip := hm h }
theorem hostWith {m : SMap Byte} (h : s.Wf) (hm : s.Wf → Memory.wf m = true) : State.Wf { s with host := m } :=
  { h with host := hm h }

theorem msixMaps {held sent : SMap Nat} (h : s.Wf) (hh : Map.sorted held = true) (hs : Map.sorted sent = true) :
    State.Wf { s with msixHeld := held, msixSent := sent } := { h with msixHeld := hh, msixSent := hs }
theorem linesWith {mem : SMap Byte} {ecc flipped : SMap Line} {metaFlip : SMap (BitVec 3)} {sealing : List (Nat × Nat)} {free : Nat}
    (h : s.Wf) (hx : s.Wf → Memory.wf mem = true ∧ smWf 0#512 ecc = true ∧ smWf 0#3 metaFlip = true ∧ smWf 0#512 flipped = true) :
    State.Wf { s with mem, ecc, metaFlip, flipped, sealing, free } :=
  let ⟨mem, ecc, metaFlip, flipped⟩ := hx h
  { h with mem, ecc, metaFlip, flipped }

theorem batchesWith {l : List Batch} {n : Nat} (h : s.Wf) (hl : s.Wf → ∀ b ∈ l, b.Wf) :
    State.Wf { s with batches := l, batchSeq := n } := { h with batches := hl h }

theorem partsMap {f : PartSt → PartSt} (h : s.Wf) (hf : ∀ k, k.Wf → (f k).Wf) : State.Wf { s with parts := s.parts.map f } :=
  { h with parts := (List.length_map _).trans h.parts, partsWf := forall_map h.partsWf hf }

theorem modCore {c : Nat} {k : CoreSt} (h : s.Wf) (hk : (s.core c).Wf → k.Wf) : (s.setCore c k).Wf := h.setCore (hk h.core)
theorem modStack {t : Nat} {k : StackSt} (h : s.Wf) (hk : (s.stack t).Wf → k.Wf) : (s.setStack t k).Wf := h.setStack (hk h.stack)
theorem modPart {p : Nat} {k : PartSt} (h : s.Wf) (hk : (s.part p).Wf → k.Wf) : (s.setPart p k).Wf := h.setPart (hk h.part)
theorem modPan {u : Nat} {k : PanSt} (h : s.Wf) (hk : (s.pan u).Wf → k.Wf) : (s.setPan u k).Wf := h.setPan (hk h.pan)
theorem modDpower {d : Nat} {x : DiePower} (h : s.Wf) (hx : (s.dpower d).Wf → x.Wf) : (s.setDpower d x).Wf := h.setDpower (hx h.dpower)

/-! ### Conditionals -/

section
variable {c : Prop} [Decidable c]

theorem ite {a b : State} (ha : a.Wf) (hb : b.Wf) : (if c then a else b).Wf := by split; exacts [ha, hb]
theorem ite2 {a b : α × State} (ha : a.2.Wf) (hb : b.2.Wf) : (if c then a else b).2.Wf := by split; exacts [ha, hb]
theorem ite3 {a b : α × β × State} (ha : a.2.2.Wf) (hb : b.2.2.Wf) : (if c then a else b).2.2.Wf := by split; exacts [ha, hb]

/-- An operation done on a condition to the state at hand. -/
theorem when {a : State} (h : s.Wf) (k : s.Wf → a.Wf) : (if c then a else s).Wf := ite (k h) h
theorem whenNot {a : State} (h : s.Wf) (k : s.Wf → a.Wf) : (if c then s else a).Wf := ite h (k h)

end

/-! ### Loops -/

theorem foldl {l : List β} {f : State → β → State} (h : s.Wf) (k : ∀ s x, s.Wf → (f s x).Wf) : (l.foldl f s).Wf := by
  induction l generalizing s with
  | nil => exact h
  | cons x l ih => exact ih (k s x h)

/-- A loop over parts that all have a property. -/
theorem foldl_of {l : List β} {P : β → Prop} {f : State → β → State} (h : s.Wf) (hl : ∀ x ∈ l, P x)
    (k : ∀ s x, P x → s.Wf → (f s x).Wf) :
    (l.foldl f s).Wf := by
  induction l generalizing s with
  | nil => exact h
  | cons x l ih => exact ih (k s x (hl x (.head l)) h) fun y hy => hl y (.tail x hy)

theorem foldl2 {l : List β} {f : α × State → β → α × State} {a : α × State} (h : a.2.Wf) (k : ∀ a x, a.2.Wf → (f a x).2.Wf) :
    (l.foldl f a).2.Wf := by
  induction l generalizing a with
  | nil => exact h
  | cons x l ih => exact ih (k a x h)

theorem foldl3 {δ : Type} {l : List δ} {f : α × β × State → δ → α × β × State} {a : α × β × State} (h : a.2.2.Wf)
    (k : ∀ a x, a.2.2.Wf → (f a x).2.2.Wf) : (l.foldl f a).2.2.Wf := by
  induction l generalizing a with
  | nil => exact h
  | cons x l ih => exact ih (k a x h)

/-! ### The state of a result whose parts were named -/

theorem of2 {p : α × State} {a : α} {t : State} (e : p = (a, t)) (h : p.2.Wf) : t.Wf := by subst e; exact h
theorem of3 {p : α × β × State} {a : α} {b : β} {t : State} (e : p = (a, b, t)) (h : p.2.2.Wf) : t.Wf := by subst e; exact h
theorem of4 {p : α × β × γ × State} {a : α} {b : β} {c : γ} {t : State} (e : p = (a, b, c, t)) (h : p.2.2.2.Wf) : t.Wf := by
  subst e; exact h

end State.Wf

/-! ### Outcomes -/

/-- An outcome is a next state, and one that keeps the invariant of the state it came from. -/
def Keeps (s : State) (o : Host.Outcome State Fault Refusal) : Prop := ∃ t, o = .next t ∧ (s.Wf → t.Wf)

namespace Keeps
variable {s t u : State}

theorem ok (h : s.Wf → t.Wf) : Keeps s (Machine.ok t) := ⟨t, rfl, h⟩
theorem stay : Keeps s (Machine.ok s) := ok id

theorem trans {o : Host.Outcome State Fault Refusal} (h : s.Wf → t.Wf) (k : Keeps t o) : Keeps s o :=
  let ⟨u, e, hu⟩ := k
  ⟨u, e, fun hs => hu (h hs)⟩

theorem ite {c : Prop} [Decidable c] {a b : Host.Outcome State Fault Refusal} (ha : Keeps s a) (hb : Keeps s b) :
    Keeps s (if c then a else b) := by split; exacts [ha, hb]

theorem occurs {c : Bool} (h : s.Wf → t.Wf) : Keeps s (Machine.occurs c s t) := ⟨_, rfl, fun hs => .when hs h⟩

end Keeps

end Sys2Proof.Machine
end

section
/-!
SUPPORT. The invariant through the operations of the registers (Csr).
-/
namespace Sys2Proof.Machine
open Sys2Proof Sys2Proof.Spec
variable {s t : State}

theorem State.Wf.plainWrite {r i j w mask} (h : s.Wf) : (s.plainWrite r i j w mask).Wf := .setWord h

theorem resetEntry_key {keep : Reg → Nat → Nat → Field → Bool} {e e' : Nat × Word} (h : resetEntry keep e = some e') :
    e'.1 = e.1 := by
  unfold resetEntry at h
  split at h
  · cases h
  · extract_lets at h
    split at h
    · cases h
    · cases h
      rfl

theorem resetEntry_ne_zero {keep : Reg → Nat → Nat → Field → Bool} {e e' : Nat × Word} (h : resetEntry keep e = some e') :
    e'.2 ≠ 0#64 := by
  unfold resetEntry at h
  split at h
  · cases h
  · extract_lets v at h
    split at h
    · cases h
    next hv =>
      cases h
      exact hv

theorem State.Wf.resetCsrs {keep} (h : s.Wf) : (s.resetCsrs keep).Wf :=
  { h with csr := (smWf_iff _ _).2 ⟨sorted_filterMap (sorted_of_smWf h.csr) fun _ _ => resetEntry_key, fun e he => by
      obtain ⟨e', -, he'⟩ := List.mem_filterMap.1 he
      exact resetEntry_ne_zero he'⟩ }

end Sys2Proof.Machine
end

section
/-!
SUPPORT. The invariant through the operations of cores, partitions and stacks by number, free values, doorbells, messages,
error records and faults (Ops).
-/
namespace Sys2Proof.Machine
open Sys2Proof Sys2Proof.Spec
variable {s t : State}

theorem State.Wf.freeBelow {n} (h : s.Wf) : (s.freeBelow n).2.Wf := { h with }

theorem State.Wf.freeChoice (h : s.Wf) : (s.freeChoice).2.Wf := { h with }

theorem State.Wf.msix {vec} (h : s.Wf) : (s.msix vec).Wf :=
  .ite (.set <| .msixMaps h (sorted_smPut h.msixHeld) h.msixSent) (.msixMaps h h.msixHeld (sorted_smPut h.msixSent))

theorem State.Wf.dbSum {r} (h : s.Wf) : (s.dbSum r).Wf := .set h

theorem State.Wf.send {m} (h : s.Wf) : (s.send m).Wf := { h with }

theorem State.Wf.setQp {q x} (h : s.Wf) : (s.setQp q x).Wf := { h with net := { h.net with qps := sorted_smPut h.net.qps } }

theorem State.Wf.sendOn {q m} (h : s.Wf) : (s.sendOn q m).Wf := .ite h (.send <| .setQp h)

theorem State.Wf.sendDev {d m} (h : s.Wf) : (s.sendDev d m).Wf := .ite (.sendOn h) h

theorem State.Wf.sendGroup {g m} (h : s.Wf) : (s.sendGroup g m).Wf := .foldl h fun _ _ h => .sendDev h

theorem State.Wf.doorNotice {pend} (h : s.Wf) : (s.doorNotice pend).Wf := .sendDev { h with net := { h.net with } }

theorem State.Wf.dbSignal {r sig} (h : s.Wf) : (s.dbSignal r sig).Wf :=
  .ite (.foldl h fun _ _ h => .doorNotice h) (.ite (.foldl h fun _ _ h => .msix h) h)

theorem State.Wf.ring {r ring} (h : s.Wf) : (s.ring r ring).Wf := .dbSum <| .dbSignal <| .set h

theorem State.Wf.ringHost {b} (h : s.Wf) : (s.ringHost b).Wf := .ring h

theorem State.Wf.post {r} (h : s.Wf) : (s.post r).Wf := .ite (.set <| .bump h) (.set <| .setWord <| .setWord <| .setWord <| .setWord h)

theorem State.Wf.logDecision {g b c} (h : s.Wf) : (s.logDecision g b c).Wf := .set <| .set h

theorem State.Wf.sendDecision {g b c} (h : s.Wf) : (s.sendDecision g b c).Wf := .sendGroup <| .logDecision h

theorem State.Wf.decideVote {p c} (h : s.Wf) : (s.decideVote p c).Wf := .ite h (.setPart (.sendDecision h) { h.part with })

theorem State.Wf.voteAbandon {p} (h : s.Wf) : (s.voteAbandon p).Wf := .ite h (.ite (.decideVote h) (.sendDev h))

theorem State.Wf.noteCause {p cause} (h : s.Wf) : (s.noteCause p cause).Wf := by
  unfold State.noteCause
  split
  exacts [.set h, .set <| .set h, .set h, .set h, .set h]

theorem State.Wf.beginAbandon {p a} (h : s.Wf) : (s.beginAbandon p a).Wf := by
  unfold State.beginAbandon
  extract_lets
  split
  · split
    exacts [.ite (.noteCause <| .setPart h { h.part with }) (.setPart h { h.part with }), .setPart h { h.part with }]
  · exact h
  · exact .noteCause <| .whenNot (.keep <| .setPart h { h.part with }) fun h => .voteAbandon h

/-- The step ends in a case split over the written state, which the kernel would evaluate on comparing the definition with its body:
the function that the split asks is made a variable first. -/
theorem State.Wf.coreFaultAs {c e pc f unit cls aunit stop} (h : s.Wf) : (s.coreFaultAs c e pc f unit cls aunit stop).Wf := by
  obtain ⟨F, hF⟩ : ∃ F, F = @State.coreFaultAs := ⟨_, rfl⟩
  obtain ⟨part, hpart⟩ : ∃ f, f = @State.partOf := ⟨_, rfl⟩
  rw [← hF]
  delta State.coreFaultAs at hF
  rw [← hpart] at hF
  subst hF
  beta_reduce
  extract_lets _ _ _ _ _ s1 _ s2 _ s3
  have h1 : s1.Wf := .ite (.set h) (.set <| .set <| .set <| .set <| .set <| .set <| .set h)
  have h2 : s2.Wf := .post h1
  have h3 : s3.Wf := .setCore h2 (.keep (.core h2))
  split
  · exact .beginAbandon h3
  · exact h3

theorem State.Wf.coreFault {c e pc f} (h : s.Wf) : (s.coreFault c e pc f).Wf := by
  unfold State.coreFault
  extract_lets
  split
  exacts [.modPart (.coreFaultAs h) .keep, .coreFaultAs h]

theorem State.Wf.hostWrite {a n v} (h : s.Wf) : (s.hostWrite a n v).Wf := .count { h with host := wf_smPoke _ _ _ _ h.host }

theorem State.Wf.hostWriteList {a l} (h : s.Wf) : (s.hostWriteList a l).Wf := .count { h with host := wf_smPokeList _ _ _ h.host }

end Sys2Proof.Machine
end

section
/-!
SUPPORT. The invariant through the operations of stack memory and shared buffers (Memory).
-/
namespace Sys2Proof.Machine
open Sys2Proof Sys2Proof.Spec
variable {s t : State}

theorem State.Wf.stackRuns {t} (h : s.Wf) : (s.stackRuns t).Wf := .setStack (.set h) { h.stack with refNext := rfl }

theorem State.Wf.traffic {w inStack write a n} (h : s.Wf) : (s.traffic w inStack write a n).Wf := by
  unfold State.traffic
  split
  exacts [.foldl h fun _ _ h => .setStack h { h.stack with queue := sorted_smPut h.stack.queue }, h]

theorem State.Wf.account {p i n} (h : s.Wf) : (s.account p i n).Wf := by
  unfold State.account
  split
  exacts [.setPart h { h.part with acc := (length_setNth _ _ _).trans h.part.acc }, h]

theorem State.Wf.enterCE {t ln sym} (h : s.Wf) : (s.enterCE t ln sym).Wf := by
  unfold State.enterCE
  extract_lets
  split
  · exact .set <| .set <| .set <| .set <| .set <| .when (.bump h) fun h => .post <| .set h
  · split
    · exact .setStack (.set <| .set <| .set <| .set <| .set <| .when (.bump h) fun h => .post <| .set h)
        (.keep <| .stack <| .when (.bump h) fun h => .post <| .set h)
    · split
      · exact .setStack (.set <| .set <| .set <| .set <| .set <| .when (.bump h) fun h => .post <| .set h)
          (.keep <| .stack <| .when (.bump h) fun h => .post <| .set h)
      · exact .count <| .when (.bump h) fun h => .post <| .set h

theorem State.Wf.poisonShared {w r g dpa pch} (h : s.Wf) : (s.poisonShared w r g dpa pch).Wf :=
  .ringHost <|
    .post <|
      .foldl
        (.whenNot
          (.setGranule { h with
            ecc := smWf_smDrop _ _ _ _ h.ecc
            metaFlip := smWf_smDrop _ _ _ _ h.metaFlip
            flipped := smWf_smDrop _ _ _ _ h.flipped })
          fun h => by split; exacts [.set <| .set <| .set h, .set h])
        fun _ _ h => .ite (.setPart h { h.part with }) (.ite h (.setPart h { h.part with }))

theorem State.Wf.uncorrectable {w ln} (h : s.Wf) : (s.uncorrectable w ln).Wf :=
  .ite h
    (by
      split
      · exact .poisonShared <| .when (.post <| .bump <| .eccWith (.setGranule h) fun h => smWf_smErase _ _ _ h.ecc) fun h => .count h
      · exact .when (.post <| .bump <| .eccWith (.setGranule h) fun h => smWf_smErase _ _ _ h.ecc) fun h => .count h)

theorem State.Wf.hostLine {ln v} (h : s.Wf) : (s.hostLine ln v).Wf :=
  .setGranule { h with
    mem := wf_smPoke _ _ _ _ h.mem
    ecc := smWf_smErase _ _ _ h.ecc
    metaFlip := smWf_smErase _ _ _ h.metaFlip
    flipped := smWf_smErase _ _ _ h.flipped }

theorem State.Wf.snoop {w ln} (h : s.Wf) : (s.snoop w ln).Wf :=
  .ite
    (by
      split
      · rename_i _ e
        exact .hostLine <| .keep <| .of2 e (.freeChoice h)
      · rename_i _ e
        exact .of2 e (.freeChoice h)) h

theorem State.Wf.readLine {w ln} (h : s.Wf) : (s.readLine w ln).2.Wf := by
  unfold State.readLine
  split
  · exact .ite2 (.snoop h)
      (.ite2 (.snoop h)
        (by
          extract_lets
          split
          · exact .snoop h
          · exact .enterCE <| .snoop h
          · exact .uncorrectable <| .snoop h
          · exact .ite2 (.uncorrectable <| .freeChoice <| .snoop h) (.keep <| .freeChoice <| .snoop h)))
  · exact h

theorem State.Wf.readLines {w ln n} (h : s.Wf) : (s.readLines w ln n).2.2.Wf := by
  induction n with
  | zero => exact h
  | succ n ih =>
    unfold State.readLines
    split
    rename_i e1
    split
    rename_i e2
    have h2 := State.Wf.of2 e2 (.readLine <| .of3 e1 ih)
    split
    exacts [h2, h2]

theorem State.Wf.readBytes {w a n} (h : s.Wf) : (s.readBytes w a n).2.2.Wf := .ite3 h (.readLines h)

theorem State.Wf.flipData {w t ln} (h : s.Wf) : (s.flipData w t ln).Wf :=
  .ite
    (.ite
      (.linesWith (.metaFlipWith (.bump <| .set h) fun h => smWf_smPut _ _ _ _ h.metaFlip)
        fun h => ⟨wf_smPoke _ _ _ _ h.mem, h.ecc, h.metaFlip, smWf_smPut _ _ _ _ h.flipped⟩)
      (.eccWith (.metaFlipWith (.bump <| .set h) fun h => smWf_smPut _ _ _ _ h.metaFlip) fun h => smWf_smPut _ _ _ _ h.ecc)) h

theorem State.Wf.unread {g} (h : s.Wf) : (s.unread g).Wf := { h with }

theorem State.Wf.writeLineWith {w ln full has put} (hput : ∀ m, Memory.wf m = true → Memory.wf (put m) = true) (h : s.Wf) :
    (s.writeLineWith w ln full has put).Wf := by
  unfold State.writeLineWith
  split
  · extract_lets _ s1 _ poke _ _ syms
    have h1 : s1.Wf := .unread <| .whenNot h fun h => .snoop h
    have hpoke {s : State} (h : s.Wf) : (poke s).Wf :=
      .setGranule <| .linesWith h fun h => ⟨hput _ h.mem, smWf_smErase _ _ _ h.ecc, smWf_smErase _ _ _ h.metaFlip, by
        split
        exacts [h.flipped, smWf_smPut _ _ _ _ h.flipped]⟩
    refine .flipData (.ite (.setGranule <| hpoke h1) <| .ite (hpoke <| .memWith h1 fun h => wf_smPoke _ _ _ _ h.mem) <| .ite h1 ?_)
    rcases syms with _ | ⟨sym, _ | ⟨sym', _ | _⟩⟩
    · exact hpoke h1
    · exact hpoke <| .whenNot h1 fun h => .enterCE h
    · exact .uncorrectable h1
    · exact .ite (.uncorrectable <| .freeChoice h1) (hpoke <| .memWith (.freeChoice h1) fun h => wf_smPoke _ _ _ _ h.mem)
  · exact { h with mem := hput _ h.mem }

theorem State.Wf.writeLinePart {w ln b0 n v} (h : s.Wf) : (s.writeLinePart w ln b0 n v).Wf :=
  .writeLineWith (fun _ => wf_smPoke _ _ _ _) h

theorem State.Wf.writeRaw {w a n v} (h : s.Wf) : (s.writeRaw w a n v).Wf := .ite h (.foldl h fun _ _ h => .writeLinePart h)

theorem State.Wf.openGranule {g} (h : s.Wf) : (s.openGranule g).Wf := by
  unfold State.openGranule
  split
  exacts [.setGranule h, h]

theorem State.Wf.sealGranule {g crc} (h : s.Wf) : (s.sealGranule g crc).Wf := by
  unfold State.sealGranule
  split
  exacts [.setGranule <| .csumBadWith (.ite (.bump <| .set h) h) fun h => sorted_smErase h.csumBad, h]

theorem State.Wf.sealStored {g} (h : s.Wf) : (s.sealStored g).Wf := .ite h (.sealGranule h)

theorem State.Wf.writeOpen {w a n v} (h : s.Wf) : (s.writeOpen w a n v).Wf := .ite h (.foldl (.writeRaw h) fun _ _ h => .openGranule h)

theorem State.Wf.writeSealing {w a n v} (h : s.Wf) : (s.writeSealing w a n v).Wf :=
  .ite h (.foldl h fun _ _ h => .ite (.sealGranule <| .writeRaw h) (.openGranule <| .writeRaw h))

theorem State.Wf.csumLineRecord {w g} (h : s.Wf) : (s.csumLineRecord w g).Wf := by
  unfold State.csumLineRecord
  split
  · exact .post { h with csumBad := sorted_map h.csumBad fun e => by split <;> rfl }
  · exact h

theorem State.Wf.checkGranule {w unchecked g data} (h : s.Wf) : (s.checkGranule w unchecked g data).2.Wf := by
  unfold State.checkGranule
  extract_lets
  split
  exacts [h, h, .ite2 (.csumLineRecord h) (by split; exacts [.poisonShared <| .csumLineRecord h, .csumLineRecord h])]

theorem State.Wf.makeRoom {rc ln} (h : s.Wf) : (s.makeRoom rc ln).2.Wf := .ite2 h (.freeBelow (n := 8) h)

theorem sorted_makeRoom {rc rc' : SMap (Line × Bool)} {ln : Nat} (e : s.makeRoom rc ln = (rc', t)) (h : Map.sorted rc = true) :
    Map.sorted rc' = true := by
  unfold State.makeRoom at e
  extract_lets at e
  split at e
  · cases e
    exact h
  · cases e
    exact sorted_smErase h

theorem State.Wf.cachedLine {w c ln} (h : s.Wf) : (s.cachedLine w c ln).2.Wf := by
  unfold State.cachedLine
  split
  · exact .readLine h
  · rename_i c
    split
    · exact .count h
    · split
      rename_i e1
      extract_lets s1 s2
      have h2 : s2.Wf := .count <| .traffic <| .of2 e1 (.readLine h)
      split
      rename_i e2
      exact .modCore (.of2 e2 (.makeRoom h2)) fun hk => { hk with rc := sorted_smInsert <| sorted_makeRoom e2 (CoreSt.Wf.core h2).rc }

theorem State.Wf.runAhead {w c p ln} (h : s.Wf) : (s.runAhead w c p ln).Wf := by
  unfold State.runAhead
  split
  · exact .ite
      (by
        split
        · rename_i _ e
          exact .cachedLine <| .of2 e (.freeChoice h)
        · rename_i _ e
          exact .of2 e (.freeChoice h)) h
  · exact h

theorem State.Wf.granuleData {w c ln n} (h : s.Wf) : (s.granuleData w c ln n).2.2.Wf := by
  induction n with
  | zero => exact h
  | succ n ih =>
    unfold State.granuleData
    split
    rename_i e1
    split
    rename_i e2
    have h2 := State.Wf.of2 e2 (.cachedLine <| .of3 e1 ih)
    split
    exacts [h2, h2]

theorem State.Wf.computeGranule {w inStack unchecked c g} (h : s.Wf) : (s.computeGranule w inStack unchecked c g).2.2.Wf := by
  unfold State.computeGranule
  split
  · refine .ite3 h ?_
    extract_lets s1
    have h1 : s1.Wf := .whenNot h fun h => .traffic h
    split
    rename_i e1
    split
    · exact .of3 e1 (.granuleData h1)
    · split
      all_goals
        rename_i e2
        exact .of2 e2 (.checkGranule <| .of3 e1 (.granuleData h1))
  · exact .ite3 h h
  · exact h

theorem State.Wf.computeGranules {w inStack unchecked c gs} (h : s.Wf) : (s.computeGranules w inStack unchecked c gs).2.2.Wf := by
  induction gs generalizing s with
  | nil => exact h
  | cons g gs ih => exact ih (.computeGranule h)

theorem State.Wf.updateCache {c a n v} (h : s.Wf) : (s.updateCache c a n v).Wf :=
  .setCore h { h.core with
    rc := sorted_map h.core.rc fun e => by
      extract_lets
      split <;> rfl }

end Sys2Proof.Machine
end

section
/-!
SUPPORT. The invariant through the operations of the fetch and the frame of an Axver row (Fetch).
-/
namespace Sys2Proof.Machine
open Sys2Proof Sys2Proof.Spec
variable {s t : State}

theorem State.Wf.setX {c r v} (h : s.Wf) : (s.setX c r v).Wf :=
  .ite h (.setCore h { h.core with x := (length_setNth _ _ _).trans h.core.x })

theorem State.Wf.setPc {c a} (h : s.Wf) : (s.setPc c a).Wf := .setCore h { h.core with }

theorem State.Wf.next {c} (h : s.Wf) : (s.next c).Wf := .setPc h

theorem State.Wf.flag {c fl} (h : s.Wf) : (s.flag c fl).Wf := .ite h (.setWord h)

theorem State.Wf.holdCode {c g v} (h : s.Wf) : (s.holdCode c g v).Wf := .setCore h { h.core with }

theorem State.Wf.prefetchCode {c p g} (h : s.Wf) : (s.prefetchCode c p g).Wf := by
  refine .ite h ?_
  split
  · rename_i e
    have h1 := State.Wf.of2 e (.freeChoice h)
    split
    · rename_i e'
      exact .holdCode <| .of3 e' (.computeGranule h1)
    · exact h1
  · rename_i e
    exact .of2 e (.freeChoice h)

theorem State.Wf.fetch {c p} (h : s.Wf) : (s.fetch c p).2.Wf := by
  refine .ite2 h ?_
  split
  · exact h
  · split
    iterate 2
      · split
        rename_i e
        have h1 := State.Wf.of3 e (.computeGranule h)
        split
        · exact h1
        · dsimp only
          exact .prefetchCode <| .holdCode h1
    · exact h

theorem State.Wf.scalarFault {c code addr stack} (h : s.Wf) : (s.scalarFault c code addr stack).Wf := .coreFault h

theorem Keeps.axRow {c op legal f} (hf : ∀ p w s, State.Wf s → (f p w s).Wf) : Keeps s (s.axRow c op legal f) := by
  unfold State.axRow
  split
  · exact .stay
  · split
    · rename_i _ e
      exact .ok fun h => .coreFault <| .of2 e (.fetch h)
    · rename_i _ e
      exact .ite .stay (.ite (.ok fun h => hf _ _ _ (.of2 e (.fetch h))) (.ok fun h => .scalarFault <| .of2 e (.fetch h)))

end Sys2Proof.Machine
end

section
/-!
SUPPORT. The invariant through the operations of the scalar unit (Scalar).
-/
namespace Sys2Proof.Machine
open Sys2Proof Sys2Proof.Spec
variable {s t : State}

theorem Keeps.axOp {c op legal f} : Keeps s (s.axOp c op legal f) := .axRow fun _ _ _ h => .next <| .setX <| .flag h

theorem Keeps.axImm {c op legal f} : Keeps s (s.axImm c op legal f) := .axRow fun _ _ _ h => .next <| .setX h

theorem Keeps.execAxAdd {c} : Keeps s (execAxAdd c s) := .axOp

theorem Keeps.execAxSub {c} : Keeps s (execAxSub c s) := .axOp

theorem Keeps.execAxAnd {c} : Keeps s (execAxAnd c s) := .axOp

theorem Keeps.execAxOr {c} : Keeps s (execAxOr c s) := .axOp

theorem Keeps.execAxXor {c} : Keeps s (execAxXor c s) := .axOp

theorem Keeps.execAxSll {c} : Keeps s (execAxSll c s) := .axOp

theorem Keeps.execAxSrl {c} : Keeps s (execAxSrl c s) := .axOp

theorem Keeps.execAxSra {c} : Keeps s (execAxSra c s) := .axOp

theorem Keeps.execAxSlt {c} : Keeps s (execAxSlt c s) := .axOp

theorem Keeps.execAxSltu {c} : Keeps s (execAxSltu c s) := .axOp

theorem Keeps.execAxMul {c} : Keeps s (execAxMul c s) := .axOp

theorem Keeps.execAxMulh {c} : Keeps s (execAxMulh c s) := .axOp

theorem Keeps.execAxMulhu {c} : Keeps s (execAxMulhu c s) := .axOp

theorem Keeps.execAxDiv {c} : Keeps s (execAxDiv c s) := .axOp

theorem Keeps.execAxDivu {c} : Keeps s (execAxDivu c s) := .axOp

theorem Keeps.execAxRem {c} : Keeps s (execAxRem c s) := .axOp

theorem Keeps.execAxRemu {c} : Keeps s (execAxRemu c s) := .axOp

theorem Keeps.execAxMin {c} : Keeps s (execAxMin c s) := .axOp

theorem Keeps.execAxMax {c} : Keeps s (execAxMax c s) := .axOp

theorem Keeps.execAxMinu {c} : Keeps s (execAxMinu c s) := .axOp

theorem Keeps.execAxMaxu {c} : Keeps s (execAxMaxu c s) := .axOp

theorem Keeps.execAxClz {c} : Keeps s (execAxClz c s) := .axOp

theorem Keeps.execAxPopc {c} : Keeps s (execAxPopc c s) := .axOp

theorem Keeps.execAxSel {c} : Keeps s (execAxSel c s) := .axOp

theorem Keeps.execAxAddi {c} : Keeps s (execAxAddi c s) := .axImm

theorem Keeps.execAxAndi {c} : Keeps s (execAxAndi c s) := .axImm

theorem Keeps.execAxOri {c} : Keeps s (execAxOri c s) := .axImm

theorem Keeps.execAxXori {c} : Keeps s (execAxXori c s) := .axImm

theorem Keeps.execAxSlli {c} : Keeps s (execAxSlli c s) := .axImm

theorem Keeps.execAxSrli {c} : Keeps s (execAxSrli c s) := .axImm

theorem Keeps.execAxSrai {c} : Keeps s (execAxSrai c s) := .axImm

theorem Keeps.execAxSlti {c} : Keeps s (execAxSlti c s) := .axImm

theorem Keeps.execAxSltiu {c} : Keeps s (execAxSltiu c s) := .axImm

theorem Keeps.execAxLi {c} : Keeps s (execAxLi c s) := .axRow fun _ _ _ h => .next <| .setX h

theorem Keeps.execAxLih {c} : Keeps s (execAxLih c s) := .axRow fun _ _ _ h => .next <| .setX h

theorem Keeps.execAxFadd {c} : Keeps s (execAxFadd c s) := .axOp

theorem Keeps.execAxFsub {c} : Keeps s (execAxFsub c s) := .axOp

theorem Keeps.execAxFmul {c} : Keeps s (execAxFmul c s) := .axOp

theorem Keeps.execAxFdiv {c} : Keeps s (execAxFdiv c s) := .axOp

theorem Keeps.execAxFma {c} : Keeps s (execAxFma c s) := .axOp

theorem Keeps.execAxFsqrt {c} : Keeps s (execAxFsqrt c s) := .axOp

theorem Keeps.execAxFcmp {c} : Keeps s (execAxFcmp c s) := .axRow fun _ _ _ h => .next <| .setX <| .flag h

theorem Keeps.execAxFcvt {c} : Keeps s (execAxFcvt c s) := .axRow fun _ _ _ h => .next <| .setX <| .flag h

theorem Keeps.execAxRds {c} : Keeps s (execAxRds c s) := .axRow fun _ _ _ h => .ite h (.next <| .setX h)

theorem Keeps.execAxWrs {c} : Keeps s (execAxWrs c s) :=
  .axRow fun _ _ _ h => .ite (.next <| .setCore h { h.core with }) (.ite h (.next <| .setCore h { h.core with }))

theorem State.Wf.setVl {c rd req} (h : s.Wf) : (s.setVl c rd req).Wf := .next <| .setX <| .setCore h { h.core with }

theorem Keeps.execAxSetvl {c} : Keeps s (execAxSetvl c s) := .axRow fun _ _ _ h => .setVl h

theorem Keeps.execAxSetvli {c} : Keeps s (execAxSetvli c s) := .axRow fun _ _ _ h => .setVl h

theorem Keeps.axBranch {c op f} : Keeps s (s.axBranch c op f) := .axRow fun _ _ _ h => .ite (.setPc h) (.next h)

theorem Keeps.execAxBeq {c} : Keeps s (execAxBeq c s) := .axBranch

theorem Keeps.execAxBne {c} : Keeps s (execAxBne c s) := .axBranch

theorem Keeps.execAxBlt {c} : Keeps s (execAxBlt c s) := .axBranch

theorem Keeps.execAxBge {c} : Keeps s (execAxBge c s) := .axBranch

theorem Keeps.execAxBltu {c} : Keeps s (execAxBltu c s) := .axBranch

theorem Keeps.execAxBgeu {c} : Keeps s (execAxBgeu c s) := .axBranch

theorem Keeps.execAxJal {c} : Keeps s (execAxJal c s) := .axRow fun _ _ _ h => .setPc <| .setX h

theorem Keeps.execAxJalr {c} : Keeps s (execAxJalr c s) := .axRow fun _ _ _ h => .setPc <| .setX h

theorem Keeps.execAxNop {c} : Keeps s (execAxNop c s) := .axRow fun _ _ _ h => .next h

theorem Keeps.execUndefinedOpcode {c} : Keeps s (execUndefinedOpcode c s) := by
  unfold Machine.execUndefinedOpcode
  split
  · exact .stay
  · split
    · rename_i _ e
      exact .stay
    · rename_i _ e
      exact .ite .stay (.ok fun h => .scalarFault <| .of2 e (.fetch h))

theorem Keeps.execPcRangeFetch {c} : Keeps s (execPcRangeFetch c s) := by
  unfold Machine.execPcRangeFetch
  split
  · exact .stay
  · split
    · rename_i _ e
      exact .ite (.ok fun h => .coreFault <| .of2 e (.fetch h)) .stay
    · rename_i _ e
      exact .stay

end Sys2Proof.Machine
end

section
/-!
SUPPORT. The invariant through the operations of the scalar unit's memory accesses, semaphores and block control (ScalarMem).
-/
namespace Sys2Proof.Machine
open Sys2Proof Sys2Proof.Spec
variable {s t : State}

theorem State.Wf.invalidate {c} (h : s.Wf) : (s.invalidate c).Wf := .setCore h { h.core with rc := rfl }

theorem State.Wf.loadVolatile {c p a n} (h : s.Wf) : (s.loadVolatile c p a n).2.2.Wf := .traffic <| .readBytes h

theorem State.Wf.loadPlain {c p a n} (h : s.Wf) : (s.loadPlain c p a n).2.2.Wf := by
  unfold State.loadPlain
  split
  · exact .ite3 (by split; rename_i _ e; split; exacts [.of2 e (.cachedLine h), .of2 e (.cachedLine h)]) (.loadVolatile h)
  · exact .loadVolatile h

theorem State.Wf.faultScalar {c f} (h : s.Wf) : (s.faultScalar c f).Wf := .coreFault h

theorem Keeps.axLoad {c op f} : Keeps s (s.axLoad c op f) := .axRow fun _ _ _ h => by
  extract_lets
  split
  · exact .faultScalar h
  · refine .ite h ?_
    split
    rename_i e
    have h1 := State.Wf.of3 e (.ite3 (.loadPlain h) (.loadVolatile h))
    split
    exacts [.faultScalar h1, .next <| .setX <| .when h1 fun h => .invalidate h]

theorem Keeps.execAxLd {c} : Keeps s (execAxLd c s) := .axLoad

theorem Keeps.execAxLds {c} : Keeps s (execAxLds c s) := .axLoad

theorem State.Wf.enterStore {c a n v} (h : s.Wf) : (s.enterStore c a n v).Wf := .next <| .setCore h { h.core with }

theorem Keeps.execAxSt {c} : Keeps s (execAxSt c s) :=
  .axRow fun _ _ _ h => by extract_lets; split; exacts [.faultScalar h, .ite h (.enterStore h)]

theorem State.Wf.coreWrite {w c a n v} (h : s.Wf) : (s.coreWrite w c a n v).Wf := .updateCache <| .traffic <| .writeOpen h

theorem State.Wf.performStore {c p e} (h : s.Wf) : (s.performStore c p e).Wf := .ite (.coreWrite h) (.coreFault h)

theorem Keeps.execStoreQueueDrain {c} : Keeps s (execStoreQueueDrain c s) := by
  unfold Machine.execStoreQueueDrain
  extract_lets
  split
  rename_i _ e
  extract_lets
  split
  · exact .ok fun h => .performStore <| .setCore (.of2 e (.ite2 h (.freeBelow h))) { h.core with }
  · exact .ok fun h => .of2 e (.ite2 h (.freeBelow h))

theorem Keeps.axAtomic {c op cas f} : Keeps s (s.axAtomic c op cas f) := .axRow fun _ _ _ h => by
  extract_lets
  split
  · exact .faultScalar h
  · refine .ite h ?_
    split
    rename_i e
    have h1 := State.Wf.of3 e (.loadVolatile h)
    split
    exacts [.faultScalar h1, .next <| .setX <| .when (.coreWrite h1) fun h => .invalidate h]

theorem Keeps.execAxAmoadd {c} : Keeps s (execAxAmoadd c s) := .axAtomic

theorem Keeps.execAxAmoswap {c} : Keeps s (execAxAmoswap c s) := .axAtomic

theorem Keeps.execAxAmocas {c} : Keeps s (execAxAmocas c s) := .axAtomic

theorem Keeps.execAxFence {c} : Keeps s (execAxFence c s) := .axRow fun _ _ _ h => .ite (.next h) h

theorem Keeps.execAxCinv {c} : Keeps s (execAxCinv c s) := .axRow fun _ _ _ h => .next <| .invalidate h

theorem State.Wf.setSemQueue {p i q} (h : s.Wf) : (s.setSemQueue p i q).Wf := .setPart h { h.part with semq := sorted_smPut h.part.semq }

theorem State.Wf.completeWait {p i c n} (h : s.Wf) : (s.completeWait p i c n).Wf := .next <| .modCore (.invalidate <| .set h) .keep

theorem State.Wf.grantWaits {p i q} (h : s.Wf) : (s.grantWaits p i q).Wf := by
  induction q generalizing s with
  | nil => exact .setSemQueue h
  | cons w q ih => exact .ite (ih (.completeWait h)) (.setSemQueue h)

theorem State.Wf.signal {p i n} (h : s.Wf) : (s.signal p i n).Wf := .grantWaits <| .set h

theorem Keeps.execAxSig {c} : Keeps s (execAxSig c s) := .axRow fun _ _ _ h => .ite (.next <| .signal h) h

theorem Keeps.execAxWait {c} : Keeps s (execAxWait c s) :=
  .axRow fun _ _ _ h => .ite (.completeWait h) (.setCore (.setSemQueue h) { h.core with })

theorem Keeps.execAxTryw {c} : Keeps s (execAxTryw c s) :=
  .axRow fun _ _ _ h => .ite (.next <| .setX <| .invalidate <| .set h) (.next <| .setX h)

theorem Keeps.execAxSemrd {c} : Keeps s (execAxSemrd c s) := .axRow fun _ _ _ h => .next <| .setX h

theorem Keeps.execAxEnd {c} : Keeps s (execAxEnd c s) := .axRow fun _ _ _ h => .modCore (.next h) .keep

theorem Keeps.execAxTwait {c} : Keeps s (execAxTwait c s) := .axRow fun _ _ _ h => .ite (.setCore h { h.core with }) h

theorem Keeps.execAxPost {c} : Keeps s (execAxPost c s) := .axRow fun _ _ _ h => by
  extract_lets
  split
  · exact .faultScalar h
  · refine .ite (.next <| .set h) (.ite h ?_)
    split
    rename_i e
    have h1 := State.Wf.of3 e (.readBytes h)
    extract_lets
    split
    exacts [.faultScalar <| .traffic h1, .next <| .modPart (.traffic h1) .keep]

theorem Keeps.execAxRdwin {c} : Keeps s (execAxRdwin c s) := .axRow fun _ _ _ h => .next <| .setX <| .freeBelow (n := 41) h

end Sys2Proof.Machine
end

section
/-!
SUPPORT. The invariant through the operations of the tile register file (Trf).
-/
namespace Sys2Proof.Machine
open Sys2Proof Sys2Proof.Spec
variable {s t : State}

theorem State.Wf.trfPut {c a n v} (h : s.Wf) : (s.trfPut c a n v).Wf := .setCore h { h.core with trf := wf_smPoke _ _ _ _ h.core.trf }

theorem State.Wf.trfCorrect {c l} (h : s.Wf) : (s.trfCorrect c l).Wf := by
  unfold State.trfCorrect
  split
  exacts [h, .bump h]

theorem State.Wf.engineFault {c e pc f} (h : s.Wf) : (s.engineFault c e pc f).Wf := .coreFault <| .ite (.set <| .set <| .set h) h

end Sys2Proof.Machine
end

section
/-!
SUPPORT. The invariant through the operations of the VE (Vector).
-/
namespace Sys2Proof.Machine
open Sys2Proof Sys2Proof.Spec
variable {s t : State}

theorem State.Wf.runVe {c e} (h : s.Wf) : (s.runVe c e).Wf := by
  refine .ite h ?_
  extract_lets w k f A draws k' s1 put
  split
  · exact .engineFault h
  · split
    · exact .engineFault h
    · have h1 : s1.Wf := .setCore h (by dsimp only [k']; split; exacts [{ h.core with }, h.core])
      have hput {codes fl} : (put codes fl).Wf := .flag <| .trfPut h1
      exact .ite (.trfPut hput) hput

end Sys2Proof.Machine
end

section
/-!
SUPPORT. The invariant through the operations of the MXU (Matrix).
-/
namespace Sys2Proof.Machine
open Sys2Proof Sys2Proof.Spec
variable {s t : State}

theorem wf_mmaBank {l r : MSide} {kl : Nat} {acc : SMap Nat} (h : smWf 0 acc = true) : smWf 0 (mmaBank l r kl acc) = true := by
  unfold mmaBank
  split
  · exact h
  · refine (smWf_iff _ _).2 ⟨sorted_filterMap_upFrom fun i e he => ?_, fun e he => ?_⟩
    · dsimp only at he
      split at he <;> cases he
      rfl
    · obtain ⟨i, -, hi⟩ := List.mem_filterMap.1 he
      dsimp only at hi
      split at hi <;> cases hi
      assumption

theorem State.Wf.runMma {c e direct} (h : s.Wf) : (s.runMma c e direct).Wf := by
  unfold State.runMma
  extract_lets w k old acc k' s1 n
  split
  · exact .engineFault h
  · split
    · exact .engineFault h
    · have hk : k.Wf := h.core
      have hold : smWf 0 old = true := by
        dsimp only [old]
        split
        · split
          exacts [hk.acc1, hk.acc0]
        · rfl
      have hacc : smWf 0 acc = true := by
        dsimp only [acc]
        split
        exacts [hold, wf_mmaBank hold]
      have h1 : s1.Wf := .setCore h (.ite { hk with acc1 := hacc } { hk with acc0 := hacc })
      refine .ite (.ite (.trfPut <| .flag h1) ?_) h1
      split
      exacts [.modCore (.memWith (.flag h1) fun h => wf_smPoke _ _ _ _ h.mem) .keep, .flag h1]

end Sys2Proof.Machine
end

section
/-!
SUPPORT. The invariant through the operations of the XE (Transfer).
-/
namespace Sys2Proof.Machine
open Sys2Proof Sys2Proof.Spec
variable {s t : State}

theorem State.Wf.someOf {α : Type} {l : List α} (h : s.Wf) : (s.someOf l).2.Wf := by
  induction l generalizing s with
  | nil => exact h
  | cons x l ih => exact ih (.freeChoice h)

theorem State.Wf.shuffle {α : Type} {l : List α} (h : s.Wf) : (s.shuffle l).2.Wf := by
  induction l generalizing s with
  | nil => exact h
  | cons x l ih => exact .freeBelow (n := (s.shuffle l).1.length + 1) (ih h)

theorem State.Wf.lineTraffic {w inStack write a n} (h : s.Wf) : (s.lineTraffic w inStack write a n).Wf := .ite h (.traffic h)

theorem State.Wf.writeMany {w ws} (h : s.Wf) : (s.writeMany w ws).Wf :=
  .foldl (.foldl h fun _ _ h => .writeRaw h) fun _ _ h => .ite (.sealGranule h) (.openGranule h)

theorem State.Wf.addPiece {w f src dst n data} (h : s.Wf) : (s.addPiece w f src dst n data).2.Wf := by
  unfold State.addPiece
  extract_lets
  split
  rename_i _ e
  split
  exacts [.of3 e (.readBytes h), .traffic <| .traffic <| .writeOpen <| .of3 e (.readBytes h)]

theorem State.Wf.addPieces {w f l} (h : s.Wf) : (s.addPieces w f l).2.Wf := by
  induction l generalizing s with
  | nil => exact h
  | cons x l ih =>
    unfold State.addPieces
    split
    all_goals
      rename_i e
      have h1 := State.Wf.of2 e (.addPiece h)
    exacts [h1, ih h1]

theorem State.Wf.putRows {w d ws} (h : s.Wf) : (s.putRows w d ws).2.Wf :=
  .ite2 (.addPieces <| .foldl (.shuffle h) fun _ _ h => .lineTraffic h) (.writeMany <| .foldl h fun _ _ h => .lineTraffic h)

theorem State.Wf.getImage {w c p d} (h : s.Wf) : (s.getImage w c p d).2.2.Wf := by
  cases c
  · exact State.Wf.computeGranules h
  · dsimp only [State.getImage]
    exact .runAhead <| .computeGranules h

theorem State.Wf.plainLines {w c ln n} (h : s.Wf) : (s.plainLines w c ln n).2.2.Wf := by
  induction n with
  | zero => exact h
  | succ n ih =>
    unfold State.plainLines
    split
    rename_i e1
    have h1 := State.Wf.of3 e1 ih
    extract_lets
    split
    rename_i e2
    refine' (fun h2 => by split; exacts [h2, h2]) (State.Wf.of2 e2 ?_)
    split
    · exact .ite2 (.cachedLine h1) (.traffic <| .readLine h1)
    · exact .readLine h1

theorem State.Wf.readIndices {w c p d} (h : s.Wf) : (s.readIndices w c p d).2.2.Wf := .ite3 h (.plainLines h)

theorem State.Wf.countOob {c n} (h : s.Wf) : (s.countOob c n).Wf := .ite h (.bump <| .set h)

theorem State.Wf.getRow {w c p d j} (h : s.Wf) : (s.getRow w c p d j).2.2.Wf := .computeGranules h

theorem State.Wf.getRows {w c p d l} (h : s.Wf) : (s.getRows w c p d l).2.2.Wf := by
  induction l generalizing s with
  | nil => exact h
  | cons j l ih =>
    cases j
    exacts [ih h, ih (.getRow h)]

theorem State.Wf.runXld {c p e} (h : s.Wf) : (s.runXld c p e).Wf := by
  unfold State.runXld
  extract_lets
  split
  · exact .engineFault h
  · split
    · exact .engineFault h
    · exact .ite h
        (by
          split
          · exact .engineFault h
          · split
            rename_i _ e
            split
            exacts [.trfPut <| .of3 e (.getImage h), .engineFault <| .foldl (.someOf <| .of3 e (.getImage h)) fun _ _ h => .trfPut h])

theorem State.Wf.cacheWrites {c ws} (h : s.Wf) : (s.cacheWrites c ws).Wf := .foldl h fun _ _ h => .ite h (.updateCache h)

theorem State.Wf.refreshCache {c ws} (h : s.Wf) : (s.refreshCache c ws).Wf := .foldl h fun _ _ h => .ite h (.updateCache h)

theorem State.Wf.xePutRows {c p d ws} (h : s.Wf) : (s.xePutRows c p d ws).2.Wf :=
  .ite (.refreshCache <| .putRows h) (.cacheWrites <| .putRows h)

theorem State.Wf.xePut {c p d v} (h : s.Wf) : (s.xePut c p d v).2.Wf := .xePutRows h

theorem State.Wf.runXst {c p e} (h : s.Wf) : (s.runXst c p e).Wf := by
  unfold State.runXst
  extract_lets
  split
  · exact .engineFault h
  · split
    · exact .engineFault h
    · exact .ite h
        (by
          split
          · exact .engineFault h
          · split
            rename_i _ e
            split
            exacts [.engineFault <| .of2 e (.xePut h), .of2 e (.xePut h)])

theorem State.Wf.runXmov {c p e} (h : s.Wf) : (s.runXmov c p e).Wf := by
  unfold State.runXmov
  extract_lets
  split
  · exact .engineFault h
  · refine .ite h ?_
    split
    · exact .engineFault h
    · split
      rename_i e1
      have h1 := State.Wf.of3 e1 (.getImage h)
      split
      · exact .engineFault <| .xePutRows <| .someOf h1
      · split
        rename_i e2
        have h2 := State.Wf.of2 e2 (.xePut h1)
        split
        exacts [.engineFault h2, h2]

theorem State.Wf.trfRow {c slot at_ n v} (h : s.Wf) : (s.trfRow c slot at_ n v).Wf := .ite h (.trfPut h)

theorem State.Wf.runXgath {c p e} (h : s.Wf) : (s.runXgath c p e).Wf := by
  unfold State.runXgath
  extract_lets
  split
  · exact .engineFault h
  · split
    · exact .engineFault h
    · refine .ite h ?_
      split
      · exact .engineFault h
      · split
        rename_i e1
        have h1 := State.Wf.of3 e1 (.readIndices h)
        split
        · exact .engineFault h1
        · extract_lets
          split
          rename_i e2
          have h2 := State.Wf.of3 e2 (.getRows h1)
          split
          · exact .countOob <| .trfPut h2
          · exact .engineFault <| .countOob <| .foldl (.someOf h2) fun _ _ h => .trfRow h

theorem State.Wf.runXgatm {c p e} (h : s.Wf) : (s.runXgatm c p e).Wf := by
  unfold State.runXgatm
  extract_lets
  split
  · exact .engineFault h
  · refine .ite h ?_
    split
    · exact .engineFault h
    · split
      rename_i e1
      have h1 := State.Wf.of3 e1 (.readIndices h)
      split
      · exact .engineFault h1
      · extract_lets
        split
        rename_i e2
        have h2 := State.Wf.of3 e2 (.getRows h1)
        extract_lets base place put
        have hput {s : State} {l} (h : s.Wf) : (put s l).2.Wf :=
          .ite2 (.refreshCache <| .addPieces <| .foldl h fun _ _ h => .lineTraffic h)
            (.cacheWrites <| .writeMany <| .foldl h fun _ _ h => .lineTraffic h)
        split
        · split
          rename_i e3
          have h3 := State.Wf.of2 e3 (hput h2)
          extract_lets
          split
          exacts [.engineFault <| .countOob h3, .countOob h3]
        · exact .engineFault <| .countOob <| hput <| .someOf h2

theorem State.Wf.runXscat {c p e} (h : s.Wf) : (s.runXscat c p e).Wf := by
  unfold State.runXscat
  extract_lets
  split
  · exact .engineFault h
  · split
    · exact .engineFault h
    · refine .ite h ?_
      split
      · exact .engineFault h
      · split
        rename_i e1
        have h1 := State.Wf.of3 e1 (.readIndices h)
        split
        · exact .engineFault h1
        · extract_lets
          split
          rename_i e2
          have h2 := State.Wf.of2 e2 (.ite2 (.someOf h1) h1)
          extract_lets
          split
          rename_i e3
          have h3 := State.Wf.of2 e3 (.ite2 (.refreshCache <| .addPieces <| .foldl (.shuffle h2) fun _ _ h => .lineTraffic h)
            (.cacheWrites <| .foldl (.foldl h2 fun _ _ h => .lineTraffic h) fun _ _ h => .writeOpen h))
          split
          exacts [.engineFault h3, .countOob h3]

theorem State.Wf.runXpf {c p e} (h : s.Wf) : (s.runXpf c p e).Wf := by
  unfold State.runXpf
  extract_lets
  split
  exacts [.engineFault h, .ite h (by split; exacts [.foldl h fun _ _ h => .cachedLine h, h])]

end Sys2Proof.Machine
end

section
/-!
SUPPORT. The invariant through the operations of the engine queues (Engines).
-/
namespace Sys2Proof.Machine
open Sys2Proof Sys2Proof.Spec
variable {s t : State}

theorem State.Wf.runPissue {c p e} (h : s.Wf) : (s.runPissue c p e).Wf := by
  unfold State.runPissue
  extract_lets
  split
  · exact .engineFault h
  · split
    · exact .engineFault h
    · exact .batchesWith h fun h => List.forall_mem_append.2 ⟨h.batches, List.forall_mem_singleton.2 ⟨wf_cellsOf _ _ _, rfl⟩⟩

theorem State.Wf.handOff {die core p tag pc dpa item} (h : s.Wf) : (s.handOff die core p tag pc dpa item).Wf := { h with }

theorem State.Wf.engineTime {c p e} (h : s.Wf) : (s.engineTime c p e).Wf := .ite h (.ite (.account h) (.ite (.account h) h))

theorem State.Wf.runEntry {c p e direct} (h : s.Wf) : (s.runEntry c p e direct).Wf := by
  unfold State.runEntry
  extract_lets
  split
  · exact .engineTime <| .runMma <| .ite h (.trfCorrect h)
  · exact .runXld <| .ite h (.trfCorrect h)
  · exact .runXst <| .ite h (.trfCorrect h)
  · exact .runXmov <| .ite h (.trfCorrect h)
  · exact .runXgath <| .ite h (.trfCorrect h)
  · exact .runXgatm <| .ite h (.trfCorrect h)
  · exact .runXscat <| .ite h (.trfCorrect h)
  · exact .runXpf <| .ite h (.trfCorrect h)
  · exact .handOff <| .ite h (.trfCorrect h)
  · exact .trfPut <| .ite h (.trfCorrect h)
  · exact .runPissue <| .ite h (.trfCorrect h)
  · exact .engineTime <| .runVe <| .ite h (.trfCorrect h)

theorem State.Wf.tryEngine {c p g} (h : s.Wf) (e : s.tryEngine c p g = some t) : t.Wf := by
  unfold State.tryEngine at e
  extract_lets at e
  split at e
  · cases e
  · split at e
    · cases e
      exact .runEntry <| .modCore h .keep
    · cases e

theorem State.Wf.pumpCore {c p n} (h : s.Wf) : (s.pumpCore c p n).Wf := by
  induction n generalizing s with
  | zero => exact h
  | succ n ih =>
    refine .ite ?_ h
    split
    next e => exact ih (.tryEngine h e)
    split
    next e => exact ih (.tryEngine h e)
    split
    next e => exact ih (.tryEngine h e)
    split
    next e => exact ih (.tryEngine h e)
    exact h

theorem State.Wf.pump {c} (h : s.Wf) : (s.pump c).Wf := by
  unfold State.pump
  split
  exacts [h, .when (.pumpCore h) fun h => .setPart h { h.part with }]

theorem State.Wf.enqueue {c g w regs tds} (h : s.Wf) : (s.enqueue c g w regs tds).Wf :=
  .ite h (.pump <| .next <| .setCore h { h.core with })

theorem Keeps.axEngine {c op g legal regs tds} : Keeps s (s.axEngine c op g legal regs tds) := .axRow fun _ _ _ h => .enqueue h

theorem Keeps.execAxMma {c} : Keeps s (execAxMma c s) := .axEngine

theorem Keeps.axVec {c op} : Keeps s (s.axVec c op) := .axEngine

theorem Keeps.execAxVadd {c} : Keeps s (execAxVadd c s) := .axVec

theorem Keeps.execAxVsub {c} : Keeps s (execAxVsub c s) := .axVec

theorem Keeps.execAxVmul {c} : Keeps s (execAxVmul c s) := .axVec

theorem Keeps.execAxVmac {c} : Keeps s (execAxVmac c s) := .axVec

theorem Keeps.execAxVmax {c} : Keeps s (execAxVmax c s) := .axVec

theorem Keeps.execAxVmin {c} : Keeps s (execAxVmin c s) := .axVec

theorem Keeps.execAxVcvt {c} : Keeps s (execAxVcvt c s) := .axVec

theorem Keeps.execAxVexp {c} : Keeps s (execAxVexp c s) := .axVec

theorem Keeps.execAxVlog {c} : Keeps s (execAxVlog c s) := .axVec

theorem Keeps.execAxVrcp {c} : Keeps s (execAxVrcp c s) := .axVec

theorem Keeps.execAxVrsq {c} : Keeps s (execAxVrsq c s) := .axVec

theorem Keeps.execAxVrsum {c} : Keeps s (execAxVrsum c s) := .axVec

theorem Keeps.execAxVrmax {c} : Keeps s (execAxVrmax c s) := .axVec

theorem Keeps.execAxVrssq {c} : Keeps s (execAxVrssq c s) := .axVec

theorem Keeps.execAxVsplat {c} : Keeps s (execAxVsplat c s) := .axVec

theorem Keeps.execAxVmxq {c} : Keeps s (execAxVmxq c s) := .axVec

theorem Keeps.execAxVmxd {c} : Keeps s (execAxVmxd c s) := .axVec

theorem Keeps.execAxVmle {c} : Keeps s (execAxVmle c s) := .axVec

theorem Keeps.execAxVmge {c} : Keeps s (execAxVmge c s) := .axVec

theorem Keeps.axXfer {c op legal} : Keeps s (s.axXfer c op legal) := .axEngine

theorem Keeps.execAxXld {c} : Keeps s (execAxXld c s) := .axXfer

theorem Keeps.execAxXst {c} : Keeps s (execAxXst c s) := .axXfer

theorem Keeps.execAxXmov {c} : Keeps s (execAxXmov c s) := .axXfer

theorem Keeps.execAxXgath {c} : Keeps s (execAxXgath c s) := .axXfer

theorem Keeps.execAxXgatm {c} : Keeps s (execAxXgatm c s) := .axXfer

theorem Keeps.execAxXscat {c} : Keeps s (execAxXscat c s) := .axXfer

theorem Keeps.execAxXpf {c} : Keeps s (execAxXpf c s) := .axXfer

theorem Keeps.execAxCph {c} : Keeps s (execAxCph c s) := .axRow fun _ _ _ h => by split; exacts [.faultScalar h, .enqueue h]

theorem Keeps.execAxCsync {c} : Keeps s (execAxCsync c s) := .axRow fun _ _ _ h => .ite h (.next <| .invalidate h)

theorem Keeps.execAxPcw {c} : Keeps s (execAxPcw c s) := .axEngine

theorem Keeps.execAxPissue {c} : Keeps s (execAxPissue c s) := .axEngine

theorem Keeps.execAxPsync {c} : Keeps s (execAxPsync c s) := .axRow fun _ _ _ h => .ite h (.next <| .invalidate h)

theorem Keeps.execAxPtest {c} : Keeps s (execAxPtest c s) := .axRow fun _ _ _ h => .next <| .setX h

theorem Keeps.execFtqDrain {c} : Keeps s (execFtqDrain c s) := by
  unfold Machine.execFtqDrain
  extract_lets
  split
  exacts [.stay, .ite .stay (.ok fun h => .pump <| .trfPut <| .setCore h { h.core with })]

theorem State.Wf.setTd {c i t} (h : s.Wf) : (s.setTd c i t).Wf := .setCore h { h.core with td := (length_setNth _ _ _).trans h.core.td }

theorem State.Wf.create {c p i raw} (h : s.Wf) : (s.create c p i raw).Wf := .ite (.next <| .setTd h) (.scalarFault <| .setTd h)

theorem Keeps.execAxTdld {c} : Keeps s (execAxTdld c s) := .axRow fun _ _ _ h => by
  extract_lets
  split
  · exact .faultScalar h
  · refine .ite h ?_
    split
    rename_i e
    have h1 := State.Wf.of3 e (.loadPlain h)
    split
    exacts [.faultScalar h1, .create <| .runAhead h1]

theorem Keeps.execAxTdset {c} : Keeps s (execAxTdset c s) := .axRow fun _ _ _ h => .ite (.scalarFault h) (.create h)

theorem Keeps.execAxTdmov {c} : Keeps s (execAxTdmov c s) := .axRow fun _ _ _ h => .ite (.scalarFault h) (.next <| .setTd h)

theorem Keeps.execAxTdinv {c} : Keeps s (execAxTdinv c s) := .axRow fun _ _ _ h => .next <| .setTd h

theorem Keeps.execAxTdst {c} : Keeps s (execAxTdst c s) :=
  .axRow fun _ _ _ h => by extract_lets; split; exacts [.faultScalar h, .ite h (.enterStore h)]

end Sys2Proof.Machine
end

section
/-!
SUPPORT. The invariant through the operations of the pans and the delivery of batches (Pan).
-/
namespace Sys2Proof.Machine
open Sys2Proof Sys2Proof.Spec
variable {s t : State}

theorem State.Wf.deliverWords {b l} (hb : b.Wf) (h : s.Wf) : (s.deliverWords b l).Wf := by
  induction l generalizing s with
  | nil => exact .setBatch h hb.keep
  | cons w l ih => exact .ite (.setBatch h hb.keep) (ih <| .setPan h { h.pan with })

theorem State.Wf.deliverAll (h : s.Wf) : (s.deliverAll).Wf := .foldl_of h h.batches fun _ _ hb h => .deliverWords hb h

theorem State.Wf.charge {sl t inStack write n} (h : s.Wf) : (s.charge sl t inStack write n).Wf := by
  unfold State.charge
  extract_lets k cost k1 k2 s1 s2
  have hk1 : k1.Wf := .ite { h.stack with } h.stack
  have hk2 : k2.Wf := .ite { hk1 with level := (length_setNth _ _ _).trans hk1.level } hk1
  have h2 : s2.Wf := .when (.setStack h hk2) fun h => .ite (.count h) (.count h)
  exact .ite (.bump h2) (.ite (.bump h2) (.bump h2))

theorem State.Wf.carry {c t p done n} (h : s.Wf) : (s.carry c t p done n).2.Wf := by
  induction n generalizing s done with
  | zero => exact h
  | succ n ih => exact .ite2 (ih <| .whenNot (.account <| .charge h) fun h => .account h) h

theorem Keeps.execPayloadDelivery {c t} : Keeps s (execPayloadDelivery c t s) := by
  unfold Machine.execPayloadDelivery
  split
  · exact .stay
  next b e =>
    have hb (h : s.Wf) : b.Wf := h.batches b (List.mem_of_find?_eq_some e)
    refine .ite (.ite (.ok fun h => .engineFault <| .batchesWith h fun h => forall_filter h.batches) (.ite ?_ .stay)) .stay
    extract_lets
    split
    rename_i e'
    have carried (h : s.Wf) := State.Wf.of2 e' (.carry h)
    have taken (h : s.Wf) : Batch.Wf { b with
        await := setErase b.await t, paid := smErase b.paid t, held := setInsert b.held t } := { hb h with paid := sorted_smErase (hb h).paid }
    exact .ite (.ok fun h => .setBatch (carried h) { hb h with paid := sorted_smPut (hb h).paid })
      (.ok fun h => .pump <| .deliverWords (taken h) <| .setBatch (carried h) (taken h))

theorem Keeps.execPanBatchStart {t u} : Keeps s (execPanBatchStart t u s) := by
  unfold Machine.execPanBatchStart
  extract_lets n
  split
  · split
    · exact .ite (.ok fun h => .setPan h ⟨rfl, rfl⟩) .stay
    · exact .stay
  · exact .stay

/-- Granules read in turn. The read of one is made a variable, since the kernel would evaluate it on comparing the two sides. -/
theorem panGranules_cons {x : PCtx} {unchecked : Bool} {g : Nat} {gs : List Nat} {v : Nat} {f : Option CFault}
    (e : s.computeGranule x.who true unchecked none (panDpa x.u (4096 * g) / 4096) = (v, f, t)) :
    s.panGranules x unchecked (g :: gs) =
      f.elim (smInsert (t.panGranules x unchecked gs).1 g v, (t.panGranules x unchecked gs).2) fun a => ([], some (panFaultOf a), t) := by
  obtain ⟨F, hF⟩ : ∃ F, F = @State.panGranules := ⟨_, rfl⟩
  obtain ⟨read, hread⟩ : ∃ f, f = @State.computeGranule := ⟨_, rfl⟩
  rw [← hF]
  rw [← hread] at e
  delta State.panGranules State.panGranules._f at hF
  rw [← hread] at hF
  rw [hF]
  dsimp only
  rw [e]
  cases f <;> rfl

theorem State.Wf.panGranules {x unchecked gs} (h : s.Wf) : (s.panGranules x unchecked gs).2.2.Wf := by
  induction gs generalizing s with
  | nil => exact h
  | cons g gs ih =>
    rcases e : s.computeGranule x.who true unchecked none (panDpa x.u (4096 * g) / 4096) with ⟨v, f, t⟩
    have h1 := State.Wf.of3 e (.computeGranule h)
    rw [panGranules_cons e]
    cases f
    exacts [ih h1, h1]

theorem State.Wf.panImage {x d} (h : s.Wf) : (s.panImage x d).2.2.Wf := .panGranules h

theorem State.Wf.setRun {n f} (h : s.Wf) : (s.setRun n f).Wf := by
  unfold State.setRun
  extract_lets
  split
  exacts [.setPan h { h.pan with }, h]

theorem State.Wf.panLater {u ts} (h : s.Wf) : (s.panLater u ts).Wf := .setRun h

theorem State.Wf.panWrites {x v sealing ws} (h : s.Wf) : (s.panWrites x v sealing ws).Wf := .panLater h

theorem State.Wf.panAdds {x v f ps} (h : s.Wf) : (s.panAdds x v f ps).Wf := .panLater h

theorem State.Wf.panPut {x v d sealing image} (h : s.Wf) : (s.panPut x v d sealing image).Wf :=
  .ite (.panAdds <| .shuffle h) (.panWrites h)

theorem State.Wf.panTask {n p t} (h : s.Wf) : (s.panTask n p t).2.Wf := by
  unfold State.panTask
  extract_lets
  split
  · exact .ite (.writeMany <| .foldl h fun _ _ h => .lineTraffic h)
      (.foldl (.foldl h fun _ _ h => .lineTraffic h) fun _ _ h => .writeOpen h)
  · exact .addPieces h
  · exact .setRun <| .keep <| .foldl h fun _ _ h => .readLines <| .traffic h

theorem State.Wf.panShut {n g} (h : s.Wf) : (s.panShut n g).Wf := .ite (.sealStored h) (.setRun <| .openGranule h)

theorem State.Wf.microEnd {n} (h : s.Wf) : (s.microEnd n).Wf := by
  unfold State.microEnd
  split
  exacts [h, .setRun <| .keep <| .foldl h fun _ _ h => .panShut h]

theorem State.Wf.microBegin {n p} (h : s.Wf) : (s.microBegin n p).2.Wf := by
  unfold State.microBegin
  split
  exacts [h, .setRun (by split; exacts [h, .panTask h])]

theorem State.Wf.panFinish {n p} (h : s.Wf) : (s.panFinish n p).2.Wf := by
  unfold State.panFinish
  extract_lets
  split
  · exact h
  · refine .foldl2 (.microEnd h) fun a _ h => ?_
    obtain ⟨_ | _, s⟩ := a
    exacts [.microEnd <| .microBegin h, h]

theorem State.Wf.obPut {u line n v} (h : s.Wf) : (s.obPut u line n v).Wf := .setPan h { h.pan with obuf := wf_smPoke _ _ _ _ h.pan.obuf }

theorem wf_accPut {l : List (Nat × Nat)} {m : SMap Nat} (h : smWf 0 m = true) :
    smWf 0 (l.foldl (fun m e => smPut 0 m e.2 e.1) m) = true := by
  induction l generalizing m with
  | nil => exact h
  | cons e l ih => exact ih (smWf_smPut _ _ _ _ h)

theorem State.Wf.accPut {u i vs} (h : s.Wf) : (s.accPut u i vs).Wf := .setPan h { h.pan with acc := wf_accPut h.pan.acc }

theorem State.Wf.panFlag {u fl} (h : s.Wf) : (s.panFlag u fl).Wf := by
  unfold State.panFlag
  extract_lets
  split
  exacts [.setPan h { h.pan with }, h]

theorem State.Wf.panOob {u n} (h : s.Wf) : (s.panOob u n).Wf := by
  unfold State.panOob
  extract_lets
  split
  exacts [.setPan h { h.pan with }, h]

theorem State.Wf.panDraws {u n} (h : s.Wf) : (s.panDraws u n).2.Wf := by
  unfold State.panDraws
  extract_lets
  split
  exacts [.setPan h { h.pan with }, h]

theorem State.Wf.panFails {n b i pf} (h : s.Wf) : (s.panFails n b i pf).Wf := by
  unfold State.panFails
  extract_lets _ s1 s2
  have h1 : s1.Wf := .setPan h { h.pan with }
  have h2 : s2.Wf := by
    dsimp only [s2]
    split
    next e => exact .setBatch h1 (.keep <| h1.batch e)
    · exact h1
  exact .deliverAll h2

theorem Keeps.panCommand {t u op f} (hf : ∀ x s, State.Wf s → (f x s).2.2.Wf) : Keeps s (s.panCommand t u op f) := by
  unfold State.panCommand
  extract_lets
  split
  · exact .stay
  · extract_lets
    split
    rename_i e
    have h1 (h : s.Wf) := State.Wf.of3 e (hf _ _ (.setPan h { h.pan with }))
    extract_lets
    split
    · exact .ok fun h => .panFails <| .panFinish <| .setRun (h1 h)
    · split
      all_goals
        rename_i e'
        have h2 (h : s.Wf) := State.Wf.of2 e' (.microBegin <| .setRun (h1 h))
      · exact .ok fun h => .panFails (h2 h)
      · exact .ok fun h => .deliverAll (h2 h)

theorem State.Wf.fail {f} (h : s.Wf) : (PanOut.fail f s).2.2.Wf := h

end Sys2Proof.Machine
end

section
/-!
SUPPORT. The invariant through the operations of the pan commands (PanCmds).
-/
namespace Sys2Proof.Machine
open Sys2Proof Sys2Proof.Spec
variable {s t : State}

theorem State.Wf.panPlain {x l at_} (h : s.Wf) : (s.panPlain x l at_).2.2.Wf := by
  induction l generalizing s at_ with
  | nil => exact h
  | cons m l ih =>
    unfold State.panPlain
    split
    rename_i e
    have h1 := State.Wf.of3 e (.readBytes h)
    extract_lets
    split
    exacts [.lineTraffic h1, ih <| .lineTraffic h1]

theorem State.Wf.runPanLoad {x0} (h : s.Wf) : (runPanLoad x0 s).2.2.Wf := by
  refine .ite3 ?_ ?_
  · split
    exacts [.fail h, .obPut h]
  · split
    · exact .fail h
    · split
      rename_i e
      have h1 := State.Wf.of3 e (.panImage h)
      split
      exacts [.fail h1, .obPut h1]

theorem State.Wf.runPanStore {x0} (h : s.Wf) : (runPanStore x0 s).2.2.Wf := by
  unfold Machine.runPanStore
  extract_lets
  split
  exacts [.fail h, .ite3 (.fail h) (.panPut <| .panFlag <| .ite2 (.panDraws h) h)]

theorem State.Wf.runPanCopy {x0} (h : s.Wf) : (runPanCopy x0 s).2.2.Wf := by
  unfold Machine.runPanCopy
  extract_lets
  split
  · exact .fail h
  · split
    rename_i _ e
    split
    exacts [.fail <| .of3 e (.panImage h), .panPut <| .of3 e (.panImage h)]

theorem State.Wf.runPanGemv {x0} (h : s.Wf) : (runPanGemv x0 s).2.2.Wf := by
  unfold Machine.runPanGemv
  extract_lets
  split
  · exact .fail h
  · refine .ite3 (.fail h) ?_
    split
    rename_i e1
    have h1 := State.Wf.of3 e1 (.panImage h)
    split
    · exact .fail h1
    · split
      rename_i e2
      have h2 := State.Wf.of3 e2 (.ite3 (.panImage h1) h1)
      split
      · exact .fail h2
      · exact .panFlag <| .accPut h2

theorem State.Wf.panIndices {x fromPay} (h : s.Wf) : (s.panIndices x fromPay).2.2.Wf := .ite3 h (.panPlain h)

theorem State.Wf.pattnPage {x q kd vd queries row pos a} (h : s.Wf) : (s.pattnPage x q kd vd queries row pos a).2.2.Wf := by
  refine .ite3 h ?_
  split
  · exact .panGranules h
  · split
    rename_i e
    have h2 := State.Wf.of3 e (.panGranules <| .panGranules h)
    split
    exacts [h2, h2]

theorem State.Wf.pattnPages {x q kd vd queries l a} (h : s.Wf) : (s.pattnPages x q kd vd queries l a).2.2.Wf := by
  induction l generalizing s a with
  | nil => exact h
  | cons r l ih =>
    unfold State.pattnPages
    split
    all_goals
      rename_i e
      have h1 := State.Wf.of3 e (.pattnPage h)
    exacts [h1, ih h1]

theorem State.Wf.runPanPattn {x0} (h : s.Wf) : (runPanPattn x0 s).2.2.Wf := by
  unfold Machine.runPanPattn
  extract_lets
  split
  · exact .fail h
  · refine .ite3 (.fail h) ?_
    split
    rename_i e1
    have h1 := State.Wf.of3 e1 (.panIndices h)
    split
    · exact .fail h1
    · refine .ite3 (.fail h1) ?_
      extract_lets
      split
      rename_i e2
      have h2 := State.Wf.of3 e2 (.pattnPages h1)
      split
      · exact .fail h2
      · extract_lets s3 s4 p s5
        have h4 : s4.Wf := .panFlag <| .accPut h2
        dsimp only [s5]
        split
        exacts [.modPan h4 .keep, h4]

theorem State.Wf.panRow {x d j} (h : s.Wf) : (s.panRow x d j).2.2.2.Wf := .panGranules h

theorem State.Wf.panRows {x d js seen prev} (h : s.Wf) : (s.panRows x d js seen prev).2.2.2.Wf := by
  induction js generalizing s seen prev with
  | nil => exact h
  | cons j js ih =>
    cases j with
    | none => exact ih h
    | some j =>
      unfold State.panRows
      split
      rename_i e
      have h1 := State.Wf.of4 e (.panRow h)
      split
      exacts [h1, ih h1]

theorem State.Wf.runPanGather {x0} (h : s.Wf) : (runPanGather x0 s).2.2.Wf := by
  unfold Machine.runPanGather
  extract_lets
  split
  · exact .fail h
  · split
    rename_i e1
    have h1 := State.Wf.of3 e1 (.panIndices h)
    split
    · exact .fail h1
    · extract_lets
      split
      rename_i e2
      have h2 := State.Wf.of2 e2 (.ite2 (.someOf h1) h1)
      split
      rename_i e3
      have h3 := State.Wf.of4 e3 (.panRows h2)
      split
      · exact .fail h3
      · extract_lets _ _ _ _ s4
        have h4 : s4.Wf := .ite (.ite (.panAdds h3) (.panWrites h3)) (.obPut h3)
        exact .ite3 (.fail h4) (.panOob h4)

theorem State.Wf.runPanScadd {x0} (h : s.Wf) : (runPanScadd x0 s).2.2.Wf := by
  unfold Machine.runPanScadd
  extract_lets
  split
  · exact .fail h
  · exact .ite3 (.fail h)
      (by
        split
        rename_i _ e
        split
        · exact .fail <| .of3 e (.panIndices h)
        · exact .ite3 (.fail <| .panAdds <| .shuffle <| .ite2 (.someOf <| .of3 e (.panIndices h)) (.of3 e (.panIndices h)))
            (.panOob <| .panAdds <| .shuffle <| .ite2 (.someOf <| .of3 e (.panIndices h)) (.of3 e (.panIndices h))))

theorem State.Wf.runPanAdamw {x0} (h : s.Wf) : (runPanAdamw x0 s).2.2.Wf := by
  unfold Machine.runPanAdamw
  extract_lets _ _ _ _ _ _ step
  split
  · exact .fail h
  · have hstep (a : List (List FV) × Option PFault × State) (d) (h : a.2.2.Wf) : (step a d).2.2.Wf := by
      dsimp only [step]
      split
      exacts [h, .panImage h]
    split
    rename_i e
    have h1 := State.Wf.of3 e (.foldl3 h hstep)
    split
    · exact .fail h1
    · exact .foldl h1 fun _ _ h => .panFlag <| .panPut <| .ite2 (.panDraws h) h

theorem State.Wf.runPanElem {x0} (h : s.Wf) : (runPanElem x0 s).2.2.Wf := by
  refine .ite3 (.runPanAdamw h) ?_
  extract_lets
  split
  · exact .fail h
  · split
    rename_i e1
    have h1 := State.Wf.of3 e1 (.panImage h)
    split
    · exact .fail h1
    · split
      rename_i e2
      have h2 := State.Wf.of3 e2 (.ite3 h1 (.panImage h1))
      split
      · exact .fail h2
      · extract_lets
        split
        rename_i e3
        have h3 := State.Wf.of2 e3 (.ite2 (.panDraws h2) h2)
        exact .ite (.panPut <| .panPut <| .panFlag h3) (.panPut <| .panFlag h3)

theorem State.Wf.runPanStat {x0} (h : s.Wf) : (runPanStat x0 s).2.2.Wf := by
  unfold Machine.runPanStat
  extract_lets
  split
  · exact .fail h
  · split
    rename_i _ e
    split
    exacts [.fail <| .of3 e (.panImage h), .panFlag <| .accPut <| .ite2 (.freeBelow <| .of3 e (.panImage h)) (.of3 e (.panImage h))]

theorem State.Wf.runPanSeal {x0} (h : s.Wf) : (runPanSeal x0 s).2.2.Wf := by
  unfold Machine.runPanSeal
  extract_lets
  split
  exacts [.fail h, .panLater h]

theorem State.Wf.runPanFence {x0} (h : s.Wf) : (runPanFence x0 s).2.2.Wf := by
  unfold Machine.runPanFence
  split
  exacts [.fail h, h]

theorem State.Wf.runPanSync {x0} (h : s.Wf) : (runPanSync x0 s).2.2.Wf := by
  unfold Machine.runPanSync
  extract_lets
  split
  · exact .fail h
  · split
    exacts [h, .when (.panPut h) fun h => .signal h]

theorem Keeps.execPanLoad {t u} : Keeps s (execPanLoad t u s) := .panCommand fun _ _ h => .runPanLoad h

theorem Keeps.execPanStore {t u} : Keeps s (execPanStore t u s) := .panCommand fun _ _ h => .runPanStore h

theorem Keeps.execPanGemv {t u} : Keeps s (execPanGemv t u s) := .panCommand fun _ _ h => .runPanGemv h

theorem Keeps.execPanPattn {t u} : Keeps s (execPanPattn t u s) := .panCommand fun _ _ h => .runPanPattn h

theorem Keeps.execPanGather {t u} : Keeps s (execPanGather t u s) := .panCommand fun _ _ h => .runPanGather h

theorem Keeps.execPanScadd {t u} : Keeps s (execPanScadd t u s) := .panCommand fun _ _ h => .runPanScadd h

theorem Keeps.execPanElem {t u} : Keeps s (execPanElem t u s) := .panCommand fun _ _ h => .runPanElem h

theorem Keeps.execPanStat {t u} : Keeps s (execPanStat t u s) := .panCommand fun _ _ h => .runPanStat h

theorem Keeps.execPanCopy {t u} : Keeps s (execPanCopy t u s) := .panCommand fun _ _ h => .runPanCopy h

theorem Keeps.execPanSeal {t u} : Keeps s (execPanSeal t u s) := .panCommand fun _ _ h => .runPanSeal h

theorem Keeps.execPanFence {t u} : Keeps s (execPanFence t u s) := .ite (.panCommand fun _ _ h => .runPanFence h) .stay

theorem Keeps.execPanSync {t u} : Keeps s (execPanSync t u s) := .ite (.panCommand fun _ _ h => .runPanSync h) .stay

theorem Keeps.execIllegalPanCommand {t u} : Keeps s (execIllegalPanCommand t u s) := by
  unfold Machine.execIllegalPanCommand
  split
  exacts [.ite .stay (.panCommand fun _ _ h => .fail h), .stay]

end Sys2Proof.Machine
end

section
/-!
SUPPORT. The invariant through the operations of the items of a step (Items).
-/
namespace Sys2Proof.Machine
open Sys2Proof Sys2Proof.Spec
variable {s t : State}

theorem State.Wf.group {p g} (h : s.Wf) : (s.group p g).2.Wf := by
  unfold State.group
  extract_lets
  split
  · exact h
  · split
    rename_i e
    exact .of3 e (.readBytes h)

theorem State.Wf.issued {p n} (h : s.Wf) : (s.issued p n).Wf := .setPart h { h.part with }

theorem State.Wf.itemDone {p n} (h : s.Wf) : (s.itemDone p n).Wf := .setPart h { h.part with }

theorem State.Wf.panBody {p i} (h : s.Wf) : (s.panBody p i).2.Wf :=
  .ite2 (.readBytes h)
    (by
      split
      · rename_i _ e
        exact .of2 e (.group <| .readBytes h)
      · rename_i _ e
        exact .readBytes <| .of2 e (.group <| .readBytes h))

theorem State.Wf.issuePan {p n i} (h : s.Wf) : (s.issuePan p n i).Wf := by
  unfold State.issuePan
  split
  rename_i e
  have h1 := State.Wf.of2 e (.panBody h)
  refine .ite (.itemDone <| .issued h1) (.ite h1 <| .deliverAll <| .batchesWith (.issued h1) fun h => ?_)
  exact List.forall_mem_append.2 ⟨h1.batches, List.forall_mem_singleton.2 ⟨wf_cellsOf _ _ _, rfl⟩⟩

theorem State.Wf.issueXfer {p n i} (h : s.Wf) : (s.issueXfer p n i).Wf := .ite h (.setCore (.issued h) { h.core with })

theorem State.Wf.issueItem {p n i} (h : s.Wf) : (s.issueItem p n i).Wf := .ite (.issuePan h) (.ite (.handOff <| .issued h) (.issueXfer h))

theorem State.Wf.issuePass {p} (h : s.Wf) : (s.issuePass p).Wf :=
  .foldl h fun _ _ h => .ite (.ite (.itemDone <| .set h) h) (.ite (.issueItem h) h)

theorem State.Wf.issueAll {p n} (h : s.Wf) : (s.issueAll p n).Wf := by
  induction n generalizing s with
  | zero => exact h
  | succ n ih => exact .ite (.issuePass h) (ih <| .issuePass h)

theorem State.Wf.choosePaths {p g} (h : s.Wf) : (s.choosePaths p g).Wf := by
  unfold State.choosePaths
  split
  · rename_i _ e
    exact .of2 e (.group h)
  · rename_i _ e
    exact .foldl (.modPart (.writeRaw <| .readBytes <| .of2 e (.group h)) .keep) fun _ _ h => .ite (.itemDone h) h

theorem State.Wf.itemComplete {p n} (h : s.Wf) : (s.itemComplete p n).Wf :=
  .issueAll <| .foldl (.itemDone h) fun _ _ h => .ite h (.choosePaths h)

theorem State.Wf.xferEntry {p e i} (h : s.Wf) : (s.xferEntry p e i).2.Wf := .readBytes h

theorem State.Wf.runXfer {c} (h : s.Wf) : (s.runXfer c).Wf := by
  unfold State.runXfer
  split
  · split
    · refine .ite ?_ h
      split
      rename_i e
      have h1 := State.Wf.of2 e (.xferEntry h)
      exact .ite (.pump <| .itemComplete <| .runEntry <| .setCore h1 { h1.core with }) h1
    · exact h
  · exact h

theorem State.Wf.goOn (h : s.Wf) : (s.goOn).Wf := .foldl (.foldl h fun _ _ h => .runXfer h) fun _ _ h => .issueAll h

end Sys2Proof.Machine
end

section
/-!
SUPPORT. The invariant through the operations of the stack controllers (Stack).
-/
namespace Sys2Proof.Machine
open Sys2Proof Sys2Proof.Spec
variable {s t : State}

theorem State.Wf.openBank {t a keep} (h : s.Wf) : (s.openBank t a keep).Wf := by
  unfold State.openBank
  extract_lets _ _ _ k held _ _ _ _ acts old
  have hk : k.Wf := h.stack
  have hacts : Map.sorted acts = true := by
    dsimp only [acts]
    split
    exacts [hk.acts, rfl]
  have hold : Map.sorted old = true := by
    dsimp only [old]
    split
    · exact hk.actsOld
    · split
      exacts [hk.acts, rfl]
  refine .ite (.setStack h { hk with openRow := sorted_smPut hk.openRow })
    (.setStack (.when h fun h => .bump h) (.bankMaps hk (sorted_smPut hk.openRow) (sorted_smPut hk.lastAct) (sorted_smPut hacts) ?_))
  split
  exacts [sorted_smErase hold, hold]

theorem State.Wf.postpone {t u sl} (h : s.Wf) : (s.postpone t u sl).Wf :=
  .bump <| .setStack h { h.stack with deferLeft := (length_setNth _ _ _).trans h.stack.deferLeft, fresh := sorted_smPut h.stack.fresh }

theorem State.Wf.nrr {t key} (h : s.Wf) : (s.nrr t key).Wf :=
  .bump <| .setStack h { h.stack with openRow := sorted_smErase h.stack.openRow }

theorem State.Wf.nrrAll {t of} (h : s.Wf) : (s.nrrAll t of).Wf := .foldl h fun _ _ h => .nrr h

theorem State.Wf.clearOwed {t u} (h : s.Wf) : (s.clearOwed t u).Wf :=
  .modStack (.nrrAll h) fun hk => { hk with owed := sorted_smErase hk.owed, fresh := sorted_smErase hk.fresh }

theorem State.Wf.refreshBoundary {t u n} (h : s.Wf) : (s.refreshBoundary t u n).Wf := by
  induction n generalizing s with
  | zero => exact h
  | succ n ih =>
    refine .ite h ?_
    split
    exacts [.ite h (ih <| .postpone h), .ite (.bump <| .clearOwed h) (.clearOwed h)]

theorem State.Wf.refreshFalls {t u} (h : s.Wf) : (s.refreshFalls t u).Wf :=
  .whenNot (.setStack h <| .refreshMaps h.stack (sorted_smPut h.stack.owed) (sorted_smPut h.stack.fresh) (sorted_smPut h.stack.refNext))
    fun h => .ite (.refreshBoundary h) (.clearOwed h)

theorem Keeps.execNeighbourRowRefresh {t u bank} : Keeps s (execNeighbourRowRefresh t u bank s) := .ite (.ok fun h => .nrr h) .stay

theorem State.Wf.grant {t u sl} (h : s.Wf) : (s.grant t u sl).Wf := by
  refine .ite h (.setStack h (.grantsWith h.stack (sorted_smPut ?_)))
  split
  exacts [sorted_smDrop h.stack.grants, h.stack.grants]

theorem State.Wf.issueReq {t u i r} (h : s.Wf) : (s.issueReq t u i r).Wf :=
  .when
    (.account <|
      .charge <|
        .when
          (.modStack (.openBank <| .nrrAll h)
            fun hk => { hk with queue := sorted_smPut hk.queue, lastDir := sorted_smPut hk.lastDir, passed := sorted_smPut hk.passed })
          fun h => .bump h)
    fun h => .account h

theorem Keeps.execStackRequestIssue {t u i} : Keeps s (execStackRequestIssue t u i s) := by
  unfold Machine.execStackRequestIssue
  split
  exacts [.stay, .ite .stay (.ok fun h => .when (.issueReq <| .refreshBoundary <| .grant h) fun h => .refreshBoundary h)]

theorem State.Wf.serveHeld {t u banks} (h : s.Wf) : (s.serveHeld t u banks).Wf := by
  unfold State.serveHeld
  extract_lets
  split
  exacts [.issueReq <| .grant h, h]

theorem State.Wf.setUsed (h : s.Wf) : (s.setUsed).Wf := .set h

theorem State.Wf.sluiceTake {t sl} (h : s.Wf) : (s.sluiceTake t sl).Wf :=
  .ite h
    (.setStack h { h.stack with
      level := (length_setNth _ _ _).trans h.stack.level
      rate := (length_setNth _ _ _).trans h.stack.rate
      depth := (length_setNth _ _ _).trans h.stack.depth })

theorem State.Wf.sluiceWrite {t sl w} (h : s.Wf) : (s.sluiceWrite t sl w).Wf :=
  .when (.whenNot (.set <| .set <| .when (.ite (.set h) h) fun h => .set h) fun h => .setUsed <| .set h) fun h => .sluiceTake h

theorem Keeps.execSluiceRateWrite {t sl v} : Keeps s (execSluiceRateWrite t sl v s) := .occurs fun h => .sluiceWrite h

theorem State.Wf.stopPan {n b} (h : s.Wf) : (s.stopPan n b).Wf := by
  unfold State.stopPan
  extract_lets _ s1
  have h1 : s1.Wf := .setPan h { h.pan with }
  split
  next e => exact .deliverAll <| .setBatch h1 (.keep <| h1.batch e)
  · exact h1

theorem Keeps.execMicroOpBoundary {t u} : Keeps s (execMicroOpBoundary t u s) := by
  unfold Machine.execMicroOpBoundary
  extract_lets
  split
  · exact .stay
  · exact .ite (.ok fun h => .setRun <| .stopPan <| .microEnd h)
      (.ite (.ok fun h => .microEnd h)
        (.ite (.ok fun h => .refreshBoundary <| .serveHeld <| .setRun <| .microEnd h)
          (.ite (.ok fun h => .setRun <| .refreshBoundary <| .serveHeld <| .setRun <| .microEnd h)
            (by
              split
              · rename_i _ e
                exact .ok
                  fun h => .panFails <| .of2 e (.microBegin <| .setRun <| .refreshBoundary <| .serveHeld <| .setRun <| .microEnd h)
              · rename_i _ e
                exact .ok fun h => .of2 e (.microBegin <| .setRun <| .refreshBoundary <| .serveHeld <| .setRun <| .microEnd h)))))

theorem State.Wf.reportPan {b n} (hb : b.Wf) (h : s.Wf) : (s.reportPan b n).Wf := by
  unfold State.reportPan
  extract_lets _ _ s1
  have h1 : s1.Wf := .batchesWith h fun h => forall_filter h.batches
  refine .ite ?_ (.setBatch h hb.keep)
  split
  exacts [.itemComplete h1, h1]

theorem State.Wf.panFault {b n code addr cmd} (h : s.Wf) : (s.panFault b n code addr cmd).Wf := by
  unfold State.panFault
  extract_lets t a s1 shared _ s2
  have h1 : s1.Wf := .post h
  have h2 : s2.Wf := .when h1 fun h => .setPart h (.keep (.part h))
  exact .ite (.beginAbandon h2) (.coreFaultAs h2)

theorem Keeps.execPanCompletionReport {t u} : Keeps s (execPanCompletionReport t u s) := by
  unfold Machine.execPanCompletionReport
  extract_lets n k s1
  have h1 (h : s.Wf) : s1.Wf := .setPan h ⟨rfl, rfl⟩
  split
  · exact .stay
  · refine .ite .stay ?_
    split
    · exact .ok h1
    next b e =>
      extract_lets s2 s3
      have h2 (h : s.Wf) : s2.Wf := .reportPan ((h1 h).batch e) (h1 h)
      have h3 (h : s.Wf) : s3.Wf := by
        dsimp only [s3]
        split
        exacts [.foldl (.panFault (h2 h)) fun _ _ h => .stopPan h, h2 h]
      exact .ok fun h => .pump <| .deliverAll (h3 h)

end Sys2Proof.Machine
end

section
/-!
SUPPORT. The invariant through the operations of the rake, repair and the error log (Errors).
-/
namespace Sys2Proof.Machine
open Sys2Proof Sys2Proof.Spec
variable {s t : State}

theorem State.Wf.setRakeNext {t g} (h : s.Wf) : (s.setRakeNext t g).Wf := .set h

theorem State.Wf.rakeLine {t ln} (h : s.Wf) : (s.rakeLine t ln).2.Wf :=
  .ite2
    (.flipData <| .modStack
      (.count <| .setGranule <| .linesWith (.readLine h) fun h =>
        ⟨h.mem, smWf_smErase _ _ _ h.ecc, smWf_smErase _ _ _ h.metaFlip, h.flipped⟩)
      fun hk => .weakRowsWith hk (sorted_smPut hk.weakRows))
    (.readLine h)

theorem State.Wf.rakeLines {t ln n} (h : s.Wf) : (s.rakeLines t ln n).2.Wf := by
  induction n with
  | zero => exact h
  | succ n ih => exact .rakeLine ih

theorem State.Wf.rakeDeep {t g data} (h : s.Wf) : (s.rakeDeep t g data).Wf := by
  unfold State.rakeDeep
  refine .ite h ?_
  extract_lets
  split
  rename_i e
  have h1 := State.Wf.of2 e (by cases data; exacts [.freeBelow h, h])
  refine .ite h1 ?_
  extract_lets
  split
  · exact .poisonShared <| .post <| .count h1
  · exact .post <| .count h1

/-- The functions that the case splits ask are made variables, since the kernel would evaluate them on comparing the definition with its
body. -/
theorem Keeps.execRakeIssue {t} : Keeps s (execRakeIssue t s) := by
  obtain ⟨F, hF⟩ : ∃ F, F = @Machine.execRakeIssue := ⟨_, rfl⟩
  obtain ⟨place, hp⟩ : ∃ f, f = placeOf := ⟨_, rfl⟩
  obtain ⟨lines, hl⟩ : ∃ f, f = @State.rakeLines := ⟨_, rfl⟩
  have hlines {s t ln n} (h : State.Wf s) : (lines s t ln n).2.Wf := hl ▸ .rakeLines h
  rw [← hF]
  delta Machine.execRakeIssue at hF
  rw [← hp, ← hl] at hF
  subst hF
  beta_reduce
  extract_lets g a u k
  split
  · exact .stay
  · extract_lets s1 s2 s3 s4 s5
    have h1 (h : s.Wf) : s1.Wf := .when h fun h => .setStack h { h.stack with
      forced := sorted_foldl h.stack.forced fun _ _ => sorted_smPut }
    have h4 (h : s.Wf) : s4.Wf := .set <| .charge <| .openBank (h1 h)
    have h5 (h : s.Wf) : s5.Wf := by
      dsimp only [s5]
      split
      · split
        exacts [.rakeDeep <| hlines (h4 h), hlines (h4 h)]
      · exact .foldl (h4 h) fun _ _ h => .csumLineRecord h
    exact .ite (.ok fun h => .count <| .setRakeNext (h5 h)) (.ok fun h => .setRakeNext (h5 h))

theorem Keeps.execRakeRestart {t} : Keeps s (execRakeRestart t s) := .occurs fun h => .setRakeNext h

theorem State.Wf.dropPoison {g} (h : s.Wf) : (s.dropPoison g).Wf := by
  unfold State.dropPoison
  split
  exacts [.keep <| .setWord h, h]

theorem State.Wf.release {g resume} (h : s.Wf) : (s.release g resume).Wf :=
  .foldl h
    fun _ _ h => .ite h (.ite (.ite (.set <| .setPart h { h.part with }) (.setPart h { h.part with })) (.setPart h { h.part with }))

/-- What the case splits ask of the state is made a variable, since the kernel would evaluate it on comparing the definition with its
body. -/
theorem Keeps.execMirrorRepair {e} : Keeps s (execMirrorRepair e s) := by
  obtain ⟨F, hF⟩ : ∃ F, F = @Machine.execMirrorRepair := ⟨_, rfl⟩
  obtain ⟨shared, hs⟩ : ∃ f, f = @State.sharedAt := ⟨_, rfl⟩
  obtain ⟨read, hr⟩ : ∃ f, f = @State.computeGranule := ⟨_, rfl⟩
  have hread {s w a b c g} (h : State.Wf s) : (read s w a b c g).2.2.Wf := hr ▸ .computeGranule h
  rw [← hF]
  delta Machine.execMirrorRepair at hF
  rw [← hs, ← hr] at hF
  subst hF
  beta_reduce
  extract_lets g a
  refine .ite .stay ?_
  split
  · exact .stay
  · refine .ite .stay ?_
    extract_lets m
    split
    rename_i e1
    have h1 (h : s.Wf) := State.Wf.of3 e1 (hread h)
    extract_lets
    split
    · exact .ok fun h => .release <| .post <| .dropPoison <| .traffic <| .writeSealing (h1 h)
    · exact .ok fun h => .keep <| .post <| .set (h1 h)

theorem State.Wf.probeLine {t ln} (h : s.Wf) : (s.probeLine t ln).2.Wf :=
  .ite2 h (.ite2 h (by split; exacts [h, .enterCE h, h, .ite2 (.freeChoice h) (.keep <| .freeChoice h)]))

theorem State.Wf.probeLines {t ln n} (h : s.Wf) : (s.probeLines t ln n).2.Wf := by
  induction n with
  | zero => exact h
  | succ n ih => exact .probeLine ih

theorem State.Wf.errVerifyWrite {w mask} (h : s.Wf) : (s.errVerifyWrite w mask).Wf := by
  refine .whenNot (.plainWrite h) fun h => ?_
  split
  · refine .ite (.set <| .set h) ?_
    extract_lets
    split
    rename_i e1
    have h2 := State.Wf.of2 e1 (.probeLines <| .set h)
    split
    rename_i e2
    exact .set <| .set <| .set <| .of2 e2 (by split; exacts [h2, .freeBelow h2])
  · exact .set <| .set h

theorem Keeps.execErrVerify {v} : Keeps s (execErrVerify v s) := .occurs fun h => .errVerifyWrite h

theorem State.Wf.errRepairWrite {w mask} (h : s.Wf) : (s.errRepairWrite w mask).Wf := by
  refine .whenNot (.plainWrite h) fun h => ?_
  split
  · refine .ite (.set <| .set h) ?_
    split
    rename_i e
    have h2 := State.Wf.of3 e (.readLines <| .set h)
    exact .ite (.set h2) (.ite (.set h2) (.set <| .release <| .post <| .dropPoison <| .whenNot h2 fun h => .sealGranule h))
  · exact .set <| .set h

theorem Keeps.execErrRepair {v} : Keeps s (execErrRepair v s) := .occurs fun h => .errRepairWrite h

theorem State.Wf.errLogWrite {w} (h : s.Wf) : (s.errLogWrite w).Wf := .ite (.set h) h

theorem Keeps.execErrLogConsume {v} : Keeps s (execErrLogConsume v s) := .occurs fun h => .errLogWrite h

theorem State.Wf.flipWrite {t w mask} (h : s.Wf) : (s.flipWrite t w mask).Wf := .when (.plainWrite h) fun h => .set h

theorem Keeps.execFlipArmData {t v} : Keeps s (execFlipArmData t v s) := .occurs fun h => .flipWrite h

theorem Keeps.execFlipArmCsum {t v} : Keeps s (execFlipArmCsum t v s) := .occurs fun h => .flipWrite h

end Sys2Proof.Machine
end

section
/-!
SUPPORT. The invariant through the operations of partitions and shared regions (Partition).
-/
namespace Sys2Proof.Machine
open Sys2Proof Sys2Proof.Spec
variable {s t : State}

theorem State.Wf.refuse {f p} (h : s.Wf) : (s.refuse f p).Wf := .set <| .set h

theorem State.Wf.assignCore {c p} (h : s.Wf) : (s.assignCore c p).Wf :=
  .set <|
    .set <|
      .modCore (.setWord <| .setWord <| .setWord <| .resetCsrs h)
        fun hk => { hk with td := List.length_map _ |>.trans hk.td, rc := rfl, trf := rfl }

theorem State.Wf.ptCoresPut {p w} (h : s.Wf) : (s.ptCoresPut p w).Wf :=
  .ite (.refuse h) (.ite (.refuse h) (.foldl (.foldl (.set h) fun _ _ h => .assignCore h) fun _ _ h => .assignCore h))

theorem Keeps.execPtCoresWrite {p v} : Keeps s (execPtCoresWrite p v s) := .occurs fun h => .ptCoresPut h

theorem State.Wf.ptSbPut {p w} (h : s.Wf) : (s.ptSbPut p w).Wf :=
  .ite (.refuse h) (.ite (.when (.ite (.refuse h) h) fun h => .refuse h) (.setWord h))

theorem Keeps.execPtSbWrite {p v} : Keeps s (execPtSbWrite p v s) := .occurs fun h => .ptSbPut h

theorem State.Wf.applyChange {p} (h : s.Wf) : (s.applyChange p).Wf :=
  .ite (.foldl (.set <| .when (.when (.when (.set h) fun h => .refuse h) fun h => .refuse h) fun h => .refuse h) fun _ _ h => .setWord h)
    (.modPart (.set h) .keep)

theorem State.Wf.changeWritten {p} (h : s.Wf) : (s.changeWritten p).Wf := .ite (.set h) (.applyChange h)

theorem State.Wf.sharePut {p w mask} (h : s.Wf) : (s.sharePut p w mask).Wf := .setWord <| .plainWrite h

theorem State.Wf.regionLoad {r} (h : s.Wf) : (s.regionLoad r).Wf := .ite (.set h) (.ite (.set h) (.set h))

theorem State.Wf.regionSeal {r} (h : s.Wf) : (s.regionSeal r).Wf := .ite (.set h) (.foldl (.set h) fun _ _ h => .charge h)

theorem State.Wf.sealIndex {rs i} (h : s.Wf) : (s.sealIndex rs i).Wf := .foldl h fun _ x h => by
  extract_lets g
  refine .ite h ?_
  split
  rename_i e
  exact .sealStored <| .of3 e (.readLines h)

theorem State.Wf.sealUntil {rs l} (h : s.Wf) : (s.sealUntil rs l).2.Wf := by
  induction l generalizing s with
  | nil => exact h
  | cons i l ih => exact .ite2 h (ih <| .sealIndex h)

theorem Keeps.execRegionSealDone {r} : Keeps s (execRegionSealDone r s) :=
  .ite .stay
    (by
      split
      · rename_i _ e
        exact .ok fun h => .set <| .set <| .set <| .of2 e (.sealUntil h)
      · rename_i _ e
        exact .ok fun h => .set <| .set <| .of2 e (.sealUntil h))

theorem State.Wf.sealSome {rs l} (h : s.Wf) : (s.sealSome rs l).Wf := by
  induction l generalizing s with
  | nil => exact h
  | cons i l ih => exact ih (.when (.freeChoice h) fun h => .sealIndex h)

theorem State.Wf.regionRelease {r} (h : s.Wf) : (s.regionRelease r).Wf := .ite (.set h) (.set <| .ite (.sealSome h) h)

theorem State.Wf.regionLocPut {r mir w mask} (h : s.Wf) : (s.regionLocPut r mir w mask).Wf := .ite (.set h) (.plainWrite h)

theorem Keeps.execRegionLocationWrite {r mir v} : Keeps s (execRegionLocationWrite r mir v s) := .occurs fun h => .regionLocPut h

theorem Keeps.execRegionLoad {r} : Keeps s (execRegionLoad r s) := .occurs fun h => .regionLoad h

theorem Keeps.execRegionSeal {r} : Keeps s (execRegionSeal r s) := .occurs fun h => .regionSeal h

theorem Keeps.execRegionRelease {r} : Keeps s (execRegionRelease r s) := .occurs fun h => .regionRelease h

theorem State.Wf.regCtrlPut {r w} (h : s.Wf) : (s.regCtrlPut r w).Wf :=
  .when (.when (.ite (.regionLoad h) h) fun h => .regionSeal h) fun h => .regionRelease h

theorem Keeps.execSemSig {p v} : Keeps s (execSemSig p v s) := .occurs fun h => .signal h

end Sys2Proof.Machine
end

section
/-!
SUPPORT. The invariant through the operations of power and thermal control (Power).
-/
namespace Sys2Proof.Machine
open Sys2Proof Sys2Proof.Spec
variable {s t : State}

theorem State.Wf.publish {d} (h : s.Wf) : (s.publish d).Wf := .set <| .setDpower h { h.dpower with }

theorem State.Wf.replan (h : s.Wf) : (s.replan).Wf := .foldl h fun _ _ h => .set <| .setDpower h { h.dpower with }

theorem State.Wf.oppNext {d} (h : s.Wf) : (s.oppNext d).Wf := by
  unfold State.oppNext
  extract_lets
  split
  exacts [.set <| .set h, .setWord h]

theorem State.Wf.clockSwitch {d} (h : s.Wf) : (s.clockSwitch d).Wf := by
  unfold State.clockSwitch
  extract_lets
  split
  exacts [.ite h (.set <| .setDpower h { h.dpower with }), h]

theorem State.Wf.takeOpp {d o} (h : s.Wf) : (s.takeOpp d o).Wf :=
  .ite h (.ite (.setDpower (.set h) { h.dpower with }) (.setDpower h { h.dpower with }))

theorem State.Wf.followPlan {d} (h : s.Wf) : (s.followPlan d).Wf :=
  .oppNext <|
    .foldl
      (.modDpower (.takeOpp <| .ite (.setDpower (.set h) { h.dpower with }) (.clockSwitch h))
        fun hk => { hk with emScale := List.length_map _ |>.trans hk.emScale })
      fun _ _ h => .ite (.set h) h

theorem State.Wf.limitAverage {mw} (h : s.Wf) : (s.limitAverage mw).Wf :=
  .when (.set { h with power := { h.power with } }) fun h => .set <| .ite (.set h) h

theorem State.Wf.powerBoundary (h : s.Wf) : (s.powerBoundary).Wf :=
  .when (.foldl (.ite h (by split; exacts [.limitAverage h, .set <| .limitAverage h])) fun _ _ h => .ite (.followPlan <| .publish h) h)
    fun h => .set h

theorem State.Wf.emergency {d} (h : s.Wf) : (s.emergency d).Wf :=
  .ringHost <| .set <| .set <| .setDpower (.set <| .set h) { h.dpower with }

theorem State.Wf.stackHot {t ts blind} (h : s.Wf) : (s.stackHot t ts blind).Wf :=
  .ite (.set (by split; exacts [.set <| .foldl h fun _ _ h => .set h, .foldl h fun _ _ h => .set h]))
    (.when (by split; exacts [.set <| .foldl h fun _ _ h => .set h, .foldl h fun _ _ h => .set h]) fun h => .set h)

theorem State.Wf.stackEmergency {d t i ts} (h : s.Wf) : (s.stackEmergency d t i ts).Wf :=
  .ite (.setDpower (.set h) { h.dpower with emScale := (length_setNth _ _ _).trans h.dpower.emScale })
    (.ite (.setDpower h { h.dpower with emScale := (length_setNth _ _ _).trans h.dpower.emScale }) h)

theorem State.Wf.stackThrottle {d i ts blind} (h : s.Wf) : (s.stackThrottle d i ts blind).Wf :=
  .ite (.setDpower (.ite h (.set h)) { h.dpower with scale := (length_setNth _ _ _).trans h.dpower.scale })
    (.ite (.setDpower h { h.dpower with scale := (length_setNth _ _ _).trans h.dpower.scale }) h)

theorem State.Wf.stackRound {d t} (h : s.Wf) : (s.stackRound d t).Wf := .stackThrottle <| .stackEmergency <| .stackHot h

theorem State.Wf.throttle {d t} (h : s.Wf) : (s.throttle d t).Wf := by
  unfold State.throttle
  extract_lets x _ target low new s1
  have hx : x.Wf := h.dpower
  have h1 : s1.Wf := .set h
  refine .ite ?_ (.ite (.ite (.set <| .setDpower h { hx with }) (.setDpower h { hx with })) (.setDpower h { hx with }))
  split
  rename_i e
  split at e <;> cases e
  · exact .when (.setDpower h1 { hx with }) fun h => .emergency h
  · exact .when (.setDpower (.set h1) { hx with }) fun h => .emergency h

theorem State.Wf.enterReading {r} (h : s.Wf) : (s.enterReading r).Wf := .set <| .set <| .set h

theorem State.Wf.roundStatus (h : s.Wf) : (s.roundStatus).Wf := by
  unfold State.roundStatus
  extract_lets c8 s1 s2 hot s3 s4
  have h1 : s1.Wf := by dsimp only [s1]; split; exacts [.set h, h]
  have h2 : s2.Wf := by dsimp only [s2]; split; exacts [.set h1, h1]
  have h3 : s3.Wf := by
    dsimp only [s3]
    clear_value hot
    rcases hot with _ | ⟨t, v⟩
    exacts [h2, .set <| .set h2]
  exact .foldl (.when h3 fun h => .set h) fun _ _ h => .set <| .set <| .freeBelow (n := 2 ^ 32) <| .freeBelow (n := 2 ^ 32) h

theorem State.Wf.recoverCut (h : s.Wf) : (s.recoverCut).Wf := .ite (.set h) h

end Sys2Proof.Machine
end

section
/-!
SUPPORT. The invariant through the operations of claims of leap ticks and ageing (Age).
-/
namespace Sys2Proof.Machine
open Sys2Proof Sys2Proof.Spec
variable {s t : State}

theorem State.Wf.carryClaim (h : s.Wf) : (s.carryClaim).Wf := .set { h with }

theorem State.Wf.claimLeap {reason len} (h : s.Wf) : (s.claimLeap reason len).Wf :=
  .ite (.when (.set { h with }) fun h => .carryClaim h)
    (.when (.keep <| .ringHost <| .set <| .set <| .set <| .set { h with }) fun h => .carryClaim h)

theorem State.Wf.haltPart {p quiesce} (h : s.Wf) : (s.haltPart p quiesce).Wf := .setPart (.set h) { h.part with }

theorem State.Wf.claimReckoning {trigger} (h : s.Wf) : (s.claimReckoning trigger).Wf :=
  .ite h (.claimLeap <| .set { h with age := { h.age with } })

theorem State.Wf.pairDrift {d p} (h : s.Wf) : (s.pairDrift d p).Wf :=
  .ite (.set <| .set <| .ageWith h fun h => .histWith h.age (sorted_smPut h.age.hist))
    (.set <| .ageWith h fun h => .histWith h.age (sorted_smPut h.age.hist))

theorem State.Wf.driftRound (h : s.Wf) : (s.driftRound).Wf :=
  .when (.set <| .foldl h fun _ _ h => .foldl h fun _ _ h => .pairDrift h) fun h => .claimReckoning <| .set h

theorem State.Wf.addRemap {t key spare} (h : s.Wf) : (s.addRemap t key spare).Wf :=
  .set <| .set <| .setStack h { h.stack with remap := sorted_smInsert h.stack.remap }

theorem State.Wf.repairRows {t l} (h : s.Wf) : (s.repairRows t l).2.Wf := by
  induction l generalizing s with
  | nil => exact h
  | cons key l ih =>
    unfold State.repairRows
    extract_lets
    split
    · exact ih (.ageWith (.addRemap <| .setStack h <| .weakRowsWith h.stack <| sorted_smErase h.stack.weakRows) fun h => .keep h.age)
    · exact ih h

theorem State.Wf.reckonStack {t} (h : s.Wf) : (s.reckonStack t).2.Wf := .when (.repairRows h) fun h => .set h

theorem State.Wf.setVt {d i vt f} (h : s.Wf) : (s.setVt d i vt f).Wf := .set <| .set <| .set h

theorem State.Wf.wearOut {d} (h : s.Wf) : (s.wearOut d).Wf :=
  .foldl (.set <| .set <| .ageWith (.setVt h) fun h => { h.age with }) fun _ _ h => .post <| .haltPart h

theorem State.Wf.reckonDie {r d} (h : s.Wf) : (s.reckonDie r d).Wf :=
  .when (.whenNot (.foldl (.foldl h fun _ _ h => .setVt h) fun _ _ h => .set h) fun h => .set h) fun h => .wearOut h

theorem State.Wf.secAgeWith {x : SecSt} {y : AgeSt} (h : s.Wf) (hx : x.Wf) (hy : y.Wf) : State.Wf { s with sec := x, age := y } :=
  { h with sec := hx, age := hy }

theorem SecSt.Wf.flashWith {x : SecSt} {f : FlashSt} (h : x.Wf) (hf : f.Wf) : SecSt.Wf { x with flash := f } := { h with flash := hf }

theorem State.Wf.writeLog {bodies} (h : s.Wf) : (s.writeLog bodies).Wf := by
  unfold State.writeLog
  extract_lets fl l body _ _ s1 s2
  have h1 : State.Wf s1 := .secAgeWith h (.flashWith h.sec (.keep h.sec.flash)) (.keep h.age)
  exact .foldl (.setWord h1) fun _ _ h => .setWord h

theorem State.Wf.retryLog (h : s.Wf) : (s.retryLog).Wf := .ite (.writeLog h) h

theorem State.Wf.finishReckoning {r dies stks} (h : s.Wf) : (s.finishReckoning r dies stks).Wf := by
  unfold State.finishReckoning
  extract_lets body ks base _ s1 _ s2 s3 _ s4
  have h1 : State.Wf s1 := .ageWith h fun h => .baseWith h.age (sorted_foldl h.age.base fun _ _ => sorted_smPut)
  have h3 : State.Wf s3 := .set <| .keep h1
  have h4 : State.Wf s4 := .ite (.writeLog h3) (.set <| .ageWith h3 fun h => .keep h.age)
  exact .ringHost <| .set <| .set h4

theorem State.Wf.cutReckoning {trigger} (h : s.Wf) : (s.cutReckoning trigger).Wf :=
  .claimReckoning <| .set <| .set <| .keep { h with age := { h.age with } }

theorem State.Wf.applyReckoning {r} (h : s.Wf) : (s.applyReckoning r).Wf := by
  unfold State.applyReckoning
  extract_lets whole dies s1
  have h1 : s1.Wf := .foldl h fun _ _ h => .reckonDie h
  clear_value s1
  refine .ite (.cutReckoning h) ?_
  split
  rename_i e
  have h2 := State.Wf.of2 e (.foldl2 h1 fun x t h => State.Wf.reckonStack (s := x.2) (t := t) h)
  exact .whenNot (.finishReckoning <| .partsMap h2 fun _ hk => .keep hk) fun h => .claimReckoning <| .set h

theorem State.Wf.measure {d i} (h : s.Wf) : (s.measure d i).Wf := by
  unfold State.measure
  split
  · exact h
  · exact .ageWith (.freeBelow (n := 321) h) fun h => .keep h.age

theorem State.Wf.reckonTick {k} (h : s.Wf) : (s.reckonTick k).Wf := by
  unfold State.reckonTick
  split
  exacts [h, .ite (.foldl h fun _ _ h => .ite (.measure h) h) (.ite (.applyReckoning h) h)]

theorem State.Wf.beginReckoning (h : s.Wf) : (s.beginReckoning).Wf :=
  .ite (.reckonTick <| .foldl (.set { h with age := { h.age with } }) fun _ _ h => .takeOpp h) h

theorem Keeps.execReckoningRequest : Keeps s (execReckoningRequest s) := .occurs fun h => .claimReckoning h

theorem Keeps.execReckoningHoursDue : Keeps s (execReckoningHoursDue s) := .occurs fun h => .claimReckoning h

theorem Keeps.execHoursCheckpoint : Keeps s (execHoursCheckpoint s) :=
  .occurs fun h => .secWith h fun h => { h.sec with flash := .keep h.sec.flash }

theorem State.Wf.ageNs {n} (h : s.Wf) : (s.ageNs n).Wf := .ite (.count { h with age := { h.age with } }) h

end Sys2Proof.Machine
end

section
/-!
SUPPORT. The invariant through the operations of the send queues of the ports (Wire).
-/
namespace Sys2Proof.Machine
open Sys2Proof Sys2Proof.Spec
variable {s t : State}

theorem State.Wf.txTake (h : s.Wf) : (s.txTake).Wf := { h with tx := { h.tx with } }

theorem sorted_txRound {l m} (h : s.Wf) : Map.sorted (s.txRound l m) = true := by
  unfold State.txRound
  split
  exacts [sorted_filter h.tx.turns, h.tx.turns]

theorem State.Wf.txPacket {l t e} (h : s.Wf) : (s.txPacket l t e).Wf := by
  unfold State.txPacket
  extract_lets b cost turns0 key turns pace queue wire _ s1 s2
  have ht : Map.sorted turns = true := by dsimp only [turns]; split; exacts [sorted_smPut (sorted_txRound h), sorted_txRound h]
  have hp : Map.sorted pace = true := by dsimp only [pace]; split; exacts [sorted_smPut h.tx.pace, h.tx.pace]
  have h2 : State.Wf s2 := .count <| .txWith h fun h => .mapsWith h.tx (sorted_smPut h.tx.busy) ht hp
  split
  · exact .account h2
  · exact h2

theorem State.Wf.txSend {l t n} (h : s.Wf) : (s.txSend l t n).Wf := by
  induction n generalizing s with
  | zero => exact h
  | succ n ih =>
    unfold State.txSend
    extract_lets waits
    clear_value waits
    cases waits with
    | nil => exact h
    | cons w ws =>
      refine .ite h ?_
      split
      · exact ih (.txPacket h)
      · exact h

theorem State.Wf.transmit {t} (h : s.Wf) : (s.transmit t).Wf :=
  .txWith (.foldl (.txTake h) fun _ _ h => .txSend h)
    fun h =>
      { h.tx with
        busy := sorted_filter <| sorted_map h.tx.busy fun _ => rfl
        pace := sorted_filter <| sorted_map h.tx.pace fun _ => rfl }

end Sys2Proof.Machine
end

section
/-!
SUPPORT. The invariant through the operations of time and the tick registers (Tick).
-/
namespace Sys2Proof.Machine
open Sys2Proof Sys2Proof.Spec
variable {s t : State}

theorem State.Wf.refill {t n} (h : s.Wf) : (s.refill t n).Wf :=
  .ite h (.setStack (.foldl h fun _ _ h => .count h) { h.stack with level := rfl })

theorem State.Wf.clockCore {c n} (h : s.Wf) : (s.clockCore c n).Wf := .ite h (.when (.setCore h { h.core with }) fun h => .count h)

theorem State.Wf.clockPans {n} (h : s.Wf) : (s.clockPans n).Wf :=
  { h with
    pans := sorted_map h.pans fun _ => by split <;> rfl
    pansWf := forall_map h.pansWf fun _ hk => by split; exacts [.keep hk, hk] }

theorem State.Wf.endTick (h : s.Wf) : (s.endTick).Wf := .ite h (.partsMap h fun _ hk => .keep hk)

theorem State.Wf.slewBy {n} (h : s.Wf) : (s.slewBy n).Wf := .ite h { h with }

theorem State.Wf.passNs {n} (h : s.Wf) : (s.passNs n).Wf :=
  .ite h
    (.goOn <|
      .when
        (.ageNs <|
          .slewBy <|
            .foldl (.clockPans <| .foldl (.foldl (.set h) fun _ _ h => .refill h) fun _ _ h => .clockCore h) fun _ _ h => .account h)
        fun h => { h with })

theorem State.Wf.rakeCredit {t} (h : s.Wf) : (s.rakeCredit t).Wf := .ite h (.set <| .setStack h { h.stack with })

theorem State.Wf.dueRepairs (h : s.Wf) : (s.dueRepairs).Wf := { h with }

theorem State.Wf.resendNotices (h : s.Wf) : (s.resendNotices).Wf := .foldl { h with net := { h.net with } } fun _ _ h => .doorNotice h

theorem State.Wf.renewHost {t} (h : s.Wf) : (s.renewHost t).Wf :=
  .setStack h { h.stack with deferLeft := (length_setNth _ _ _).trans h.stack.deferLeft }

theorem State.Wf.boundary (h : s.Wf) : (s.boundary).Wf :=
  .when
    (.resendNotices <|
      .dueRepairs <| .powerBoundary <| .foldl (.foldl (.keep <| .set <| .endTick h) fun _ _ h => .renewHost h) fun _ _ h => .rakeCredit h)
    fun h => .reckonTick h

theorem Keeps.execBaseTickBoundary : Keeps s (execBaseTickBoundary s) := .occurs fun h => .boundary <| .passNs h

theorem State.Wf.hostActs (h : s.Wf) : (s.hostActs).Wf := by
  unfold State.hostActs
  split
  next e =>
    exact .hostWith (.freeBelow (n := 256) <| .freeBelow (n := 2 ^ 64) <| .of2 e (.freeChoice h)) fun h => wf_smPoke _ _ _ _ h.host
  next e => exact .of2 e (.freeChoice h)

theorem State.Wf.idleNs (h : s.Wf) : (s.idleNs).Wf := .whenNot (.hostActs h) fun h => .when (.passNs h) fun h => .boundary h

theorem State.Wf.advanceTo {at_} (h : s.Wf) (e : s.advanceTo at_ = some t) : t.Wf := by
  unfold State.advanceTo at e
  split at e
  · cases e
    exact .passNs h
  · cases e

theorem Keeps.execRefreshDue {t u} : Keeps s (execRefreshDue t u s) :=
  .ite .stay
    (.ite (.ok fun h => .refreshFalls h)
      (by
        split
        · rename_i _ e
          exact .ok fun h => .refreshFalls <| .advanceTo h e
        · exact .stay))

theorem State.Wf.renumber (h : s.Wf) : (s.renumber).Wf := by
  unfold State.renumber
  extract_lets s1 s2
  have h1 : s1.Wf := .set h
  exact .replan { h1 with
    parts := (List.length_map _).trans h1.parts
    partsWf := forall_map h1.partsWf fun _ hk => .keep hk }

theorem State.Wf.takePeriod {us} (h : s.Wf) : (s.takePeriod us).Wf := .renumber <| .set h

theorem State.Wf.tickPeriodPut {us} (h : s.Wf) : (s.tickPeriodPut us).Wf := .ite (.set h) (.ite (.takePeriod { h with }) { h with })

theorem Keeps.execTickPeriodWrite {v} : Keeps s (execTickPeriodWrite v s) := .ok fun h => .tickPeriodPut h

theorem State.Wf.retime {v} (h : s.Wf) : (s.retime v).Wf :=
  { h with
    stks := (List.length_map _).trans h.stks
    stksWf := forall_map h.stksWf fun _ hk => { hk with refNext := sorted_map hk.refNext fun _ => rfl }
    parts := (List.length_map _).trans h.parts
    partsWf := forall_map h.partsWf fun _ hk => .keep hk
    power := ⟨(List.length_map _).trans h.power.dies, forall_map h.power.diesWf fun _ hx => .keep hx⟩
    net := { h.net with
      qps := sorted_map h.net.qps fun _ => rfl
      syncAt := (List.length_map _).trans h.net.syncAt }
    link := .keep h.link
    sec := .keep h.sec }

theorem State.Wf.setCount {v} (h : s.Wf) : (s.setCount v).Wf := .renumber <| .set <| .retime h

theorem Keeps.execTickCountWrite {v} : Keeps s (execTickCountWrite v s) := .ite (.ok fun h => .setCount h) (.ok fun h => .set h)

theorem State.Wf.tickDiscPut {w mask} (h : s.Wf) : (s.tickDiscPut w mask).Wf := .whenNot (.set <| .plainWrite h) fun h => { h with }

theorem State.Wf.leapAtPut {v mask} (h : s.Wf) : (s.leapAtPut v mask).Wf := .ite h (.plainWrite h)

theorem Keeps.execLeapAtWrite {v} : Keeps s (execLeapAtWrite v s) := .ok fun h => .leapAtPut h

theorem State.Wf.leapArm (h : s.Wf) : (s.leapArm).Wf :=
  .ite (.when (.when (.ite (.set h) h) fun h => .set h) fun h => .set h) (.when (.set <| .set h) fun h => .carryClaim h)

theorem State.Wf.leapCancel (h : s.Wf) : (s.leapCancel).Wf := .ite h (.ite (.set <| .set h) (.set h))

theorem State.Wf.leapCtrlPut {v mask} (h : s.Wf) : (s.leapCtrlPut v mask).Wf :=
  .when (.when (.set <| .ite (.set h) h) fun h => .leapCancel h) fun h => .leapArm h

theorem Keeps.execLeapArm {v} : Keeps s (execLeapArm v s) := .occurs fun h => .leapCtrlPut h

theorem Keeps.execLeapCancel {v} : Keeps s (execLeapCancel v s) := .occurs fun h => .leapCtrlPut h

theorem Keeps.execLeapClaimDeadline : Keeps s (execLeapClaimDeadline s) :=
  .ite (.ok fun h => .keep <| .set <| .set <| .set <| .set h) .stay

end Sys2Proof.Machine
end

section
/-!
SUPPORT. The invariant through the operations of the almanac (Almanac).
-/
namespace Sys2Proof.Machine
open Sys2Proof Sys2Proof.Spec
variable {s t : State}

theorem State.Wf.readVerified {p a n} (h : s.Wf) : (s.readVerified p a n).2.Wf := .computeGranules h

theorem State.Wf.loadEntry {p entries r} (h : s.Wf) : (s.loadEntry p entries r).2.Wf :=
  .ite2 h
    (by
      split
      · rename_i _ e
        exact .of2 e (.readVerified h)
      · rename_i _ e
        exact .of2 e (.readVerified h))

theorem State.Wf.loadEntries {p entries rs} (h : s.Wf) : (s.loadEntries p entries rs).2.Wf := by
  induction rs generalizing s with
  | nil => exact h
  | cons r rs ih =>
    unfold State.loadEntries
    split
    next e => exact .of2 e (.loadEntry h)
    next e => exact ih (.of2 e (.loadEntry h))

theorem State.Wf.loadAlmanac {p base} (h : s.Wf) : (s.loadAlmanac p base).2.Wf := by
  unfold State.loadAlmanac
  refine .ite2 h ?_
  split
  next e => exact .of2 e (.readVerified h)
  next e =>
    have h1 := State.Wf.of2 e (.readVerified h)
    refine .ite2 h1 ?_
    split
    next e => exact .of2 e (.readVerified h1)
    next e =>
      have h2 := State.Wf.of2 e (.readVerified h1)
      exact .ite2 h2 (.loadEntries h2)

theorem State.Wf.installAlmanac {p} (h : s.Wf) : (s.installAlmanac p).2.Wf := by
  unfold State.installAlmanac
  extract_lets
  split
  · rename_i _ e
    exact .ite2 (.set <| .set <| .modPart (.of2 e (.loadAlmanac <| .set h)) .keep) (.set <| .of2 e (.loadAlmanac <| .set h))
  · rename_i _ e
    exact .set <| .of2 e (.loadAlmanac <| .set h)

end Sys2Proof.Machine
end

section
/-!
SUPPORT. The invariant through the operations of the serving loop (Serve).
-/
namespace Sys2Proof.Machine
open Sys2Proof Sys2Proof.Spec
variable {s t : State}

theorem State.Wf.readTable {p copy} (h : s.Wf) : (s.readTable p copy).2.Wf := .readLines h

theorem State.Wf.writeEntry {p copy i e} (h : s.Wf) : (s.writeEntry p copy i e).Wf := .writeOpen h

theorem State.Wf.readPts {p gs l} (h : s.Wf) : (s.readPts p gs l).2.Wf := by
  induction l generalizing s with
  | nil => exact h
  | cons e l ih => exact ih (.readBytes <| .readBytes h)

theorem State.Wf.variantOk {p v} (h : s.Wf) : (s.variantOk p v).2.Wf := by
  unfold State.variantOk
  refine .ite2 h ?_
  split
  next e => exact .of3 e (.readBytes h)

theorem State.Wf.variantsOk {p l} (h : s.Wf) : (s.variantsOk p l).2.Wf := by
  induction l generalizing s with
  | nil => exact h
  | cons e l ih => exact ih (.variantOk h)

theorem State.Wf.takeDir {p} (h : s.Wf) : (s.takeDir p).Wf := by
  unfold State.takeDir
  extract_lets
  exact .account <| .modPart h .keep

theorem State.Wf.serveCounts {p t} (h : s.Wf) : (s.serveCounts p t).Wf := .set <| .set h

theorem State.Wf.idlePart {p} (h : s.Wf) : (s.idlePart p).Wf := .setPart (.set h) { h.part with }

theorem State.Wf.install {p} (h : s.Wf) : (s.install p).Wf :=
  .ite (.set h)
    (.ite (.idlePart <| .set <| .readBytes <| .set h)
      (.ite (.set <| .modPart (.readBytes <| .set h) .keep)
        (.ite (.set <| .variantsOk <| .readPts <| .readTable <| .modPart (.readBytes <| .set h) .keep)
          (.takeDir <|
            .serveCounts <|
              .set <|
                .set <|
                  .foldl (.variantsOk <| .readPts <| .readTable <| .modPart (.readBytes <| .set h) .keep) fun _ _ h => .writeEntry h))))

theorem Keeps.execInstall {p} : Keeps s (execInstall p s) := .occurs fun h => .install h

theorem State.Wf.reloadDir {p} (h : s.Wf) : (s.reloadDir p).Wf := .setPart h { h.part with }

theorem Keeps.execReloadDir {p} : Keeps s (execReloadDir p s) := .occurs fun h => .reloadDir h

theorem State.Wf.svCtrlPut {p w} (h : s.Wf) : (s.svCtrlPut p w).Wf := .when (.ite (.reloadDir h) h) fun h => .install h

theorem State.Wf.consume {p ev} (h : s.Wf) : (s.consume p ev).Wf := by
  unfold State.consume
  extract_lets
  exact .account <| .modPart h .keep

theorem Keeps.execSubmit {p} : Keeps s (execSubmit p s) := by
  unfold Machine.execSubmit
  split
  · exact .stay
  refine .ite .stay ?_
  extract_lets
  split
  rename_i e1
  extract_lets
  split
  rename_i e2
  have read := fun h : s.Wf => State.Wf.of2 e2 (.variantOk <| .of3 e1 (.readBytes h))
  refine .ite (.ok fun h => .consume (read h)) (.ok fun h => ?_)
  have clear : ∀ {u : State} {c : Prop} [Decidable c] {who a n v}, u.Wf → (if c then u else u.writeOpen who a n v).Wf :=
    fun h => .whenNot h fun h => .writeOpen h
  exact .consume <| .modPart (clear <| clear <| .writeEntry (read h)) .keep

theorem Keeps.execCancel {p} : Keeps s (execCancel p s) := by
  unfold Machine.execCancel
  split
  · exact .stay
  refine .ite .stay ?_
  extract_lets
  split
  rename_i e
  exact .ite (.ok fun h => .consume <| .modPart (.of3 e (.readBytes h)) .keep) (.ok fun h => .consume <| .of3 e (.readBytes h))

theorem Keeps.execBadRequest {p} : Keeps s (execBadRequest p s) := by
  unfold Machine.execBadRequest
  split
  exacts [.stay, .ite (.ok fun h => .consume <| .set h) .stay]

theorem State.Wf.syncCopies {p} (h : s.Wf) : (s.syncCopies p).Wf :=
  .modPart (.foldl h fun _ _ h => by split; next e => exact .writeEntry <| .of3 e (.readBytes h)) .keep

theorem State.Wf.writeAdm {p old a} (h : s.Wf) : (s.writeAdm p old a).Wf :=
  .modPart (.when (.foldl (.foldl h fun _ _ h => .writeOpen h) fun _ _ h => .writeOpen h) fun h => .set h) .keep

theorem State.Wf.admitView {p} (h : s.Wf) : (s.admitView p).2.2.Wf := by
  unfold State.admitView
  extract_lets
  split
  next e1 =>
    extract_lets
    split
    next e2 =>
      have h2 := State.Wf.of2 e2 (.readPts <| .of2 e1 (.readTable h))
      split
      · exact .readTable h2
      · exact h2

theorem State.Wf.foreseenHolds {p} (h : s.Wf) : (s.foreseenHolds p).2.Wf := .readTable h

theorem State.Wf.admitWindow {p entry b k t0 en} (h : s.Wf) : (s.admitWindow p entry b k t0 en).2.Wf :=
  .ite2 h (.modPart (.writeAdm <| .admitView h) .keep)

theorem State.Wf.writeStepRecord {p pl} (h : s.Wf) : (s.writeStepRecord p pl).Wf := by
  unfold State.writeStepRecord
  extract_lets _ _ _ s1
  have h1 : s1.Wf := .writeRaw h
  refine .foldl3 h1 fun _ _ h => ?_
  split
  split
  rename_i e
  dsimp only
  exact .writeRaw <| .of3 e (.readBytes h)

theorem State.Wf.swapRan {p w bad} (h : s.Wf) : (s.swapRan p w bad).Wf := .setPart h { h.part with }

theorem State.Wf.swapMoved {p n} (h : s.Wf) : (s.swapMoved p n).Wf := .account <| .count h

theorem State.Wf.swapPagesOut {p img l} (h : s.Wf) : (s.swapPagesOut p img l).2.Wf := by
  induction l generalizing s with
  | nil => exact h
  | cons e l ih =>
    unfold State.swapPagesOut
    split
    next e => exact ih (.hostWrite <| .traffic <| .of3 e (.readBytes h))

theorem Keeps.execSwapOut {p} : Keeps s (execSwapOut p s) := by
  unfold Machine.execSwapOut
  extract_lets
  split
  · split
    exacts [.stay, .ite .stay (.ok fun h => .swapRan <| .swapMoved <| .hostWriteList <| .swapPagesOut h)]
  · exact .stay

theorem State.Wf.swapGranIn {p img recs l} (h : s.Wf) : (s.swapGranIn p img recs l).2.Wf := by
  induction l generalizing s with
  | nil => exact h
  | cons e l ih => exact ih (.traffic <| .writeOpen h)

theorem Keeps.execRestore {p} : Keeps s (execRestore p s) := by
  unfold Machine.execRestore
  extract_lets
  split
  · split
    exacts [.stay, .ite .stay (.ok fun h => .swapRan <| .swapMoved <| .swapGranIn h)]
  · exact .stay

theorem State.Wf.ringPut {p r l} (h : s.Wf) : (s.ringPut p r l).Wf := by
  unfold State.ringPut
  extract_lets
  split
  exacts [.ite (.account <| .setPart (.hostWriteList h) { h.part with }) (.set h), .set h]

theorem State.Wf.ringsDone {p before} (h : s.Wf) : (s.ringsDone p before).Wf :=
  .foldl h fun _ _ h => .ite h (.when (.hostWrite h) fun h => .msix h)

end Sys2Proof.Machine
end

section
/-!
SUPPORT. The invariant through the operations of steps (Steps).
-/
namespace Sys2Proof.Machine
open Sys2Proof Sys2Proof.Spec
variable {s t : State}

theorem State.Wf.castReady {p} (h : s.Wf) : (s.castReady p).Wf := .ite h (.ite (.sendDev h) (.ite (.decideVote h) h))

theorem State.Wf.activate {p pl} (h : s.Wf) : (s.activate p pl).Wf :=
  .issueAll
    (by
      split
      · exact .when (.set <| .set <| .setWord <| .setPart h { h.part with }) fun h => .writeStepRecord h
      · exact .set <| .set <| .setWord <| .setPart h { h.part with })

theorem State.Wf.endFaulted {p} (h : s.Wf) : (s.endFaulted p).Wf := .foldl h fun _ _ h => .setCore h { h.core with }

theorem State.Wf.openWindow {p at_} (h : s.Wf) : (s.openWindow p at_).Wf :=
  .ite (.haltPart h)
    (.ite (.setPart (.set h) { h.part with })
      (by
        split
        · exact .when (.setPart (.set <| .endFaulted h) { h.part with })
            fun h =>
              .ite
                (by
                  split
                  · rename_i _ e
                    exact .activate <| .of2 e (.foreseenHolds h)
                  · rename_i _ e
                    exact .modPart (.of2 e (.foreseenHolds h)) .keep)
                (.activate h)
        · exact .setPart (.set <| .endFaulted h) { h.part with }))

theorem State.Wf.reopen {p at_} (h : s.Wf) : (s.reopen p at_).Wf := .ite (.openWindow h) (.set h)

theorem State.Wf.stepCfgPut {p w mask} (h : s.Wf) : (s.stepCfgPut p w mask).Wf := .ite (.set h) (.setWord h)

theorem Keeps.execStepCfgWrite {p v} : Keeps s (execStepCfgWrite p v s) := .occurs fun h => .stepCfgPut h

theorem State.Wf.start {p} (h : s.Wf) : (s.start p).Wf :=
  .ite h (.whenNot (.ite (.installAlmanac h) h) fun h => .setPart (.set <| .set h) { h.part with })

theorem Keeps.execStart {p} : Keeps s (execStart p s) := .occurs fun h => .start h

theorem State.Wf.stop {p quiesce} (h : s.Wf) : (s.stop p quiesce).Wf :=
  .ite (.ite (.setPart (.set h) { h.part with }) (.haltPart h)) (.ite (.haltPart h) (.ite (.set h) h))

theorem Keeps.execStop {p} : Keeps s (execStop p s) := .occurs fun h => .stop h

theorem Keeps.execQuiesce {p} : Keeps s (execQuiesce p s) := .occurs fun h => .stop h

theorem State.Wf.resumePart {p} (h : s.Wf) : (s.resumePart p).Wf := .ite (.setPart (.set <| .set h) { h.part with }) h

theorem Keeps.execResume {p} : Keeps s (execResume p s) := .occurs fun h => .resumePart h

theorem State.Wf.stepCtrlPut {p w} (h : s.Wf) : (s.stepCtrlPut p w).Wf :=
  .when (.when (.when (.ite (.start h) h) fun h => .stop h) fun h => .stop h) fun h => .resumePart h

theorem Keeps.execAdmission {p} : Keeps s (execAdmission p s) :=
  .ite .stay
    (by
      split
      · split
        exacts [.ok fun h => .activate <| .admitWindow h, .stay]
      · split
        · split
          exacts [.ite .stay (.ok fun h => .modPart (.admitWindow h) .keep), .stay]
        · exact .stay
      · exact .stay)

theorem Keeps.execEveBegin {p} : Keeps s (execEveBegin p s) :=
  .ite .stay
    (by
      split
      · rename_i _ e
        exact .ok fun h => .modPart (.advanceTo h e) .keep
      · exact .stay)

theorem CoreSt.Wf.startBlock {k : CoreSt} {c n i args} (h : k.Wf) (hargs : args.length ≤ 32) : (k.startBlock c n i args).Wf :=
  { h with
    x := by simp [CoreSt.startBlock, hargs]
    acc0 := rfl
    acc1 := rfl }

theorem Keeps.execBlockStart {c} : Keeps s (execBlockStart c s) := by
  unfold Machine.execBlockStart
  split
  · exact .stay
  · extract_lets
    split
    · exact .stay
    · exact .ite .stay (.ok fun h => .issued <| .setCore h <| .startBlock h.core (Nat.le_add_right 8 24))

theorem State.Wf.endBlock {c p} (h : s.Wf) : (s.endBlock c p).Wf :=
  .itemComplete <| .setCore (.when (.setWord h) fun h => .count h) { h.core with }

theorem Keeps.execBlockEnd {c} : Keeps s (execBlockEnd c s) := by
  unfold Machine.execBlockEnd
  split
  exacts [.stay, .ite (.ok fun h => .endBlock h) .stay]

theorem Keeps.execRcInv {c} : Keeps s (execRcInv c s) := .occurs fun h => .invalidate h

theorem State.Wf.trfClear {c} (h : s.Wf) : (s.trfClear c).Wf := .ite (.setCore h { h.core with trf := rfl }) h

theorem Keeps.execTrfClear {c} : Keeps s (execTrfClear c s) := .occurs fun h => .trfClear h

theorem Keeps.execClrCnt {c} : Keeps s (execClrCnt c s) := .occurs fun h => .set h

theorem State.Wf.coreCtrlPut {c w} (h : s.Wf) : (s.coreCtrlPut c w).Wf :=
  .when (.when (.ite (.invalidate h) h) fun h => .trfClear h) fun h => .set h

theorem State.Wf.drainStores {c p} (h : s.Wf) : (s.drainStores c p).Wf := .foldl (.setCore h { h.core with }) fun _ _ h => .performStore h

theorem State.Wf.takeFields {p} (h : s.Wf) : (s.takeFields p).Wf :=
  .foldl (.foldl (.when (.setPart h { h.part with }) fun h => .takeDir h) fun _ _ h => .setCore h { h.core with })
    fun _ _ h =>
      .modStack (.sluiceTake h)
        fun hk => { hk with deferLeft := (length_setNth _ _ _).trans hk.deferLeft, forced := sorted_smErase hk.forced }

theorem State.Wf.clearStep {p} (h : s.Wf) : (s.clearStep p).Wf :=
  .foldl (.modPart (.foldl h fun _ _ h => .set h) fun hk => { hk with semq := rfl })
    fun _ _ h => .setCore h { h.core with td := List.length_map _ |>.trans h.core.td, rc := rfl }

theorem State.Wf.boundaryOf {p} (h : s.Wf) : (s.boundaryOf p).Wf := by
  unfold State.boundaryOf
  extract_lets s1
  have h1 : s1.Wf := .foldl h fun _ _ h => .when h fun h => .applyChange h
  exact .takeFields <| .clearStep h1

theorem State.Wf.settleBlocks {p} (h : s.Wf) : (s.settleBlocks p).Wf := .foldl h fun _ _ h => .ite (.endBlock h) h

theorem State.Wf.readyStep {p} (h : s.Wf) : (s.readyStep p).Wf :=
  .when (.foldl h fun _ _ h => .drainStores h) fun h => .when (.setPart h { h.part with }) fun h => .castReady h

theorem State.Wf.tickStep {p} (h : s.Wf) : (s.tickStep p).Wf := by
  unfold State.tickStep
  extract_lets s1 busy left _ s2
  have h2 : State.Wf s2 := .modPart (.settleBlocks h) .keep
  clear_value s2 busy left
  split
  · exact .ite (.beginAbandon h2) (.readyStep h2)
  · exact .beginAbandon h2

theorem Keeps.execStepTick {p} : Keeps s (execStepTick p s) :=
  .ite .stay
    (by
      extract_lets
      split
      · exact .ok fun h => .boundaryOf <| .tickStep <| .setPart h { h.part with }
      · exact .ok fun h => .boundaryOf <| .setPart h { h.part with }
      · exact .ok fun h => .boundaryOf <| .modPart (.setPart h { h.part with }) .keep
      · exact .ok fun h => .openWindow <| .boundaryOf <| .setPart h { h.part with }
      · exact .ite
          (.ite (.ok fun h => .modPart (.boundaryOf <| .setPart h { h.part with }) .keep)
            (.ok fun h => .openWindow <| .boundaryOf <| .setPart h { h.part with }))
          (.ok fun h => .boundaryOf <| .setPart h { h.part with }))

theorem Keeps.execDie1ReadyReport {p} : Keeps s (execDie1ReadyReport p s) :=
  .ite (.ok fun h => .castReady <| .setPart h { h.part with }) .stay

theorem Keeps.execXdieTimeout {p} : Keeps s (execXdieTimeout p s) := by
  unfold Machine.execXdieTimeout
  extract_lets k go
  have hgo : ∀ s : State, s.Wf → (go s).Wf := fun s h => .beginAbandon h
  refine .ite (.ite (.ok (hgo s)) ?_) .stay
  split
  next e => exact .ok fun h => hgo _ (.advanceTo h e)
  next => exact .stay

theorem State.Wf.freePages {p e pts} (h : s.Wf) : (s.freePages p e pts).Wf :=
  .foldl h fun _ _ h => .foldl h fun _ _ h => .ite (.writeOpen h) h

theorem State.Wf.readResult {p pl seq} (h : s.Wf) : (s.readResult p pl seq).2.Wf := by
  unfold State.readResult
  split
  · exact h
  · split
    next e => exact .of3 e (.readBytes h)

theorem State.Wf.commitEntry {p pl fresh seq e} (h : s.Wf) : (s.commitEntry p pl fresh seq e).2.Wf := by
  unfold State.commitEntry
  extract_lets
  split
  rename_i e1
  split
  rename_i e2
  have h2 := State.Wf.of2 e2 (.readResult <| .of2 e1 (.readPts h))
  extract_lets o s3 s4 s5
  have h3 : s3.Wf := .ite (.freePages h2) (.foldl h2 fun _ _ h => .writeOpen h)
  have h4 : s4.Wf := .when h3 fun h => .set h
  have h5 : s5.Wf := .when h4 fun h => .set h
  exact .when h5 fun h => .bump h

theorem State.Wf.commitEntries {p pl old l} (h : s.Wf) : (s.commitEntries p pl old l).2.Wf := by
  induction l generalizing s with
  | nil => exact h
  | cons e l ih => exact ih (.commitEntry h)

theorem State.Wf.serveCommit {p pl} (h : s.Wf) : (s.serveCommit p pl).Wf := by
  unfold State.serveCommit
  extract_lets
  split
  rename_i e1
  split
  rename_i e2
  split
  rename_i e3
  have h3 := State.Wf.of2 e3 (.commitEntries <| .of2 e2 (.readTable <| .of2 e1 (.readTable h)))
  extract_lets s4 s5 evs s6 new s7 s8 s9 head s10 s11
  have h4 : s4.Wf := .foldl h3 fun _ _ h => .whenNot h fun h => .writeEntry h
  have h5 : s5.Wf := .foldl h4 fun _ _ h => by split; exacts [.ringPut h, h]
  have h6 : s6.Wf := .foldl h5 fun _ _ h => .ringPut h
  have h10 : s10.Wf := .set <| .bump <| .count <| .serveCounts <| .set h6
  have h11 : s11.Wf := .whenNot h10 fun h => .hostWrite h
  exact .syncCopies <| .modPart h11 .keep

theorem PartSt.Wf.addFigure {k : PartSt} {t} (h : k.Wf) : (k.addFigure t).Wf := by
  unfold PartSt.addFigure
  split
  · exact .keep h
  · exact .keep h

theorem PartSt.Wf.addFigures {k : PartSt} {due : List Nat} (h : k.Wf) : (due.foldl PartSt.addFigure k).Wf := by
  induction due generalizing k with
  | nil => exact h
  | cons t due ih => exact ih (.addFigure h)

theorem State.Wf.takeEnergy {p at_} (h : s.Wf) : (s.takeEnergy p at_).Wf := .setPart h <| .keep <| .addFigures h.part

theorem State.Wf.accountCommit {p} (h : s.Wf) : (s.accountCommit p).Wf := by
  unfold State.accountCommit
  extract_lets _ _ s1 k now s2 s3 step k1
  have h1 : s1.Wf := .takeEnergy h
  have h3 : s3.Wf := .set <| .foldl h1 fun _ _ h => .setWord h
  have hk : k1.Wf := { h1.part (p := p) with acc := (length_setNth _ _ _).trans h1.part.acc }
  exact .ite (.ringPut <| .setPart h3 <| .keep hk) (.setPart h3 hk)

theorem State.Wf.nextEntry {p} (h : s.Wf) : (s.nextEntry p).Wf :=
  .when (.setPart h { h.part with }) fun h => .when (.installAlmanac h) fun h => .setPart h { h.part with }

theorem State.Wf.stampCommit {p} (h : s.Wf) : (s.stampCommit p).Wf :=
  { h with mod := { h.mod with stamps := (length_setNth _ _ _).trans h.mod.stamps } }

theorem Keeps.execCommit {p} : Keeps s (execCommit p s) := by
  unfold Machine.execCommit
  extract_lets k voted e train coll serve s1 s2 rings s3 s4 s5 _ s6 s7 k7
  refine .ite .stay ?_
  have h1 : s.Wf → s1.Wf := fun h => .count <| .set h
  have h2 : s.Wf → s2.Wf := fun h => .when (h1 h) fun h => .set h
  have h3 : s.Wf → s3.Wf := fun h => by
    dsimp only [s3]
    split
    · exact .when (h2 h) fun h => .serveCommit h
    · exact h2 h
  have h4 : s.Wf → s4.Wf := fun h => .foldl (h3 h) fun _ _ h => .ringPut h
  have h5 : s.Wf → State.Wf s5 := fun h => .stampCommit <| .ringsDone <| .accountCommit (h4 h)
  have h7 : s.Wf → State.Wf s7 := fun h => .nextEntry <| .modPart (h5 h) .keep
  exact .ite (.ok fun h => .haltPart (h7 h)) (.ok fun h => .reopen (h7 h))

theorem State.Wf.discardStep {p} (h : s.Wf) : (s.discardStep p).Wf := by
  unfold State.discardStep
  extract_lets s1 mine s2 s3
  have h1 : s1.Wf := .foldl h fun _ _ h => .when (.setCore h { h.core with acc0 := rfl, acc1 := rfl }) fun h => .modCore h .keep
  have h2 : s2.Wf := { h1 with
    batches := forall_filter h1.batches
    pans := sorted_filterMap h1.pans fun e e' he => by dsimp only at he; split at he; cases he; cases he; rfl
    pansWf := fun e he => by
      obtain ⟨x, hx, e'⟩ := List.mem_filterMap.1 he
      dsimp only at e'
      split at e'
      · cases e'
      · cases e'
        exact .keep (h1.pansWf x hx) }
  have h3 : s3.Wf := { h2 with
    stks := (List.length_map _).trans h2.stks
    stksWf := forall_map h2.stksWf fun _ hk => { hk with
      queue := sorted_filterMap hk.queue fun e e' he => by dsimp only at he; split at he; cases he; cases he; rfl } }
  exact .modPart h3 .keep

theorem State.Wf.undoServe {p} (h : s.Wf) : (s.undoServe p).Wf :=
  .syncCopies <| .modPart (.foldl h fun _ _ h => .foldl h fun _ _ h => by
    split
    next e => exact .writeOpen <| .of3 e (.readBytes h)) .keep

theorem State.Wf.recordAbandon {p a} (h : s.Wf) : (s.recordAbandon p a).Wf :=
  .ite (.count <| .set <| .setWord h) (.count <| .set <| .setWord h)

theorem Keeps.execAbandonmentComplete {p} : Keeps s (execAbandonmentComplete p s) := by
  unfold Machine.execAbandonmentComplete
  extract_lets
  split
  · exact .ite .stay
      (.ite (.ok fun h => .haltPart <| .modPart (.when (.recordAbandon <| .discardStep h) fun h => .undoServe h) .keep)
        (.ite (.ok fun h => .haltPart <| .modPart (.when (.recordAbandon <| .discardStep h) fun h => .undoServe h) .keep)
          (.ite
            (.ok
              fun h =>
                .ringHost <|
                  .post <| .set <| .set <| .haltPart <| .modPart (.when (.recordAbandon <| .discardStep h) fun h => .undoServe h) .keep)
            (.ok
              fun h =>
                .when (.set <| .modPart (.when (.recordAbandon <| .discardStep h) fun h => .undoServe h) .keep) fun h => .reopen h))))
  · exact .stay

end Sys2Proof.Machine
end

section
/-!
SUPPORT. The invariant through the operations of mailboxes, doorbells and MSI-X (Mbx).
-/
namespace Sys2Proof.Machine
open Sys2Proof Sys2Proof.Spec
variable {s t : State}

theorem State.Wf.dropWrite {m} (h : s.Wf) : (s.dropWrite m).Wf := .bump h

theorem State.Wf.ownBox {who m} (h : s.Wf) (e : s.ownBox who m = some t) : t.Wf := by
  unfold State.ownBox at e
  split at e
  · split at e
    · cases e
      exact h
    · cases e
  · split at e
    · cases e
    · cases e
      exact .set <| .set h

theorem State.Wf.putBoxWord {m i w} (h : s.Wf) : (s.putBoxWord m i w).Wf := .setWord <| .setWord h

theorem State.Wf.boxWrite {who m i w} (h : s.Wf) : (s.boxWrite who m i w).Wf := by
  unfold State.boxWrite
  split
  · rename_i _ e
    exact .putBoxWord <| .ownBox h e
  · exact .dropWrite h

theorem Keeps.execMailboxDataWrite {who m i v} : Keeps s (execMailboxDataWrite who m i v s) := .occurs fun h => .boxWrite h

theorem State.Wf.putPeek {m full len sender} (h : s.Wf) : (s.putPeek m full len sender).Wf :=
  .set <| .set <| .set <| .set <| .set <| .set h

theorem State.Wf.deliver {m len sender} (h : s.Wf) : (s.deliver m len sender).Wf :=
  .when (.keep <| .putPeek <| .foldl h fun _ _ h => .putBoxWord h) fun h => .ring h

theorem State.Wf.forward {m len sender} (h : s.Wf) : (s.forward m len sender).Wf :=
  .ite (.set h) <| .ite (.set <| .set h) <| .sendDev <| .netWith (.set h) fun h => .keep h.net

theorem State.Wf.go {who m} (h : s.Wf) : (s.go who m).Wf :=
  .ite (.set h) (.ite (.set h) (.ite (.set h) (.ite (.forward h) (.set <| .deliver h))))

theorem State.Wf.disown {m} (h : s.Wf) : (s.disown m).Wf := .set h

theorem State.Wf.boxSend {who m ws} (h : s.Wf) : (s.boxSend who m ws).Wf :=
  .go <| .set <| .foldl (.set <| .set h) fun _ _ h => .putBoxWord h

theorem State.Wf.flushFrom {l} (h : s.Wf) : (s.flushFrom l).Wf := by
  induction l generalizing s with
  | nil => exact h
  | cons e l ih => exact .ite (ih (.boxSend h)) (ih (.modWith h fun h => .keep h.mod))

theorem State.Wf.flush (h : s.Wf) : (s.flush).Wf := .flushFrom { h with mod := { h.mod with } }

theorem State.Wf.say {who m ws} (h : s.Wf) : (s.say who m ws).Wf := .flush { h with mod := { h.mod with } }

theorem State.Wf.sctrlPut {who m w mask} (h : s.Wf) : (s.sctrlPut who m w mask).Wf := by
  unfold State.sctrlPut
  extract_lets
  split
  · rename_i _ e
    exact .ite (.set h) (.when (.when (.plainWrite <| .ownBox h e) fun h => .go h) fun h => .flush <| .disown h)
  · exact .ite (.flush <| .disown h) (.dropWrite h)

theorem Keeps.execMailboxGo {who m v} : Keeps s (execMailboxGo who m v s) := .occurs fun h => .sctrlPut h

theorem Keeps.execMailboxAbort {who m} : Keeps s (execMailboxAbort who m s) := .occurs fun h => .sctrlPut h

theorem State.Wf.takeBox {m} (h : s.Wf) : (s.takeBox m).Wf := .ite (.flush <| .disown <| .keep <| .set <| .set h) h

theorem Keeps.execMailboxTake {who m} : Keeps s (execMailboxTake who m s) := .occurs fun h => .takeBox h

theorem State.Wf.ringPutDoor {r w} (h : s.Wf) : (s.ringPutDoor r w).Wf := .ite (.set h) (.ring h)

theorem Keeps.execDbRing {who r v} : Keeps s (execDbRing who r v s) := .occurs fun h => .ringPutDoor h

theorem State.Wf.pendPut {r w mask} (h : s.Wf) : (s.pendPut r w mask).Wf := .dbSum <| .plainWrite h

theorem Keeps.execDbPendClear {who r v} : Keeps s (execDbPendClear who r v s) := .occurs fun h => .pendPut h

theorem State.Wf.maskPut {r w mask} (h : s.Wf) : (s.maskPut r w mask).Wf := .dbSum <| .dbSignal <| .plainWrite h

theorem Keeps.execDbMaskWrite {who r v} : Keeps s (execDbMaskWrite who r v s) := .occurs fun h => .maskPut h

theorem State.Wf.unmask {vec} (h : s.Wf) : (s.unmask vec).Wf :=
  .msixMaps (.set <| .set h) (sorted_smErase h.msixHeld) (sorted_smPut h.msixSent)

theorem Keeps.execMsixUnmask {vec} : Keeps s (execMsixUnmask vec s) := .ok fun h => .unmask h

theorem State.Wf.freeBoxes {gone} (h : s.Wf) : (s.freeBoxes gone).Wf :=
  .foldl h fun _ _ h => .ite (.whenNot (.disown h) fun h => .set <| .bump h) h

end Sys2Proof.Machine
end

section
/-!
SUPPORT. The invariant through the operations of the CXL host link (Link).
-/
namespace Sys2Proof.Machine
open Sys2Proof Sys2Proof.Spec
variable {s t : State}

theorem State.Wf.reply {a} (h : s.Wf) : (s.reply a).Wf := { h with }

theorem State.Wf.cxlErr {f} (h : s.Wf) : (s.cxlErr f).Wf := .ite h (.msix <| .set h)

theorem Keeps.execHdmDecoderCommit {i base size skip iw} : Keeps s (execHdmDecoderCommit i base size skip iw s) :=
  .ite .stay (.ok fun h => { h with link := { h.link with hdm := (length_setNth _ _ _).trans h.link.hdm } })

theorem State.Wf.setBias {page b} (h : s.Wf) : (s.setBias page b).Wf :=
  { h with link := { h.link with bias := sorted_smPut h.link.bias } }

theorem State.Wf.biasStep {r} (h : s.Wf) : (s.biasStep r).Wf := .linkWith (.set <| .setBias h) fun h => { h.link with }

theorem State.Wf.biasRun {force n} (h : s.Wf) : (s.biasRun force n).Wf := by
  induction n generalizing s with
  | zero => exact h
  | succ n ih =>
    unfold State.biasRun
    split
    · exact .whenNot h fun h => ih (.biasStep h)
    · exact h

theorem State.Wf.biasNow (h : s.Wf) : (s.biasNow).Wf := .biasRun h

theorem State.Wf.touchBias {dpa caching} (h : s.Wf) : (s.touchBias dpa caching).Wf :=
  .ite h (.setBias <| .when (.biasNow h) fun h => .when (.bump h) fun h => .bump h)

theorem State.Wf.poisonOut (h : s.Wf) : (s.poisonOut).Wf := .reply <| .bump h

theorem State.Wf.dropMem {f} (h : s.Wf) : (s.dropMem f).Wf := .reply <| .cxlErr <| .bump h

theorem Keeps.execCxlMemRead {addr caching} : Keeps s (execCxlMemRead addr caching s) := by
  unfold Machine.execCxlMemRead
  split
  · exact .stay
  · exact .ite (.ok fun h => .poisonOut <| .count h)
      (by
        extract_lets
        split
        · rename_i _ e
          exact .ok fun h => .reply <| .of2 e (.readLine <| .traffic <| .touchBias <| .count h)
        · rename_i _ e
          exact .ok fun h => .poisonOut <| .of2 e (.readLine <| .traffic <| .touchBias <| .count h))

theorem wf_maskRuns {l : List (Nat × Nat)} {a v : Nat} {m : SMap Byte} (h : Memory.wf m = true) :
    Memory.wf (l.foldl (fun m r => smPoke m (a + r.1) r.2 (bits v (8 * (r.1 + r.2) - 1) (8 * r.1))) m) = true := by
  induction l generalizing m with
  | nil => exact h
  | cons r l ih => exact ih (wf_smPoke _ _ _ _ h)

theorem Keeps.execCxlMemWrite {addr caching data mask} : Keeps s (execCxlMemWrite addr caching data mask s) := by
  unfold Machine.execCxlMemWrite
  split
  · exact .stay
  · extract_lets
    split
    · exact .ok fun h => .dropMem <| .count h
    · exact .ok fun h => .reply <| .whenNot (.traffic <| .touchBias <| .count h) fun h =>
        .openGranule <| .writeLineWith (fun _ => wf_maskRuns) h

theorem State.Wf.poisonLine {ln} (h : s.Wf) : (s.poisonLine ln).Wf :=
  .setGranule <|
    .unread { h with ecc := smWf_smErase _ _ _ h.ecc, metaFlip := smWf_smErase _ _ _ h.metaFlip, flipped := smWf_smErase _ _ _ h.flipped }

theorem Keeps.execCxlMemPoisonWrite {addr} : Keeps s (execCxlMemPoisonWrite addr s) := by
  unfold Machine.execCxlMemPoisonWrite
  split
  · exact .stay
  · extract_lets
    split
    exacts [.ok fun h => .dropMem <| .count h, .ok fun h => .reply <| .poisonLine <| .traffic <| .count h]

theorem State.Wf.biasPut {w mask} (h : s.Wf) : (s.biasPut w mask).Wf :=
  .ite (.cxlErr h) (.when (.setWord h) fun h => .ite (.msix <| .set h) (.linkWith (.set <| .set <| .set h) fun h => { h.link with }))

theorem Keeps.execBiasToDevice {v} : Keeps s (execBiasToDevice v s) := .occurs fun h => .biasPut h

theorem Keeps.execBiasToHost {v} : Keeps s (execBiasToHost v s) := .occurs fun h => .biasPut h

theorem Keeps.execBiasCommandDone : Keeps s (execBiasCommandDone s) := by
  unfold Machine.execBiasCommandDone
  split
  exacts [.stay, .ok fun h => .msix <| .set <| .set <| .linkWith (.biasRun h) fun h => { h.link with }]

theorem Keeps.execHostSnoop {addr} : Keeps s (execHostSnoop addr s) := .occurs fun h => .reply h

theorem State.Wf.setJobs {ch l} (h : s.Wf) : (s.setJobs ch l).Wf :=
  .set { h with link := { h.link with jobs := (length_setNth _ _ _).trans h.link.jobs } }

theorem State.Wf.tailPut {ch w mask} (h : s.Wf) : (s.tailPut ch w mask).Wf := .setJobs <| .plainWrite h

theorem Keeps.execHdmaTailWrite {ch v} : Keeps s (execHdmaTailWrite ch v s) := .occurs fun h => .tailPut h

theorem State.Wf.linesOut {w dpa host n} (h : s.Wf) : (s.linesOut w dpa host n).2.Wf := by
  induction n with
  | zero => exact h
  | succ n ih =>
    unfold State.linesOut
    split
    rename_i e
    have h1 := State.Wf.of2 e ih
    split
    next e => exact .hostWrite <| .of2 e (.readLine h1)
    next e => exact .hostWrite <| .keep <| .of2 e (.readLine h1)

theorem State.Wf.hdMove {ch j n} (h : s.Wf) : (s.hdMove ch j n).2.Wf :=
  .ite2 (.linesOut <| .traffic h) (.writeOpen <| .count <| .traffic h)

theorem State.Wf.hdStart {ch j} (h : s.Wf) : (s.hdStart ch j).2.Wf := by
  unfold State.hdStart
  refine .ite2 h ?_
  split
  rename_i e
  have h1 := State.Wf.of2 e (.freeBelow h)
  exact .ite2 h1 (.hdMove h1)

theorem Keeps.execHdmaDescriptor {ch} : Keeps s (execHdmaDescriptor ch s) :=
  .ite .stay
    (.ite .stay
      (.ite (.ok fun h => .setJobs <| .ite (.sendDev h) h)
        (by split; exacts [.ok fun h => .setJobs <| .hdStart h, .ok fun h => .setJobs <| .ite (.bump h) h])))

theorem State.Wf.hdFinish {ch j status} (h : s.Wf) : (s.hdFinish ch j status).Wf :=
  .when (.setJobs <| .whenNot (.hostWrite <| .set <| .hostWrite h) fun h => .set h) fun h => .msix h

theorem Keeps.execHdmaDescriptorDone {ch} : Keeps s (execHdmaDescriptorDone ch s) := by
  unfold Machine.execHdmaDescriptorDone
  split
  exacts [.ite .stay (.ite (.ok fun h => .setJobs <| .ite2 (.hdMove h) h) (.ite (.ok fun h => .hdFinish h) .stay)), .stay]

theorem State.Wf.stopChannel {ch} (h : s.Wf) : (s.stopChannel ch).Wf := by
  unfold State.stopChannel
  extract_lets
  split
  exacts [.setJobs <| .hdFinish <| .set h, .setJobs <| .set h]

theorem Keeps.execHdmaChannelStop {ch} : Keeps s (execHdmaChannelStop ch s) := .occurs fun h => .stopChannel h

theorem State.Wf.chCfgPut {ch w mask} (h : s.Wf) : (s.chCfgPut ch w mask).Wf :=
  .setJobs <| .when (.plainWrite <| .ite (.stopChannel h) h) fun h => .set h

end Sys2Proof.Machine
end

section
/-!
SUPPORT. The invariant through the operations of the network ports (Eth).
-/
namespace Sys2Proof.Machine
open Sys2Proof Sys2Proof.Spec
variable {s t : State}

theorem State.Wf.syncState {off} (h : s.Wf) : (s.syncState off).Wf := .set <| .set { h with }

theorem State.Wf.discipline {off} (h : s.Wf) : (s.discipline off).Wf := .ite (.setCount { h with }) { h with }

theorem Keeps.execPtpMessage {port offset} : Keeps s (execPtpMessage port offset s) :=
  .ite (.ok fun h => .discipline <| .syncState h) .stay

theorem Keeps.dueAt {at_ f} (hf : ∀ s, State.Wf s → (f s).Wf) : Keeps s (s.dueAt at_ f) :=
  .ite (.ok fun h => hf _ h)
    (by
      split
      · rename_i _ e
        exact .ok fun h => hf _ (.advanceTo h e)
      · exact .stay)

theorem State.Wf.losePtp (h : s.Wf) : (s.losePtp).Wf := .ite (.set { h with }) h

theorem Keeps.execPtpLoss : Keeps s (execPtpLoss s) := .ok fun h => .losePtp h

theorem Keeps.execHoldoverExpiry : Keeps s (execHoldoverExpiry s) := by
  unfold Machine.execHoldoverExpiry
  split
  exacts [.ite .stay (.dueAt fun _ h => .set <| .set { h with }), .stay]

theorem State.Wf.sendSync {p} (h : s.Wf) : (s.sendSync p).Wf :=
  .send { h with net := { h.net with syncAt := (length_setNth _ _ _).trans h.net.syncAt } }

theorem Keeps.execPtpSyncSend {port} : Keeps s (execPtpSyncSend port s) := .ite (.dueAt fun _ h => .sendSync h) .stay

theorem Keeps.execDroppedFrame {port why} : Keeps s (execDroppedFrame port why s) := .occurs fun h => .count h

theorem Keeps.execArpRequest {port ip} : Keeps s (execArpRequest port ip s) :=
  .ite .stay (.ite (.ok fun h => .send h) (.ok fun h => .count h))

theorem State.Wf.holdLanes {p} (h : s.Wf) : (s.holdLanes p).Wf :=
  { h with net := { h.net with lanes := (length_setNth _ _ _).trans h.net.lanes } }

theorem State.Wf.portTrains {p} (h : s.Wf) : (s.portTrains p).Wf :=
  .set <| .set { h with net := { h.net with lanes := (length_setNth _ _ _).trans h.net.lanes } }

theorem State.Wf.portsTrain (h : s.Wf) : (s.portsTrain).Wf := .foldl h fun _ _ h => .portTrains h

theorem Keeps.execLinkUp {port lane} : Keeps s (execLinkUp port lane s) :=
  .ite
    (.ite (.ok fun h => .netWith (.set <| .set <| .holdLanes h) fun h => { h.net with }) (.ok fun h => .set <| .set <| .holdLanes h))
    .stay

theorem State.Wf.portsDown (h : s.Wf) : (s.portsDown).Wf := .foldl h fun _ _ h => .set <| .set h

theorem State.Wf.openPairs {g} (h : s.Wf) : (s.openPairs g).Wf := { h with net := { h.net with qps := sorted_filter h.net.qps } }

theorem State.Wf.grpCfgPut {g w mask} (h : s.Wf) : (s.grpCfgPut g w mask).Wf :=
  .ite (.set h) (.when (.plainWrite h) fun h => .openPairs h)

theorem State.Wf.grpMapPut {g i w mask} (h : s.Wf) : (s.grpMapPut g i w mask).Wf := .ite (.set h) (.plainWrite h)

theorem Keeps.execGroupEnable {g v} : Keeps s (execGroupEnable g v s) := .occurs fun h => .grpCfgPut h

theorem State.Wf.onCnp {q} (h : s.Wf) : (s.onCnp q).Wf := .setQp h

theorem Keeps.execCnpReceive {port qp} : Keeps s (execCnpReceive port qp s) := .occurs fun h => .count <| .onCnp h

theorem State.Wf.onTimer {q} (h : s.Wf) : (s.onTimer q).Wf := .setQp h

theorem Keeps.execCcTimer {qp} : Keeps s (execCcTimer qp s) := .ite (.dueAt fun _ h => .onTimer h) .stay

theorem State.Wf.resend {q} (h : s.Wf) : (s.resend q).Wf := .foldl (.count <| .setQp h) fun _ _ h => .send h

theorem State.Wf.acked {q psn} (h : s.Wf) : (s.acked q psn).Wf := .ite (.setQp h) h

theorem Keeps.execQpResetNotice {dev qp} : Keeps s (execQpResetNotice dev qp s) := .occurs fun h => .setQp h

theorem Keeps.execQpRestart {qp} : Keeps s (execQpRestart qp s) :=
  .ite .stay (by split; exacts [.occurs fun h => .setQp h, .dueAt fun _ h => .setQp h])

theorem State.Wf.landMessage {dev m len ws} (h : s.Wf) : (s.landMessage dev m len ws).2.Wf :=
  .ite2 h (.ite2 h (.ite2 h (.ite2 h (.deliver <| .foldl h fun _ _ h => .putBoxWord h))))

theorem Keeps.execForwardedMessage {msg} : Keeps s (execForwardedMessage msg s) := .ite .stay (.ok fun h => .sendDev <| .landMessage h)

theorem Keeps.execForwardReply {reply} : Keeps s (execForwardReply reply s) :=
  .ite .stay
    (.ite (.ok fun h => .set { h with net := { h.net with } })
      (.ite (.ok fun h => .netWith { h with net := { h.net with } } fun h => { h.net with })
        (.ok fun h => { h with net := { h.net with } })))

theorem Keeps.execForwardedDmaRequest {req} : Keeps s (execForwardedDmaRequest req s) :=
  .ite .stay (.ok fun h => .sendDev <| .ite { h with net := { h.net with } } h)

theorem State.Wf.askPieces {dev a n} (h : s.Wf) : (s.askPieces dev a n).Wf := .foldl h fun _ _ h => .sendDev h

theorem Keeps.execForwardedDmaReply {reply} : Keeps s (execForwardedDmaReply reply s) := by
  unfold Machine.execForwardedDmaReply
  extract_lets
  split
  · extract_lets
    split
    rename_i _ e
    extract_lets
    split
    · exact .ite
        (.ok
          fun h => .hdFinish <| .setJobs <| .of2 e (.ite2 h (.ite2 (.hostWriteList <| .askPieces h) (.foldl h fun _ _ h => .sendDev h))))
        (.ok fun h => .setJobs <| .of2 e (.ite2 h (.ite2 (.hostWriteList <| .askPieces h) (.foldl h fun _ _ h => .sendDev h))))
    · exact .ok fun h => .setJobs <| .of2 e (.ite2 h (.ite2 (.hostWriteList <| .askPieces h) (.foldl h fun _ _ h => .sendDev h)))
  · exact .stay

end Sys2Proof.Machine
end

section
/-!
SUPPORT. The invariant through the operations of collective phases (Coll).
-/
namespace Sys2Proof.Machine
open Sys2Proof Sys2Proof.Spec
variable {s t : State}

theorem State.Wf.phaseLine {d p a} (h : s.Wf) : (s.phaseLine d p a).2.Wf := by
  unfold State.phaseLine
  split
  · split
    next e => exact .of3 e (.readBytes <| .traffic h)
  · exact h

theorem State.Wf.loadPhase {x} (h : s.Wf) : (s.loadPhase x).2.Wf := by
  unfold State.loadPhase
  split
  next e => exact .of2 e (.phaseLine h)
  next e =>
    have h1 := State.Wf.of2 e (.phaseLine h)
    extract_lets
    refine .ite2 h1 <| .ite2 h1 ?_
    split
    next e => exact .of2 e (.phaseLine h1)
    next e =>
      have h2 := State.Wf.of2 e (.phaseLine h1)
      split
      next e => exact .of2 e (.phaseLine h2)
      next e =>
        have h3 := State.Wf.of2 e (.phaseLine h2)
        exact .ite2 h3 (.ite2 h3 h3)

theorem State.Wf.tellLine {x m} (h : s.Wf) : (s.tellLine x m).Wf := .foldl h fun _ _ h => .sendDev h

theorem State.Wf.orFree {v n} (h : s.Wf) : (s.orFree v n).2.Wf := by
  unfold State.orFree
  split
  exacts [h, .freeBelow h]

theorem State.Wf.failPhase {x code peer addr group} (h : s.Wf) : (s.failPhase x code peer addr group).Wf := by
  unfold State.failPhase
  extract_lets
  split
  · exact .beginAbandon <|
      .when (.when (.whenNot (.count { h with }) fun h => .setWord <| .orFree <| .orFree h) fun h => .tellLine h)
        fun h => .setPart h { h.part with }
  · exact .coreFaultAs <|
      .when (.when (.whenNot (.count { h with }) fun h => .setWord <| .orFree <| .orFree h) fun h => .tellLine h)
        fun h => .setPart h { h.part with }

theorem State.Wf.setPhase {x y} (h : s.Wf) : (s.setPhase x y).Wf := { h with }

theorem State.Wf.putRun {w ends row width c n v} (h : s.Wf) : (s.putRun w ends row width c n v).Wf := .writeOpen <| .lineTraffic h

theorem State.Wf.addRun {w f row c n v} (h : s.Wf) : (s.addRun w f row c n v).Wf := .addPiece <| .lineTraffic h

theorem State.Wf.putElems {x l} (h : s.Wf) : (s.putElems x l).Wf := .foldl h fun _ _ h => .ite (.addRun h) (.putRun h)

theorem State.Wf.reduceElems {x first l} (h : s.Wf) : (s.reduceElems x first l).Wf := .foldl h fun _ _ h => .writeRaw h

theorem State.Wf.takeElems {x first l} (h : s.Wf) : (s.takeElems x first l).Wf := .ite (.reduceElems h) (.putElems h)

theorem State.Wf.sealDst {x} (h : s.Wf) : (s.sealDst x).Wf := .ite h (.foldl h fun _ _ h => .ite (.sealGranule h) h)

theorem State.Wf.roundDst {x} (h : s.Wf) : (s.roundDst x).Wf := .putElems h

theorem State.Wf.settlePhase {x} (h : s.Wf) : (s.settlePhase x).Wf :=
  .ite h (.ite (.failPhase h) (.sealDst <| .when (.setPhase h) fun h => .roundDst h))

theorem State.Wf.requestPieces {x r} (h : s.Wf) : (s.requestPieces x r).Wf := .foldl h fun _ _ h => .sendOn h

theorem State.Wf.hearPub {x r} (h : s.Wf) : (s.hearPub x r).Wf :=
  .ite h (.settlePhase <| .when (.requestPieces <| .setPhase h) fun h => .sendDev h)

theorem State.Wf.beginPhase {x y} (h : s.Wf) : (s.beginPhase x y).Wf := by
  unfold State.beginPhase
  extract_lets
  split
  rename_i _ e
  split
  · exact .failPhase <| .of3 e (.getImage <| .setPhase h)
  · exact .ite (.failPhase <| .of3 e (.getImage <| .setPhase h))
      (.ite (.failPhase <| .of3 e (.getImage <| .setPhase h))
        (.foldl (.settlePhase <| .netWith (.tellLine <| .takeElems <| .of3 e (.getImage <| .setPhase h)) fun h => { h.net with })
          fun _ _ h => by split; exacts [.hearPub h, h]))

theorem Keeps.execCollPhaseStart {d} : Keeps s (execCollPhaseStart d s) := by
  unfold Machine.execCollPhaseStart
  extract_lets
  split
  · exact .stay
  · exact .ite .stay
      (by
        split
        · rename_i _ e
          exact .ok fun h => .failPhase <| .of2 e (.loadPhase h)
        · rename_i _ e
          exact .ok fun h => .beginPhase <| .of2 e (.loadPhase h))

theorem Keeps.execPublicationReceive {d pub} : Keeps s (execPublicationReceive d pub s) :=
  .ite .stay (by split; exacts [.ite (.ok fun h => .hearPub h) .stay, .ok fun h => { h with net := { h.net with } }])

theorem State.Wf.pieceAnswered {x r i} (h : s.Wf) : (s.pieceAnswered x r i).Wf := .foldl h fun _ _ h => by split; exacts [.acked h, h]

theorem Keeps.execRdmaPieceDone {d piece} : Keeps s (execRdmaPieceDone d piece s) := by
  unfold Machine.execRdmaPieceDone
  extract_lets
  split
  · exact .stay
  · exact .ite .stay
      (.ite (.ok fun h => .failPhase h)
        (.ok fun h => .settlePhase <| .when (.takeElems <| .account <| .count <| .pieceAnswered <| .setPhase h) fun h => .sendDev h))

theorem State.Wf.endPhase {x} (h : s.Wf) : (s.endPhase x).Wf := by
  unfold State.endPhase
  extract_lets
  split
  exacts [.itemComplete <| .count { h with }, .count { h with }]

theorem Keeps.execCollPhaseLocalComplete {d i} : Keeps s (execCollPhaseLocalComplete d i s) := by
  unfold Machine.execCollPhaseLocalComplete
  split
  exacts [.stay, .ite (.ok fun h => .endPhase h) .stay]

theorem Keeps.execCollTimeout {d i} : Keeps s (execCollTimeout d i s) := by
  unfold Machine.execCollTimeout
  split
  · exact .stay
  · extract_lets
    split
    exacts [.stay, .ite .stay (.dueAt fun _ h => .failPhase h)]

theorem Keeps.execCollAbortReceive {d g tag peer} : Keeps s (execCollAbortReceive d g tag peer s) := by
  unfold Machine.execCollAbortReceive
  split
  exacts [.ite (.ok fun h => .failPhase h) .stay, .stay]

theorem State.Wf.qpFail {q} (h : s.Wf) : (s.qpFail q).Wf := by
  unfold State.qpFail
  extract_lets
  split
  · exact .foldl (.sendDev <| .set <| .setQp h) fun _ _ h => .failPhase h
  · exact .foldl (.netWith (.foldl (.set <| .setQp h) fun _ _ h => .set <| .set h) fun h => { h.net with }) fun _ _ h => .setJobs h

theorem State.Wf.retry {q} (h : s.Wf) : (s.retry q).Wf := .ite (.qpFail h) (.resend <| .setQp h)

theorem Keeps.execAckTimeout {qp} : Keeps s (execAckTimeout qp s) := .ite (.dueAt fun _ h => .retry h) .stay

theorem Keeps.execSequenceNak {qp psn} : Keeps s (execSequenceNak qp psn s) := .ite .stay (.ok fun h => .retry <| .setQp h)

theorem State.Wf.linkFalls {port lane} (h : s.Wf) : (s.linkFalls port lane).Wf := by
  unfold State.linkFalls
  extract_lets d k s1 s2
  have h2 : s2.Wf := .set <| .set <| .holdLanes h
  refine .ite h ?_
  split
  · exact .foldl h2 fun _ _ h => .failPhase h
  · exact .foldl h2 fun _ _ h => by
      split
      · exact .foldl (.setQp h) fun _ _ h => .sendOn h
      · exact h

theorem Keeps.execLinkDown {port lane} : Keeps s (execLinkDown port lane s) := .ok fun h => .linkFalls h

theorem State.Wf.portCfgPut {p w mask} (h : s.Wf) : (s.portCfgPut p w mask).Wf :=
  .ite (.set <| .foldl (.when (.plainWrite h) fun h => .set h) fun _ _ h => .linkFalls h)
    (.when (.when (.plainWrite h) fun h => .set h) fun h => .portTrains h)

theorem State.Wf.serveRead {q psn d g r a n} (h : s.Wf) : (s.serveRead q psn d g r a n).Wf := by
  unfold State.serveRead
  split
  · exact .send h
  · extract_lets
    split
    · rename_i _ e
      exact .send <| .of3 e (.computeGranules h)
    · rename_i _ e
      exact .failPhase <| .send <| .of3 e (.computeGranules h)

theorem State.Wf.useRange {i n} (h : s.Wf) : (s.useRange i n).Wf := { h with net := { h.net with } }

theorem State.Wf.answerAsk {dev g b} (h : s.Wf) : (s.answerAsk dev g b).Wf := by
  unfold State.answerAsk
  split
  exacts [.sendDev h, h]

theorem State.Wf.servePacket {q psn op} (h : s.Wf) : (s.servePacket q psn op).Wf := by
  unfold State.servePacket
  extract_lets
  split
  · exact h
  · exact .ite (.send h) (.send h)
  · exact .ite (.answerAsk <| .send h) (.send h)
  · exact .ite (.send h) (.foldl (.send h) fun _ _ h => .settlePhase <| .setPhase h)
  · split
    · exact .serveRead h
    · split
      · refine .ite (.send h) ?_
        extract_lets s1
        have h1 : s1.Wf := .useRange <| .lineTraffic h
        split
        next e => exact .send <| .of3 e (.readBytes h1)
        next e => exact .send <| .of3 e (.readBytes h1)
      · exact .send h
  · split
    · exact .ite (.send h) (.send <| .writeOpen <| .useRange <| .lineTraffic h)
    · exact .send h

theorem State.Wf.noticeCe {port q} (h : s.Wf) : (s.noticeCe port q).Wf := .ite (.count <| .send <| .setQp h) h

theorem Keeps.execRocePacketReceive {port pkt} : Keeps s (execRocePacketReceive port pkt s) :=
  .ite .stay
    (.ite (.ok fun h => .count h)
      (by
        extract_lets
        split
        · exact .ok fun h => .acked <| .when (.count h) fun h => .noticeCe h
        · exact .ite (.ok fun h => .servePacket <| .setQp <| .when (.count h) fun h => .noticeCe h)
            (.ite
              (by
                split
                · exact .ok fun h => .servePacket <| .when (.count h) fun h => .noticeCe h
                · exact .ok fun h => .send <| .when (.count h) fun h => .noticeCe h)
              (.ok fun h => .send <| .when (.count h) fun h => .noticeCe h))))

end Sys2Proof.Machine
end

section
/-!
SUPPORT. The invariant through the operations of the vote of a step (Vote).
-/
namespace Sys2Proof.Machine
open Sys2Proof Sys2Proof.Spec
variable {s t : State}

theorem State.Wf.heedVote {p commit} (h : s.Wf) : (s.heedVote p commit).Wf :=
  .whenNot (.setPart h { h.part with }) fun h => .beginAbandon h

theorem State.Wf.refuseStep {p} (h : s.Wf) : (s.refuseStep p).Wf := .ite h (.heedVote <| .decideVote h)

theorem State.Wf.refuseIdle {g b} (h : s.Wf) : (s.refuseIdle g b).Wf := .ite (.sendDecision h) h

theorem Keeps.execVoteReady {g rank btick ready} : Keeps s (execVoteReady g rank btick ready s) := by
  unfold Machine.execVoteReady
  split
  · exact .ite .stay (.ok fun h => .refuseIdle h)
  · exact .ite .stay (.ite (.ok fun h => .refuseStep h) (.ok fun h => .when (.setPart h { h.part with }) fun h => .castReady h))

theorem Keeps.execVoteDeadline {g} : Keeps s (execVoteDeadline g s) := by
  unfold Machine.execVoteDeadline
  extract_lets
  split
  exacts [.stay, .ite .stay (.dueAt fun _ h => .refuseStep h)]

theorem Keeps.execVoteDecision {g btick commit} : Keeps s (execVoteDecision g btick commit s) := by
  unfold Machine.execVoteDecision
  split
  exacts [.stay, .ite .stay (.ok fun h => .heedVote h)]

theorem State.Wf.doubt {p} (h : s.Wf) : (s.doubt p).Wf := .ringHost <| .set <| .set <| .setPart h { h.part with }

theorem Keeps.execVoteIndoubt {g} : Keeps s (execVoteIndoubt g s) := by
  unfold Machine.execVoteIndoubt
  extract_lets
  split
  exacts [.stay, .ite .stay (.dueAt fun _ h => .doubt h)]

theorem State.Wf.askLeader {p g} (h : s.Wf) : (s.askLeader p g).Wf := .sendDev <| .setPart h { h.part with }

theorem Keeps.execVoteRequery {g} : Keeps s (execVoteRequery g s) := by
  unfold Machine.execVoteRequery
  extract_lets
  split
  exacts [.stay, .ite (.dueAt fun _ h => .askLeader h) .stay]

theorem State.Wf.resolvePut {g w mask} (h : s.Wf) : (s.resolvePut g w mask).Wf :=
  .whenNot (.plainWrite h) fun h => by split; exacts [h, .ite (.heedVote h) h]

theorem Keeps.execGrpResolve {g v} : Keeps s (execGrpResolve g v s) := .occurs fun h => .resolvePut h

end Sys2Proof.Machine
end

section
/-!
SUPPORT. The invariant through the operations of housekeeping rounds and shutdown (Rounds).
-/
namespace Sys2Proof.Machine
open Sys2Proof Sys2Proof.Spec
variable {s t : State}

theorem State.Wf.loseStep {p} (h : s.Wf) : (s.loseStep p).Wf :=
  .discardStep { h with
    pans := sorted_filterMap h.pans fun e e' he => by
      obtain ⟨-, he⟩ := Option.ite_none_left_eq_some.1 he
      cases he
      rfl
    pansWf := fun e he => by
      obtain ⟨x, hx, e'⟩ := List.mem_filterMap.1 he
      obtain ⟨-, e'⟩ := Option.ite_none_left_eq_some.1 e'
      cases e'
      have hw := h.pansWf x hx
      exact .ite (.keep hw) hw }

theorem State.Wf.shutPart {p} (h : s.Wf) : (s.shutPart p).Wf :=
  .ite h
    (.post <| .set <| .set <| .set <| .haltPart <| .ite (.modPart (.when (.recordAbandon <| .loseStep h) fun h => .undoServe h) .keep) h)

theorem State.Wf.abortPhases (h : s.Wf) : (s.abortPhases).Wf := .foldl h fun _ _ h => .ite (.tellLine { h with }) { h with }

theorem State.Wf.stacksSleep (h : s.Wf) : (s.stacksSleep).Wf := .foldl h fun _ _ h => .ite (.set h) h

theorem State.Wf.stacksWake (h : s.Wf) : (s.stacksWake).Wf := .foldl h fun _ _ h => .ite (.stackRuns h) h

theorem State.Wf.shutdown {cause ch} (h : s.Wf) : (s.shutdown cause ch).Wf :=
  .ringHost <|
    .setWord <|
      .set <| .set <| .stacksSleep <| .foldl (.foldl (.abortPhases h) fun _ _ h => .shutPart h) fun _ _ h => .ite (.stopChannel h) h

theorem Keeps.execOppClockSwitch {d} : Keeps s (execOppClockSwitch d s) := by
  unfold Machine.execOppClockSwitch
  split
  exacts [.ite (.dueAt fun _ h => .clockSwitch h) .stay, .stay]

theorem Keeps.execFastPowerCheck {mw} : Keeps s (execFastPowerCheck mw s) :=
  .ite .stay
    (.ite (.ok fun h => .set <| .foldl { h with power := { h.power with } } fun _ _ h => .ite (.emergency h) h)
      (.ok fun h => { h with power := { h.power with } }))

theorem State.Wf.round {d} (h : s.Wf) : (s.round d).Wf :=
  .whenNot (.setDpower (.ite (.set h) h) { h.dpower with })
    fun h =>
      .ite (.shutdown h)
        (by
          split
          · exact .shutdown h
          · exact .foldl (.throttle <| .ite (.emergency h) (.ite (.setDpower h { h.dpower with }) h)) fun _ _ h => .stackRound h)

theorem State.Wf.housekeep {readings} (h : s.Wf) : (s.housekeep readings).Wf :=
  .whenNot (.roundStatus <| .foldl { h with power := { h.power with } } fun _ _ h => .enterReading h)
    fun h => .when (.foldl (.ite (.recoverCut h) h) fun _ _ h => .ite (.round h) h) fun h => .driftRound h

theorem Keeps.execHousekeepingRound {readings} : Keeps s (execHousekeepingRound readings s) := .ite .stay (.dueAt fun _ h => .housekeep h)

theorem State.Wf.thermResume (h : s.Wf) : (s.thermResume).Wf := .ite (.ite (.stacksWake <| .set h) h) (.set h)

theorem Keeps.execThermResume : Keeps s (execThermResume s) := .occurs fun h => .thermResume h

end Sys2Proof.Machine
end

section
/-!
SUPPORT. The invariant through the operations of the assay die (Assay).
-/
namespace Sys2Proof.Machine
open Sys2Proof Sys2Proof.Spec
variable {s t : State}

theorem State.Wf.extend {i code digest} (h : s.Wf) : (s.extend i code digest).Wf := .foldl h fun _ _ h => .set h

theorem State.Wf.extendOpen {i} (h : s.Wf) : (s.extendOpen i).Wf := by
  unfold State.extendOpen
  split
  rename_i e1
  split
  rename_i e2
  exact .extend <| .of2 e2 (.freeBelow <| .of2 e1 (.freeBelow h))

theorem State.Wf.putWords {r k l} (h : s.Wf) : (s.putWords r k l).Wf := .foldl h fun _ _ h => by split; exacts [.setWord h, .setWord h]

theorem State.Wf.mirror (h : s.Wf) : (s.mirror).Wf :=
  .set <| .set <| .set <| .set <| .set <| .set <| .set <| .set <| .set <| .set <| .set h

theorem State.Wf.issueRecord (h : s.Wf) : (s.issueRecord).Wf := by
  unfold State.issueRecord
  extract_lets
  split
  exacts [h, .set <| .putWords { h with }]

theorem State.Wf.openShares {x} (h : s.Wf) : (s.openShares x).2.Wf := .ite2 h (.foldl2 h fun _ _ h => .freeChoice <| .freeBelow h)

theorem State.Wf.closeTick {x} (h : s.Wf) : (s.closeTick x).Wf :=
  .when
    (.set <|
      .set <| .set <| .putWords <| .bump <| .keep (by split; exacts [.whenNot (.openShares h) fun h => .issueRecord h, .openShares h]))
    fun h => .issueRecord h

theorem State.Wf.addEnergy {nj} (h : s.Wf) : (s.addEnergy nj).Wf := .count { h with }

theorem State.Wf.fillRing {base slot size prod l} (h : s.Wf) : (s.fillRing base slot size prod l).2.2.Wf := by
  induction l generalizing s prod with
  | nil => exact h
  | cons x l ih =>
    rw [State.fillRing]
    exact .ite3 (ih <| .when (.hostWrite <| .hostWriteList h) fun h => .ringHost h) h

theorem State.Wf.relay (h : s.Wf) : (s.relay).Wf := by
  unfold State.relay
  split
  exacts [h, .ite h (.keep <| .fillRing <| .fillRing h)]

theorem Keeps.execTickMark {r} : Keeps s (execTickMark r s) := by
  unfold Machine.execTickMark
  extract_lets k s1 s2 _ s3 late k3 k' measured _ s4
  refine .ite .stay (.ok fun h => ?_)
  have h2 : s2.Wf := .when (.addEnergy h) fun h => .bump h
  have h3 : State.Wf s3 := .foldl (.keep h2) fun _ _ h => .closeTick h
  have h4 : State.Wf s4 := { h3 with power := .keep h3.power }
  exact .relay <| .mirror h4

theorem Keeps.execAssayGap : Keeps s (execAssayGap s) := .ite (.ok fun h => { h with }) .stay

theorem Keeps.execWeightMessage {d w} : Keeps s (execWeightMessage d w s) :=
  .ite .stay (by split; exacts [.ite (.ite .stay (.ok fun h => { h with })) (.ite .stay (.ok fun h => { h with })), .stay])

theorem Keeps.execAssayFigures : Keeps s (execAssayFigures s) := by
  unfold Machine.execAssayFigures
  split
  exacts [.stay, .ite (.ok fun h => { h with }) (.ok fun h => .foldl { h with } fun _ _ h => .setPart h { h.part with })]

theorem State.Wf.pmReply {w0 status} (h : s.Wf) : (s.pmReply w0 status).Wf := .say h

theorem State.Wf.secReply {w0 status more} (h : s.Wf) : (s.secReply w0 status more).Wf := .say h

theorem Keeps.execAssayRingConfig : Keeps s (execAssayRingConfig s) := by
  unfold Machine.execAssayRingConfig
  split
  · exact .ite (.ok fun h => .pmReply <| .takeBox h)
      (.ite (.ok fun h => .pmReply <| .takeBox h) (.ok fun h => .pmReply <| .relay <| .keep <| .takeBox h))
  · exact .stay

theorem State.Wf.beginSeal {e} (h : s.Wf) : (s.beginSeal e).Wf := .mirror { h with }

theorem Keeps.execAssayFirmwareInstall {digest ver} : Keeps s (execAssayFirmwareInstall digest ver s) := .occurs fun h => .beginSeal h

theorem Keeps.execCalibrationChange {digest cal idle ticks} : Keeps s (execCalibrationChange digest cal idle ticks s) :=
  .occurs fun h => .beginSeal h

theorem Keeps.execAssayDebugAttach : Keeps s (execAssayDebugAttach s) := .occurs fun h => .beginSeal h

theorem Keeps.execIslandPowerReturn : Keeps s (execIslandPowerReturn s) := .occurs fun h => .beginSeal { h with }

theorem Keeps.execAssayWatchdog : Keeps s (execAssayWatchdog s) := .ite (.ok fun h => .set <| .bump { h with }) .stay

theorem Keeps.execAssayDieReturn : Keeps s (execAssayDieReturn s) := .occurs fun h => .mirror { h with }

theorem Keeps.execSealEntryProgrammed : Keeps s (execSealEntryProgrammed s) := by
  unfold Machine.execSealEntryProgrammed
  extract_lets
  split
  · exact .ite .stay
      (.ok fun h => .relay <| .mirror <| .whenNot (.whenNot (.keep <| .freeChoice h) fun h => .putWords h) fun h => .extendOpen h)
  · exact .stay

end Sys2Proof.Machine
end

section
/-!
SUPPORT. The invariant through the operations of boot, resets and power states (Reset).
-/
namespace Sys2Proof.Machine
open Sys2Proof Sys2Proof.Spec
variable {s t : State}

theorem State.Wf.loadComp {c} (h : s.Wf) : (s.loadComp c).Wf := by
  unfold State.loadComp
  extract_lets f bad s1 got _ s2
  have h1 : s1.Wf := .when h fun h => .set h
  have h2 : State.Wf s2 := .secWith h1 fun h => { h.sec with loaded := (length_setNth _ _ _).trans h.sec.loaded }
  clear_value s2 got
  split
  · exact .set <| .set h2
  · exact h2

theorem State.Wf.extendMany {i n} (h : s.Wf) : (s.extendMany i n).Wf := by
  induction n generalizing s with
  | zero => exact h
  | succ n ih => exact ih (.extendOpen h)

theorem State.Wf.bootSec (h : s.Wf) : (s.bootSec).Wf := by
  unfold State.bootSec
  extract_lets f s1
  have h1 : s1.Wf := .foldl h fun _ _ h => .foldl h fun _ _ h => .set h
  split
  rename_i e
  have h2 := State.Wf.of2 e (.freeChoice h1)
  extract_lets _ s3 s4 bad s5 s6 s7 s8 s9 s10
  have h3 : State.Wf s3 := .secWith h2 fun h => .keep h.sec
  have h4 : State.Wf s4 := .foldl h3 fun _ _ h => .loadComp h
  have h6 : State.Wf s6 := .whenNot (.set h4) fun h => .set h
  have h8 : State.Wf s8 := .foldl (.when h6 fun h => .set h) fun _ _ h => .extendOpen h
  have h10 : State.Wf s10 := .when (.extendMany h8) fun h => .extend <| .freeBelow (n := 2 ^ 512) h
  clear_value s10
  split
  rename_i e
  have h11 := State.Wf.of2 e (.freeBelow h10)
  extract_lets s12 s13 s14
  have h13 : State.Wf s13 := .set <| .set <| .set <| .set h11
  have h14 : State.Wf s14 := .when h13 fun h => .foldl h fun _ _ h => .setWord h
  exact .secWith h14 fun h => { h.sec with measured := rfl }

theorem State.Wf.bootFabric (h : s.Wf) : (s.bootFabric).Wf :=
  .ite h (.when (.foldl (.set <| .set h) fun _ _ h => .setWord <| .setWord h) fun h => .foldl h fun _ _ h => .set <| .set h)

theorem State.Wf.bootPolicy {ds} (h : s.Wf) : (s.bootPolicy ds).Wf :=
  .ite h (.foldl h fun _ _ h => by split; exacts [.ite (.setWord h) h, h])

theorem State.Wf.bootVolts (h : s.Wf) : (s.bootVolts).Wf := by
  unfold State.bootVolts
  extract_lets
  split
  · exact .setWord <|
      .foldl
        (.foldl
          (.foldl (.whenNot (.foldl h fun _ _ h => .setDpower h { h.dpower with }) fun h => .foldl (.set h) fun _ _ h => .set h)
            fun _ _ h => .set <| .setVt h)
          fun _ _ h => .set h)
        fun _ _ h => .setWord h
  · exact .whenNot (.whenNot (.foldl h fun _ _ h => .setDpower h { h.dpower with }) fun h => .foldl (.set h) fun _ _ h => .set h)
      fun h => .foldl h fun _ _ h => .set <| .set h

theorem State.Wf.applyRepair {r} (h : s.Wf) : (s.applyRepair r).Wf := .ite (.count h) (.addRemap h)

theorem State.Wf.bootRepairs (h : s.Wf) : (s.bootRepairs).Wf :=
  have h1 : State.Wf { s with stks := s.stks.map (fun k => { k with remap := [] }) } := { h with
    stks := (List.length_map _).trans h.stks
    stksWf := forall_map h.stksWf fun _ hk => { hk with remap := rfl } }
  .foldl (.when (.foldl h1 fun _ _ h => .set <| .set h) fun h => .foldl h fun _ _ h => .applyRepair h) fun _ _ h => .applyRepair h

theorem State.Wf.trainLink (h : s.Wf) : (s.trainLink).Wf := by
  unfold State.trainLink
  refine .ite h ?_
  split
  rename_i e1
  split
  rename_i e2
  split
  rename_i e3
  exact .set <| .set <| .set <| .set <| .of2 e3 (.freeBelow <| .of2 e2 (.freeBelow <| .of2 e1 (.freeChoice h)))

/-- The memories as the bulk clear leaves them, with the host's window open. -/
theorem State.Wf.memCleared {active run} (h : s.Wf) : State.Wf { s with
    mem := [], gran := [], ecc := [], metaFlip := [], flipped := [], csumBad := [], link := { s.link with active, run } } :=
  { h with mem := rfl, gran := rfl, ecc := rfl, metaFlip := rfl, flipped := rfl, csumBad := rfl, link := .keep h.link }

theorem Keeps.execBulkClearDone : Keeps s (execBulkClearDone s) := by
  unfold Machine.execBulkClearDone
  extract_lets s1 s2 s3 up s4 _ s5
  have h1 : s.Wf → s1.Wf := .bootSec
  have h2 : s.Wf → s2.Wf := fun h => .bootRepairs <| .bootVolts <| .bootPolicy <| .bootFabric (h1 h)
  have h3 : s.Wf → s3.Wf := fun h => .trainLink <| .set (h2 h)
  have h4 : s.Wf → s4.Wf := fun h => .foldl (h3 h) fun _ _ h => .set h
  exact .ite .stay (.ok fun h => .mirror <| .memCleared (h4 h))

theorem State.Wf.finishCommit {p} (h : s.Wf) : (s.finishCommit p).Wf := by
  unfold State.finishCommit
  refine .when h fun h => ?_
  split
  · next hp =>
    obtain ⟨u, e, hu⟩ := Keeps.execCommit (s := s) (p := ⟨p, hp⟩)
    rw [e]
    exact hu h
  · exact h

theorem State.Wf.endPart {p} (h : s.Wf) : (s.endPart p).Wf :=
  .setPart (.resetCsrs <| .foldl (.loseStep h) fun _ _ h => .assignCore h) .reset

theorem State.Wf.failNeighbours {ds} (h : s.Wf) : (s.failNeighbours ds).Wf :=
  .foldl
    (.foldl
      (.foldl (.foldl h fun _ _ h => by split; exacts [.coreFault h, h]) fun _ _ h => by split; exacts [.beginAbandon h, .coreFault h])
      fun _ _ h => .ite (.failPhase h) h)
    fun _ _ h => .setJobs h

theorem State.Wf.zeroSbuf {d} (h : s.Wf) : (s.zeroSbuf d).Wf :=
  { h with
    mem := smWf_smDrop _ _ _ _ h.mem
    gran := smWf_smDrop _ _ _ _ h.gran
    ecc := smWf_smDrop _ _ _ _ h.ecc
    metaFlip := smWf_smDrop _ _ _ _ h.metaFlip }

theorem StackSt.Wf.restart {k : StackSt} (h : k.Wf) : k.restart.Wf := { StackSt.Wf.reset with remap := h.remap, weakRows := h.weakRows }

theorem State.Wf.clearDie {d} (h : s.Wf) : (s.clearDie d).Wf := by
  unfold State.clearDie
  extract_lets s1 s2 gone _ _ s3
  have h1 : s1.Wf := .foldl h fun _ _ h => .setCore h .reset
  have h2 : s2.Wf := .foldl h1 fun _ _ h => .setStack h (.restart h.stack)
  refine .zeroSbuf ({ h2 with
    pans := sorted_filterMap h2.pans fun e e' he => ?_
    pansWf := fun e he => ?_
    batches := forall_filter h2.batches
    power := ⟨(length_setNth _ _ _).trans h2.power.dies, forall_setNth h2.power.diesWf (.keep .reset)⟩ } : State.Wf s3)
  · obtain ⟨-, he⟩ := Option.ite_none_left_eq_some.1 he
    cases he
    rfl
  · obtain ⟨x, hx, e'⟩ := List.mem_filterMap.1 he
    obtain ⟨-, e'⟩ := Option.ite_none_left_eq_some.1 e'
    cases e'
    exact .keep (h2.pansWf x hx)

theorem State.Wf.clearDie0 (h : s.Wf) : (s.clearDie0).Wf := by
  unfold State.clearDie0
  extract_lets s1 slot
  have h1 : s1.Wf := .when h fun h => .set h
  have hslot : ∀ r, (slot s1.sec.flash r).Wf := fun r => { h1.sec.flash with
    slots := (length_setNth _ _ _).trans h1.sec.flash.slots }
  exact { h1 with
    power := .keep h1.power
    age := { h1.age with hist := rfl }
    net := { NetSt.Wf.reset with lanes := h1.net.lanes }
    link := { h1.link with jobs := rfl }
    mod := .keep h1.mod
    sec := { h1.sec with flash := by dsimp only; split; exacts [hslot _, h1.sec.flash] } }

theorem State.Wf.holdStacks {ds warm down} (h : s.Wf) : (s.holdStacks ds warm down).Wf := .foldl h fun _ _ h => .set h

theorem State.Wf.beginReset {ds scope cause keep} (h : s.Wf) : (s.beginReset ds scope cause keep).Wf := by
  unfold State.beginReset
  extract_lets b down s1 ended s2 s3 s4 s5 s6 s7 _ s8 s9
  split
  have h1 : s1.Wf := .whenNot h fun h => .foldl h fun _ _ h => .finishCommit h
  have h3 : s3.Wf := .foldl (.failNeighbours h1) fun _ _ h => .endPart h
  have h6 : s6.Wf := .foldl (.resetCsrs <| .freeBoxes h3) fun _ _ h => .clearDie h
  have h7 : s7.Wf := .when h6 fun h => .clearDie0 h
  have h9 : State.Wf s9 := .holdStacks <| .netWith h7 fun h => { h.net with qps := sorted_filter h.net.qps }
  exact { h9 with
    dieUp := rfl
    mod := .keep h9.mod }

theorem State.Wf.dieReset {d cause} (h : s.Wf) : (s.dieReset d cause).Wf := .beginReset h

theorem State.Wf.warmReset {cause} (h : s.Wf) : (s.warmReset cause).Wf := by
  unfold State.warmReset
  extract_lets s1
  have h1 : s1.Wf := .beginReset h
  clear_value s1
  exact { h1 with
    link := { h1.link with hdm := LinkSt.Wf.reset.hdm, bias := rfl }
    msixHeld := rfl
    mod := .keep h1.mod }

theorem Keeps.execDieReset {d} : Keeps s (execDieReset d s) := .occurs fun h => .dieReset h

theorem Keeps.execWarmReset : Keeps s (execWarmReset s) := .occurs fun h => .warmReset h

theorem Keeps.execCxlReset : Keeps s (execCxlReset s) := .occurs fun h => .warmReset h

theorem Keeps.execWatchdogExpiry {d w} : Keeps s (execWatchdogExpiry d w s) :=
  .ite .stay (.ite (.occurs fun h => .warmReset h) (.ok fun h => .dieReset h))

theorem State.Wf.report {r} (h : s.Wf) : (s.report r).Wf := .when (.say h) fun h => .say h

theorem State.Wf.reports (h : s.Wf) : (s.reports).Wf := .ite h (.foldl { h with mod := { h.mod with } } fun _ _ h => .report h)

theorem State.Wf.reloadPower {d} (h : s.Wf) : (s.reloadPower d).Wf := .setDpower h { h.dpower with }

theorem Keeps.execDieResetDone {d} : Keeps s (execDieResetDone d s) := by
  unfold Machine.execDieResetDone
  split
  · extract_lets ds s1 s2 _ s3 s4 s5 s6 s7 up s8
    have h1 (h : s.Wf) : State.Wf s1 := { h with dieUp := rfl }
    have h2 (h : s.Wf) : State.Wf s2 := .ite (.bootSec (h1 h)) (.foldl (h1 h) fun _ _ h => .loadComp h)
    have h3 (h : s.Wf) : State.Wf s3 := .modWith (h2 h) fun h => .keep h.mod
    have h5 (h : s.Wf) : State.Wf s5 := .bootPolicy <| .foldl (h3 h) fun _ _ h => .reloadPower h
    have h6 (h : s.Wf) : State.Wf s6 := .when (h5 h) fun h => .trainLink <| .bootRepairs h
    have h7 (h : s.Wf) : State.Wf s7 := .when (h6 h) fun h => .foldl h fun _ _ h => .when h fun h => .set <| .set h
    have h8 (h : s.Wf) : State.Wf s8 := .foldl (h7 h) fun _ _ h => .when h fun h => .set h
    exact .ok fun h => .ite (.relay <| .reports <| .mirror (h8 h)) (.reports (h8 h))
  · exact .stay

theorem State.Wf.reset : State.reset.Wf := (sound_iff_wf _).1 ⟨by decide, by decide⟩

theorem State.Wf.txLost (_ : s.Wf) : s.txLost.Wf := .keep .reset

theorem State.Wf.flashAfter (h : s.Wf) : s.flashAfter.Wf := by
  unfold State.flashAfter
  extract_lets f
  split
  · exact { h.sec.flash with slots := (length_setNth _ _ _).trans h.sec.flash.slots }
  · exact h.sec.flash

theorem State.Wf.blank {keep} (h : s.Wf) : (s.blank keep).Wf :=
  { State.Wf.reset with
    csr := (h.resetCsrs (keep := fun _ _ _ f => keep f.kept)).csr
    host := h.host
    msixSent := h.msixSent
    tx := h.txLost
    sec := { SecSt.Wf.reset with flash := h.flashAfter }
    age := { AgeSt.Wf.reset with base := h.age.base } }

theorem State.Wf.coldReset (h : s.Wf) : (s.coldReset).Wf := .keep <| .blank h

theorem Keeps.execColdReset : Keeps s (execColdReset s) := .ok fun h => .coldReset h

theorem Keeps.execStandbyPowerLoss : Keeps s (execStandbyPowerLoss s) :=
  .ok fun h =>
    have hb := h.blank (keep := keptStandby)
    { hb with mod := .keep hb.mod }

theorem State.Wf.railsOff {m} (h : s.Wf) : (s.railsOff m).Wf :=
  { State.Wf.reset with
    csr := (h.resetCsrs (keep := fun r _ _ _ => islandReg r)).csr
    host := h.host
    msixHeld := h.msixHeld
    msixSent := h.msixSent
    tx := h.txLost
    link := { LinkSt.Wf.reset with hdm := h.link.hdm }
    mod := ⟨h.mod.stamps⟩
    sec := { SecSt.Wf.reset with flash := h.flashAfter }
    age := { AgeSt.Wf.reset with base := h.age.base } }

theorem Keeps.execAnalogTrip {d} : Keeps s (execAnalogTrip d s) := .occurs fun h => .set <| .set <| .railsOff h

theorem State.Wf.enter {dest wake} (h : s.Wf) : (s.enter dest wake).Wf :=
  .stacksSleep <| .portsDown <| .losePtp { h with mod := { h.mod with } }

theorem Keeps.execEnter : Keeps s (execEnter s) := by
  unfold Machine.execEnter
  split
  · exact .ite (.ok fun h => .pmReply <| .takeBox h)
      (.ite (.ok fun h => .pmReply <| .takeBox h)
        (.ite (.ok fun h => .pmReply <| .takeBox h) (.ok fun h => .enter <| .pmReply <| .takeBox h)))
  · exact .stay

theorem Keeps.execReset : Keeps s (execReset s) := by
  unfold Machine.execReset
  split
  · exact .ite (.ok fun h => .pmReply <| .takeBox h)
      (.ite (.ok fun h => .pmReply <| .takeBox h)
        (.ok fun h => .ite (.warmReset <| .pmReply <| .takeBox h) (.when (.pmReply <| .takeBox h) fun h => .dieReset h)))
  · exact .stay

theorem State.Wf.sleepState {deep} (h : s.Wf) : (s.sleepState deep).Wf := by
  unfold State.sleepState
  extract_lets s1 _ s2 s3 s4 s5
  have h1 : s1.Wf := .foldl h fun _ _ h => .ite (.setPart h { h.part with semq := rfl }) (.setPart h .reset)
  have h2 : s2.Wf := .foldl h1 fun s c h => .setCore h { CoreSt.Wf.reset with
    x := by dsimp only; split; exacts [CoreSt.Wf.reset.x, h.core.x]
    trf := by dsimp only; split; exacts [rfl, h.core.trf] }
  have h3 : s3.Wf := .foldl h2 fun _ _ h => .setStack h { h.stack with
    level := List.length_map _, deferLeft := rfl, rate := rfl, depth := rfl
    queue := rfl, owed := rfl, fresh := rfl, refNext := rfl, grants := rfl }
  clear_value s3
  have h4 : State.Wf s4 := { h3 with pans := rfl, pansWf := nofun, batches := nofun }
  refine .when h4 fun h => ?_
  have h5 : State.Wf s5 := .zeroSbuf <| .zeroSbuf h
  exact { h5 with
    power := ⟨(List.length_map _).trans h5.power.dies, forall_map h5.power.diesWf fun _ _ => .keep .reset⟩
    link := { h5.link with jobs := rfl }
    mod := .keep h5.mod }

theorem State.Wf.fallAsleep {dest} (h : s.Wf) : (s.fallAsleep dest).Wf := by
  unfold State.fallAsleep
  refine .ite (.railsOff h) ?_
  extract_lets deep modes t1 t2 u s1
  have ht : t2.Wf := .foldl (.resetCsrs h) fun _ _ h => .set h
  have hu : u.Wf := .sleepState h
  have h1 : s1.Wf := { hu with csr := ht.csr }
  exact .modWith h1 fun h => .keep h.mod

theorem Keeps.execDormancyEntryDone : Keeps s (execDormancyEntryDone s) := by
  unfold Machine.execDormancyEntryDone
  split
  exacts [.ok fun h => .fallAsleep h, .stay]

theorem State.Wf.wake (h : s.Wf) : (s.wake).Wf := by
  unfold State.wake
  split
  · exact { h with mod := { h.mod with } }
  · exact { h with mod := { h.mod with } }
  · exact { h with mod := { h.mod with } }
  · exact { h with mod := { h.mod with } }
  · exact h

theorem Keeps.execPmcsrD0Write : Keeps s (execPmcsrD0Write s) := .ok fun h => .wake h

theorem Keeps.execWakeAtReached : Keeps s (execWakeAtReached s) := .occurs fun h => .wake h

theorem State.Wf.leave (h : s.Wf) : (s.leave).Wf := .portsTrain <| .stacksWake { h with mod := { h.mod with } }

theorem Keeps.execDormancyExitDone : Keeps s (execDormancyExitDone s) := by
  unfold Machine.execDormancyExitDone
  split
  exacts [.ite (.ok fun h => .set <| .leave h) (.ok fun h => .coldReset h), .ok fun h => .set <| .leave h, .stay]

end Sys2Proof.Machine
end

section
/-!
SUPPORT. The invariant through the operations of bring-up and test (Test).
-/
namespace Sys2Proof.Machine
open Sys2Proof Sys2Proof.Spec
variable {s t : State}

theorem State.Wf.refuseTest (h : s.Wf) : (s.refuseTest).Wf := .set h

theorem State.Wf.freeGranule {g} (h : s.Wf) : (s.freeGranule g).Wf :=
  .whenNot (.eccWith (.foldl h fun _ _ h => { h with mem := wf_smPoke _ _ _ _ h.mem }) fun h => smWf_smDrop _ _ _ _ h.ecc)
    fun h => .setGranule h

theorem State.Wf.freeSums {t off} (h : s.Wf) : (s.freeSums t off).Wf :=
  .foldl (.csumBadWith h fun h => sorted_smDrop h.csumBad) fun _ _ h => .setGranule <| .freeBelow (n := 2 ^ 32) h

theorem State.Wf.directRepair {t} (h : s.Wf) : (s.directRepair t).Wf :=
  .ite h (.ite (.set h) (.whenNot (.set <| .addRemap h) fun h => by split; exacts [.freeGranule h, .freeSums h, h]))

theorem State.Wf.repPut {t w mask} (h : s.Wf) : (s.repPut t w mask).Wf := .when (.set <| .plainWrite h) fun h => .directRepair h

theorem Keeps.execTestRepair {t v} : Keeps s (execTestRepair t v s) := .occurs fun h => .repPut h

theorem State.Wf.bistBytes {pattern n} (h : s.Wf) : (s.bistBytes pattern n).2.Wf := .ite2 h (.freeBelow h)

theorem State.Wf.bistPut {t w mask} (h : s.Wf) : (s.bistPut t w mask).Wf :=
  .ite (.refuseTest h) (.when (.when (.plainWrite h) fun h => .set h) fun h => .charge <| .bistBytes <| .setWord <| .set <| .set h)

theorem Keeps.execTestBist {t v} : Keeps s (execTestBist t v s) := .occurs fun h => .bistPut h

theorem State.Wf.bistClear {t mask} (h : s.Wf) : (s.bistClear t mask).Wf :=
  { h with
    mem := smWf_filter _ _ _ h.mem
    gran := smWf_filter _ _ _ h.gran
    ecc := smWf_filter _ _ _ h.ecc
    metaFlip := smWf_filter _ _ _ h.metaFlip
    flipped := smWf_filter _ _ _ h.flipped
    csumBad := sorted_filter h.csumBad }

theorem State.Wf.autoRepair {t key} (h : s.Wf) : (s.autoRepair t key).Wf := by
  unfold State.autoRepair
  split
  exacts [.addRemap h, h]

theorem Keeps.execBistDone {t fails} : Keeps s (execBistDone t fails s) :=
  .ite .stay (.ok fun h => .when (.set <| .bump <| .set <| .set <| .bistClear h) fun h => .foldl h fun _ _ h => .autoRepair h)

theorem State.Wf.trainRetry (h : s.Wf) : (s.trainRetry).Wf := .foldl (.set h) fun _ _ h => .setStack h { h.stack with }

theorem State.Wf.trainPut {w mask} (h : s.Wf) : (s.trainPut w mask).Wf := .ite (.trainRetry h) h

theorem Keeps.execTestTrainRetry {v} : Keeps s (execTestTrainRetry v s) := .occurs fun h => .trainPut h

theorem State.Wf.marginPut {t w mask} (h : s.Wf) : (s.marginPut t w mask).Wf := .plainWrite h

theorem Keeps.execTestMargin {t v} : Keeps s (execTestMargin t v s) := .occurs fun h => .marginPut h

theorem State.Wf.linkTested (h : s.Wf) : (s.linkTested).Wf := { h with mod := { h.mod with } }

theorem State.Wf.idlPut {d w mask} (h : s.Wf) : (s.idlPut d w mask).Wf :=
  .ite (.refuseTest h) (.linkTested <| .when (.plainWrite h) fun h => .set <| .freeBelow (n := 2 ^ 32) h)

theorem Keeps.execIdlMargin {d v} : Keeps s (execIdlMargin d v s) := .occurs fun h => .idlPut h

theorem Keeps.execIdlLoopback {d v} : Keeps s (execIdlLoopback d v s) := .occurs fun h => .idlPut h

theorem State.Wf.sloopPut {t w mask} (h : s.Wf) : (s.sloopPut t w mask).Wf :=
  .ite (.refuseTest h) (.when (.plainWrite h) fun h => .set <| .freeBelow (n := 2 ^ 32) h)

theorem Keeps.execStackLoopback {t v} : Keeps s (execStackLoopback t v s) := .occurs fun h => .sloopPut h

theorem State.Wf.ethTestPut {port w mask} (h : s.Wf) : (s.ethTestPut port w mask).Wf :=
  .ite (.refuseTest h) (.when (.when (.plainWrite h) fun h => .set h) fun h => .set <| .freeBelow (n := 2 ^ 64) h)

theorem Keeps.execEthLoopback {port v} : Keeps s (execEthLoopback port v s) := .occurs fun h => .ethTestPut h

end Sys2Proof.Machine
end

section
/-!
SUPPORT. The invariant through the operations of accesses of the CSR window (Access).
-/
namespace Sys2Proof.Machine
open Sys2Proof Sys2Proof.Spec
variable {s t : State}

theorem State.Wf.holdTo {f i j lo hi} (h : s.Wf) : (s.holdTo f i j lo hi).Wf := .set h

theorem State.Wf.holdElse {f i j lo hi d} (h : s.Wf) : (s.holdElse f i j lo hi d).Wf := .ite h (.set h)

theorem State.Wf.legalize {r i j} (h : s.Wf) : (s.legalize r i j).Wf :=
  .ite (.ite (.set h) h)
    (.ite (.holdTo <| .holdTo <| .holdTo <| .holdTo <| .holdElse h)
      (.ite (.holdTo h)
        (.ite (.holdTo h)
          (.ite (.holdTo h)
            (.ite (.holdTo h)
              (.ite (.holdTo <| .holdTo <| .holdElse <| .holdTo h)
                (.ite (.holdTo <| .holdTo h)
                  (.ite (.holdElse h)
                    (.ite (.holdElse h)
                      (.ite (.holdTo h)
                        (.ite (.holdTo h)
                          (.ite (.holdElse h)
                            (.ite (.holdTo h)
                              (.ite (.holdTo h)
                                (.ite (.holdTo <| .holdTo <| .holdTo h)
                                  (.ite (.holdTo h)
                                    (.ite
                                      (.holdTo <| .holdTo <| .holdTo <| .holdTo <| .holdTo <| .holdTo <| .holdTo <| .holdTo <| .holdTo h)
                                      (.ite (.holdTo h) (.ite (.holdTo <| .holdTo <| .holdTo h) h)))))))))))))))))))

theorem State.Wf.rangedWrite {r i j w mask} (h : s.Wf) : (s.rangedWrite r i j w mask).Wf := .whenNot (.plainWrite h) fun h => .legalize h

theorem State.Wf.msixPut {i w mask} (h : s.Wf) : (s.msixPut i w mask).Wf := .when (.plainWrite h) fun h => .unmask h

theorem State.Wf.ofSome {a : State} (h : a.Wf) : ∀ t, some a = some t → t.Wf := fun _ e => by cases e; exact h

theorem State.Wf.ofIte {c : Prop} [Decidable c] {a : State} {o : Option State} (ha : a.Wf) (ho : ∀ t, o = some t → t.Wf) :
    ∀ t, (if c then some a else o) = some t → t.Wf := by split; exacts [.ofSome ha, ho]

theorem State.Wf.ofNone : ∀ t : State, none = some t → t.Wf := fun _ e => absurd e.symm (Option.some_ne_none _)

theorem State.Wf.actWrite1 {r i j w mask} (h : s.Wf) : ∀ t, s.actWrite1 r i j w mask = some t → t.Wf :=
  .ofIte (.ite (.setCount h) (.set h)) <|
  .ofIte (.whenNot h fun h => .tickPeriodPut h) <|
  .ofIte (.tickDiscPut h) <|
  .ofIte (.leapAtPut h) <|
  .ofIte (.leapCtrlPut h) <|
  .ofIte (.stepCfgPut h) <|
  .ofIte (.stepCtrlPut h) <|
  .ofIte (.coreCtrlPut h) <|
  .ofIte (.flipWrite h) <|
  .ofIte (.sluiceWrite h) <|
  .ofIte (.whenNot h fun h => .errLogWrite h) <|
  .ofIte (.errVerifyWrite h) <|
  .ofIte (.errRepairWrite h) <|
  .ofIte (.when (.plainWrite h) fun h => .setRakeNext h) <|
  .ofIte (.svCtrlPut h) .ofNone

theorem State.Wf.actWrite2 {r i j w mask} (h : s.Wf) : ∀ t, s.actWrite2 r i j w mask = some t → t.Wf :=
  .ofIte (.whenNot h fun h => .ptCoresPut h) <|
  .ofIte (.whenNot h fun h => .ptSbPut h) <|
  .ofIte (.changeWritten <| .plainWrite h) <|
  .ofIte (.sharePut h) <|
  .ofIte (.signal h) <|
  .ofIte (.regionLocPut h) <|
  .ofIte (.regionLocPut h) <|
  .ofIte (.regCtrlPut h) <|
  .ofIte (.biasPut h) <|
  .ofIte (.chCfgPut h) <|
  .ofIte (.tailPut h) <|
  .ofIte (.msixPut h) <|
  .ofIte (.grpCfgPut h) <|
  .ofIte (.grpMapPut h) <|
  .ofIte (.portCfgPut h) <|
  .ofIte (.resolvePut h) .ofNone

theorem State.Wf.actWrite3 {r i w mask} (h : s.Wf) : ∀ t, s.actWrite3 r i w mask = some t → t.Wf :=
  .ofIte (.when h fun h => .thermResume h) <|
  .ofIte (.when h fun h => .claimReckoning h) <|
  .ofIte h <|
  .ofIte (.trainPut h) <|
  .ofIte (.idlPut h) <|
  .ofIte (.ethTestPut h) <|
  .ofIte (.bistPut h) <|
  .ofIte (.sloopPut h) <|
  .ofIte (.marginPut h) <|
  .ofIte (.repPut h) .ofNone

theorem State.Wf.actWriteBox {who r i j w mask} (h : s.Wf) : ∀ t, s.actWriteBox who r i j w mask = some t → t.Wf :=
  .ofIte (.boxWrite h) <|
  .ofIte (.sctrlPut h) <|
  .ofIte (.pendPut h) <|
  .ofIte (.ringPutDoor h) <|
  .ofIte (.maskPut h) <|
  .ofIte (.when h fun h => .plainWrite h) .ofNone

theorem State.Wf.regWrite {who r i j w mask} (h : s.Wf) : (s.regWrite who r i j w mask).Wf := by
  unfold State.regWrite
  split
  next e => exact .actWriteBox h _ e
  next e => exact .actWrite1 h _ e
  next e => exact .actWrite2 h _ e
  next e => exact .actWrite3 h _ e
  next => exact .rangedWrite h

theorem State.Wf.regRead {r i j mask} (h : s.Wf) : (s.regRead r i j mask).2.Wf := .ite2 (.ite (.takeBox h) h) (.setWord h)

theorem State.Wf.windowWrite {who o v width} (h : s.Wf) (e : s.windowWrite who o v width = some t) : t.Wf := by
  unfold State.windowWrite at e
  split at e
  · cases e
  · split at e
    · cases e
      exact .regWrite h
    · cases e
      exact h

theorem Keeps.execRegisterWrite {off v width} : Keeps s (execRegisterWrite off v width s) := by
  unfold Machine.execRegisterWrite
  split
  · rename_i _ e
    exact .ok fun h => .reply <| .windowWrite h e
  · exact .ok fun h => .reply h

theorem State.Wf.windowRead {o width v} (h : s.Wf) (e : s.windowRead o width = some (v, t)) : t.Wf := by
  unfold State.windowRead at e
  split at e
  · cases e
  · split at e
    · cases e
      exact .regRead h
    · cases e
      exact h

theorem Keeps.execReadClearRead {off width} : Keeps s (execReadClearRead off width s) := by
  unfold Machine.execReadClearRead
  split
  next e => exact .ok fun h => .reply <| .windowRead h e
  next => exact .ok fun h => .reply h

theorem Keeps.execAxCsrr {c} : Keeps s (execAxCsrr c s) :=
  .axRow
    fun _ _ _ h =>
      by
        extract_lets
        split
        · exact .faultScalar h
        · split
          exacts [.next <| .setX <| .regRead h, .next <| .setX h]

theorem Keeps.execAxCsrw {c} : Keeps s (execAxCsrw c s) :=
  .axRow
    fun _ _ _ h =>
      by
        extract_lets
        split
        · exact .faultScalar h
        · split
          exacts [.ite (.faultScalar <| .regWrite h) (.next <| .regWrite h), .next h]

end Sys2Proof.Machine
end

section
/-!
SUPPORT. The invariant through the operations of the security core (Sec).
-/
namespace Sys2Proof.Machine
open Sys2Proof Sys2Proof.Spec
variable {s t : State}

theorem Keeps.secCommand {code f} (hf : ∀ w s, State.Wf s → (f w s).Wf) : Keeps s (s.secCommand code f) := by
  unfold State.secCommand
  extract_lets
  split
  exacts [.ite (.ok fun h => hf _ _ (.takeBox h)) (.ok fun h => .secReply <| .takeBox h), .stay]

theorem State.Wf.writeQuote {nonce mask} (h : s.Wf) : (s.writeQuote nonce mask).Wf := .count <| .putWords h

theorem Keeps.execQuote : Keeps s (execQuote s) := .secCommand fun _ _ h => .ite (.secReply <| .writeQuote h) (.secReply h)

theorem Keeps.execExtend : Keeps s (execExtend s) := .secCommand fun _ _ h => .secReply <| .extend h

theorem State.Wf.updFail {c f} (h : s.Wf) : (s.updFail c f).Wf := .set <| .set <| .set h

theorem Keeps.execStage {head} : Keeps s (execStage head s) :=
  .secCommand fun _ _ h => by
    extract_lets
    refine .ite (.secReply h) <| .ite (.secReply h) ?_
    split
    rename_i e
    have h1 := State.Wf.of3 e (.readBytes h)
    exact .ite (.secReply <| .updFail h1) <| .ite (.secReply <| .updFail h1) <| .secWith (.set h1) fun _ => .keep h1.sec

theorem Keeps.execStageDone : Keeps s (execStageDone s) := by
  unfold Machine.execStageDone
  split
  · extract_lets f _ s1 s2 s3
    have h1 (h : s.Wf) : State.Wf s1 := .secWith h fun h => { h.sec with
      flash := { h.sec.flash with slots := (length_setNth _ _ _).trans h.sec.flash.slots } }
    exact .ok fun h => .secReply <| .set <| .set (h1 h)
  · exact .stay

theorem Keeps.execActivate : Keeps s (execActivate s) :=
  .secCommand
    fun _ _ h =>
      .ite (.secReply h)
        (.ite (.secReply h)
          (by
            split
            · exact .secReply <| .updFail h
            · exact .ite (.secReply <| .set h) (.secReply <| .claimLeap <| .secWith (.set h) fun h => { h.sec with })))

theorem Keeps.execComponentRestart {comp} : Keeps s (execComponentRestart comp s) := by
  unfold Machine.execComponentRestart
  split
  exacts [.ite (.ok fun h => .set { h with sec := { h.sec with } }) .stay, .stay]

theorem Keeps.execComponentDrainDone {comp} : Keeps s (execComponentDrainDone comp s) := by
  unfold Machine.execComponentDrainDone
  split
  exacts [.ite (.ok fun h => .ringHost { h with sec := { h.sec with } }) .stay, .stay]

theorem State.Wf.compRuns {c x} (h : s.Wf) : (s.compRuns c x).Wf := by
  unfold State.compRuns
  extract_lets s1 _ s2 s3 s4 work s5 ports s6
  have h2 : State.Wf s2 := .secWith (.set <| .extend h) fun h => { h.sec with loaded := (length_setNth _ _ _).trans h.sec.loaded }
  have h4 : State.Wf s4 := .when (.set h2) fun h => .reloadPower h
  have h5 : State.Wf s5 := .foldl h4 fun _ _ h => .when h fun h => .set h
  have h6 : State.Wf s6 := .foldl h5 fun _ _ h => .portTrains h
  clear_value s6
  exact .ite { h6 with net := .keep h6.net, mod := .keep h6.mod } (.keep h4)

theorem Keeps.execNewImageRunning {comp} : Keeps s (execNewImageRunning comp s) := by
  unfold Machine.execNewImageRunning
  split
  exacts [.ite (.ok fun h => .compRuns <| .set <| .set h) .stay, .stay]

theorem State.Wf.revert {c} (h : s.Wf) : (s.revert c).Wf := by
  unfold State.revert
  extract_lets s1 s2 old
  have h2 : s2.Wf := .set <| .set <| .set h
  clear_value old
  cases old with
  | none => exact h2
  | some x => exact .compRuns h2

theorem Keeps.execNewImageTimeout {comp} : Keeps s (execNewImageTimeout comp s) := by
  unfold Machine.execNewImageTimeout
  split
  exacts [.ite (.dueAt fun _ h => .revert h) .stay, .stay]

theorem State.Wf.accessStatus {r} (hr : ∀ v t, r = some (v, t) → t.Wf) (h : s.Wf) : (Machine.accessStatus r s).2.2.Wf := by
  unfold Machine.accessStatus
  split
  · exact hr _ _ rfl
  · exact h

theorem Keeps.execCsrRead : Keeps s (execCsrRead s) :=
  .secCommand fun _ _ h => .secReply <| .accessStatus (fun v t e => by
    split at e
    · exact .windowRead h e
    · cases e) h

theorem Keeps.execCsrWrite : Keeps s (execCsrWrite s) :=
  .secCommand fun _ _ h => .secReply <| .accessStatus (fun v t e => by
    split at e
    · obtain ⟨u, hu, e'⟩ := Option.map_eq_some_iff.1 e
      cases e'
      exact .windowWrite h hu
    · cases e) h

theorem Keeps.execDebugAttach : Keeps s (execDebugAttach s) := .occurs fun h => .extendOpen <| .bump <| .set <| .set h

theorem Keeps.execDebugHalt {c} : Keeps s (execDebugHalt c s) := .occurs fun h => .setCore h { h.core with }

theorem Keeps.execDebugDetach : Keeps s (execDebugDetach s) := by
  unfold Machine.execDebugDetach
  extract_lets t
  refine .occurs fun h => ?_
  have ht : t.Wf := .set h
  exact { ht with
    cores := (List.length_map _).trans ht.cores
    coresWf := forall_map ht.coresWf fun _ hk => .ite (.keep hk) hk }

end Sys2Proof.Machine
end

section
/-!
SUPPORT. The invariant through the operations of the leap tick (Leap).
-/
namespace Sys2Proof.Machine
open Sys2Proof Sys2Proof.Spec
variable {s t : State}

theorem State.Wf.beginTraining (h : s.Wf) : (s.beginTraining).Wf := .whenNot (.foldl h fun _ _ h => .set h) fun h => { h with }

theorem State.Wf.freePick {l} (h : s.Wf) : (s.freePick l).2.Wf := by
  induction l generalizing s with
  | nil => exact h
  | cons x l ih => exact ih (.freeChoice h)

theorem State.Wf.beginLinks (h : s.Wf) : (s.beginLinks).Wf := by
  unfold State.beginLinks
  extract_lets run must
  split
  rename_i e1
  extract_lets ports s1
  have h1 : s1.Wf := .foldl (.of2 e1 (.freePick h)) fun _ _ h => .portTrains h
  split
  rename_i e2
  have h2 := State.Wf.of2 e2 (.ite2 h1 <| .ite2 (.freePick h1) h1)
  extract_lets _ _ s3
  have h3 : State.Wf s3 := { h2 with net := .keep h2.net, mod := .keep h2.mod }
  exact .whenNot h3 fun h => .keep h

theorem State.Wf.linksTrained (h : s.Wf) : (s.linksTrained).Wf :=
  .whenNot (.ite2 (.freePick <| .foldl (.freePick h) fun _ _ h => .set <| .set h) (.foldl (.freePick h) fun _ _ h => .set <| .set h))
    fun h => { h with mod := { h.mod with } }

theorem State.Wf.failLinks (h : s.Wf) : (s.failLinks).Wf := by
  unfold State.failLinks
  extract_lets left s1
  have h1 : s1.Wf := .foldl h fun _ _ h => .set <| .set h
  clear_value s1
  exact { h1 with net := .keep h1.net, mod := .keep h1.mod }

theorem State.Wf.beginMargins (h : s.Wf) : (s.beginMargins).Wf := .linkTested { h with mod := { h.mod with } }

theorem State.Wf.takeWaiting (h : s.Wf) : (s.takeWaiting).Wf := by
  unfold State.takeWaiting
  extract_lets k s1 s2
  have h1 : s1.Wf := .keep h
  have h2 : s2.Wf := by dsimp only [s2]; split; exacts [.setCount h1, h1]
  clear_value s2 k
  split
  · exact .takePeriod h2
  · exact h2

theorem State.Wf.beginLeap (h : s.Wf) : (s.beginLeap).Wf :=
  .beginReckoning <| .beginMargins <| .beginLinks <| .beginTraining <| .retryLog <| .takeWaiting <| .set h

theorem Keeps.execLeapTickBegin : Keeps s (execLeapTickBegin s) := .occurs fun h => .beginLeap h

theorem State.Wf.trained {l} (h : s.Wf) : (s.trained l).Wf := by
  induction l generalizing s with
  | nil => exact h
  | cons t l ih => exact ih (.when (.freeChoice h) fun h => .modStack (.stackRuns h) .keep)

theorem State.Wf.failTrain {t} (h : s.Wf) : (s.failTrain t).Wf := .when (.setStack (.set h) { h.stack with }) fun h => .set h

theorem State.Wf.marginDone {x} (h : s.Wf) : (s.marginDone x).Wf := by
  unfold State.marginDone
  split
  rename_i e1
  split
  rename_i e2
  split
  rename_i e3
  have h3 := State.Wf.of2 e3 (.freeBelow <| .of2 e2 (.freeBelow <| .of2 e1 (.freeBelow h)))
  exact .ite (.set <| .set <| .set <| .set h3) (.set <| .set <| .set h3)

theorem State.Wf.endTests (h : s.Wf) : (s.endTests).Wf :=
  .linkTested <| .modWith (.foldl (.foldl h fun _ _ h => .marginDone h) fun _ _ h => .set h) fun h => { h.mod with }

theorem State.Wf.closeLeap (h : s.Wf) : (s.closeLeap).Wf := .keep <| .when (.set <| .set h) fun h => .set h

theorem State.Wf.claimAgain {failed} (h : s.Wf) : (s.claimAgain failed).Wf :=
  .when
    (by
      split
      · exact .when (by split; exacts [.cutReckoning h, h]) fun h => .claimLeap h
      · split
        exacts [.cutReckoning h, h])
    fun h => .claimLeap h

theorem State.Wf.endLeap (h : s.Wf) : (s.endLeap).Wf :=
  .claimAgain <| .closeLeap <| .endTests <| .foldl (.failLinks h) fun _ _ h => .failTrain h

theorem Keeps.execLeapTickEnd : Keeps s (execLeapTickEnd s) :=
  .ite (.ite (.ok fun h => .set <| .set <| .linksTrained <| .trained h) (.ok fun h => .endLeap <| .linksTrained <| .trained h)) .stay

end Sys2Proof.Machine
end

section
/-!
SUPPORT. O2 and O3 from the operations: what each command answers, and what a step keeps.
-/
namespace Sys2Proof.Machine
open Sys2Proof Sys2Proof.Spec
variable {s t : State}

/-- Every command answers a next state, and one that keeps the invariant. -/
theorem exec_keeps (c : Instr) (s : State) : Keeps s (exec c s) :=
  match c with
  | .baseTickBoundary => .execBaseTickBoundary
  | .oppClockSwitch .. => .execOppClockSwitch
  | .eveBegin .. => .execEveBegin
  | .stepTick .. => .execStepTick
  | .die1ReadyReport .. => .execDie1ReadyReport
  | .xdieTimeout .. => .execXdieTimeout
  | .commit .. => .execCommit
  | .abandonmentComplete .. => .execAbandonmentComplete
  | .admission .. => .execAdmission
  | .submit .. => .execSubmit
  | .cancel .. => .execCancel
  | .badRequest .. => .execBadRequest
  | .swapOut .. => .execSwapOut
  | .restore .. => .execRestore
  | .tickPeriodWrite .. => .execTickPeriodWrite
  | .tickCountWrite .. => .execTickCountWrite
  | .ptpMessage .. => .execPtpMessage
  | .ptpLoss => .execPtpLoss
  | .holdoverExpiry => .execHoldoverExpiry
  | .ptpSyncSend .. => .execPtpSyncSend
  | .leapAtWrite .. => .execLeapAtWrite
  | .leapArm .. => .execLeapArm
  | .leapCancel .. => .execLeapCancel
  | .leapClaimDeadline => .execLeapClaimDeadline
  | .leapTickBegin => .execLeapTickBegin
  | .leapTickEnd => .execLeapTickEnd
  | .stepCfgWrite .. => .execStepCfgWrite
  | .start .. => .execStart
  | .stop .. => .execStop
  | .quiesce .. => .execQuiesce
  | .resume .. => .execResume
  | .blockStart .. => .execBlockStart
  | .blockEnd .. => .execBlockEnd
  | .ftqDrain .. => .execFtqDrain
  | .storeQueueDrain .. => .execStoreQueueDrain
  | .rcInv .. => .execRcInv
  | .trfClear .. => .execTrfClear
  | .clrCnt .. => .execClrCnt
  | .axAdd .. => .execAxAdd
  | .axSub .. => .execAxSub
  | .axAnd .. => .execAxAnd
  | .axOr .. => .execAxOr
  | .axXor .. => .execAxXor
  | .axSll .. => .execAxSll
  | .axSrl .. => .execAxSrl
  | .axSra .. => .execAxSra
  | .axSlt .. => .execAxSlt
  | .axSltu .. => .execAxSltu
  | .axMul .. => .execAxMul
  | .axMulh .. => .execAxMulh
  | .axMulhu .. => .execAxMulhu
  | .axDiv .. => .execAxDiv
  | .axDivu .. => .execAxDivu
  | .axRem .. => .execAxRem
  | .axRemu .. => .execAxRemu
  | .axMin .. => .execAxMin
  | .axMax .. => .execAxMax
  | .axMinu .. => .execAxMinu
  | .axMaxu .. => .execAxMaxu
  | .axClz .. => .execAxClz
  | .axPopc .. => .execAxPopc
  | .axSel .. => .execAxSel
  | .axAddi .. => .execAxAddi
  | .axAndi .. => .execAxAndi
  | .axOri .. => .execAxOri
  | .axXori .. => .execAxXori
  | .axSlli .. => .execAxSlli
  | .axSrli .. => .execAxSrli
  | .axSrai .. => .execAxSrai
  | .axSlti .. => .execAxSlti
  | .axSltiu .. => .execAxSltiu
  | .axLi .. => .execAxLi
  | .axLih .. => .execAxLih
  | .axFadd .. => .execAxFadd
  | .axFsub .. => .execAxFsub
  | .axFmul .. => .execAxFmul
  | .axFdiv .. => .execAxFdiv
  | .axFma .. => .execAxFma
  | .axFsqrt .. => .execAxFsqrt
  | .axFcmp .. => .execAxFcmp
  | .axFcvt .. => .execAxFcvt
  | .axRds .. => .execAxRds
  | .axWrs .. => .execAxWrs
  | .axSetvl .. => .execAxSetvl
  | .axSetvli .. => .execAxSetvli
  | .axLd .. => .execAxLd
  | .axLds .. => .execAxLds
  | .axSt .. => .execAxSt
  | .axAmoadd .. => .execAxAmoadd
  | .axAmoswap .. => .execAxAmoswap
  | .axAmocas .. => .execAxAmocas
  | .axBeq .. => .execAxBeq
  | .axBne .. => .execAxBne
  | .axBlt .. => .execAxBlt
  | .axBge .. => .execAxBge
  | .axBltu .. => .execAxBltu
  | .axBgeu .. => .execAxBgeu
  | .axJal .. => .execAxJal
  | .axJalr .. => .execAxJalr
  | .axCsrr .. => .execAxCsrr
  | .axCsrw .. => .execAxCsrw
  | .axFence .. => .execAxFence
  | .axCinv .. => .execAxCinv
  | .axSig .. => .execAxSig
  | .axWait .. => .execAxWait
  | .axTryw .. => .execAxTryw
  | .axSemrd .. => .execAxSemrd
  | .axNop .. => .execAxNop
  | .axEnd .. => .execAxEnd
  | .axTwait .. => .execAxTwait
  | .axPost .. => .execAxPost
  | .axRdwin .. => .execAxRdwin
  | .axMma .. => .execAxMma
  | .axVadd .. => .execAxVadd
  | .axVsub .. => .execAxVsub
  | .axVmul .. => .execAxVmul
  | .axVmac .. => .execAxVmac
  | .axVmax .. => .execAxVmax
  | .axVmin .. => .execAxVmin
  | .axVcvt .. => .execAxVcvt
  | .axVexp .. => .execAxVexp
  | .axVlog .. => .execAxVlog
  | .axVrcp .. => .execAxVrcp
  | .axVrsq .. => .execAxVrsq
  | .axVrsum .. => .execAxVrsum
  | .axVrmax .. => .execAxVrmax
  | .axVrssq .. => .execAxVrssq
  | .axVsplat .. => .execAxVsplat
  | .axVmxq .. => .execAxVmxq
  | .axVmxd .. => .execAxVmxd
  | .axVmle .. => .execAxVmle
  | .axVmge .. => .execAxVmge
  | .axTdld .. => .execAxTdld
  | .axTdset .. => .execAxTdset
  | .axTdmov .. => .execAxTdmov
  | .axTdinv .. => .execAxTdinv
  | .axTdst .. => .execAxTdst
  | .axXld .. => .execAxXld
  | .axXst .. => .execAxXst
  | .axXmov .. => .execAxXmov
  | .axXgath .. => .execAxXgath
  | .axXgatm .. => .execAxXgatm
  | .axXscat .. => .execAxXscat
  | .axXpf .. => .execAxXpf
  | .axCph .. => .execAxCph
  | .axCsync .. => .execAxCsync
  | .axPcw .. => .execAxPcw
  | .axPissue .. => .execAxPissue
  | .axPsync .. => .execAxPsync
  | .axPtest .. => .execAxPtest
  | .payloadDelivery .. => .execPayloadDelivery
  | .panBatchStart .. => .execPanBatchStart
  | .panLoad .. => .execPanLoad
  | .panStore .. => .execPanStore
  | .panCopy .. => .execPanCopy
  | .panGemv .. => .execPanGemv
  | .panPattn .. => .execPanPattn
  | .panGather .. => .execPanGather
  | .panScadd .. => .execPanScadd
  | .panElem .. => .execPanElem
  | .panStat .. => .execPanStat
  | .panSeal .. => .execPanSeal
  | .panFence .. => .execPanFence
  | .panSync .. => .execPanSync
  | .microOpBoundary .. => .execMicroOpBoundary
  | .panCompletionReport .. => .execPanCompletionReport
  | .refreshDue .. => .execRefreshDue
  | .neighbourRowRefresh .. => .execNeighbourRowRefresh
  | .stackRequestIssue .. => .execStackRequestIssue
  | .sluiceRateWrite .. => .execSluiceRateWrite
  | .rakeIssue .. => .execRakeIssue
  | .rakeRestart .. => .execRakeRestart
  | .mirrorRepair .. => .execMirrorRepair
  | .errVerify .. => .execErrVerify
  | .errRepair .. => .execErrRepair
  | .errLogConsume .. => .execErrLogConsume
  | .flipArmData .. => .execFlipArmData
  | .flipArmCsum .. => .execFlipArmCsum
  | .bulkClearDone => .execBulkClearDone
  | .install .. => .execInstall
  | .reloadDir .. => .execReloadDir
  | .ptCoresWrite .. => .execPtCoresWrite
  | .ptSbWrite .. => .execPtSbWrite
  | .regionLocationWrite .. => .execRegionLocationWrite
  | .regionLoad .. => .execRegionLoad
  | .regionSeal .. => .execRegionSeal
  | .regionSealDone .. => .execRegionSealDone
  | .regionRelease .. => .execRegionRelease
  | .semSig .. => .execSemSig
  | .mailboxDataWrite .. => .execMailboxDataWrite
  | .mailboxGo .. => .execMailboxGo
  | .mailboxAbort .. => .execMailboxAbort
  | .mailboxTake .. => .execMailboxTake
  | .dbRing .. => .execDbRing
  | .dbPendClear .. => .execDbPendClear
  | .dbMaskWrite .. => .execDbMaskWrite
  | .msixUnmask .. => .execMsixUnmask
  | .cxlMemRead .. => .execCxlMemRead
  | .cxlMemWrite .. => .execCxlMemWrite
  | .cxlMemPoisonWrite .. => .execCxlMemPoisonWrite
  | .hdmDecoderCommit .. => .execHdmDecoderCommit
  | .biasToDevice .. => .execBiasToDevice
  | .biasToHost .. => .execBiasToHost
  | .biasCommandDone => .execBiasCommandDone
  | .hostSnoop addr => .execHostSnoop (addr := addr)
  | .hdmaTailWrite .. => .execHdmaTailWrite
  | .hdmaDescriptor .. => .execHdmaDescriptor
  | .hdmaDescriptorDone .. => .execHdmaDescriptorDone
  | .hdmaChannelStop .. => .execHdmaChannelStop
  | .cxlReset => .execCxlReset
  | .rocePacketReceive .. => .execRocePacketReceive
  | .arpRequest .. => .execArpRequest
  | .cnpReceive .. => .execCnpReceive
  | .ccTimer .. => .execCcTimer
  | .ackTimeout .. => .execAckTimeout
  | .sequenceNak .. => .execSequenceNak
  | .qpResetNotice .. => .execQpResetNotice
  | .qpRestart .. => .execQpRestart
  | .linkUp .. => .execLinkUp
  | .linkDown .. => .execLinkDown
  | .groupEnable .. => .execGroupEnable
  | .collPhaseStart .. => .execCollPhaseStart
  | .publicationReceive .. => .execPublicationReceive
  | .rdmaPieceDone .. => .execRdmaPieceDone
  | .collPhaseLocalComplete .. => .execCollPhaseLocalComplete
  | .collTimeout .. => .execCollTimeout
  | .collAbortReceive .. => .execCollAbortReceive
  | .voteReady .. => .execVoteReady
  | .voteDeadline .. => .execVoteDeadline
  | .voteDecision .. => .execVoteDecision
  | .voteIndoubt .. => .execVoteIndoubt
  | .voteRequery .. => .execVoteRequery
  | .grpResolve .. => .execGrpResolve
  | .forwardedMessage .. => .execForwardedMessage
  | .forwardReply .. => .execForwardReply
  | .forwardedDmaRequest .. => .execForwardedDmaRequest
  | .forwardedDmaReply .. => .execForwardedDmaReply
  | .housekeepingRound .. => .execHousekeepingRound
  | .fastPowerCheck .. => .execFastPowerCheck
  | .thermResume => .execThermResume
  | .analogTrip .. => .execAnalogTrip
  | .reckoningRequest => .execReckoningRequest
  | .reckoningHoursDue => .execReckoningHoursDue
  | .hoursCheckpoint => .execHoursCheckpoint
  | .tickMark .. => .execTickMark
  | .assayGap => .execAssayGap
  | .weightMessage .. => .execWeightMessage
  | .assayFigures => .execAssayFigures
  | .assayRingConfig => .execAssayRingConfig
  | .assayFirmwareInstall .. => .execAssayFirmwareInstall
  | .calibrationChange .. => .execCalibrationChange
  | .assayDebugAttach => .execAssayDebugAttach
  | .islandPowerReturn => .execIslandPowerReturn
  | .assayWatchdog => .execAssayWatchdog
  | .quote => .execQuote
  | .extend => .execExtend
  | .stage .. => .execStage
  | .activate => .execActivate
  | .csrRead => .execCsrRead
  | .csrWrite => .execCsrWrite
  | .componentRestart .. => .execComponentRestart
  | .componentDrainDone .. => .execComponentDrainDone
  | .newImageRunning .. => .execNewImageRunning
  | .newImageTimeout .. => .execNewImageTimeout
  | .debugAttach => .execDebugAttach
  | .enter => .execEnter
  | .reset => .execReset
  | .pmcsrD0Write => .execPmcsrD0Write
  | .wakeAtReached => .execWakeAtReached
  | .dormancyExitDone => .execDormancyExitDone
  | .watchdogExpiry .. => .execWatchdogExpiry
  | .dieReset .. => .execDieReset
  | .dieResetDone .. => .execDieResetDone
  | .warmReset => .execWarmReset
  | .coldReset => .execColdReset
  | .standbyPowerLoss => .execStandbyPowerLoss
  | .testRepair .. => .execTestRepair
  | .testBist .. => .execTestBist
  | .bistDone .. => .execBistDone
  | .testTrainRetry .. => .execTestTrainRetry
  | .testMargin .. => .execTestMargin
  | .idlMargin .. => .execIdlMargin
  | .idlLoopback .. => .execIdlLoopback
  | .stackLoopback .. => .execStackLoopback
  | .ethLoopback .. => .execEthLoopback
  | .registerWrite .. => .execRegisterWrite
  | .readClearRead .. => .execReadClearRead
  | .assayDieReturn => .execAssayDieReturn
  | .sealEntryProgrammed => .execSealEntryProgrammed
  | .stageDone => .execStageDone
  | .dormancyEntryDone => .execDormancyEntryDone
  | .undefinedOpcode .. => .execUndefinedOpcode
  | .pcRangeFetch .. => .execPcRangeFetch
  | .illegalPanCommand .. => .execIllegalPanCommand
  | .debugHalt .. => .execDebugHalt
  | .debugDetach => .execDebugDetach
  | .droppedFrame _ why => .execDroppedFrame (why := why)

/-- A step answers a next state that keeps the invariant: the front command on the rest of the queue, or time that passes. -/
theorem step_keeps (s : State) : Keeps s (step s) := by
  unfold step
  split
  · exact .ok fun h => .idleNs h
  · exact .trans (fun h => .keep h) (exec_keeps _ _)

/-- Settles O2: each command's arm answers a next state. -/
theorem everyCommandAnswersNext : Obligations.EveryCommandAnswersNext := fun c s =>
  let ⟨t, e, _⟩ := exec_keeps c s
  ⟨t, e⟩

/-- Settles O3: the invariant as records, kept by each command and by time that passes. -/
theorem stepKeepsTheBlockSound : Obligations.StepKeepsTheBlockSound := by
  intro s t sound e
  obtain ⟨u, e', keeps⟩ := step_keeps s
  obtain rfl : u = t := by rw [e] at e'; injection e' with e'; exact e'.symm
  exact (sound_iff_wf u).2 (keeps ((sound_iff_wf s).1 sound))

end Sys2Proof.Machine
end

section
/-!
SUPPORT. What a read of the CSR window returns and clears (R5, R7, R18, R26), and the accesses that read, write or answer nothing
(R7, R26, R28).
-/
namespace Sys2Proof.Machine
open Sys2Proof Sys2Proof.Spec

/-! ### The bits a read clears -/

/-- What a read under a mask leaves in a field of the register: an RC field loses the bits the mask takes. -/
def clearField (v m a : Nat) (f : Field) : Nat :=
  if f.access = .rc then setBits a f.hi f.lo (bits v f.hi f.lo &&& (2 ^ 64 - 1 - bits m f.hi f.lo)) else a

theorem clearedWord_eq (r : Reg) (v m : Nat) : clearedWord r v m = r.fields.foldl (clearField v m) v := rfl

section
variable (v m a : Nat) {f : Field} {fs : List Field} {b : Nat}

theorem testBit_clearField_out (hb : f.access = .rc → ¬ (f.lo ≤ b ∧ b ≤ f.hi)) : (clearField v m a f).testBit b = a.testBit b := by
  unfold clearField
  split
  next hrc => rw [testBit_setBits, if_neg (hb hrc)]
  next => rfl

theorem testBit_clearField_in (hrc : f.access = .rc) (hf : f.hi < 64) (hb : f.lo ≤ b ∧ b ≤ f.hi) :
    (clearField v m a f).testBit b = (!m.testBit b && v.testBit b) := by
  have place : f.lo + (b - f.lo) = b := by omega
  have inside : b - f.lo < f.hi + 1 - f.lo := by omega
  have mask : bits m f.hi f.lo < 2 ^ 64 := (bits_lt _ _ _).trans_le (Nat.pow_le_pow_right (by decide) (by omega))
  rw [clearField, if_pos hrc, testBit_setBits, if_pos hb, testBit_and_not mask _ _ (by omega), testBit_bits, testBit_bits, place]
  simp only [inside, decide_true, Bool.true_and, Bool.and_comm]

/-- A read leaves every bit outside the RC fields. -/
theorem testBit_foldl_clearField_out (hb : ∀ f ∈ fs, f.access = .rc → ¬ (f.lo ≤ b ∧ b ≤ f.hi)) :
    (fs.foldl (clearField v m) a).testBit b = a.testBit b := by
  induction fs generalizing a with
  | nil => rfl
  | cons f fs ih =>
    rw [List.foldl_cons, ih _ fun g hg => hb g (List.mem_cons_of_mem _ hg), testBit_clearField_out _ _ _ (hb f List.mem_cons_self)]

/-- In a list of fields that lie apart each RC field loses the bits the mask takes. -/
theorem testBit_foldl_clearField_in (apart : fs.Pairwise (fun f g => f.hi < g.lo)) (h64 : ∀ f ∈ fs, f.hi < 64) (hf : f ∈ fs)
    (hrc : f.access = .rc) (hb : f.lo ≤ b ∧ b ≤ f.hi) : (fs.foldl (clearField v m) a).testBit b = (!m.testBit b && v.testBit b) := by
  induction fs generalizing a with
  | nil => cases hf
  | cons g fs ih =>
    rw [List.pairwise_cons] at apart
    rw [List.foldl_cons]
    rcases List.mem_cons.1 hf with rfl | hf'
    · have others : ∀ g ∈ fs, g.access = .rc → ¬ (g.lo ≤ b ∧ b ≤ g.hi) := fun g hg _ => by have := apart.1 g hg; omega
      rw [testBit_foldl_clearField_out _ _ _ others, testBit_clearField_in _ _ _ hrc (h64 f hf) hb]
    · exact ih _ apart.2 (fun g hg => h64 g (List.mem_cons_of_mem _ hg)) hf'

end

section
variable {r : Reg} {v : Nat} (m : Nat)

/-- A read leaves a 64-bit word. -/
theorem clearedWord_lt (hr : r.LaidOut) (hv : v < 2 ^ 64) : clearedWord r v m < 2 ^ 64 := by
  refine Nat.lt_pow_two_of_testBit _ fun b hb => ?_
  rw [clearedWord_eq, testBit_foldl_clearField_out _ _ _ fun f hf _ => by have := hr.2 f hf; omega]
  exact Nat.testBit_lt_two_pow (hv.trans_le (Nat.pow_le_pow_right (by decide) hb))

variable {s : State} {i j : Nat}

/-- The register itself after a read. -/
theorem word_clear (hs : s.canonical = true) (hr : r.LaidOut) :
    (s.setWord r i j (clearedWord r (s.word r i j) m)).word r i j = clearedWord r (s.word r i j) m :=
  word_setWord_same _ _ _ _ _ (csr_wf s hs) (clearedWord_lt _ hr (word_lt _ _ _ _))

/-- An RC field loses the bits an access covers. -/
theorem testBit_word_clear (hs : s.canonical = true) (hr : r.LaidOut) (width : AccessWidth) {f : Field} (hf : f ∈ r.fields)
    (hrc : f.access = .rc) {b : Nat} (hb : f.lo ≤ b ∧ b ≤ f.hi) :
    ((s.setWord r i j (clearedWord r (s.word r i j) (accMask width))).word r i j).testBit b =
      (!covers width b && (s.word r i j).testBit b) := by
  rw [word_clear _ hs hr, clearedWord_eq, testBit_foldl_clearField_in _ _ _ hr.1 hr.2 hf hrc hb,
    testBit_accMask width b (hb.2.trans_lt (hr.2 f hf))]

/-- The record of differences from the reset value, bit by bit. -/
theorem diffBit_off (s : State) (r : Reg) (i j b : Nat) :
    diffBit s (r.off i j) b = ((s.word r i j).testBit b ^^ (BitVec.ofNat 64 (r.resetWord i j)).getLsbD b) := by
  rw [State.word, BitVec.testBit_toNat, BitVec.getLsbD_xor, Bool.xor_assoc, Bool.xor_self, Bool.xor_false, diffBit]

/-- A read changes nothing but the RC fields of the register it reads. -/
theorem bitsBut_clear (hs : s.canonical = true) (hr : r.LaidOut) :
    BitsBut ((r.fields.filter (fun f => f.access == .rc)).map (fun f => (⟨r, f.hi, f.lo⟩, i, j))) s
      (s.setWord r i j (clearedWord r (s.word r i j) m)) := by
  intro o b hob
  by_cases ho : o = r.off i j
  · subst ho
    have outside : ∀ f ∈ r.fields, f.access = .rc → ¬ (f.lo ≤ b ∧ b ≤ f.hi) := fun f hf hrc hb =>
      hob (⟨r, f.hi, f.lo⟩, i, j) (List.mem_map_of_mem (List.mem_filter.2 ⟨hf, beq_iff_eq.2 hrc⟩)) ⟨rfl, hb⟩
    rw [diffBit_off, diffBit_off, word_clear m hs hr, clearedWord_eq, testBit_foldl_clearField_out _ _ _ outside]
  · rw [diffBit, diffBit, setWord_csr, smGet_smPut_ne _ _ _ _ _ ho]

end

/-! ### The bits a read returns -/

/-- What a field adds to the value a read returns: a WO field reads zero. -/
def readField (v a : Nat) (f : Field) : Nat := if f.access = .wo then a else a + (bits v f.hi f.lo) <<< f.lo

/-- Whether a bit lies in a field that a read returns. -/
def reads (b : Nat) (f : Field) : Bool := f.access != .wo && decide (f.lo ≤ b) && decide (b ≤ f.hi)

theorem readableWord_eq (r : Reg) (v : Nat) : readableWord r v = r.fields.foldl (readField v) 0 := rfl

section
variable (v : Nat) {a : Nat} {f : Field}

theorem testBit_readField (ha : a < 2 ^ f.lo) (b : Nat) : (readField v a f).testBit b = (a.testBit b || (reads b f && v.testBit b)) := by
  unfold readField reads
  split
  next h => simp [h]
  next h =>
    rw [Nat.add_comm, Nat.shiftLeft_add_eq_or_of_lt ha, Nat.testBit_or, Nat.testBit_shiftLeft, testBit_bits, Bool.or_comm]
    have mayRead : (f.access != .wo) = true := bne_iff_ne.2 h
    by_cases hb : f.lo ≤ b
    · have inside : b - f.lo < f.hi + 1 - f.lo ↔ b ≤ f.hi := by omega
      simp [mayRead, hb, inside]
    · simp [hb]

/-- A field's bits end where the next field begins. -/
theorem readField_lt {n : Nat} (hf : f.hi < n) (ha : a < 2 ^ f.lo) (hn : a < 2 ^ n) : readField v a f < 2 ^ n := by
  refine Nat.lt_pow_two_of_testBit _ fun b hb => ?_
  have above : ¬ b ≤ f.hi := by omega
  rw [testBit_readField v ha, Nat.testBit_lt_two_pow (hn.trans_le (Nat.pow_le_pow_right (by decide) hb))]
  simp [reads, above]

/-- A read returns the bits of the fields that it may read and no others. -/
theorem testBit_foldl_readField {fs : List Field} (apart : fs.Pairwise (fun f g => f.hi < g.lo)) (ha : ∀ f ∈ fs, a < 2 ^ f.lo) (b : Nat) :
    (fs.foldl (readField v) a).testBit b = (a.testBit b || (fs.any (reads b) && v.testBit b)) := by
  induction fs generalizing a with
  | nil => simp
  | cons f fs ih =>
    rw [List.pairwise_cons] at apart
    have first := ha f List.mem_cons_self
    have rest : ∀ g ∈ fs, readField v a f < 2 ^ g.lo := fun g hg => readField_lt v (apart.1 g hg) first (ha g (List.mem_cons_of_mem _ hg))
    rw [List.foldl_cons, ih apart.2 rest, testBit_readField v first, List.any_cons, Bool.or_assoc, ← Bool.and_or_distrib_right]

theorem testBit_readableWord {r : Reg} (hr : r.LaidOut) (b : Nat) :
    (readableWord r v).testBit b = (r.fields.any (reads b) && v.testBit b) := by
  rw [readableWord_eq, testBit_foldl_readField v hr.1 fun _ _ => Nat.two_pow_pos _, Nat.zero_testBit, Bool.false_or]

end

/-- The value of an access is its half of the word, in the low bits. -/
theorem testBit_accBack (width : AccessWidth) (x b : Nat) :
    (accBack width (x &&& accMask width)).testBit b =
      (decide (b < (if width = .whole then 64 else 32)) && x.testBit (if width = .high then b + 32 else b)) := by
  cases width with
  | whole | low =>
    simp only [accBack, accMask, Nat.testBit_and, Nat.testBit_two_pow_sub_one, Bool.and_comm, reduceCtorEq, if_true, if_false]
  | high =>
    rw [accBack, accMask, show 2 ^ 64 - 2 ^ 32 = (2 ^ 32 - 1) <<< 32 by decide, Nat.testBit_shiftRight, Nat.testBit_and,
      Nat.testBit_shiftLeft, Nat.testBit_two_pow_sub_one]
    simp [Nat.add_comm, Bool.and_comm]

/-! ### The accesses of the host -/

theorem liveWord_of_not_live (s : State) {r : Reg} (i j : Nat) (h : r.base ∉ liveBases) : s.liveWord r i j = s.word r i j := by
  simp only [liveBases, List.map, List.mem_cons, not_or] at h
  simp [State.liveWord, h]

theorem regRead_of_not_live (s : State) {r : Reg} (i j m : Nat) (h : r.base ∉ liveBases) :
    s.regRead r i j m = (readableWord r (s.word r i j) &&& m, s.setWord r i j (clearedWord r (s.word r i j) m)) := by
  have ctrl : r.base ≠ Reg.R_CTRL.base := fun e => h (e ▸ by decide)
  rw [State.regRead, if_neg ctrl, liveWord_of_not_live s i j h]

/-- A register set and an answer given are all that changed. -/
theorem reply_setWord_eq (s : State) (r : Reg) (i j w : Nat) (a : Answer) :
    (s.setWord r i j w).reply a = { s with csr := ((s.setWord r i j w).reply a).csr, answer := some a } := rfl

theorem bitsBut_reply {l : List (Fld × Nat × Nat)} {s t : State} (a : Answer) (h : BitsBut l s t) : BitsBut l s (t.reply a) := h

theorem word_reply (s : State) (a : Answer) (r : Reg) (i j : Nat) : (s.reply a).word r i j = s.word r i j := rfl

section
variable (s : State) (off : BitVec 28) (v : Word) (width : AccessWidth) {r : Reg} {i j : Nat}

/-- A read by the host of a register whose word stands as it is stored. -/
theorem exec_readClearRead_of_not_live (hr : regAt off.toNat = some (r, i, j)) (h : r.base ∉ liveBases) (up : s.csrUp off.toNat = true)
    (answers : s.get Fld.SEC_STATE.STATE ≠ 3) (half : width ≠ .whole → r.snapshot = false) :
    exec (.readClearRead off width) s =
      .next ((s.setWord r i j (clearedWord r (s.word r i j) (accMask width))).reply
        (.value (accBack width (readableWord r (s.word r i j) &&& accMask width)))) := by
  have isOpen : s.windowOpen = true := bne_iff_ne.2 answers
  change execReadClearRead off width s = _
  simp only [execReadClearRead, isOpen, State.windowRead, up, halfRefused_eq_false hr half, hr, regRead_of_not_live s i j _ h]
  rfl

/-- An access to a die that is down, or of half a snapshot counter, is refused. -/
theorem refused_of (hr : regAt off.toNat = some (r, i, j)) (h : s.csrUp off.toNat = false ∨ (width ≠ .whole ∧ r.snapshot = true)) :
    (!s.csrUp off.toNat || halfRefused off.toNat width) = true := by
  rcases h with down | ⟨half, snap⟩
  · rw [down]
    rfl
  · cases width with
    | whole => exact absurd rfl half
    | low | high => simp [halfRefused, hr, snap]

theorem exec_readClearRead_of_refused (h : (!s.csrUp off.toNat || halfRefused off.toNat width) = true) :
    exec (.readClearRead off width) s = .next (s.reply .error) := by
  change execReadClearRead off width s = _
  simp only [execReadClearRead, State.windowRead, h, if_true]
  cases s.windowOpen <;> rfl

theorem exec_registerWrite_of_refused (h : (!s.csrUp off.toNat || halfRefused off.toNat width) = true) :
    exec (.registerWrite off v width) s = .next (s.reply .error) := by
  change execRegisterWrite off v width s = _
  simp only [execRegisterWrite, State.windowWrite, h, if_true]
  cases s.windowOpen <;> rfl

theorem halfRefused_of_none (h : regAt off.toNat = none) : halfRefused off.toNat width = false := by
  cases width <;> simp [halfRefused, h]

/-- A read of an offset no chapter defines returns zero. -/
theorem exec_readClearRead_of_none (h : regAt off.toNat = none) (up : s.csrUp off.toNat = true) (answers : s.get Fld.SEC_STATE.STATE ≠ 3) :
    exec (.readClearRead off width) s = .next (s.reply (.value 0)) := by
  have isOpen : s.windowOpen = true := bne_iff_ne.2 answers
  change execReadClearRead off width s = _
  simp only [execReadClearRead, isOpen, State.windowRead, up, halfRefused_of_none off width h, h]
  rfl

/-- A write of an offset no chapter defines changes nothing. -/
theorem exec_registerWrite_of_none (h : regAt off.toNat = none) (up : s.csrUp off.toNat = true) (answers : s.get Fld.SEC_STATE.STATE ≠ 3) :
    exec (.registerWrite off v width) s = .next (s.reply .done) := by
  have isOpen : s.windowOpen = true := bne_iff_ne.2 answers
  have ring (w : Nat) : s.ringDown (ident clHost 0) off.toNat w = false := by simp [State.ringDown, h]
  change execRegisterWrite off v width s = _
  simp only [execRegisterWrite, isOpen, State.windowWrite, up, halfRefused_of_none off width h, h, ring]
  rfl

theorem not_acting_of_inAssay (h : inAssay r) : r.base ∉ actingBases := fun hb =>
  (show ∀ b ∈ actingBases, ¬ (0x900000 ≤ b ∧ b < 0xA00000) by decide) _ hb h

/-- A write of a register of the ASSAY block changes nothing. -/
theorem regWrite_of_inAssay (who w m : Nat) (h : inAssay r) : s.regWrite who r i j w m = s := by
  have hn := not_acting_of_inAssay h
  have therm : r.base ≠ Reg.THERM_CTRL.base := base_ne_of_not_acting hn (by decide)
  have age : r.base ≠ Reg.AGE_CTRL.base := base_ne_of_not_acting hn (by decide)
  have assay : (Reg.ASY_STATE.base ≤ r.base && decide (r.base < Reg.SEC_STATE.base)) = true := by
    rw [Bool.and_eq_true, decide_eq_true_eq, decide_eq_true_eq]
    exact h
  have third : s.actWrite3 r i w m = some s := by
    rw [State.actWrite3]
    simp only [therm, age, assay, if_false, if_true]
  simp only [State.regWrite, actWriteBox_of_not_acting s i j w m who hn, actWrite1_of_not_acting s i j w m hn,
    actWrite2_of_not_acting s i j w m hn, third]

theorem exec_registerWrite_of_inAssay (hr : regAt off.toNat = some (r, i, j)) (h : inAssay r) (up : s.csrUp off.toNat = true)
    (answers : s.get Fld.SEC_STATE.STATE ≠ 3) : exec (.registerWrite off v .whole) s = .next (s.reply .done) := by
  have isOpen : s.windowOpen = true := bne_iff_ne.2 answers
  change execRegisterWrite off v .whole s = _
  simp only [execRegisterWrite, isOpen, State.windowWrite, up, halfRefused_eq_false hr fun h => absurd rfl h, hr,
    regWrite_of_inAssay s _ _ _ h, ringDown_of_not_acting s _ _ hr (not_acting_of_inAssay h)]
  rfl

end

/-- Settles O6: a read clears and returns field by field, through fields that lie apart; the other accesses leave the state. -/
theorem registerReadAndRefusedAccesses : Obligations.RegisterReadAndRefusedAccesses := by
  refine ⟨fun s off width r i j sound hr live up answers half => ?_, fun s off v width r i j hr refused => ?_,
    fun s off v width undefinedAt up answers => ?_, fun s off v r i j hr assay up answers => ?_⟩
  · have laid : r.LaidOut := laidOut_of_mem_regTable r (mem_regTable_of_regAt hr)
    refine ⟨_, _, exec_readClearRead_of_not_live s off width hr live up answers half, reply_setWord_eq _ _ _ _ _ _,
      bitsBut_reply _ (bitsBut_clear _ sound.2 laid), fun f hf b hlo hhi hrc => ?_, fun b => ?_⟩
    · rw [word_reply]
      exact testBit_word_clear sound.2 laid width hf hrc ⟨hlo, hhi⟩
    · rw [testBit_accBack, testBit_readableWord _ laid]
      rfl
  · have no := refused_of s off width hr refused
    exact ⟨exec_readClearRead_of_refused s off width no, exec_registerWrite_of_refused s off v width no⟩
  · exact ⟨exec_readClearRead_of_none s off width undefinedAt up answers, exec_registerWrite_of_none s off v width undefinedAt up answers⟩
  · exact exec_registerWrite_of_inAssay s off v hr assay up answers

end Sys2Proof.Machine
end

section
/-!
SUPPORT. Fields: which bits a set field leaves, and reads of the other fields of a block, of an array's entries and of a partition.
-/
namespace Sys2Proof.Machine
open Sys2Proof Sys2Proof.Spec

/-! ### Bits outside a list of fields -/

theorem bitsBut_refl (l : List (Fld × Nat × Nat)) (s : State) : BitsBut l s s := fun _ _ _ => rfl

/-- Fields left alone on two ways in turn are left alone on both. -/
theorem bitsBut_trans {l : List (Fld × Nat × Nat)} {s t u : State} (h : BitsBut l s t) (g : BitsBut l t u) : BitsBut l s u :=
  fun o b hob => (g o b hob).trans (h o b hob)

/-- Every bit of the fields of one list lies in a field of another. -/
def Within (l m : List (Fld × Nat × Nat)) : Prop :=
  ∀ e ∈ l, ∃ f ∈ m, f.1.reg.off f.2.1 f.2.2 = e.1.reg.off e.2.1 e.2.2 ∧ f.1.lo ≤ e.1.lo ∧ e.1.hi ≤ f.1.hi

theorem within_of_mem {l : List (Fld × Nat × Nat)} {e : Fld × Nat × Nat} (h : e ∈ l) : Within [e] l := by
  intro x hx
  rw [List.mem_singleton.1 hx]
  exact ⟨e, h, rfl, le_rfl, le_rfl⟩

theorem bitsBut_mono {l m : List (Fld × Nat × Nat)} {s t : State} (h : BitsBut l s t) (hw : Within l m) : BitsBut m s t := by
  intro o b hob
  refine h o b fun e he ⟨off, lo, hi⟩ => ?_
  obtain ⟨f, hf, foff, flo, fhi⟩ := hw e he
  exact hob f hf ⟨foff.trans off, flo.trans lo, hi.trans fhi⟩

/-- The bits of the registers are all that counts. -/
theorem bitsBut_of_csr {l : List (Fld × Nat × Nat)} {s s' t t' : State} (h : BitsBut l s t) (hs : s'.csr = s.csr) (ht : t'.csr = t.csr) :
    BitsBut l s' t' := by
  intro o b hob
  rw [diffBit, diffBit, hs, ht]
  exact h o b hob

/-- A set field leaves every bit outside it. -/
theorem bitsBut_set (s : State) (f : Fld) (v i j : Nat) (h : smWf 0#64 s.csr = true) : BitsBut [(f, i, j)] s (s.set f v i j) := by
  intro o b hob
  unfold diffBit
  by_cases ho : o = f.reg.off i j
  · subst ho
    have out : ¬ (f.lo ≤ b ∧ b ≤ f.hi) := fun hb => hob _ List.mem_cons_self ⟨rfl, hb⟩
    by_cases hb : b < 64
    · rw [set_csr]
      simp only [State.setWord, smGet_smPut_same _ _ _ _ h]
      rw [BitVec.getLsbD_xor, BitVec.getLsbD_ofNat, testBit_setBits, if_neg out, State.word, BitVec.testBit_toNat, BitVec.getLsbD_xor]
      simp [hb]
    · rw [BitVec.getLsbD_of_ge _ _ (by omega), BitVec.getLsbD_of_ge _ _ (by omega)]
  · rw [set_csr, setWord_csr, smGet_smPut_ne _ _ _ _ _ ho]

/-- A set field is all that differs. -/
theorem onlyRegs_set (s : State) (f : Fld) (v i j : Nat) (h : smWf 0#64 s.csr = true) : OnlyRegs [(f, i, j)] s (s.set f v i j) :=
  ⟨rfl, bitsBut_set s f v i j h⟩

/-- A field set among those of a list. -/
theorem bitsBut_set_of {l : List (Fld × Nat × Nat)} {s t : State} (h : BitsBut l s t) (f : Fld) (v i j : Nat) (hw : smWf 0#64 t.csr = true)
    (hl : Within [(f, i, j)] l) : BitsBut l s (t.set f v i j) :=
  bitsBut_trans h (bitsBut_mono (bitsBut_set t f v i j hw) hl)

theorem smWf_csr_setWord (s : State) (r : Reg) (i j w : Nat) (h : smWf 0#64 s.csr = true) : smWf 0#64 (s.setWord r i j w).csr = true :=
  smWf_smPut _ _ _ _ h

theorem smWf_csr_set (s : State) (f : Fld) (v i j : Nat) (h : smWf 0#64 s.csr = true) : smWf 0#64 (s.set f v i j).csr = true :=
  smWf_csr_setWord s _ _ _ _ h

/-! ### Registers that stand -/

/-- The registers at the offsets of a set hold in one state what they hold in another. -/
def SameRegs (K : Nat → Prop) (s t : State) : Prop := ∀ o, K o → smGet 0#64 t.csr o = smGet 0#64 s.csr o

section
variable {K : Nat → Prop} {s t u : State}

theorem SameRegs.refl : SameRegs K s s := fun _ _ => rfl

theorem SameRegs.trans (h : SameRegs K s t) (g : SameRegs K t u) : SameRegs K s u := fun o ho => (g o ho).trans (h o ho)

theorem SameRegs.of_csr (h : t.csr = s.csr) : SameRegs K s t := fun _ _ => by rw [h]

theorem SameRegs.mono {L : Nat → Prop} (h : SameRegs K s t) (hL : ∀ o, L o → K o) : SameRegs L s t := fun o ho => h o (hL o ho)

theorem SameRegs.word (h : SameRegs K s t) {r : Reg} {i j : Nat} (hk : K (r.off i j)) : t.word r i j = s.word r i j := by
  rw [State.word, State.word, h _ hk]

theorem SameRegs.get (h : SameRegs K s t) {f : Fld} {i j : Nat} (hk : K (f.reg.off i j)) : t.get f i j = s.get f i j := by
  rw [State.get, State.get, h.word hk]

/-- Setting a register outside the set. -/
theorem SameRegs.setWord (h : SameRegs K s t) {r : Reg} {i j w : Nat} (hk : ¬ K (r.off i j)) : SameRegs K s (t.setWord r i j w) := by
  intro o ho
  rw [setWord_csr, smGet_smPut_ne]
  · exact h o ho
  · exact fun e => hk (e ▸ ho)

theorem SameRegs.set (h : SameRegs K s t) {f : Fld} {v i j : Nat} (hk : ¬ K (f.reg.off i j)) : SameRegs K s (t.set f v i j) := h.setWord hk

end

theorem SameRegs.foldl {β : Type} {K : Nat → Prop} {s t : State} {l : List β} {f : State → β → State} (h : SameRegs K s t)
    (k : ∀ t x, SameRegs K t (f t x)) : SameRegs K s (l.foldl f t) := by
  induction l generalizing t with
  | nil => exact h
  | cons x l ih => exact ih (h.trans (k t x))

/-- One register of an array lies at its first address or above. -/
theorem base_le_off (r : Reg) (i j : Nat) : r.base ≤ r.off i j := by
  unfold Reg.off
  split <;> omega

/-- The time registers, and those of the step controller. -/
abbrev IsLow (o : Nat) : Prop := o < 0x100000

theorem not_isLow_off {r : Reg} (h : 0x100000 ≤ r.base) (i j : Nat) : ¬ IsLow (r.off i j) := Nat.not_lt.2 (h.trans (base_le_off r i j))

/-! ### What programs see -/

section
variable {s t u : State}

theorem sameContents_refl (s : State) : SameContents s s := ⟨⟨rfl, rfl, rfl, rfl, rfl, rfl⟩, rfl, fun _ => ⟨rfl, rfl, rfl, rfl, rfl⟩⟩

theorem sameContents_trans (h : SameContents s t) (g : SameContents t u) : SameContents s u := by
  obtain ⟨⟨m, gr, e, mf, fl, cb⟩, ho, c⟩ := h
  obtain ⟨⟨m', gr', e', mf', fl', cb'⟩, ho', c'⟩ := g
  refine ⟨⟨m'.trans m, gr'.trans gr, e'.trans e, mf'.trans mf, fl'.trans fl, cb'.trans cb⟩, ho'.trans ho, fun i => ?_⟩
  obtain ⟨x, td, trf, pc, stq⟩ := c i
  obtain ⟨x', td', trf', pc', stq'⟩ := c' i
  exact ⟨x'.trans x, td'.trans td, trf'.trans trf, pc'.trans pc, stq'.trans stq⟩

/-- Nothing of memory, of host memory and of the cores is replaced. -/
theorem sameContents_of_keep {csr stks parts pans batches batchSeq sealing colls dieUp msixHeld msixSent repairDue sent tx tick power net link
    mod sec asy age free answer delivered pending} :
    SameContents s { s with
      csr, stks, parts, pans, batches, batchSeq, sealing, colls, dieUp, msixHeld, msixSent, repairDue, sent, tx, tick, power, net, link,
      mod, sec, asy, age, free, answer, delivered, pending } := sameContents_refl s

end

/-! ### Fields and words by their registers alone -/

theorem word_of_csr {s t : State} (h : t.csr = s.csr) (r : Reg) (i j : Nat) : t.word r i j = s.word r i j := by
  rw [State.word, State.word, h]

theorem get_of_csr {s t : State} (h : t.csr = s.csr) (f : Fld) (i j : Nat) : t.get f i j = s.get f i j := by
  rw [State.get, State.get, word_of_csr h]

/-- A register with another first address and the same array shape stands. -/
theorem off_ne_of_base_ne {q r : Reg} {i j : Nat} (hd : q.dims = r.dims) (hb : q.base ≠ r.base) : q.off i j ≠ r.off i j := by
  unfold Reg.off
  rw [hd]
  split <;> omega

/-- Setting a field leaves those of a register with another first address. -/
theorem get_set_of_base_ne (s : State) (f g : Fld) (v i j : Nat) (hd : g.reg.dims = f.reg.dims) (hb : g.reg.base ≠ f.reg.base) :
    (s.set f v i j).get g i j = s.get g i j :=
  get_set_ne _ _ _ _ _ _ _ _ (off_ne_of_base_ne hd hb)

theorem bitsBut_setPart {l : List (Fld × Nat × Nat)} {s t : State} (h : BitsBut l s t) (p : Nat) (k : PartSt) : BitsBut l s (t.setPart p k) := h

/-- A one-bit field as a truth value. -/
theorem is_eq_false {s : State} {f : Fld} {i j : Nat} (h : s.get f i j = 0) : s.is f i j = false := by rw [State.is, h]; rfl

theorem is_eq_true {s : State} {f : Fld} {i j : Nat} (h : s.get f i j ≠ 0) : s.is f i j = true := bne_iff_ne.2 h

theorem bit_eq_testBit (v i : Nat) : bit v i = v.testBit i := by
  rw [bit, Nat.testBit_eq_decide_div_mod_eq, Nat.shiftRight_eq_div_pow]
  rfl

/-- A mask that holds a whole field keeps it. -/
theorem bits_mergeMask_zero {mask hi lo : Nat} (v : Nat) (h : bits mask hi lo = 2 ^ (hi + 1 - lo) - 1) :
    bits (mergeMask mask v 0) hi lo = bits v hi lo := by
  refine Nat.eq_of_testBit_eq fun b => ?_
  rw [testBit_bits, testBit_bits, mergeMask, Nat.zero_and, Nat.or_zero, Nat.testBit_and]
  have k : (bits mask hi lo).testBit b = (2 ^ (hi + 1 - lo) - 1).testBit b := by rw [h]
  rw [testBit_bits, Nat.testBit_two_pow_sub_one] at k
  cases hb : decide (b < hi + 1 - lo) with
  | false => rfl
  | true =>
    rw [hb, Bool.true_and] at k
    rw [k, Bool.and_true]

/-- A write of a whole register replaces its word. -/
theorem mergeMask_fullMask {v : Nat} (old : Nat) (h : v < 2 ^ 64) : mergeMask fullMask v old = v := by
  rw [mergeMask, show 2 ^ 64 - 1 - fullMask = 0 from rfl, Nat.and_zero, Nat.or_zero, show fullMask = 2 ^ 64 - 1 from rfl,
    Nat.and_two_pow_sub_one_eq_mod, Nat.mod_eq_of_lt h]

theorem clamp_eq {lo hi : Nat} (h : lo ≤ hi) (x : Nat) : clamp lo hi x = Nat.min hi (Nat.max lo x) := by
  change _ = min hi (max lo x)
  unfold clamp
  split_ifs <;> omega

end Sys2Proof.Machine
end

section
/-! SUPPORT. Step control (O38): STEP_CFG, START, STOP, QUIESCE and RESUME. -/
namespace Sys2Proof.Machine
open Sys2Proof Sys2Proof.Spec

section
variable (s : State) (p : Fin 16) (v : Word)

theorem exec_stepCfgWrite (serves : s.serves 0 = true) : exec (.stepCfgWrite p v) s = .next (s.stepCfgPut p v.toNat fullMask) := by
  change occurs (s.serves 0) s _ = _
  rw [serves, occurs_true]

theorem exec_start (serves : s.serves 0 = true) : exec (.start p) s = .next (s.start p) := by
  change occurs (s.serves 0) s _ = _
  rw [serves, occurs_true]

theorem exec_stop (serves : s.serves 0 = true) (quiesce : Bool) :
    exec (if quiesce then .quiesce p else .stop p) s = .next (s.stop p quiesce) := by
  cases quiesce with
  | true =>
    change occurs (s.serves 0) s _ = _
    rw [serves, occurs_true]
  | false =>
    change occurs (s.serves 0) s _ = _
    rw [serves, occurs_true]

theorem exec_resume (serves : s.serves 0 = true) : exec (.resume p) s = .next (s.resumePart p) := by
  change occurs (s.serves 0) s _ = _
  rw [serves, occurs_true]

end

/-- The word a write of STEP_CFG leaves: EVE_PM and RETRY_TRIM held to their ranges, reserved bits zero. -/
def stepCfgWord (w : Nat) : Nat :=
  let m := setBits w 41 32 (clamp 10 500 (bits w 41 32))
  let m := setBits m 63 56 (Nat.min 64 (bits m 63 56))
  mergeMask (keptMask (fun _ => true) Reg.STEP_CFG) m 0

section
variable (s : State) (p w : Nat)

theorem stepCfgPut_of_refused (hw : w < 2 ^ 64)
    (h : bits w 9 0 < bits w 25 16 ∨ ((bits w 9 0 ≠ s.get Fld.STEP_CFG.LEN_M1 p ∨ bits w 25 16 ≠ s.get Fld.STEP_CFG.PHASE p) ∧ s.pstate p = 1)) :
    s.stepCfgPut p w fullMask = s.set Fld.STEP_ERR.CFG_REFUSED 1 p := by
  simp only [State.stepCfgPut, mergeMask_fullMask _ hw]
  refine if_pos ?_
  simp only [Bool.or_eq_true, Bool.and_eq_true, bne_iff_ne, decide_eq_true_eq, beq_iff_eq]
  exact h

theorem stepCfgPut_of_taken (hw : w < 2 ^ 64)
    (h : ¬ (bits w 9 0 < bits w 25 16 ∨ ((bits w 9 0 ≠ s.get Fld.STEP_CFG.LEN_M1 p ∨ bits w 25 16 ≠ s.get Fld.STEP_CFG.PHASE p) ∧ s.pstate p = 1))) :
    s.stepCfgPut p w fullMask = s.setWord Reg.STEP_CFG p 0 (stepCfgWord w) := by
  simp only [State.stepCfgPut, mergeMask_fullMask _ hw]
  refine if_neg ?_
  simp only [Bool.or_eq_true, Bool.and_eq_true, bne_iff_ne, decide_eq_true_eq, beq_iff_eq]
  exact h

end

theorem stepCfgWord_lt (w : Nat) : stepCfgWord w < 2 ^ 64 := by
  rw [stepCfgWord, mergeMask, Nat.zero_and, Nat.or_zero]
  exact (Nat.and_le_right.trans_lt (by decide))

/-- The fields of STEP_CFG after a write. -/
theorem bits_stepCfgWord (w : Nat) : bits (stepCfgWord w) 9 0 = bits w 9 0 ∧ bits (stepCfgWord w) 25 16 = bits w 25 16 ∧
    bits (stepCfgWord w) 41 32 = Nat.min 500 (Nat.max 10 (bits w 41 32)) ∧ bits (stepCfgWord w) 51 48 = bits w 51 48 ∧
    bits (stepCfgWord w) 63 56 = Nat.min 64 (bits w 63 56) := by
  unfold stepCfgWord
  refine ⟨?_, ?_, ?_, ?_, ?_⟩
  · rw [bits_mergeMask_zero _ (by decide), bits_setBits_below _ _ _ _ _ _ (by decide), bits_setBits_below _ _ _ _ _ _ (by decide)]
  · rw [bits_mergeMask_zero _ (by decide), bits_setBits_below _ _ _ _ _ _ (by decide), bits_setBits_below _ _ _ _ _ _ (by decide)]
  · have small : min 500 (max 10 (bits w 41 32)) < 2 ^ 10 := by omega
    rw [bits_mergeMask_zero _ (by decide), bits_setBits_below _ _ _ _ _ _ (by decide), bits_setBits_same, clamp_eq (by decide)]
    exact Nat.mod_eq_of_lt small
  · rw [bits_mergeMask_zero _ (by decide), bits_setBits_below _ _ _ _ _ _ (by decide),
      bits_setBits_above _ _ _ _ _ _ (by decide) (by decide)]
  · have small : min 64 (bits w 63 56) < 2 ^ 8 := by omega
    rw [bits_mergeMask_zero _ (by decide), bits_setBits_same, bits_setBits_above _ _ _ _ _ _ (by decide) (by decide)]
    exact Nat.mod_eq_of_lt small

/-- R63: a write of STEP_CFG refused with its flag, or taken. -/
theorem stepCfgWrite_spec (s : State) (p : Fin 16) (v : Word) (sound : Sound s) (serves : s.serves 0 = true) :
    let w := v.toNat
    let len := bits w 9 0
    let ph := bits w 25 16
    let refused := len < ph ∨ ((len ≠ s.get Fld.STEP_CFG.LEN_M1 p ∨ ph ≠ s.get Fld.STEP_CFG.PHASE p) ∧ s.get Fld.STEP_STATE.STATE p = 1)
    (refused → ∃ t, exec (.stepCfgWrite p v) s = .next t ∧ OnlyRegs [(Fld.STEP_ERR.CFG_REFUSED, p, 0)] s t ∧
      t.get Fld.STEP_ERR.CFG_REFUSED p = 1) ∧
    (¬ refused → ∃ t, exec (.stepCfgWrite p v) s = .next t ∧ OnlyRegs [(allOf Reg.STEP_CFG, p, 0)] s t ∧
      t.get Fld.STEP_CFG.LEN_M1 p = len ∧ t.get Fld.STEP_CFG.PHASE p = ph ∧
      t.get Fld.STEP_CFG.EVE_PM p = Nat.min 500 (Nat.max 10 (bits w 41 32)) ∧ t.get Fld.STEP_CFG.RETRY_LIMIT p = bits w 51 48 ∧
      t.get Fld.STEP_CFG.RETRY_TRIM p = Nat.min 64 (bits w 63 56)) := by
  have wf := csr_wf s sound.2
  refine ⟨fun h => ⟨_, (exec_stepCfgWrite s p v serves).trans (congrArg _ (stepCfgPut_of_refused s p _ v.isLt h)),
      onlyRegs_set _ _ _ _ _ wf, get_set_same _ _ _ _ _ wf (by decide) (by decide)⟩, fun h => ?_⟩
  have word := word_setWord_same s Reg.STEP_CFG p 0 _ wf (stepCfgWord_lt v.toNat)
  have fields := bits_stepCfgWord v.toNat
  refine ⟨_, (exec_stepCfgWrite s p v serves).trans (congrArg _ (stepCfgPut_of_taken s p _ v.isLt h)), ⟨rfl, bitsBut_setWord _ _ _ _ _⟩, ?_⟩
  rw [← word] at fields
  exact fields

section
variable (s : State) (p : Nat) (quiesce : Bool)

/-- A new step record for one partition, and registers. -/
theorem partOnly_setPart (t : State) (k : PartSt) (h : t = { s with csr := t.csr }) : PartOnly s (t.setPart p k) p := by
  rw [h]
  exact ⟨rfl, fun q hq => part_setPart_ne _ _ _ _ hq⟩

theorem start_of_idle (idle : s.pstate p = 0) (bars : s.wornBars p = false) (valid : s.get Fld.ALM_NEXT.VALID p = 0)
    (alm : (s.part p).alm ≠ none) :
    s.start p = ((s.set Fld.COMMIT_NUM.COMMITS 0 p).set Fld.STEP_STATE.RETRY_COUNT 0 p).setPart p { s.part p with
      startPend := true, stopReq := false, quiesceReq := false, stoppedFor := [], stopAtBoundary := false, lastColl := false
      retryLate := false } := by
  have some : (s.part p).alm.isNone = false := by rw [Bool.eq_false_iff, ne_eq, Option.isNone_iff_eq_none]; exact alm
  simp [State.start, idle, stIdle, bars, is_eq_false valid, some]

/-- A stop of a step in progress. -/
theorem stop_of_stepping (state : s.pstate p = 1 ∨ s.pstate p = 2 ∨ s.pstate p = 5) (stepping : s.stepping p = true) :
    s.stop p quiesce = (s.set Fld.STEP_STATE.STATE stStopping p).setPart p { s.part p with
      stopReq := true, quiesceReq := (s.part p).quiesceReq || quiesce } := by
  have run : (s.pstate p == stRunning || s.pstate p == stStopping || s.pstate p == stHeld) = true := by
    simpa [stRunning, stStopping, stHeld, or_assoc] using state
  simp only [State.stop, run, stepping, if_true]

/-- A stop with no step in progress. -/
theorem stop_of_waiting (h : s.pstate p = 1 ∨ s.pstate p = 2 ∨ s.pstate p = 5 ∨ (s.part p).startPend = true ∨ (s.part p).resumePend = true)
    (rests : s.pstate p = 1 ∨ s.pstate p = 2 ∨ s.pstate p = 5 → s.stepping p = false) : s.stop p quiesce = s.haltPart p quiesce := by
  by_cases state : s.pstate p = 1 ∨ s.pstate p = 2 ∨ s.pstate p = 5
  · have run : (s.pstate p == stRunning || s.pstate p == stStopping || s.pstate p == stHeld) = true := by
      simpa [stRunning, stStopping, stHeld, or_assoc] using state
    simp [State.stop, run, rests state]
  · have run : (s.pstate p == stRunning || s.pstate p == stStopping || s.pstate p == stHeld) = false := by
      simpa [stRunning, stStopping, stHeld, or_assoc, not_or, and_assoc] using state
    have pend : ((s.part p).startPend || (s.part p).resumePend) = true := by
      have := h
      simp only [Bool.or_eq_true]
      tauto
    simp only [State.stop, run, pend, if_true]
    rfl

/-- A QUIESCE of a partition that is STOPPED. -/
theorem stop_of_stopped (stopped : s.pstate p = 3) (start : (s.part p).startPend = false) (resume : (s.part p).resumePend = false) :
    s.stop p true = s.set Fld.STEP_STATE.STATE stQuiesced p := by
  simp [State.stop, stopped, stRunning, stStopping, stHeld, stStopped, start, resume]

theorem resumePart_of_stopped (state : s.pstate p = 3 ∨ s.pstate p = 4) (alm : (s.part p).alm ≠ none) (bars : s.wornBars p = false) :
    s.resumePart p = ((s.set Fld.STEP_STATE.RETRY_COUNT 0 p).set Fld.STEP_STATE.RETRY_EXHAUSTED 0 p).setPart p { s.part p with
      resumePend := true, stoppedFor := [], stopAtBoundary := false, stopReq := false, quiesceReq := false, lastColl := false
      retryLate := false } := by
  have stopped : (s.pstate p == stStopped || s.pstate p == stQuiesced) = true := by simpa [stStopped, stQuiesced] using state
  have some : (s.part p).alm.isSome = true := Option.isSome_iff_ne_none.2 alm
  simp only [State.resumePart, stopped, some, bars, Bool.not_false, Bool.and_self, if_true]

end

theorem part_lt_length (s : State) (p : Fin 16) (sound : Sound s) : p.val < s.parts.length := by
  rw [((sound_iff_wf s).1 sound).parts]
  exact p.isLt

/-- R58: START of an IDLE partition with an almanac. -/
theorem start_spec (s : State) (p : Fin 16) (sound : Sound s) (serves : s.serves 0 = true) (idle : s.get Fld.STEP_STATE.STATE p = 0)
    (bars : s.wornBars p = false) (valid : s.get Fld.ALM_NEXT.VALID p = 0) (alm : (s.part p).alm ≠ none) :
    ∃ t, exec (.start p) s = .next t ∧ PartOnly s t p ∧ (t.part p).startPend = true ∧
      BitsBut [(Fld.COMMIT_NUM.COMMITS, p, 0), (Fld.STEP_STATE.RETRY_COUNT, p, 0)] s t ∧ t.get Fld.COMMIT_NUM.COMMITS p = 0 ∧
      t.get Fld.STEP_STATE.RETRY_COUNT p = 0 := by
  have wf := csr_wf s sound.2
  have wf' := smWf_csr_set s Fld.COMMIT_NUM.COMMITS 0 p 0 wf
  have bits : BitsBut [(Fld.COMMIT_NUM.COMMITS, p, 0), (Fld.STEP_STATE.RETRY_COUNT, p, 0)] s
      ((s.set Fld.COMMIT_NUM.COMMITS 0 p).set Fld.STEP_STATE.RETRY_COUNT 0 p) :=
    bitsBut_set_of (bitsBut_set_of (bitsBut_refl _ _) _ _ _ _ wf (within_of_mem (by simp))) _ _ _ _ wf' (within_of_mem (by simp))
  have commits : ((s.set Fld.COMMIT_NUM.COMMITS 0 p).set Fld.STEP_STATE.RETRY_COUNT 0 p).get Fld.COMMIT_NUM.COMMITS p = 0 := by
    rw [get_set_of_base_ne _ _ _ _ _ _ (by decide) (by decide), get_set_same _ _ _ _ _ wf (by decide) (by decide)]
    rfl
  have retry := get_set_same (s.set Fld.COMMIT_NUM.COMMITS 0 p) Fld.STEP_STATE.RETRY_COUNT 0 p 0 wf' (by decide) (by decide)
  refine ⟨_, (exec_start s p serves).trans (congrArg _ (start_of_idle s p idle bars valid alm)), partOnly_setPart s p _ _ rfl, ?_,
    bitsBut_setPart bits _ _, commits, retry⟩
  rw [part_setPart_same]
  exact part_lt_length s p sound

/-- R47: STOP and QUIESCE end a step that runs, and else act at once. -/
theorem stop_spec (s : State) (p : Fin 16) (quiesce : Bool) (sound : Sound s) (serves : s.serves 0 = true) :
    let st := s.get Fld.STEP_STATE.STATE p
    let i : Instr := if quiesce then .quiesce p else .stop p
    let fields : List (Fld × Nat × Nat) := [(Fld.STEP_STATE.STATE, p, 0)]
    (st = 1 ∨ st = 2 ∨ st = 5 → s.stepping p = true →
      ∃ t, exec i s = .next t ∧ PartOnly s t p ∧ BitsBut fields s t ∧ t.get Fld.STEP_STATE.STATE p = 2 ∧
        t.part p = { s.part p with stopReq := true, quiesceReq := (s.part p).quiesceReq || quiesce }) ∧
    (st = 1 ∨ st = 2 ∨ st = 5 ∨ (s.part p).startPend = true ∨ (s.part p).resumePend = true →
      (st = 1 ∨ st = 2 ∨ st = 5 → s.stepping p = false) →
      ∃ t, exec i s = .next t ∧ PartOnly s t p ∧ BitsBut fields s t ∧ t.get Fld.STEP_STATE.STATE p = (if quiesce then 4 else 3) ∧
        (t.part p).startPend = false ∧ (t.part p).resumePend = false ∧ (t.part p).phase = .idle) := by
  have wf := csr_wf s sound.2
  have room := part_lt_length s p sound
  have run := exec_stop s p serves quiesce
  refine ⟨fun state stepping => ⟨_, run.trans (congrArg _ (stop_of_stepping s p quiesce state stepping)), partOnly_setPart s p _ _ rfl,
      bitsBut_setPart (bitsBut_set _ _ _ _ _ wf) _ _, get_set_same s _ _ _ _ wf (by decide) (by decide), part_setPart_same _ _ _ room⟩,
    fun h rests => ⟨_, run.trans (congrArg _ (stop_of_waiting s p quiesce h rests)), partOnly_setPart s p _ _ rfl,
      bitsBut_setPart (bitsBut_set _ _ _ _ _ wf) _ _, ?_, ?_⟩⟩
  · have state := get_set_same s Fld.STEP_STATE.STATE (if quiesce then stQuiesced else stStopped) p 0 wf (by decide) (by decide)
    refine state.trans ?_
    cases quiesce <;> rfl
  · rw [State.haltPart, part_setPart_same]
    · exact ⟨rfl, rfl, rfl⟩
    · exact room

/-- R47: a QUIESCE of a partition that is STOPPED. -/
theorem quiesce_spec (s : State) (p : Fin 16) (sound : Sound s) (serves : s.serves 0 = true) (stopped : s.get Fld.STEP_STATE.STATE p = 3)
    (start : (s.part p).startPend = false) (resume : (s.part p).resumePend = false) :
    ∃ t, exec (.quiesce p) s = .next t ∧ OnlyRegs [(Fld.STEP_STATE.STATE, p, 0)] s t ∧ t.get Fld.STEP_STATE.STATE p = 4 := by
  have wf := csr_wf s sound.2
  exact ⟨_, (exec_stop s p serves true).trans (congrArg _ (stop_of_stopped s p stopped start resume)), onlyRegs_set _ _ _ _ _ wf,
    get_set_same _ _ _ _ _ wf (by decide) (by decide)⟩

/-- R45: RESUME of a stopped partition. -/
theorem resume_spec (s : State) (p : Fin 16) (sound : Sound s) (serves : s.serves 0 = true)
    (state : s.get Fld.STEP_STATE.STATE p = 3 ∨ s.get Fld.STEP_STATE.STATE p = 4) (alm : (s.part p).alm ≠ none) (bars : s.wornBars p = false) :
    ∃ t, exec (.resume p) s = .next t ∧ PartOnly s t p ∧ (t.part p).resumePend = true ∧ (t.part p).stopReq = false ∧
      BitsBut [(Fld.STEP_STATE.RETRY_COUNT, p, 0), (Fld.STEP_STATE.RETRY_EXHAUSTED, p, 0)] s t ∧
      t.get Fld.STEP_STATE.RETRY_COUNT p = 0 ∧ t.get Fld.STEP_STATE.RETRY_EXHAUSTED p = 0 := by
  have wf := csr_wf s sound.2
  have wf' := smWf_csr_set s Fld.STEP_STATE.RETRY_COUNT 0 p 0 wf
  have bits : BitsBut [(Fld.STEP_STATE.RETRY_COUNT, p, 0), (Fld.STEP_STATE.RETRY_EXHAUSTED, p, 0)] s
      ((s.set Fld.STEP_STATE.RETRY_COUNT 0 p).set Fld.STEP_STATE.RETRY_EXHAUSTED 0 p) :=
    bitsBut_set_of (bitsBut_set_of (bitsBut_refl _ _) _ _ _ _ wf (within_of_mem (by simp))) _ _ _ _ wf' (within_of_mem (by simp))
  have count : ((s.set Fld.STEP_STATE.RETRY_COUNT 0 p).set Fld.STEP_STATE.RETRY_EXHAUSTED 0 p).get Fld.STEP_STATE.RETRY_COUNT p = 0 := by
    rw [get_set_apart _ _ _ _ _ _ wf' (by decide) (by decide) (by decide) (by decide), get_set_same _ _ _ _ _ wf (by decide) (by decide)]
    rfl
  have exhausted := get_set_same (s.set Fld.STEP_STATE.RETRY_COUNT 0 p) Fld.STEP_STATE.RETRY_EXHAUSTED 0 p 0 wf' (by decide) (by decide)
  have part := part_setPart_same ((s.set Fld.STEP_STATE.RETRY_COUNT 0 p).set Fld.STEP_STATE.RETRY_EXHAUSTED 0 p) p
    { s.part p with resumePend := true, stoppedFor := [], stopAtBoundary := false, stopReq := false, quiesceReq := false, lastColl := false
                    retryLate := false } (part_lt_length s p sound)
  refine ⟨_, (exec_resume s p serves).trans (congrArg _ (resumePart_of_stopped s p state alm bars)), partOnly_setPart s p _ _ rfl, ?_, ?_,
    bitsBut_setPart bits _ _, count, exhausted⟩
  · rw [part]
  · rw [part]

/-- Settles O38, command by command: what each does to a partition in the given state is one write of a field or two and one new step
record. -/
theorem stepControl : Obligations.StepControl :=
  ⟨stepCfgWrite_spec, start_spec, stop_spec, quiesce_spec, resume_spec⟩

end Sys2Proof.Machine
end

section
/-! SUPPORT. The tick registers and PTP (O36). -/
namespace Sys2Proof.Machine
open Sys2Proof Sys2Proof.Spec

theorem mem_upFrom {a n x : Nat} : x ∈ upFrom a n ↔ a ≤ x ∧ x < a + n := by
  induction n generalizing a with
  | zero => exact ⟨nofun, fun h => absurd h.2 (Nat.not_lt.2 h.1)⟩
  | succ n ih => simp only [upFrom, List.mem_cons, ih]; omega

section
variable (s : State)

/-- No partition is RUNNING or STOPPING, as the model asks it. -/
theorem noneRunning_iff : s.noneRunning = true ↔ NoneSteps s := by
  simp only [State.noneRunning, List.all_eq_true, mem_upFrom, Bool.and_eq_true, bne_iff_ne, State.pstate, stRunning, stStopping]
  exact ⟨fun h p hp => h p ⟨Nat.zero_le _, by omega⟩, fun h p hp => h p (by omega)⟩

theorem maySetCount_iff : s.maySetCount = true ↔ NoneSteps s ∨ (s.get Fld.LEAP_CTRL.STATE = 2 ∧ s.tick.leapNs = 0) := by
  rw [State.maySetCount, Bool.or_eq_true, noneRunning_iff, Bool.and_eq_true, State.inLeap, beq_iff_eq, beq_iff_eq]

/-! ### BTICK_NUM set anew, and TICK_COUNT -/

theorem sameRegs_replan : SameRegs IsLow s s.replan :=
  .foldl .refl fun t d => .set (t := t.setDpower d { t.dpower d with plan := [] }) (.of_csr rfl) (not_isLow_off (by decide) _ _)

theorem sameContents_replan : SameContents s s.replan := sameContents_refl s

/-- Renumbering sets BTICK_NUM alone of the time registers. -/
theorem sameRegs_renumber : SameRegs (fun o => IsLow o ∧ o ≠ Reg.BTICK_NUM.base) s s.renumber :=
  (SameRegs.set (f := Fld.BTICK_NUM.NUM) (i := 0) (j := 0) .refl fun h => h.2 rfl).trans ((sameRegs_replan _).mono fun _ h => h.1)

theorem sameContents_renumber : SameContents s s.renumber := sameContents_refl s

theorem get_btick_renumber (h : smWf 0#64 s.csr = true) : s.renumber.get Fld.BTICK_NUM.NUM = s.now / s.periodNs % 2 ^ 48 :=
  ((sameRegs_replan _).get (by decide)).trans (get_set_same s Fld.BTICK_NUM.NUM (s.now / s.periodNs) 0 0 h (by decide) (by decide))

theorem sameRegs_setCount (v : Nat) :
    SameRegs (fun o => IsLow o ∧ o ≠ Reg.BTICK_NUM.base ∧ o ≠ Reg.TICK_COUNT.base) s (s.setCount v) :=
  (SameRegs.set (t := s.retime v) (f := Fld.TICK_COUNT.COUNT) (i := 0) (j := 0) (.of_csr rfl) fun h => h.2.2 rfl).trans
    ((sameRegs_renumber _).mono fun _ h => ⟨h.1, h.2.1⟩)

theorem sameContents_setCount (v : Nat) : SameContents s (s.setCount v) := sameContents_refl s

theorem get_count_setCount (v : Nat) (h : smWf 0#64 s.csr = true) : (s.setCount v).get Fld.TICK_COUNT.COUNT = v % 2 ^ 64 :=
  ((sameRegs_renumber _).get (by decide)).trans
    (get_set_same (s.retime v) Fld.TICK_COUNT.COUNT v 0 0 h (by decide) (by decide))

/-- The quotient of a 64-bit count and a period of 100 µs or more has 48 bits. -/
theorem btick_fits {n us : Nat} (hn : n < 2 ^ 64) (hus : 100 ≤ us) : n / (us * 1000) % 2 ^ 48 = n / (us * 1000) := by
  refine Nat.mod_eq_of_lt ?_
  rw [Nat.div_lt_iff_lt_mul (by omega)]
  omega

theorem get_btick_setCount (v : Nat) (h : smWf 0#64 s.csr = true) (hv : v < 2 ^ 64) (us : 100 ≤ s.get Fld.TICK_PERIOD.PERIOD_US) :
    (s.setCount v).get Fld.BTICK_NUM.NUM = v / (s.get Fld.TICK_PERIOD.PERIOD_US * 1000) := by
  have count : ((s.retime v).set Fld.TICK_COUNT.COUNT v).now = v :=
    (get_set_same (s.retime v) Fld.TICK_COUNT.COUNT v 0 0 h (by decide) (by decide)).trans (Nat.mod_eq_of_lt hv)
  have period : ((s.retime v).set Fld.TICK_COUNT.COUNT v).periodNs = s.get Fld.TICK_PERIOD.PERIOD_US * 1000 :=
    congrArg (· * 1000) (get_set_of_base_ne (s.retime v) Fld.TICK_COUNT.COUNT Fld.TICK_PERIOD.PERIOD_US v 0 0 (by decide) (by decide))
  refine (get_btick_renumber _ (smWf_csr_set (s.retime v) _ _ _ _ h)).trans ?_
  rw [count, period, btick_fits hv us]

/-! ### Writes of TICK_PERIOD -/

theorem tickPeriodPut_of_bad (us : Nat) (h : us < 100 ∨ 100000 < us) : s.tickPeriodPut us = s.set Fld.TICK_ERR.PERIOD_BAD 1 := by
  simp [State.tickPeriodPut, h]

theorem tickPeriodPut_of_none (us : Nat) (lo : 100 ≤ us) (hi : us ≤ 100000) (rests : NoneSteps s) :
    s.tickPeriodPut us = ({ s with tick := { s.tick with pendPeriod := none } } : State).takePeriod us := by
  have free := (noneRunning_iff s).2 rests
  simp [State.tickPeriodPut, free, Nat.not_lt.2 lo, Nat.not_lt.2 hi]

theorem tickPeriodPut_of_some (us : Nat) (lo : 100 ≤ us) (hi : us ≤ 100000) (steps : ¬ NoneSteps s) :
    s.tickPeriodPut us = { s with tick := { s.tick with pendPeriod := some us } } := by
  have busy : ¬ s.noneRunning = true := fun h => steps ((noneRunning_iff s).1 h)
  simp [State.tickPeriodPut, busy, Nat.not_lt.2 lo, Nat.not_lt.2 hi]

/-- A period taken: the registers of time and what programs see. -/
theorem takePeriod_regs (us : Nat) (h : smWf 0#64 s.csr = true) (lo : 100 ≤ us) (hi : us ≤ 100000) :
    (s.takePeriod us).get Fld.TICK_PERIOD.PERIOD_US = us ∧ (s.takePeriod us).get Fld.TICK_COUNT.COUNT = s.get Fld.TICK_COUNT.COUNT ∧
      (s.takePeriod us).get Fld.BTICK_NUM.NUM = s.get Fld.TICK_COUNT.COUNT / (us * 1000) := by
  have stands := sameRegs_renumber (s.set Fld.TICK_PERIOD.PERIOD_US us)
  have period : (s.set Fld.TICK_PERIOD.PERIOD_US us).get Fld.TICK_PERIOD.PERIOD_US = us := by
    rw [get_set_same _ _ _ _ _ h (by decide) (by decide)]
    exact Nat.mod_eq_of_lt (Nat.lt_of_le_of_lt hi (by decide))
  have count : (s.set Fld.TICK_PERIOD.PERIOD_US us).get Fld.TICK_COUNT.COUNT = s.get Fld.TICK_COUNT.COUNT :=
    get_set_of_base_ne _ _ _ _ _ _ (by decide) (by decide)
  refine ⟨(stands.get (by decide)).trans period, (stands.get (by decide)).trans count, ?_⟩
  refine (get_btick_renumber _ (smWf_csr_set s _ _ _ _ h)).trans ?_
  rw [State.now, State.periodNs, period, count, btick_fits (get_lt s Fld.TICK_COUNT.COUNT 0 0) lo]

theorem sameContents_takePeriod (us : Nat) : SameContents s (s.takePeriod us) := sameContents_refl s

end

theorem exec_tickPeriodWrite (s : State) (v : Word) : exec (.tickPeriodWrite v) s = .next (s.tickPeriodPut (bits v.toNat 16 0)) := rfl

theorem exec_tickCountWrite (s : State) (v : Word) :
    exec (.tickCountWrite v) s = if s.maySetCount then ok (s.setCount v.toNat) else ok (s.set Fld.TICK_ERR.COUNT_REFUSED 1) := rfl

/-- R30–R32: TICK_PERIOD and TICK_COUNT written. -/
theorem tickWrites : TickWrites := by
  refine ⟨fun s v sound => ⟨fun bad => ?_, fun lo hi rests => ?_, fun lo hi steps => ?_⟩, fun s v sound us => ⟨fun may => ?_, fun may => ?_⟩⟩
  all_goals have wf := csr_wf s sound.2
  · rw [exec_tickPeriodWrite, tickPeriodPut_of_bad s _ bad]
    exact ⟨_, rfl, onlyRegs_set _ _ _ _ _ wf, get_set_same _ _ _ _ _ wf (by decide) (by decide)⟩
  · rw [exec_tickPeriodWrite, tickPeriodPut_of_none s _ lo hi rests]
    generalize hu : ({ s with tick := { s.tick with pendPeriod := none } } : State) = u
    have ucsr : u.csr = s.csr := by rw [← hu]
    have same : SameContents s u := by rw [← hu]; exact sameContents_refl s
    obtain ⟨period, count, btick⟩ := takePeriod_regs u _ (ucsr ▸ wf) lo hi
    rw [get_of_csr ucsr] at count btick
    exact ⟨_, rfl, period, count, btick, sameContents_trans same (sameContents_takePeriod u _)⟩
  · rw [exec_tickPeriodWrite, tickPeriodPut_of_some s _ lo hi steps]
  · rw [exec_tickCountWrite, if_pos ((maySetCount_iff s).2 may)]
    exact ⟨_, rfl, (get_count_setCount s _ wf).trans (Nat.mod_eq_of_lt v.isLt), get_btick_setCount s _ wf v.isLt us,
      (sameRegs_setCount s _).get (by decide), sameContents_setCount s _⟩
  · rw [exec_tickCountWrite, if_neg fun h => may ((maySetCount_iff s).1 h)]
    exact ⟨_, rfl, onlyRegs_set _ _ _ _ _ wf, get_set_same _ _ _ _ _ wf (by decide) (by decide)⟩

/-! ### PTP -/

theorem ofSigned_eq (w : Nat) (x : Int) : ofSigned w x = (BitVec.ofInt w x).toNat := by
  rw [BitVec.toNat_ofInt, ofSigned]

section
variable (s : State) (off : Int)

/-- What a sync message leaves but for TICK_SYNC and the count of good ones. -/
theorem syncState_frame : s.syncState off = { s with csr := (s.syncState off).csr, tick := (s.syncState off).tick } := rfl

theorem sameRegs_syncState : SameRegs (· ≠ Reg.TICK_SYNC.base) s (s.syncState off) :=
  .set (.set (.of_csr rfl) fun h => h rfl) fun h => h rfl

/-- TICK_SYNC after a sync message (R56). -/
theorem syncState_sync (h : smWf 0#64 s.csr = true) :
    (s.syncState off).get Fld.TICK_SYNC.STATE =
        (if 16 ≤ (if off.natAbs ≤ 1000 then s.tick.goodSyncs + 1 else 0) then 2 else 1) ∧
      (s.syncState off).get Fld.TICK_SYNC.OFFSET_NS = (BitVec.ofInt 32 off).toNat := by
  unfold State.syncState
  extract_lets n _ t u
  have hu : smWf 0#64 u.csr = true := smWf_csr_set t _ _ _ _ h
  constructor
  · rw [get_set_apart u Fld.TICK_SYNC.OFFSET_NS Fld.TICK_SYNC.STATE _ _ _ hu (by decide) (by decide) rfl (by decide)]
    refine (get_set_same t _ _ _ _ h (by decide) (by decide)).trans ?_
    by_cases good : 16 ≤ n
    · rw [if_pos good, if_pos good]; rfl
    · rw [if_neg good, if_neg good]; rfl
  · rw [get_set_same _ _ _ _ _ hu (by decide) (by decide), ofSigned_eq]
    exact Nat.mod_eq_of_lt (BitVec.isLt _)

/-- A large offset stepped, where a step is allowed (R32). -/
theorem discipline_of_step (big : 1000 * s.get Fld.TICK_DISC.STEP_THRESH_US < off.natAbs) (may : s.maySetCount = true) :
    s.discipline off = ({ s with tick := { s.tick with slew := 0, slewFrac := 0, pendStep := none } } : State).setCount
      (ofSigned 64 ((s.now : Int) + off)) := by
  simp [State.discipline, big, may]

/-- Any other offset is slewed (R32). -/
theorem discipline_of_slew (h : ¬ (1000 * s.get Fld.TICK_DISC.STEP_THRESH_US < off.natAbs ∧ s.maySetCount = true)) :
    ∃ step, s.discipline off = { s with tick := { s.tick with slew := off, pendStep := step } } := by
  refine ⟨_, if_neg ?_⟩
  rwa [Bool.and_eq_true, decide_eq_true_eq]

theorem exec_ptpMessage (port : Fin 4) (up0 : s.isUp 0 = true) (up : s.isUp (port.val / 2) = true) (en : s.get Fld.TICK_DISC.DISC_EN = 1)
    (named : s.get Fld.TICK_DISC.PORT = port) (follower : s.get Fld.PTP_CFG.ROLE = 0) (link : (s.get Fld.PORT_STAT.UP port).testBit 0 = true) :
    exec (.ptpMessage port off) s = .next ((s.syncState off).discipline off) := by
  refine if_pos ?_
  simp [up0, dieOfPort, up, State.is, en, named, follower, State.linkUp, bit_eq_testBit, link]

end

/-- The condition of a step, and what it asks of TICK_COUNT, after a sync message. -/
theorem syncState_asks (s : State) (off : Int) :
    (s.syncState off).get Fld.TICK_DISC.STEP_THRESH_US = s.get Fld.TICK_DISC.STEP_THRESH_US ∧ (s.syncState off).now = s.now ∧
      ((s.syncState off).maySetCount = true ↔ NoneSteps s ∨ (s.get Fld.LEAP_CTRL.STATE = 2 ∧ s.tick.leapNs = 0)) := by
  have stands := sameRegs_syncState s off
  have states (p : Nat) : (s.syncState off).get Fld.STEP_STATE.STATE p = s.get Fld.STEP_STATE.STATE p :=
    stands.get ((Nat.lt_of_lt_of_le (by decide) (base_le_off Reg.STEP_STATE p 0)).ne')
  refine ⟨stands.get (by decide), stands.get (by decide), ?_⟩
  rw [maySetCount_iff]
  simp only [NoneSteps, states]
  rw [stands.get (by decide)]
  rfl

/-- R32, R56: a sync message of the disciplined port. -/
theorem ptpMessage_spec (s : State) (port : Fin 4) (off : Int) (sound : Sound s) (up0 : s.isUp 0 = true)
    (up : s.isUp (port.val / 2) = true) (en : s.get Fld.TICK_DISC.DISC_EN = 1) (named : s.get Fld.TICK_DISC.PORT = port)
    (follower : s.get Fld.PTP_CFG.ROLE = 0) (link : (s.get Fld.PORT_STAT.UP port).testBit 0 = true)
    (us : 100 ≤ s.get Fld.TICK_PERIOD.PERIOD_US) :
    let good := if off.natAbs ≤ 1000 then s.tick.goodSyncs + 1 else 0
    let big := 1000 * s.get Fld.TICK_DISC.STEP_THRESH_US < off.natAbs
    let may := NoneSteps s ∨ (s.get Fld.LEAP_CTRL.STATE = 2 ∧ s.tick.leapNs = 0)
    ∃ t, exec (.ptpMessage port off) s = .next t ∧ SameContents s t ∧ t.get Fld.TICK_SYNC.STATE = (if 16 ≤ good then 2 else 1) ∧
      t.get Fld.TICK_SYNC.OFFSET_NS = (BitVec.ofInt 32 off).toNat ∧ t.tick.lostAt = none ∧
      (big → may → t.get Fld.TICK_COUNT.COUNT = (BitVec.ofInt 64 ((s.get Fld.TICK_COUNT.COUNT : Int) + off)).toNat ∧ t.tick.slew = 0 ∧
        t.get Fld.BTICK_NUM.NUM = t.get Fld.TICK_COUNT.COUNT / (s.get Fld.TICK_PERIOD.PERIOD_US * 1000)) ∧
      (¬ (big ∧ may) → t.get Fld.TICK_COUNT.COUNT = s.get Fld.TICK_COUNT.COUNT ∧ t.tick.slew = off ∧
        OnlyRegs [(⟨Reg.TICK_SYNC, 63, 0⟩, 0, 0)] { s with tick := t.tick } t) := by
  intro good big may
  have wf := csr_wf s sound.2
  have wf' : smWf 0#64 (s.syncState off).csr = true := smWf_csr_set _ _ _ _ _ (smWf_csr_set { s with tick := _ } _ _ _ _ wf)
  obtain ⟨state, offset⟩ := syncState_sync s off wf
  obtain ⟨thresh, now, mayIff⟩ := syncState_asks s off
  have period : (s.syncState off).get Fld.TICK_PERIOD.PERIOD_US = s.get Fld.TICK_PERIOD.PERIOD_US := (sameRegs_syncState s off).get (by decide)
  refine ⟨_, exec_ptpMessage s off port up0 up en named follower link, ?_⟩
  by_cases step : big ∧ may
  · rw [discipline_of_step _ _ (by rw [thresh]; exact step.1) (mayIff.2 step.2)]
    generalize hu : ({ s.syncState off with tick := { (s.syncState off).tick with slew := 0, slewFrac := 0, pendStep := none } } : State) = u
    have ucsr : u.csr = (s.syncState off).csr := by rw [← hu]
    have uwf : smWf 0#64 u.csr = true := ucsr ▸ wf'
    have stands := sameRegs_setCount u (ofSigned 64 (((s.syncState off).now : Int) + off))
    have small : ofSigned 64 (((s.syncState off).now : Int) + off) < 2 ^ 64 := by rw [ofSigned_eq]; exact BitVec.isLt _
    have count := (get_count_setCount u _ uwf).trans (Nat.mod_eq_of_lt small)
    have uus : u.get Fld.TICK_PERIOD.PERIOD_US = s.get Fld.TICK_PERIOD.PERIOD_US := (get_of_csr ucsr _ _ _).trans period
    refine ⟨?_, (stands.get (by decide)).trans ((get_of_csr ucsr _ _ _).trans state),
      (stands.get (by decide)).trans ((get_of_csr ucsr _ _ _).trans offset), ?_, fun _ _ => ⟨?_, ?_, ?_⟩, fun h => absurd step h⟩
    · subst hu; exact sameContents_refl s
    · subst hu; rfl
    · rw [count, ofSigned_eq, now]; rfl
    · subst hu; rfl
    · rw [count, get_btick_setCount u _ uwf small (uus ▸ us), uus]
  · obtain ⟨pend, e⟩ := discipline_of_slew (s.syncState off) off (by rw [thresh, mayIff]; exact step)
    rw [e]
    refine ⟨sameContents_refl s, state, offset, rfl, fun b m => absurd ⟨b, m⟩ step, fun _ => ⟨now, rfl, rfl, ?_⟩⟩
    exact bitsBut_of_csr (s := { s with tick := (s.syncState off).tick }) (t := s.syncState off)
      (bitsBut_set_of (bitsBut_set_of (bitsBut_refl _ _) _ _ _ _ wf (fun e he => ⟨_, .head _, by
        rw [List.mem_singleton.1 he]; exact ⟨rfl, by decide, by decide⟩⟩)) _ _ _ _ (smWf_csr_set _ _ _ _ _ wf) (fun e he => ⟨_, .head _, by
        rw [List.mem_singleton.1 he]; exact ⟨rfl, by decide, by decide⟩⟩)) rfl rfl

/-- R56: PTP lost. -/
theorem ptpLoss_spec (s : State) (sound : Sound s) (locked : s.get Fld.TICK_SYNC.STATE = 1 ∨ s.get Fld.TICK_SYNC.STATE = 2) :
    ∃ t, exec .ptpLoss s = .next t ∧ t.get Fld.TICK_SYNC.STATE = 3 ∧ t.tick.lostAt = some (s.get Fld.TICK_COUNT.COUNT) ∧
      OnlyRegs [(Fld.TICK_SYNC.STATE, 0, 0)] { s with tick := t.tick } t := by
  have wf := csr_wf s sound.2
  have lose : s.losePtp = ({ s with tick := { s.tick with goodSyncs := 0, lostAt := some s.now } } : State).set Fld.TICK_SYNC.STATE
      syHoldover := by
    refine if_pos ?_
    simpa [syLocked, syAcquiring, or_comm] using locked
  refine ⟨s.losePtp, rfl, ?_⟩
  rw [lose]
  exact ⟨get_set_same _ _ _ _ _ wf (by decide) (by decide), rfl, rfl,
    bitsBut_set { s with tick := { s.tick with goodSyncs := 0, lostAt := some s.now } } _ _ _ _ wf⟩

/-- R56: two seconds after the loss. -/
theorem holdoverExpiry_spec (s : State) (at_ : Nat) (sound : Sound s) (hold : s.get Fld.TICK_SYNC.STATE = 3)
    (lost : s.tick.lostAt = some at_) (due : at_ + 2000000000 ≤ s.get Fld.TICK_COUNT.COUNT) :
    ∃ t, exec .holdoverExpiry s = .next t ∧ t.get Fld.TICK_SYNC.STATE = 0 ∧ t.get Fld.TICK_ERR.SYNC_LOST = 1 ∧ t.tick.lostAt = none ∧
      OnlyRegs [(Fld.TICK_SYNC.STATE, 0, 0), (Fld.TICK_ERR.SYNC_LOST, 0, 0)] { s with tick := t.tick } t := by
  have wf := csr_wf s sound.2
  generalize hu : ({ s with tick := { s.tick with lostAt := none } } : State) = u
  have uwf : smWf 0#64 u.csr = true := by rw [← hu]; exact wf
  have run : exec .holdoverExpiry s = .next ((u.set Fld.TICK_SYNC.STATE syFree).set Fld.TICK_ERR.SYNC_LOST 1) := by
    change execHoldoverExpiry s = _
    have early : at_ + 2000000000 ≤ s.now := due
    simp only [execHoldoverExpiry, lost, hold, State.dueAt, early, if_true, hu]
    rfl
  have wf' := smWf_csr_set u Fld.TICK_SYNC.STATE syFree 0 0 uwf
  refine ⟨_, run, ?_, get_set_same _ _ _ _ _ wf' (by decide) (by decide), ?_, ?_⟩
  · rw [get_set_of_base_ne _ _ _ _ _ _ (by decide) (by decide), get_set_same _ _ _ _ _ uwf (by decide) (by decide)]
    rfl
  · subst hu; rfl
  · have bits : BitsBut [(Fld.TICK_SYNC.STATE, 0, 0), (Fld.TICK_ERR.SYNC_LOST, 0, 0)] u
        ((u.set Fld.TICK_SYNC.STATE syFree).set Fld.TICK_ERR.SYNC_LOST 1) :=
      bitsBut_set_of (bitsBut_set_of (bitsBut_refl _ _) _ _ _ _ uwf (within_of_mem (by simp))) _ _ _ _ wf' (within_of_mem (by simp))
    subst hu
    exact ⟨rfl, bits⟩

/-- R417: a Sync sent by a master port. -/
theorem ptpSyncSend_spec (s : State) (port : Fin 4) (up0 : s.isUp 0 = true) (up : s.isUp (port.val / 2) = true)
    (master : s.get Fld.PTP_CFG.ROLE = 1) (named : (s.get Fld.PTP_CFG.MASTER_PORTS).testBit port = true)
    (link : (s.get Fld.PORT_STAT.UP port).testBit 0 = true) :
    let now := s.get Fld.TICK_COUNT.COUNT
    nth 0 s.net.syncAt port ≤ now →
    exec (.ptpSyncSend port) s = .next { s with
      sent := s.sent ++ [.sync port now]
      net := { s.net with syncAt := setNth s.net.syncAt port (now + 1000000000 / 2 ^ s.get Fld.PTP_CFG.SYNC_LOG2) } } := by
  intro now due
  have early : nth 0 s.net.syncAt port ≤ s.now := due
  refine (if_pos ?_).trans (if_pos early)
  simp [up0, dieOfPort, up, State.is, master, named, State.linkUp, bit_eq_testBit, link]

/-- R32, R56, R416, R417: PTP. -/
theorem ptpMessages : PtpMessages := ⟨ptpMessage_spec, ptpLoss_spec, holdoverExpiry_spec, ptpSyncSend_spec⟩

/-- Settles O36, by what each command writes: TICK_COUNT and TICK_PERIOD through the renumbering of BTICK_NUM, a sync message through
TICK_SYNC first and its correction then. -/
theorem tickWritesAndPtp : Obligations.TickWritesAndPtp := ⟨tickWrites, ptpMessages⟩

end Sys2Proof.Machine
end

section
/-! SUPPORT. Leap ticks scheduled and cancelled (O37). -/
namespace Sys2Proof.Machine
open Sys2Proof Sys2Proof.Spec

/-- The fields of LEAP_CTRL and TICK_ERR. -/
def leapFields : List (Fld × Nat × Nat) := [(⟨Reg.LEAP_CTRL, 63, 0⟩, 0, 0), (⟨Reg.TICK_ERR, 63, 0⟩, 0, 0)]

/-- A field of LEAP_CTRL or of TICK_ERR. -/
theorem within_leapFields {f : Fld} (hr : f.reg = Reg.LEAP_CTRL ∨ f.reg = Reg.TICK_ERR) (hh : f.hi ≤ 63) : Within [(f, 0, 0)] leapFields := by
  intro e he
  rw [List.mem_singleton.1 he]
  rcases hr with hr | hr
  · exact ⟨_, .head _, by rw [hr], Nat.zero_le _, hh⟩
  · exact ⟨_, .tail _ (.head _), by rw [hr], Nat.zero_le _, hh⟩

/-- A register read after one of its fields is set. -/
theorem word_set_same (s : State) (f : Fld) (v i j : Nat) (h : smWf 0#64 s.csr = true) (hl : f.lo ≤ f.hi) (hh : f.hi < 64) :
    (s.set f v i j).word f.reg i j = setBits (s.word f.reg i j) f.hi f.lo v :=
  word_setWord_same _ _ _ _ _ h (setBits_lt _ _ _ _ (word_lt _ _ _ _) hh hl)

theorem word_set_of_base_ne (s : State) (f : Fld) (r : Reg) (v i j : Nat) (hd : r.dims = f.reg.dims) (hb : r.base ≠ f.reg.base) :
    (s.set f v i j).word r i j = s.word r i j :=
  word_setWord_ne _ _ _ _ _ _ _ _ (off_ne_of_base_ne hd hb)

/-- The three flags of TICK_ERR that arming and cancelling set. -/
def LeapErrs (t : State) (late busy refused : Nat) : Prop :=
  t.get Fld.TICK_ERR.LEAP_LATE = late ∧ t.get Fld.TICK_ERR.LEAP_BUSY = busy ∧ t.get Fld.TICK_ERR.CANCEL_REFUSED = refused

theorem leapErrs_of_word {t : State} {w : Nat} (h : t.word Reg.TICK_ERR 0 0 = w) : LeapErrs t (bits w 2 2) (bits w 3 3) (bits w 7 7) := by
  subst h
  exact ⟨rfl, rfl, rfl⟩

/-- What arming and cancelling change: the fields of two registers, and neither LEN nor DEFER_MAX. -/
structure LeapStep (s t : State) : Prop where
  frame : t = { s with csr := t.csr }
  bits : BitsBut leapFields s t
  len : t.get Fld.LEAP_CTRL.LEN = s.get Fld.LEAP_CTRL.LEN
  deferMax : t.get Fld.LEAP_CTRL.DEFER_MAX = s.get Fld.LEAP_CTRL.DEFER_MAX
  csr : smWf 0#64 t.csr = true

section
variable {s t : State}

theorem LeapStep.refl (h : smWf 0#64 s.csr = true) : LeapStep s s := ⟨rfl, bitsBut_refl _ _, rfl, rfl, h⟩

/-- A flag of TICK_ERR set. -/
theorem LeapStep.setErr (h : LeapStep s t) {f : Fld} (v : Nat) (hr : f.reg = Reg.TICK_ERR) (hh : f.hi ≤ 63) : LeapStep s (t.set f v) where
  frame := by rw [h.frame]; rfl
  bits := bitsBut_set_of h.bits _ _ _ _ h.csr (within_leapFields (.inr hr) hh)
  len := (get_set_of_base_ne _ _ _ _ _ _ (by rw [hr]; rfl) (by rw [hr]; decide)).trans h.len
  deferMax := (get_set_of_base_ne _ _ _ _ _ _ (by rw [hr]; rfl) (by rw [hr]; decide)).trans h.deferMax
  csr := smWf_csr_set _ _ _ _ _ h.csr

/-- A field of LEAP_CTRL between LEN and DEFER_MAX set. -/
theorem LeapStep.setCtrl (h : LeapStep s t) {f : Fld} (v : Nat) (hr : f.reg = Reg.LEAP_CTRL) (hl : f.lo ≤ f.hi) (lo : 6 < f.lo) (hi : f.hi < 16) :
    LeapStep s (t.set f v) where
  frame := by rw [h.frame]; rfl
  bits := bitsBut_set_of h.bits _ _ _ _ h.csr (within_leapFields (.inl hr) (by omega))
  len := (get_set_apart _ _ _ _ _ _ h.csr hl (by omega) hr.symm (.inr lo)).trans h.len
  deferMax := (get_set_apart _ _ _ _ _ _ h.csr hl (by omega) hr.symm (.inl hi)).trans h.deferMax
  csr := smWf_csr_set _ _ _ _ _ h.csr

end

/-! ### Arming -/

section
variable (s : State)

/-- Whether LEAP_AT comes too soon to be armed (R50). -/
abbrev ArmLate : Prop := s.get Fld.LEAP_AT.AT < s.get Fld.BTICK_NUM.NUM + s.lmax + 1

theorem leapArm_of_late_idle (claim : s.claimWaits = false) (late : ArmLate s) (idle : s.get Fld.LEAP_CTRL.STATE = 0) :
    s.leapArm = s.set Fld.TICK_ERR.LEAP_LATE 1 := by
  simp [State.leapArm, claim, show s.get Fld.LEAP_AT.AT < s.btick + s.lmax + 1 from late, idle, leapNone]

theorem leapArm_of_late_busy (claim : s.claimWaits = false) (late : ArmLate s) (busy : s.get Fld.LEAP_CTRL.STATE ≠ 0) :
    s.leapArm = (s.set Fld.TICK_ERR.LEAP_LATE 1).set Fld.TICK_ERR.LEAP_BUSY 1 := by
  simp [State.leapArm, claim, show s.get Fld.LEAP_AT.AT < s.btick + s.lmax + 1 from late, busy, leapNone]

theorem leapArm_of_busy (claim : s.claimWaits = false) (early : ¬ ArmLate s) (busy : s.get Fld.LEAP_CTRL.STATE ≠ 0) :
    s.leapArm = s.set Fld.TICK_ERR.LEAP_BUSY 1 := by
  simp [State.leapArm, claim, show ¬ s.get Fld.LEAP_AT.AT < s.btick + s.lmax + 1 from early, busy, leapNone]

theorem leapArm_of_early (claim : s.claimWaits = false) (early : ¬ ArmLate s) (idle : s.get Fld.LEAP_CTRL.STATE = 0) :
    s.leapArm = (s.set Fld.LEAP_CTRL.STATE leapScheduled).set Fld.LEAP_CTRL.ARM 1 := by
  have stands : ((s.set Fld.LEAP_CTRL.STATE leapScheduled).set Fld.LEAP_CTRL.ARM 1).claimWaits = false := by
    rw [← claim]
    simp only [State.claimWaits, State.is, get_set_of_base_ne _ _ _ _ _ _ (show Fld.LEAP_CLAIM.PENDING.reg.dims = Fld.LEAP_CTRL.ARM.reg.dims from rfl)
      (by decide), get_set_of_base_ne _ _ _ _ _ _ (show Fld.LEAP_CLAIM.PENDING.reg.dims = Fld.LEAP_CTRL.STATE.reg.dims from rfl)
      (by decide), set_tick]
  simp [State.leapArm, claim, show ¬ s.get Fld.LEAP_AT.AT < s.btick + s.lmax + 1 from early, idle, leapNone, stands]

/-- R50: ARM with no claim waiting. -/
theorem leapArm_spec (wf : smWf 0#64 s.csr = true) (claim : s.claimWaits = false) (errs : s.word Reg.TICK_ERR 0 0 = 0) :
    LeapStep s s.leapArm ∧
      LeapErrs s.leapArm (if ArmLate s then 1 else 0) (if s.get Fld.LEAP_CTRL.STATE = 0 then 0 else 1) 0 ∧
      s.leapArm.get Fld.LEAP_CTRL.STATE = (if ¬ ArmLate s ∧ s.get Fld.LEAP_CTRL.STATE = 0 then 1 else s.get Fld.LEAP_CTRL.STATE) := by
  have late1 := (word_set_same s Fld.TICK_ERR.LEAP_LATE 1 0 0 wf (by decide) (by decide)).trans (congrArg (setBits · 2 2 1) errs)
  have lateWf := smWf_csr_set s Fld.TICK_ERR.LEAP_LATE 1 0 0 wf
  have late2 := (word_set_same (s.set Fld.TICK_ERR.LEAP_LATE 1) Fld.TICK_ERR.LEAP_BUSY 1 0 0 lateWf (by decide) (by decide)).trans
    (congrArg (setBits · 3 3 1) late1)
  by_cases late : ArmLate s <;> by_cases idle : s.get Fld.LEAP_CTRL.STATE = 0
  · rw [leapArm_of_late_idle s claim late idle, if_pos late, if_pos idle, if_neg fun h => h.1 late]
    exact ⟨(LeapStep.refl wf).setErr 1 rfl (by decide), leapErrs_of_word late1, get_set_of_base_ne _ _ _ _ _ _ (by decide) (by decide)⟩
  · rw [leapArm_of_late_busy s claim late idle, if_pos late, if_neg idle, if_neg fun h => h.1 late]
    refine ⟨((LeapStep.refl wf).setErr 1 rfl (by decide)).setErr 1 rfl (by decide), leapErrs_of_word late2, ?_⟩
    rw [get_set_of_base_ne _ _ _ _ _ _ (by decide) (by decide), get_set_of_base_ne _ _ _ _ _ _ (by decide) (by decide)]
  · rw [leapArm_of_early s claim late idle, if_neg late, if_pos idle, if_pos ⟨late, idle⟩]
    have wf' := smWf_csr_set s Fld.LEAP_CTRL.STATE leapScheduled 0 0 wf
    refine ⟨((LeapStep.refl wf).setCtrl _ rfl (by decide) (by decide) (by decide)).setCtrl _ rfl (by decide) (by decide) (by decide),
      leapErrs_of_word (w := 0) ?_, ?_⟩
    · rw [word_set_of_base_ne _ _ _ _ _ _ (by decide) (by decide), word_set_of_base_ne _ _ _ _ _ _ (by decide) (by decide), errs]
    · rw [get_set_apart _ Fld.LEAP_CTRL.ARM Fld.LEAP_CTRL.STATE _ _ _ wf' (by decide) (by decide) rfl (by decide),
        get_set_same _ _ _ _ _ wf (by decide) (by decide)]
      rfl
  · rw [leapArm_of_busy s claim late idle, if_neg late, if_neg idle, if_neg fun h => idle h.2]
    refine ⟨(LeapStep.refl wf).setErr 1 rfl (by decide), leapErrs_of_word
      ((word_set_same s Fld.TICK_ERR.LEAP_BUSY 1 0 0 wf (by decide) (by decide)).trans (congrArg (setBits · 3 3 1) errs)),
      get_set_of_base_ne _ _ _ _ _ _ (by decide) (by decide)⟩

/-! ### Cancelling -/

theorem leapCancel_of_scheduled (scheduled : s.get Fld.LEAP_CTRL.STATE = 1) (free : s.tick.claimed = false) :
    s.leapCancel = (s.set Fld.LEAP_CTRL.STATE leapNone).set Fld.LEAP_CTRL.ARM 0 := by
  simp [State.leapCancel, scheduled, free, leapNone, leapScheduled]

theorem leapCancel_of_none (none : s.get Fld.LEAP_CTRL.STATE = 0) : s.leapCancel = s := by
  simp [State.leapCancel, none, leapNone]

theorem leapCancel_of_refused (some : s.get Fld.LEAP_CTRL.STATE ≠ 0) (h : ¬ (s.get Fld.LEAP_CTRL.STATE = 1 ∧ s.tick.claimed = false)) :
    s.leapCancel = s.set Fld.TICK_ERR.CANCEL_REFUSED 1 := by
  have run : (s.get Fld.LEAP_CTRL.STATE == leapScheduled && !s.tick.claimed) = false := by
    rw [Bool.eq_false_iff, ne_eq, Bool.and_eq_true, beq_iff_eq, Bool.not_eq_true']
    exact h
  have busy : (s.get Fld.LEAP_CTRL.STATE == leapNone) = false := beq_eq_false_iff_ne.2 some
  simp only [State.leapCancel, busy, run]
  rfl

/-- R51: CANCEL. -/
theorem leapCancel_spec (wf : smWf 0#64 s.csr = true) (errs : s.word Reg.TICK_ERR 0 0 = 0) :
    let st := s.get Fld.LEAP_CTRL.STATE
    LeapStep s s.leapCancel ∧
      LeapErrs s.leapCancel 0 0 (if st ≠ 0 ∧ ¬ (st = 1 ∧ s.tick.claimed = false) then 1 else 0) ∧
      s.leapCancel.get Fld.LEAP_CTRL.STATE = (if st = 1 ∧ s.tick.claimed = false then 0 else st) := by
  intro st
  by_cases can : st = 1 ∧ s.tick.claimed = false
  · have wf' := smWf_csr_set s Fld.LEAP_CTRL.STATE leapNone 0 0 wf
    rw [leapCancel_of_scheduled s can.1 can.2, if_neg fun h => h.2 can, if_pos can]
    refine ⟨((LeapStep.refl wf).setCtrl _ rfl (by decide) (by decide) (by decide)).setCtrl _ rfl (by decide) (by decide) (by decide),
      leapErrs_of_word (w := 0) ?_, ?_⟩
    · rw [word_set_of_base_ne _ _ _ _ _ _ (by decide) (by decide), word_set_of_base_ne _ _ _ _ _ _ (by decide) (by decide), errs]
    · rw [get_set_apart _ Fld.LEAP_CTRL.ARM Fld.LEAP_CTRL.STATE _ _ _ wf' (by decide) (by decide) rfl (by decide),
        get_set_same _ _ _ _ _ wf (by decide) (by decide)]
      rfl
  · rw [if_neg can]
    by_cases none : st = 0
    · rw [leapCancel_of_none s none, if_neg fun h => h.1 none]
      exact ⟨.refl wf, leapErrs_of_word errs, rfl⟩
    · rw [leapCancel_of_refused s none can, if_pos ⟨none, can⟩]
      exact ⟨(LeapStep.refl wf).setErr 1 rfl (by decide), leapErrs_of_word
        ((word_set_same s Fld.TICK_ERR.CANCEL_REFUSED 1 0 0 wf (by decide) (by decide)).trans (congrArg (setBits · 7 7 1) errs)),
        get_set_of_base_ne _ _ _ _ _ _ (by decide) (by decide)⟩

/-! ### The fields of a write of LEAP_CTRL that do not act -/

/-- LEN, while no leap tick is scheduled or active, and DEFER_MAX taken from a write. -/
def State.takeLeapFields (s : State) (v : Nat) : State :=
  (if s.get Fld.LEAP_CTRL.STATE = 0 then s.set Fld.LEAP_CTRL.LEN (clamp 1 64 (bits v 6 0)) else s).set Fld.LEAP_CTRL.DEFER_MAX (bits v 31 16)

theorem leapCtrlPut_eq {v : Nat} (hv : v < 2 ^ 64) :
    s.leapCtrlPut v fullMask =
      (fun t : State => if bit v 8 then t.leapArm else t) (if bit v 9 then (s.takeLeapFields v).leapCancel else s.takeLeapFields v) := by
  have whole : v &&& fullMask = v := (Nat.and_two_pow_sub_one_eq_mod v 64).trans (Nat.mod_eq_of_lt hv)
  simp only [State.leapCtrlPut, mergeMask_fullMask _ hv, whole, State.takeLeapFields, leapNone, beq_iff_eq]

/-- What taking those fields leaves. -/
theorem takeLeapFields_spec (v : Nat) (wf : smWf 0#64 s.csr = true) :
    let t := s.takeLeapFields v
    let st := s.get Fld.LEAP_CTRL.STATE
    t = { s with csr := t.csr } ∧ smWf 0#64 t.csr = true ∧ BitsBut leapFields s t ∧ SameRegs (· ≠ Reg.LEAP_CTRL.base) s t ∧
      t.get Fld.LEAP_CTRL.STATE = st ∧ t.get Fld.LEAP_CTRL.DEFER_MAX = bits v 31 16 ∧
      t.get Fld.LEAP_CTRL.LEN = (if st = 0 then Nat.min 64 (Nat.max 1 (bits v 6 0)) else s.get Fld.LEAP_CTRL.LEN) := by
  intro t st
  generalize hu : (if s.get Fld.LEAP_CTRL.STATE = 0 then s.set Fld.LEAP_CTRL.LEN (clamp 1 64 (bits v 6 0)) else s) = u
  have ht : t = u.set Fld.LEAP_CTRL.DEFER_MAX (bits v 31 16) := by rw [← hu]; rfl
  obtain ⟨frame, uwf, ubits, regs, state, len⟩ : u = { s with csr := u.csr } ∧ smWf 0#64 u.csr = true ∧ BitsBut leapFields s u ∧
      SameRegs (· ≠ Reg.LEAP_CTRL.base) s u ∧ u.get Fld.LEAP_CTRL.STATE = st ∧
      u.get Fld.LEAP_CTRL.LEN = (if st = 0 then Nat.min 64 (Nat.max 1 (bits v 6 0)) else s.get Fld.LEAP_CTRL.LEN) := by
    by_cases none : s.get Fld.LEAP_CTRL.STATE = 0
    · rw [if_pos none] at hu
      rw [← hu, if_pos none]
      refine ⟨rfl, smWf_csr_set _ _ _ _ _ wf, bitsBut_set_of (bitsBut_refl _ _) _ _ _ _ wf (within_leapFields (.inl rfl) (by decide)),
        .set .refl fun h => h rfl, get_set_apart _ _ _ _ _ _ wf (by decide) (by decide) rfl (by decide), ?_⟩
      have small : min 64 (max 1 (bits v 6 0)) < 2 ^ 7 := by omega
      rw [get_set_same _ _ _ _ _ wf (by decide) (by decide), clamp_eq (by decide)]
      exact Nat.mod_eq_of_lt small
    · rw [if_neg none] at hu
      rw [← hu, if_neg none]
      exact ⟨rfl, wf, bitsBut_refl _ _, .refl, rfl, rfl⟩
  rw [ht]
  refine ⟨by rw [frame]; rfl, smWf_csr_set _ _ _ _ _ uwf, bitsBut_set_of ubits _ _ _ _ uwf (within_leapFields (.inl rfl) (by decide)),
    .set regs fun h => h rfl, ?_, ?_, ?_⟩
  · rw [get_set_apart u Fld.LEAP_CTRL.DEFER_MAX Fld.LEAP_CTRL.STATE _ _ _ uwf (by decide) (by decide) rfl (by decide), state]
  · rw [get_set_same u Fld.LEAP_CTRL.DEFER_MAX _ _ _ uwf (by decide) (by decide)]
    exact Nat.mod_eq_of_lt (bits_lt v 31 16)
  · rw [get_set_apart u Fld.LEAP_CTRL.DEFER_MAX Fld.LEAP_CTRL.LEN _ _ _ uwf (by decide) (by decide) rfl (by decide), len]

end

section
variable (s : State) (v : Word)

theorem exec_leapArm (arm : bit v.toNat 8 = true) (cancel : bit v.toNat 9 = false) :
    exec (.leapArm v) s = .next (s.takeLeapFields v.toNat).leapArm := by
  change occurs (bit v.toNat 8) s _ = _
  rw [arm, occurs_true, leapCtrlPut_eq s v.isLt, arm, cancel]
  rfl

theorem exec_leapCancel (cancel : bit v.toNat 9 = true) (arm : bit v.toNat 8 = false) :
    exec (.leapCancel v) s = .next (s.takeLeapFields v.toNat).leapCancel := by
  change occurs (bit v.toNat 9) s _ = _
  rw [cancel, occurs_true, leapCtrlPut_eq s v.isLt, arm, cancel]
  rfl

/-- LEAP_AT has one field, which a write of the whole register replaces. -/
theorem plainWrite_leapAt : s.plainWrite Reg.LEAP_AT 0 0 v.toNat fullMask = s.set Fld.LEAP_AT.AT (bits v.toNat 47 0) := by
  rw [State.plainWrite, plainWriteWord, State.set]
  simp only [Reg.LEAP_AT, Fld.LEAP_AT.AT, List.foldl, fieldWrite, mergeMask_fullMask _ v.isLt]

/-- A claim that waits, as the statements ask it. -/
theorem claimWaits_iff : s.claimWaits = true ↔ s.get Fld.LEAP_CLAIM.PENDING = 1 ∧ s.tick.claimed = false := by
  have oneBit := get_lt s Fld.LEAP_CLAIM.PENDING 0 0
  rw [State.claimWaits, State.is, Bool.and_eq_true, bne_iff_ne, Bool.not_eq_true']
  refine and_congr_left fun _ => ?_
  change s.get Fld.LEAP_CLAIM.PENDING < 2 at oneBit
  omega

/-- The registers that LMAX is made of. -/
theorem lmax_of_sameRegs {s t : State} (h : SameRegs (· ≠ Reg.LEAP_CTRL.base) s t) : t.lmax = s.lmax := by
  have ne {r : Reg} (hr : 0x1000 ≤ r.base) (p : Nat) : r.off p 0 ≠ Reg.LEAP_CTRL.base :=
    (Nat.lt_of_lt_of_le (by decide) (hr.trans (base_le_off r p 0))).ne'
  have state (p : Nat) : t.pstate p = s.pstate p := h.get (ne (by decide) p)
  have len : t.stepLen = s.stepLen := funext fun p => congrArg (· + 1) (h.get (f := Fld.STEP_CFG.LEN_M1) (ne (by decide) p))
  rw [State.lmax, State.lmax, len]
  simp only [state]

theorem leapAtWrite_spec (wf : smWf 0#64 s.csr = true) :
    if s.get Fld.LEAP_CTRL.STATE = 0 then
      ∃ t, exec (.leapAtWrite v) s = .next t ∧ OnlyRegs [(Fld.LEAP_AT.AT, 0, 0)] s t ∧ t.get Fld.LEAP_AT.AT = bits v.toNat 47 0
    else exec (.leapAtWrite v) s = .next s := by
  have run : exec (.leapAtWrite v) s = .next (if s.get Fld.LEAP_CTRL.STATE != leapNone then s else s.plainWrite Reg.LEAP_AT 0 0 v.toNat fullMask) :=
    rfl
  rw [run, plainWrite_leapAt]
  by_cases none : s.get Fld.LEAP_CTRL.STATE = 0
  · rw [if_pos none, if_neg (by simp [none, leapNone])]
    exact ⟨_, rfl, onlyRegs_set _ _ _ _ _ wf,
      (get_set_same _ _ _ _ _ wf (by decide) (by decide)).trans (Nat.mod_eq_of_lt (bits_lt _ 47 0))⟩
  · rw [if_neg none, if_pos (by simp [none, leapNone])]

/-- The registers of a leap tick that the device schedules itself. -/
def State.scheduleLeap (s : State) (at_ len : Nat) : State :=
  (((s.set Fld.LEAP_AT.AT at_).set Fld.LEAP_CTRL.LEN len).set Fld.LEAP_CTRL.STATE leapScheduled).set Fld.LEAP_CTRL.ARM 1

theorem scheduleLeap_spec (wf : smWf 0#64 s.csr = true) (at_ len : Nat) :
    BitsBut [(⟨Reg.LEAP_CTRL, 63, 0⟩, 0, 0), (Fld.LEAP_AT.AT, 0, 0)] s (s.scheduleLeap at_ len) ∧
      (s.scheduleLeap at_ len).get Fld.LEAP_AT.AT = at_ % 2 ^ 48 ∧ (s.scheduleLeap at_ len).get Fld.LEAP_CTRL.STATE = 1 ∧
      (s.scheduleLeap at_ len).get Fld.LEAP_CTRL.LEN = len % 2 ^ 7 := by
  have ctrl {f : Fld} (hr : f.reg = Reg.LEAP_CTRL) (hh : f.hi ≤ 63) :
      Within [(f, 0, 0)] [(⟨Reg.LEAP_CTRL, 63, 0⟩, 0, 0), (Fld.LEAP_AT.AT, 0, 0)] := fun e he => ⟨_, .head _, by
    rw [List.mem_singleton.1 he, hr]; exact ⟨rfl, Nat.zero_le _, hh⟩⟩
  have w1 := smWf_csr_set s Fld.LEAP_AT.AT at_ 0 0 wf
  have w2 := smWf_csr_set _ Fld.LEAP_CTRL.LEN len 0 0 w1
  have w3 := smWf_csr_set _ Fld.LEAP_CTRL.STATE leapScheduled 0 0 w2
  have b1 := bitsBut_set_of (bitsBut_refl [(⟨Reg.LEAP_CTRL, 63, 0⟩, 0, 0), (Fld.LEAP_AT.AT, 0, 0)] s) Fld.LEAP_AT.AT at_ 0 0 wf
    (within_of_mem (.tail _ (.head _)))
  have b2 := bitsBut_set_of b1 Fld.LEAP_CTRL.LEN len 0 0 w1 (ctrl rfl (by decide))
  have b3 := bitsBut_set_of b2 Fld.LEAP_CTRL.STATE leapScheduled 0 0 w2 (ctrl rfl (by decide))
  refine ⟨bitsBut_set_of b3 Fld.LEAP_CTRL.ARM 1 0 0 w3 (ctrl rfl (by decide)), ?_, ?_, ?_⟩
  all_goals unfold State.scheduleLeap
  · rw [get_set_of_base_ne _ _ _ _ _ _ (by decide) (by decide), get_set_of_base_ne _ _ _ _ _ _ (by decide) (by decide),
      get_set_of_base_ne _ _ _ _ _ _ (by decide) (by decide), get_set_same _ _ _ _ _ wf (by decide) (by decide)]
    rfl
  · rw [get_set_apart _ Fld.LEAP_CTRL.ARM Fld.LEAP_CTRL.STATE _ _ _ w3 (by decide) (by decide) rfl (by decide),
      get_set_same _ _ _ _ _ w2 (by decide) (by decide)]
    rfl
  · rw [get_set_apart _ Fld.LEAP_CTRL.ARM Fld.LEAP_CTRL.LEN _ _ _ w3 (by decide) (by decide) rfl (by decide),
      get_set_apart _ Fld.LEAP_CTRL.STATE Fld.LEAP_CTRL.LEN _ _ _ w2 (by decide) (by decide) rfl (by decide),
      get_set_same _ _ _ _ _ w1 (by decide) (by decide)]
    rfl

/-- R53: a claim that nobody armed. -/
theorem leapClaimDeadline_spec (wf : smWf 0#64 s.csr = true) (waits : s.get Fld.LEAP_CLAIM.PENDING = 1 ∧ s.tick.claimed = false)
    (none : s.get Fld.LEAP_CTRL.STATE = 0) :
    let at_ := s.get Fld.LEAP_CLAIM.CLAIM_AT
    at_ ≤ s.get Fld.BTICK_NUM.NUM + s.lmax + 1 → s.get Fld.BTICK_NUM.NUM < at_ →
      ∃ t, exec .leapClaimDeadline s = .next t ∧ t = { s with csr := t.csr, tick := { s.tick with claimed := true } } ∧
        BitsBut [(⟨Reg.LEAP_CTRL, 63, 0⟩, 0, 0), (Fld.LEAP_AT.AT, 0, 0)] s t ∧ t.get Fld.LEAP_AT.AT = at_ ∧ t.get Fld.LEAP_CTRL.STATE = 1 ∧
        t.get Fld.LEAP_CTRL.LEN = Nat.min 64 (Nat.max 1 (s.get Fld.LEAP_CLAIM.CLAIM_LEN)) := by
  intro at_ soon later
  have run : exec .leapClaimDeadline s = .next { s.scheduleLeap at_ (clamp 1 64 (s.get Fld.LEAP_CLAIM.CLAIM_LEN))
      with tick := { s.tick with claimed := true } } := by
    have soon' : s.get Fld.LEAP_CLAIM.CLAIM_AT ≤ s.btick + s.lmax + 1 := soon
    have later' : s.btick < s.get Fld.LEAP_CLAIM.CLAIM_AT := later
    change execLeapClaimDeadline s = _
    rw [execLeapClaimDeadline]
    simp only [(claimWaits_iff s).2 waits, none, leapNone, beq_self_eq_true, soon', later', decide_true, Bool.and_self, if_true]
    rfl
  obtain ⟨bits, leapAt, state, len⟩ := scheduleLeap_spec s wf at_ (clamp 1 64 (s.get Fld.LEAP_CLAIM.CLAIM_LEN))
  generalize hu : s.scheduleLeap at_ (clamp 1 64 (s.get Fld.LEAP_CLAIM.CLAIM_LEN)) = u at run bits leapAt state len
  have small : min 64 (max 1 (s.get Fld.LEAP_CLAIM.CLAIM_LEN)) < 2 ^ 7 := by omega
  refine ⟨_, run, ?_, bits, leapAt.trans (Nat.mod_eq_of_lt (get_lt s Fld.LEAP_CLAIM.CLAIM_AT 0 0)), state, len.trans ?_⟩
  · subst hu
    rfl
  · rw [clamp_eq (by decide)]
    exact Nat.mod_eq_of_lt small

end

/-- R50, R51, R53: leap ticks scheduled. -/
theorem leapScheduling : LeapScheduling := by
  intro s v sound st w fields waits len errs noErrs
  have wf := csr_wf s sound.2
  obtain ⟨frame, twf, tbits, regs, state, deferMax, tlen⟩ := takeLeapFields_spec s w wf
  generalize ht : s.takeLeapFields w = t at frame twf tbits regs state deferMax tlen
  have tErrs : t.word Reg.TICK_ERR 0 0 = 0 := (regs.word (by decide)).trans noErrs
  have tick : t.tick = s.tick := by rw [frame]
  refine ⟨leapAtWrite_spec s v wf, fun arm cancel noClaim => ?_, fun cancel arm => ?_, fun h none => leapClaimDeadline_spec s wf h none⟩
  · have claim : t.claimWaits = false := by
      rw [Bool.eq_false_iff, ne_eq, claimWaits_iff, regs.get (by decide), tick]
      exact noClaim
    have late : ArmLate t ↔ s.get Fld.LEAP_AT.AT < s.get Fld.BTICK_NUM.NUM + s.lmax + 1 := by
      rw [ArmLate, regs.get (by decide), regs.get (by decide), lmax_of_sameRegs regs]
    obtain ⟨step, flags, stateAfter⟩ := leapArm_spec t twf claim tErrs
    simp only [late, state] at flags stateAfter
    refine ⟨_, (exec_leapArm s v arm cancel).trans (by rw [ht]), ⟨?_, bitsBut_trans tbits step.bits⟩, step.len.trans tlen,
      step.deferMax.trans deferMax, flags, stateAfter⟩
    rw [step.frame, frame]
  · obtain ⟨step, flags, stateAfter⟩ := leapCancel_spec t twf tErrs
    simp only [state, tick] at flags stateAfter
    refine ⟨_, (exec_leapCancel s v cancel arm).trans (by rw [ht]), ⟨?_, bitsBut_trans tbits step.bits⟩, step.len.trans tlen,
      step.deferMax.trans deferMax, flags, stateAfter⟩
    rw [step.frame, frame]

end Sys2Proof.Machine
end

section
/-!
SUPPORT. Operations beside memory and the cores: the registers of a set, what programs see, the levels and postponements of the sluices
and the period that waits all stand. The rules by which that goes through the shapes operations are built of.
-/
namespace Sys2Proof.Machine
open Sys2Proof Sys2Proof.Spec

/-- What a state keeps of another: the registers at the offsets of a set, what programs see, the sluices' levels and postponements, and
what waits for a leap tick. -/
structure Calm (K : Nat → Prop) (a s : State) : Prop where
  regs : SameRegs K a s
  contents : SameContents a s
  level : ∀ i, (s.stack i).level = (a.stack i).level
  deferLeft : ∀ i, (s.stack i).deferLeft = (a.stack i).deferLeft
  leapNs : s.tick.leapNs = a.tick.leapNs
  pendPeriod : s.tick.pendPeriod = a.tick.pendPeriod

namespace Calm
variable {K : Nat → Prop} {a s t : State} {α β : Type}

theorem refl : Calm K a a := ⟨.refl, sameContents_refl a, fun _ => rfl, fun _ => rfl, rfl, rfl⟩

theorem trans (h : Calm K a s) (g : Calm K s t) : Calm K a t where
  regs := h.regs.trans g.regs
  contents := sameContents_trans h.contents g.contents
  level i := (g.level i).trans (h.level i)
  deferLeft i := (g.deferLeft i).trans (h.deferLeft i)
  leapNs := g.leapNs.trans h.leapNs
  pendPeriod := g.pendPeriod.trans h.pendPeriod

theorem mono {L : Nat → Prop} (h : Calm K a s) (hL : ∀ o, L o → K o) : Calm L a s := { h with regs := h.regs.mono hL }

theorem get (h : Calm K a s) {f : Fld} {i j : Nat} (hk : K (f.reg.off i j)) : s.get f i j = a.get f i j := h.regs.get hk

/-! ### One part of the block replaced -/

theorem setWord {r : Reg} {i j w : Nat} (h : Calm K a s) (hk : ¬ K (r.off i j)) : Calm K a (s.setWord r i j w) :=
  { h with regs := h.regs.setWord hk }

theorem set {f : Fld} {v i j : Nat} (h : Calm K a s) (hk : ¬ K (f.reg.off i j)) : Calm K a (s.set f v i j) := h.setWord hk

theorem bump {f : Fld} {v i j : Nat} (h : Calm K a s) (hk : ¬ K (f.reg.off i j)) : Calm K a (s.bump f v i j) := h.set hk

theorem count {f : Fld} {v i j : Nat} (h : Calm K a s) (hk : ¬ K (f.reg.off i j)) : Calm K a (s.count f v i j) := h.set hk

theorem keep {pending parts pans batches batchSeq sealing colls dieUp msixHeld msixSent repairDue sent tx power answer delivered net link mod
    sec asy age free} (h : Calm K a s) :
    Calm K a { s with
      pending, parts, pans, batches, batchSeq, sealing, colls, dieUp, msixHeld, msixSent, repairDue, sent, tx, power, answer, delivered,
      net, link, mod, sec, asy, age, free } := { h with }

theorem tickWith {x : TickSt} (h : Calm K a s) (hl : x.leapNs = s.tick.leapNs) (hp : x.pendPeriod = s.tick.pendPeriod) :
    Calm K a { s with tick := x } := { h with leapNs := hl.trans h.leapNs, pendPeriod := hp.trans h.pendPeriod }

theorem partsTick {parts : List PartSt} {x : TickSt} (h : Calm K a s) (hl : x.leapNs = s.tick.leapNs)
    (hp : x.pendPeriod = s.tick.pendPeriod) : Calm K a { s with parts := parts, tick := x } := (h.tickWith hl hp).keep

theorem setPart {p : Nat} {k : PartSt} (h : Calm K a s) : Calm K a (s.setPart p k) := h.keep

theorem setDpower {d : Nat} {x : DiePower} (h : Calm K a s) : Calm K a (s.setDpower d x) := h.keep

/-- A stack replaced by one with the same levels and postponements. -/
theorem setStack {i : Nat} {k : StackSt} (h : Calm K a s) (hl : k.level = (s.stack i).level) (hd : k.deferLeft = (s.stack i).deferLeft) :
    Calm K a (s.setStack i k) := by
  have cases (n : Nat) : (s.setStack i k).stack n = s.stack n ∨ (s.setStack i k).stack n = k ∧ n = i := by
    by_cases e : n = i
    · by_cases hi : i < s.stks.length
      · exact .inr ⟨e ▸ stack_setStack_same s i k hi, e⟩
      · left
        rw [e]
        simp only [State.stack, State.setStack, setNth, List.set_eq_of_length_le (Nat.not_lt.1 hi)]
    · exact .inl (nth_setNth_ne _ _ _ _ _ e)
  refine { h with level := fun n => ?_, deferLeft := fun n => ?_ }
  · rcases cases n with e | ⟨e, rfl⟩
    · rw [e, h.level]
    · rw [e, hl, h.level]
  · rcases cases n with e | ⟨e, rfl⟩
    · rw [e, h.deferLeft]
    · rw [e, hd, h.deferLeft]

/-! ### Conditionals, loops and results that carry a state -/

section
variable {c : Prop} [Decidable c]

theorem ite {x y : State} (hx : Calm K a x) (hy : Calm K a y) : Calm K a (if c then x else y) := by split; exacts [hx, hy]
theorem ite2 {x y : α × State} (hx : Calm K a x.2) (hy : Calm K a y.2) : Calm K a (if c then x else y).2 := by split; exacts [hx, hy]
theorem when {x : State} (h : Calm K a s) (k : Calm K a s → Calm K a x) : Calm K a (if c then x else s) := ite (k h) h
theorem whenNot {x : State} (h : Calm K a s) (k : Calm K a s → Calm K a x) : Calm K a (if c then s else x) := ite h (k h)

end

theorem foldl {l : List β} {f : State → β → State} (h : Calm K a s) (k : ∀ s x, Calm K a s → Calm K a (f s x)) : Calm K a (l.foldl f s) := by
  induction l generalizing s with
  | nil => exact h
  | cons x l ih => exact ih (k s x h)

/-- A loop over the members of a list. -/
theorem foldl_mem {l : List β} {f : State → β → State} (h : Calm K a s) (k : ∀ s, ∀ x ∈ l, Calm K a s → Calm K a (f s x)) :
    Calm K a (l.foldl f s) := by
  induction l generalizing s with
  | nil => exact h
  | cons x l ih => exact ih (k s x (.head l) h) fun s y hy => k s y (.tail x hy)

theorem foldl2 {l : List β} {f : α × State → β → α × State} {x : α × State} (h : Calm K a x.2)
    (k : ∀ x y, Calm K a x.2 → Calm K a (f x y).2) : Calm K a (l.foldl f x).2 := by
  induction l generalizing x with
  | nil => exact h
  | cons y l ih => exact ih (k x y h)

theorem of2 {p : α × State} {x : α} {t : State} (e : p = (x, t)) (h : Calm K a p.2) : Calm K a t := by subst e; exact h

/-! ### Operations that several commands share -/

theorem freeBelow {n : Nat} (h : Calm K a s) : Calm K a (s.freeBelow n).2 := h.keep

theorem freeChoice (h : Calm K a s) : Calm K a s.freeChoice.2 := h.keep

theorem takeOpp {d o : Nat} (h : Calm K a s) (hk : ¬ K (Reg.PWR_DIE.off d 0)) : Calm K a (s.takeOpp d o) :=
  .ite h <| .ite (.setDpower <| .set h hk) (.setDpower h)

theorem replan (h : Calm K a s) (hk : ∀ d ∈ [0, 1], ¬ K (Reg.PWR_DIE.off d 0)) : Calm K a s.replan :=
  .foldl_mem h fun _ d hd h => .set (.setDpower h) (hk d hd)

theorem writeLog {bodies : List (List Nat)} (h : Calm K a s) (last : ¬ K (Reg.AGE_LAST.off 0 0)) (log : ∀ i, i < 64 → ¬ K (Reg.AGE_LOG.off i 0)) :
    Calm K a (s.writeLog bodies) :=
  .foldl_mem (.setWord (.keep h) last) fun _ i hi h => .setWord h <| log i (by have := (mem_upFrom.1 hi).2; omega)

theorem retryLog (h : Calm K a s) (last : ¬ K (Reg.AGE_LAST.off 0 0)) (log : ∀ i, i < 64 → ¬ K (Reg.AGE_LOG.off i 0)) :
    Calm K a s.retryLog := .ite (.writeLog h last log) h

theorem measure {d i : Nat} (h : Calm K a s) : Calm K a (s.measure d i) := by
  unfold State.measure
  split
  · exact h
  · exact .keep (.freeBelow (n := 321) h)

end Calm

end Sys2Proof.Machine
end

section
/-! SUPPORT. The begin and the end of a leap tick (O37). -/
namespace Sys2Proof.Machine
open Sys2Proof Sys2Proof.Spec

/-- The registers that a leap tick's begin is asked about: those of time and of the step controller, the hold of both dies, the states of
the stacks and the stacks given up. -/
abbrev BeginRegs (o : Nat) : Prop :=
  IsLow o ∨ o = Reg.THERM_STAT.base ∨ (Reg.STK_STATUS.base ≤ o ∧ o % 0x10000 = 0) ∨ o = Reg.TEST_TRAIN.base

/-- The registers of time and of the step controller, and the states of the stacks. -/
abbrev StackRegs (o : Nat) : Prop := IsLow o ∨ (Reg.STK_STATUS.base ≤ o ∧ o % 0x10000 = 0)

theorem off_stkStatus (i : Nat) : Reg.STK_STATUS.off i 0 = 0x1000000 + i * 0x10000 := rfl

theorem stackRegs_stkStatus (i : Nat) : StackRegs (Reg.STK_STATUS.off i 0) := by
  rw [off_stkStatus]
  exact .inr ⟨Nat.le_add_right _ _, by omega⟩

theorem beginRegs_of_stackRegs (o : Nat) (h : StackRegs o) : BeginRegs o := h.imp_right fun h => .inr (.inl h)

section
variable (s : State)

/-! ### The changes that wait -/

/-- The record of time as a leap tick begins, no step of TICK_COUNT waiting. -/
def TickSt.begun (k : TickSt) : TickSt := { k with pendPeriod := none, pendStep := none, leapNs := 0 }

theorem takeWaiting_of_none (step : s.tick.pendStep = none) (period : s.tick.pendPeriod = none) :
    s.takeWaiting = { s with tick := s.tick.begun } := by
  simp only [State.takeWaiting, step, period]
  rfl

theorem takeWaiting_of_some (us : Nat) (step : s.tick.pendStep = none) (period : s.tick.pendPeriod = some us) :
    s.takeWaiting = ({ s with tick := s.tick.begun } : State).takePeriod us := by
  simp only [State.takeWaiting, step, period]
  rfl

theorem not_beginRegs_pwrDie {d : Nat} (h : d ∈ [0, 1]) : ¬ BeginRegs (Reg.PWR_DIE.off d 0) := by
  have off : Reg.PWR_DIE.off d 0 = 0x601000 + d * 0x1000 := rfl
  have base : Reg.STK_STATUS.base = 0x1000000 ∧ Reg.THERM_STAT.base = 0x700018 ∧ Reg.TEST_TRAIN.base = 0xf000008 := ⟨rfl, rfl, rfl⟩
  simp only [List.mem_cons, List.not_mem_nil, or_false] at h
  simp only [BeginRegs, IsLow, off, base]
  omega

/-- The registers but the period and the number of the base tick, through a change of the period. -/
theorem calm_takePeriod (us : Nat) : Calm (fun o => BeginRegs o ∧ o ≠ Reg.BTICK_NUM.base ∧ o ≠ Reg.TICK_PERIOD.base) s (s.takePeriod us) := by
  unfold State.takePeriod State.renumber
  extract_lets u
  have hu : Calm (fun o => BeginRegs o ∧ o ≠ Reg.BTICK_NUM.base ∧ o ≠ Reg.TICK_PERIOD.base) s u :=
    .set (.set .refl fun h => h.2.2 rfl) fun h => h.2.1 rfl
  clear_value u
  exact .replan (.partsTick hu rfl rfl) fun d hd h => not_beginRegs_pwrDie hd h.1

/-- What the begin takes over of the count and the period (R31, R32). -/
theorem takeWaiting_spec (wf : smWf 0#64 s.csr = true) (step : s.tick.pendStep = none) :
    let t := s.takeWaiting
    SameRegs (fun o => BeginRegs o ∧ o ≠ Reg.BTICK_NUM.base ∧ o ≠ Reg.TICK_PERIOD.base) s t ∧ SameContents s t ∧ t.tick.leapNs = 0 ∧
      t.tick.pendPeriod = none ∧ t.dieUp = s.dieUp ∧ t.mod = s.mod ∧ t.sec = s.sec ∧ t.age = s.age ∧
      t.get Fld.TICK_PERIOD.PERIOD_US % 2 ^ 17 = (s.tick.pendPeriod.getD (s.get Fld.TICK_PERIOD.PERIOD_US)) % 2 ^ 17 := by
  intro t
  rcases hp : s.tick.pendPeriod with _ | us
  · have e : t = _ := takeWaiting_of_none s step hp
    rw [e]
    exact ⟨.of_csr rfl, sameContents_of_keep, rfl, rfl, rfl, rfl, rfl, rfl, rfl⟩
  · have e : t = _ := takeWaiting_of_some s us step hp
    generalize hu : ({ s with tick := s.tick.begun } : State) = u at e
    have calm := calm_takePeriod u us
    have period : (u.takePeriod us).get Fld.TICK_PERIOD.PERIOD_US = us % 2 ^ 17 :=
      ((sameRegs_renumber _).get (by decide)).trans
        (get_set_same u Fld.TICK_PERIOD.PERIOD_US us 0 0 (by rw [← hu]; exact wf) (by decide) (by decide))
    have frame : (u.takePeriod us).dieUp = u.dieUp ∧ (u.takePeriod us).mod = u.mod ∧ (u.takePeriod us).sec = u.sec ∧
      (u.takePeriod us).age = u.age := ⟨rfl, rfl, rfl, rfl⟩
    rw [e]
    subst hu
    refine ⟨calm.regs, calm.contents, calm.leapNs, calm.pendPeriod, frame.1, frame.2.1, frame.2.2.1, frame.2.2.2, ?_⟩
    rw [period, Nat.mod_mod]
    rfl

/-! ### The log entries that wait -/

theorem foldl_setWord_frame (r : Reg) (f : Nat → Nat) (l : List Nat) (t : State) :
    ∃ csr, l.foldl (fun s i => s.setWord r i 0 (f i)) t = { t with csr := csr } := by
  induction l generalizing t with
  | nil => exact ⟨_, rfl⟩
  | cons i l ih => exact ih (t.setWord r i 0 (f i))

theorem stacksTrain_of_frame {s t : State} (loaded : t.sec.loaded = s.sec.loaded) (idOk : t.sec.idOk = s.sec.idOk)
    (records : t.sec.flash.records = s.sec.flash.records) : t.stacksTrain = s.stacksTrain := by
  simp only [State.stacksTrain, State.record, FlashSt.record, loaded, idOk, records]

theorem writeLog_frame (bodies : List (List Nat)) : ∃ csr age log remaps, s.writeLog bodies =
    { s with csr := csr, age := age, sec := { s.sec with flash := { s.sec.flash with log := log, remaps := remaps } } } := by
  unfold State.writeLog
  extract_lets fl l body _ _ s1 s2
  obtain ⟨csr, e⟩ := foldl_setWord_frame Reg.AGE_LOG (fun i => nth 0 body i) (upFrom 0 64) s2
  exact ⟨csr, _, _, _, e⟩

/-- Log entries touch none of the parts that training asks. -/
theorem retryLog_frame : s.retryLog.dieUp = s.dieUp ∧ s.retryLog.mod = s.mod ∧ s.retryLog.tick = s.tick ∧
    s.retryLog.stacksTrain = s.stacksTrain := by
  unfold State.retryLog
  split
  · obtain ⟨csr, age, log, remaps, e⟩ := writeLog_frame s s.age.deferred
    rw [e]
    exact ⟨rfl, rfl, rfl, stacksTrain_of_frame (by rfl) (by rfl) (by rfl)⟩
  · exact ⟨rfl, rfl, rfl, rfl⟩

theorem calm_retryLog : Calm BeginRegs s s.retryLog :=
  .retryLog .refl (by decide) fun i hi k => by
    have low : Reg.AGE_LOG.off i 0 = 0x802000 + i * 0x8 := rfl
    have base : Reg.STK_STATUS.base = 0x1000000 ∧ Reg.THERM_STAT.base = 0x700018 ∧ Reg.TEST_TRAIN.base = 0xf000008 := ⟨rfl, rfl, rfl⟩
    change BeginRegs (Reg.AGE_LOG.off i 0) at k
    simp only [BeginRegs, low, IsLow, base] at k
    omega

/-! ### Training -/

/-- A stack set to train is TRAINING, whatever is set to train beside it. -/
theorem get_foldl_train (l : List Nat) (i : Nat) (wf : s.Wf) (h : i ∈ l ∨ s.get Fld.STK_STATUS.STATE i = 1) :
    (l.foldl (fun s t => s.set Fld.STK_STATUS.STATE 1 t) s).get Fld.STK_STATUS.STATE i = 1 := by
  induction l generalizing s with
  | nil => exact h.resolve_left nofun
  | cons t l ih =>
    refine ih _ wf.set ?_
    by_cases e : i = t
    · subst e
      exact .inr (get_set_same _ _ _ _ _ wf.csr (by decide) (by decide))
    · refine h.imp (fun h => (List.mem_cons.1 h).resolve_left e) fun h => ?_
      rw [get_set_ne _ _ _ _ _ _ _ _ fun k => e ?_, h]
      change Reg.STK_STATUS.off i 0 = Reg.STK_STATUS.off t 0 at k
      rw [off_stkStatus, off_stkStatus] at k
      omega

/-- R505: a stack that is DOWN, and not given up, trains. -/
theorem beginTraining_state (i : Fin 20) (wf : s.Wf) (down : s.get Fld.STK_STATUS.STATE i = 4) (up : s.isUp (dieOfStack i) = true)
    (gave : (s.get Fld.TEST_TRAIN.GAVE_UP).testBit i = false) (trains : s.stacksTrain = true) :
    s.beginTraining.get Fld.STK_STATUS.STATE i = 1 := by
  unfold State.beginTraining
  extract_lets l t
  have mem : i.val ∈ l := by
    refine List.mem_filter.2 ⟨mem_upFrom.2 ⟨Nat.zero_le _, by omega⟩, ?_⟩
    simp [down, up, bit_eq_testBit, gave, trains]
  rw [if_neg (by rw [List.isEmpty_iff]; exact List.ne_nil_of_mem mem)]
  exact get_foldl_train s l i wf (.inl mem)

theorem calm_beginTraining : Calm IsLow s s.beginTraining :=
  .whenNot (.foldl .refl fun _ _ h => .set h (not_isLow_off (by decide) _ _)) fun h => .tickWith h rfl rfl

end

/-! ### Links, margins and the reckoning -/

section
variable {a s : State}

theorem Calm.freePick {K : Nat → Prop} {l : List Nat} (h : Calm K a s) : Calm K a (s.freePick l).2 := by
  induction l generalizing s with
  | nil => exact h
  | cons x l ih => exact ih (.freeChoice h)

theorem Calm.portTrains {p : Nat} (h : Calm StackRegs a s) : Calm StackRegs a (s.portTrains p) := by
  have port : ¬ StackRegs (Reg.PORT_STAT.off p 0) := by
    have off : Reg.PORT_STAT.off p 0 = 0xc10008 + p * 0x10000 := rfl
    simp only [StackRegs, IsLow, off]
    omega
  exact .set (.set (.keep h) port) port

theorem Calm.beginLinks (h : Calm StackRegs a s) : Calm StackRegs a s.beginLinks := by
  unfold State.beginLinks
  extract_lets run must
  split
  rename_i e1
  extract_lets ports s1
  have h1 : Calm StackRegs a s1 := .foldl (.of2 e1 (.freePick h)) fun _ _ h => .portTrains h
  split
  rename_i e2
  have h2 := Calm.of2 e2 (.ite2 h1 <| .ite2 (.freePick h1) h1)
  extract_lets _ _ s3
  have h3 : Calm StackRegs a s3 := .keep h2
  exact .whenNot h3 fun h => .tickWith h rfl rfl

theorem Calm.beginMargins {K : Nat → Prop} (h : Calm K a s) : Calm K a s.beginMargins := .keep (.keep h)

theorem not_stackRegs_pwrDie {d : Nat} (h : d ∈ [0, 1]) : ¬ StackRegs (Reg.PWR_DIE.off d 0) := fun k =>
  not_beginRegs_pwrDie h (beginRegs_of_stackRegs _ k)

/-- Base tick 0 of a reckoning measures alone. -/
theorem Calm.reckonTick_zero {K : Nat → Prop} (h : Calm K a s) : Calm K a (s.reckonTick 0) := by
  unfold State.reckonTick
  split
  · exact h
  · rw [if_pos (by decide)]
    exact .foldl h fun _ _ h => .when h fun h => .measure h

theorem Calm.beginReckoning (h : Calm StackRegs a s) : Calm StackRegs a s.beginReckoning :=
  .when h fun h => .reckonTick_zero <| .foldl_mem (.set (.keep h) (by decide)) fun _ _ hd h =>
    .takeOpp h (not_stackRegs_pwrDie (List.mem_filter.1 hd).1)

end

theorem exec_leapTickBegin (s : State) (scheduled : s.get Fld.LEAP_CTRL.STATE = 1) (bound : s.tick.bound = s.get Fld.BTICK_NUM.NUM + 1)
    (at_ : s.tick.boundAt = s.get Fld.TICK_COUNT.COUNT) (opens : s.get Fld.LEAP_AT.AT ≤ s.get Fld.BTICK_NUM.NUM) :
    exec .leapTickBegin s = .next s.beginLeap := by
  change occurs _ s s.beginLeap = _
  have here : s.atBoundary = true := by simp [State.atBoundary, bound, State.btick, at_, State.now]
  have now : s.get Fld.LEAP_AT.AT ≤ s.btick := opens
  rw [show (s.get Fld.LEAP_CTRL.STATE == leapScheduled && s.atBoundary && decide (s.get Fld.LEAP_AT.AT ≤ s.btick)) = true by
    simp [scheduled, leapScheduled, here, now], occurs_true]

/-- Whether a die is up, by the parts it is asked of. -/
theorem isUp_of_frame {s t : State} (die : t.dieUp = s.dieUp) (mod : t.mod = s.mod)
    (hold : t.get Fld.THERM_STAT.HOLD = s.get Fld.THERM_STAT.HOLD) (d : Nat) : t.isUp d = s.isUp d := by
  simp only [State.isUp, State.runs, State.is, die, mod, hold]

/-- R31, R32, R52, R505: a leap tick begins. -/
theorem leapTickBegin_spec (s : State) (sound : Sound s) (scheduled : s.get Fld.LEAP_CTRL.STATE = 1)
    (bound : s.tick.bound = s.get Fld.BTICK_NUM.NUM + 1) (at_ : s.tick.boundAt = s.get Fld.TICK_COUNT.COUNT)
    (opens : s.get Fld.LEAP_AT.AT ≤ s.get Fld.BTICK_NUM.NUM) (step : s.tick.pendStep = none) (_ : s.age.run = none) :
    ∃ t, exec .leapTickBegin s = .next t ∧ t.get Fld.LEAP_CTRL.STATE = 2 ∧ SameContents s t ∧
      t.get Fld.TICK_COUNT.COUNT = s.get Fld.TICK_COUNT.COUNT ∧ t.tick.leapNs = 0 ∧ t.tick.pendPeriod = none ∧
      t.get Fld.TICK_PERIOD.PERIOD_US % 2 ^ 17 = (s.tick.pendPeriod.getD (s.get Fld.TICK_PERIOD.PERIOD_US)) % 2 ^ 17 ∧
      ∀ st : Fin 20, s.get Fld.STK_STATUS.STATE st = 4 → s.isUp (dieOfStack st) = true → (s.get Fld.TEST_TRAIN.GAVE_UP).testBit st = false →
        s.stacksTrain = true → t.get Fld.STK_STATUS.STATE st = 1 := by
  have wf := (sound_iff_wf s).1 sound
  refine ⟨_, exec_leapTickBegin s scheduled bound at_ opens, ?_⟩
  unfold State.beginLeap
  generalize hu : s.set Fld.LEAP_CTRL.STATE leapActive = u
  have uwf : u.Wf := by rw [← hu]; exact wf.set
  have uregs : SameRegs (· ≠ Reg.LEAP_CTRL.base) s u := by rw [← hu]; exact .set .refl fun h => h rfl
  have ustate : u.get Fld.LEAP_CTRL.STATE = 2 := by rw [← hu, get_set_same _ _ _ _ _ wf.csr (by decide) (by decide)]; rfl
  have ustep : u.tick.pendStep = none := by rw [← hu]; exact step
  obtain ⟨ucontents, udie, umod, usec, utick⟩ :
      SameContents s u ∧ u.dieUp = s.dieUp ∧ u.mod = s.mod ∧ u.sec = s.sec ∧ u.tick = s.tick := by
    subst hu; exact ⟨sameContents_refl s, rfl, rfl, rfl, rfl⟩
  obtain ⟨wregs, wcontents, wleap, wpend, wdie, wmod, wsec, -, wperiod⟩ := takeWaiting_spec u uwf.csr ustep
  have wwf : u.takeWaiting.Wf := .takeWaiting uwf
  generalize u.takeWaiting = w at wregs wcontents wleap wpend wdie wmod wsec wperiod wwf
  have log := calm_retryLog w
  obtain ⟨ldie, lmod, ltick, ltrains⟩ := retryLog_frame w
  have lwf : w.retryLog.Wf := .retryLog wwf
  generalize w.retryLog = l at log ldie lmod ltick ltrains lwf
  have train := calm_beginTraining l
  have trained := beginTraining_state l
  generalize l.beginTraining = b at train trained
  have rest : Calm StackRegs b b.beginLinks.beginMargins.beginReckoning := .beginReckoning <| .beginMargins <| .beginLinks .refl
  have low {f : Fld} (h : IsLow (f.reg.off 0 0)) :
      b.beginLinks.beginMargins.beginReckoning.get f = w.get f :=
    (rest.get (.inl h)).trans <| (train.get h).trans (log.get (.inl h))
  refine ⟨?_, ?_, ?_, ?_, ?_, ?_, fun st down up gave trains => ?_⟩
  · rw [low (by decide), wregs.get (by decide), ustate]
  · exact sameContents_trans (sameContents_trans ucontents wcontents) <|
      sameContents_trans log.contents <| sameContents_trans train.contents rest.contents
  · rw [low (by decide), wregs.get (by decide), uregs.get (by decide)]
  · rw [rest.leapNs, train.leapNs, ltick, wleap]
  · rw [rest.pendPeriod, train.pendPeriod, ltick, wpend]
  · rw [low (by decide), wperiod, utick, uregs.get (by decide)]
  · have ne (o : Nat) (h : 0x1000 ≤ o) : o ≠ Reg.BTICK_NUM.base ∧ o ≠ Reg.TICK_PERIOD.base ∧ o ≠ Reg.LEAP_CTRL.base := by
      have base : Reg.BTICK_NUM.base = 8 ∧ Reg.TICK_PERIOD.base = 0x10 ∧ Reg.LEAP_CTRL.base = 0x30 := ⟨rfl, rfl, rfl⟩
      omega
    have same {f : Fld} {i : Nat} (h : BeginRegs (f.reg.off i 0)) (hi : 0x1000 ≤ f.reg.off i 0) : l.get f i = s.get f i := by
      obtain ⟨h1, h2, h3⟩ := ne _ hi
      exact (log.get h).trans <| (wregs.get ⟨h, h1, h2⟩).trans <| uregs.get h3
    have stkOff : 0x1000 ≤ Reg.STK_STATUS.off st 0 := by rw [off_stkStatus]; omega
    rw [rest.get (stackRegs_stkStatus st)]
    refine trained st lwf ?_ ?_ ?_ ?_
    · rw [same (beginRegs_of_stackRegs _ (stackRegs_stkStatus st)) stkOff, down]
    · rw [isUp_of_frame (ldie.trans (wdie.trans udie)) (lmod.trans (wmod.trans umod)) (same (by decide) (by decide)), up]
    · rw [same (by decide) (by decide), gave]
    · rw [ltrains, stacksTrain_of_frame (s := s) (by rw [wsec, usec]) (by rw [wsec, usec]) (by rw [wsec, usec]), trains]

/-! ### The end -/

section
variable (s : State)

theorem training_of_none (h : ∀ st : Fin 20, s.get Fld.STK_STATUS.STATE st ≠ 1) : s.training = [] := by
  refine List.filter_eq_nil_iff.2 fun i hi => ?_
  rw [beq_iff_eq]
  exact h ⟨i, by have := (mem_upFrom.1 hi).2; omega⟩

theorem retraining_of_none (h : ∀ p ∈ s.net.retrain, s.get Fld.PORT_STAT.TRAINING p = 0) :
    s.net.retrain.filter (fun p => s.get Fld.PORT_STAT.TRAINING p != 0) = [] := by
  refine List.filter_eq_nil_iff.2 fun p hp => ?_
  rw [bne_iff_ne, ne_eq, not_not]
  exact h p hp

theorem linksTrained_of_none (h : ∀ p ∈ s.net.retrain, s.get Fld.PORT_STAT.TRAINING p = 0) (idl : s.mod.idl ≠ .training) :
    s.linksTrained = s := by
  simp only [State.linksTrained, retraining_of_none s h, State.freePick, List.foldl_nil, if_neg idl, List.isEmpty_nil, if_true]

theorem linksTrain_of_none (h : ∀ p ∈ s.net.retrain, s.get Fld.PORT_STAT.TRAINING p = 0) (idl : s.mod.idl ≠ .training) :
    s.linksTrain = false := by
  have ports : s.net.retrain.any (fun p => s.get Fld.PORT_STAT.TRAINING p != 0) = false := by
    rw [List.any_eq_false]
    intro p hp
    rw [bne_iff_ne, ne_eq, not_not]
    exact h p hp
  simp [State.linksTrain, ports, idl]

theorem failLinks_of_none (h : ∀ p ∈ s.net.retrain, s.get Fld.PORT_STAT.TRAINING p = 0) :
    ∃ idl, s.failLinks = { s with net := { s.net with retrain := [] }, mod := { s.mod with idl := idl } } := by
  unfold State.failLinks
  rw [retraining_of_none s h]
  exact ⟨_, rfl⟩

theorem calm_endTests : Calm IsLow s s.endTests := by
  refine .keep <| .keep <| .foldl (.foldl .refl fun s x h => ?_) fun _ _ h => .set h (not_isLow_off (by decide) _ _)
  unfold State.marginDone
  split
  rename_i e1
  split
  rename_i e2
  split
  rename_i e3
  have h3 := Calm.of2 e3 (.freeBelow <| .of2 e2 (.freeBelow <| .of2 e1 (.freeBelow h)))
  have high {r : Reg} (hr : 0x100000 ≤ r.base) (i : Nat) : ¬ IsLow (r.off i 0) := not_isLow_off hr i 0
  exact .ite (.set (.set (.set (.set h3 (high (by decide) _)) (high (by decide) _)) (high (by decide) _)) (high (by decide) _))
    (.set (.set (.set h3 (high (by decide) _)) (high (by decide) _)) (high (by decide) _))

theorem endTests_parts : s.endTests.sec = s.sec ∧ s.endTests.age = s.age ∧ s.endTests.tick = s.tick := by
  have done (s : State) (x : Nat) : (s.marginDone x).sec = s.sec ∧ (s.marginDone x).age = s.age ∧ (s.marginDone x).tick = s.tick := by
    unfold State.marginDone
    dsimp only [State.freeBelow]
    split <;> exact ⟨rfl, rfl, rfl⟩
  have all (l : List Nat) (t : State) : (l.foldl (fun s x => s.marginDone x) t).sec = t.sec ∧
      (l.foldl (fun s x => s.marginDone x) t).age = t.age ∧ (l.foldl (fun s x => s.marginDone x) t).tick = t.tick := by
    induction l generalizing t with
    | nil => exact ⟨rfl, rfl, rfl⟩
    | cons x l ih =>
      obtain ⟨h1, h2, h3⟩ := ih (t.marginDone x)
      obtain ⟨g1, g2, g3⟩ := done t x
      exact ⟨h1.trans g1, h2.trans g2, h3.trans g3⟩
  exact all s.mod.margins s

/-- LEAP_CTRL of a leap tick that is over. -/
def State.disarmLeap : State := (s.set Fld.LEAP_CTRL.STATE leapNone).set Fld.LEAP_CTRL.ARM 0

theorem closeLeap_eq : ∃ k : TickSt, k.claimed = false ∧
    s.closeLeap = { (if s.tick.claimed then s.disarmLeap.set Fld.LEAP_CLAIM.PENDING 0 else s.disarmLeap) with tick := k } :=
  ⟨_, rfl, rfl⟩

/-- The registers and the claim as a leap tick is closed (R51–R53). -/
theorem closeLeap_spec (wf : smWf 0#64 s.csr = true) :
    let t := s.closeLeap
    t.get Fld.LEAP_CTRL.STATE = 0 ∧ t.get Fld.LEAP_CTRL.ARM = 0 ∧ SameContents s t ∧ t.tick.claimed = false ∧
      t.get Fld.LEAP_CLAIM.PENDING = (if s.tick.claimed then 0 else s.get Fld.LEAP_CLAIM.PENDING) := by
  intro t
  obtain ⟨k, hk, e⟩ := closeLeap_eq s
  have wf' := smWf_csr_set s Fld.LEAP_CTRL.STATE leapNone 0 0 wf
  have uwf : smWf 0#64 s.disarmLeap.csr = true := smWf_csr_set _ Fld.LEAP_CTRL.ARM 0 0 0 wf'
  have state : s.disarmLeap.get Fld.LEAP_CTRL.STATE = 0 := by
    rw [State.disarmLeap, get_set_apart _ Fld.LEAP_CTRL.ARM Fld.LEAP_CTRL.STATE _ _ _ wf' (by decide) (by decide) rfl (by decide),
      get_set_same _ _ _ _ _ wf (by decide) (by decide)]
    rfl
  have arm : s.disarmLeap.get Fld.LEAP_CTRL.ARM = 0 := by
    rw [State.disarmLeap, get_set_same _ _ _ _ _ wf' (by decide) (by decide)]
    rfl
  have pending : s.disarmLeap.get Fld.LEAP_CLAIM.PENDING = s.get Fld.LEAP_CLAIM.PENDING := by
    rw [State.disarmLeap, get_set_of_base_ne _ _ _ _ _ _ (by decide) (by decide), get_set_of_base_ne _ _ _ _ _ _ (by decide) (by decide)]
  have contents : SameContents s s.disarmLeap := sameContents_refl s
  generalize s.disarmLeap = u at uwf state arm pending contents e
  rw [show t = _ from e]
  cases s.tick.claimed with
  | false => exact ⟨state, arm, contents, hk, pending⟩
  | true =>
    refine ⟨?_, ?_, contents, hk, get_set_same u Fld.LEAP_CLAIM.PENDING 0 0 0 uwf (by decide) (by decide)⟩
    · exact (get_set_of_base_ne u Fld.LEAP_CLAIM.PENDING Fld.LEAP_CTRL.STATE 0 0 0 (by decide) (by decide)).trans state
    · exact (get_set_of_base_ne u Fld.LEAP_CLAIM.PENDING Fld.LEAP_CTRL.ARM 0 0 0 (by decide) (by decide)).trans arm

theorem closeLeap_parts : s.closeLeap.sec = s.sec ∧ s.closeLeap.age = s.age := by
  obtain ⟨k, -, e⟩ := closeLeap_eq s
  rw [e]
  cases s.tick.claimed <;> exact ⟨rfl, rfl⟩

/-- With no reckoning and no update running, and no stack failed, nothing claims another leap tick. -/
theorem claimAgain_of_none (run : s.age.run = none) (upd : s.sec.upd = none) : s.claimAgain [] = s := by
  simp only [State.claimAgain, run, upd, List.any_nil]
  rfl

/-- A leap tick with nothing unfinished at a boundary after its length. -/
theorem exec_leapTickEnd (active : s.get Fld.LEAP_CTRL.STATE = 2) (bound : s.tick.bound = s.get Fld.BTICK_NUM.NUM + 1)
    (at_ : s.tick.boundAt = s.get Fld.TICK_COUNT.COUNT)
    (past : s.get Fld.LEAP_CTRL.LEN * (s.get Fld.TICK_PERIOD.PERIOD_US * 1000) ≤ s.tick.leapNs)
    (rested : ∀ st : Fin 20, s.get Fld.STK_STATUS.STATE st ≠ 1)
    (ports : ∀ p ∈ s.net.retrain, s.get Fld.PORT_STAT.TRAINING p = 0) (idl : s.mod.idl ≠ .training) :
    exec .leapTickEnd s = .next (if s.restarting && decide (s.get Fld.LEAP_CTRL.LEN < 64) then
      (s.set Fld.LEAP_CTRL.LEN (s.get Fld.LEAP_CTRL.LEN + 1)).set Fld.TICK_ERR.LEAP_EXTENDED 1 else s.endLeap) := by
  have here : s.atBoundary = true := by simp [State.atBoundary, bound, State.btick, at_, State.now]
  have past' : s.get Fld.LEAP_CTRL.LEN * s.periodNs ≤ s.tick.leapNs := past
  change execLeapTickEnd s = _
  simp only [execLeapTickEnd, State.inLeap, active, beq_self_eq_true, here, past', decide_true, Bool.and_self, if_true,
    training_of_none s rested, State.trained, linksTrained_of_none s ports idl, linksTrain_of_none s ports idl, List.isEmpty_nil,
    Bool.not_true, Bool.false_or]
  split <;> rfl

/-- R51–R53: a leap tick ends, its claim withdrawn. -/
theorem endLeap_spec (wf : s.Wf) (rested : ∀ st : Fin 20, s.get Fld.STK_STATUS.STATE st ≠ 1)
    (ports : ∀ p ∈ s.net.retrain, s.get Fld.PORT_STAT.TRAINING p = 0) (run : s.age.run = none) (upd : s.sec.upd = none) :
    let t := s.endLeap
    t.get Fld.LEAP_CTRL.STATE = 0 ∧ t.get Fld.LEAP_CTRL.ARM = 0 ∧ SameContents s t ∧ t.tick.claimed = false ∧
      t.get Fld.LEAP_CLAIM.PENDING = (if s.tick.claimed then 0 else s.get Fld.LEAP_CLAIM.PENDING) := by
  obtain ⟨idl, fails⟩ := failLinks_of_none s ports
  have fwf : s.failLinks.Wf := .failLinks wf
  obtain ⟨fcsr, fcontents, fage, fsec, ftick⟩ :
      s.failLinks.csr = s.csr ∧ SameContents s s.failLinks ∧ s.failLinks.age = s.age ∧ s.failLinks.sec = s.sec ∧ s.failLinks.tick = s.tick := by
    rw [fails]; exact ⟨rfl, sameContents_refl s, rfl, rfl, rfl⟩
  have body : s.endLeap = s.failLinks.endTests.closeLeap.claimAgain [] := by
    unfold State.endLeap
    rw [training_of_none s rested]
    rfl
  generalize s.failLinks = f at fwf fcsr fcontents fage fsec ftick body
  have tests := calm_endTests f
  have ewf : f.endTests.Wf := .endTests fwf
  obtain ⟨esec, eage, etick⟩ := endTests_parts f
  generalize f.endTests = e at tests ewf esec eage etick body
  obtain ⟨csec, cage⟩ := closeLeap_parts e
  obtain ⟨state, arm, contents, claimed, pending⟩ := closeLeap_spec e ewf.csr
  rw [claimAgain_of_none _ (by rw [cage, eage, fage, run]) (by rw [csec, esec, fsec, upd])] at body
  intro t
  rw [show t = e.closeLeap from body]
  refine ⟨state, arm, sameContents_trans fcontents (sameContents_trans tests.contents contents), claimed, ?_⟩
  rw [pending, etick, ftick, tests.get (by decide), get_of_csr fcsr]

end

/-- R31, R32, R52, R54, R505: leap ticks. -/
theorem leapBounds : LeapBounds := by
  refine ⟨leapTickBegin_spec, ?_⟩
  intro s sound active bound at_ n past rested ports idl
  have wf := (sound_iff_wf s).1 sound
  have runs := exec_leapTickEnd s active bound at_ past rested ports idl
  refine ⟨fun upd run => ?_, fun x upd phase early => ?_⟩
  · have rests : s.restarting = false := by simp only [State.restarting, upd]
    rw [rests] at runs
    exact ⟨_, runs, endLeap_spec s wf rested ports run upd⟩
  · have restarts : s.restarting = true := by simp [State.restarting, upd, phase]
    rw [restarts, Bool.true_and, if_pos (decide_eq_true early)] at runs
    have wf' := smWf_csr_set s Fld.LEAP_CTRL.LEN (n + 1) 0 0 wf.csr
    have bits : BitsBut [(Fld.LEAP_CTRL.LEN, 0, 0), (Fld.TICK_ERR.LEAP_EXTENDED, 0, 0)] s
        ((s.set Fld.LEAP_CTRL.LEN (n + 1)).set Fld.TICK_ERR.LEAP_EXTENDED 1) :=
      bitsBut_set_of (bitsBut_set_of (bitsBut_refl _ _) _ _ _ _ wf.csr (within_of_mem (.head _))) _ _ _ _ wf'
        (within_of_mem (.tail _ (.head _)))
    refine ⟨_, runs, ⟨rfl, bits⟩, ?_, get_set_same _ _ _ _ _ wf' (by decide) (by decide)⟩
    rw [get_set_of_base_ne _ _ _ _ _ _ (by decide) (by decide), get_set_same _ _ _ _ _ wf.csr (by decide) (by decide)]
    exact Nat.mod_eq_of_lt (Nat.lt_of_le_of_lt early (by decide))

/-- Settles O37: the scheduling by cases of LEAP_CTRL.STATE; the begin and the end operation by operation, each of which leaves the
registers asked about, memory and the cores. -/
theorem leapTicks : Obligations.LeapTicks := ⟨leapScheduling, leapBounds⟩

end Sys2Proof.Machine
end

section
/-!
SUPPORT. What no engine touches: the registers of time and of the step controller, but for the sticky causes of an abandonment, and the
plans in force. The rules by which they go through the shapes that operations are built of.
-/
namespace Sys2Proof.Machine
open Sys2Proof Sys2Proof.Spec

/-- The registers of time and of the step controller, but STEP_ERR. -/
abbrev StepRegs (o : Nat) : Prop := IsLow o ∧ o % 0x100 ≠ 0x48

/-- A state with the registers of time and of the step controller of another, and its plans. -/
structure Steady (a s : State) : Prop where
  regs : SameRegs StepRegs a s
  plan : ∀ p, (s.part p).plan = (a.part p).plan

theorem not_stepRegs_stepErr (p : Nat) : ¬ StepRegs (Reg.STEP_ERR.off p 0) := by
  intro h
  have e : Reg.STEP_ERR.off p 0 = 0x1048 + p * 0x100 := rfl
  rw [e] at h
  omega

namespace Steady
variable {a s t : State} {α β γ : Type}

theorem refl : Steady a a := ⟨.refl, fun _ => rfl⟩

theorem trans (h : Steady a s) (g : Steady s t) : Steady a t := ⟨h.regs.trans g.regs, fun p => (g.plan p).trans (h.plan p)⟩

theorem get (h : Steady a s) {f : Fld} {i j : Nat} (hk : StepRegs (f.reg.off i j)) : s.get f i j = a.get f i j := h.regs.get hk

/-! ### One part of the block replaced -/

theorem setWord {r : Reg} {i j w : Nat} (h : Steady a s) (hr : 0x100000 ≤ r.base := by decide) : Steady a (s.setWord r i j w) :=
  { h with regs := h.regs.setWord fun k => not_isLow_off hr i j k.1 }

theorem set {f : Fld} {v i j : Nat} (h : Steady a s) (hr : 0x100000 ≤ f.reg.base := by decide) : Steady a (s.set f v i j) := h.setWord hr

theorem bump {f : Fld} {v i j : Nat} (h : Steady a s) (hr : 0x100000 ≤ f.reg.base := by decide) : Steady a (s.bump f v i j) := h.set hr

theorem count {f : Fld} {v i j : Nat} (h : Steady a s) (hr : 0x100000 ≤ f.reg.base := by decide) : Steady a (s.count f v i j) := h.set hr

theorem setErr {f : Fld} {v p : Nat} (h : Steady a s) (hf : f.reg = Reg.STEP_ERR) : Steady a (s.set f v p) :=
  { h with regs := h.regs.set (hf ▸ not_stepRegs_stepErr p) }

theorem keep {pending mem gran ecc metaFlip flipped csumBad cores stks pans batches batchSeq sealing colls host dieUp msixHeld msixSent
    repairDue sent tx tick power answer delivered net link mod sec asy age free} (h : Steady a s) :
    Steady a { s with
      pending, mem, gran, ecc, metaFlip, flipped, csumBad, cores, stks, pans, batches, batchSeq, sealing, colls, host, dieUp, msixHeld,
      msixSent, repairDue, sent, tx, tick, power, answer, delivered, net, link, mod, sec, asy, age, free } := { h with }

theorem setPart {p : Nat} {k : PartSt} (h : Steady a s) (hk : k.plan = (s.part p).plan) : Steady a (s.setPart p k) := by
  refine { h with plan := fun q => ?_ }
  rw [← h.plan q]
  by_cases e : q = p
  · subst e
    by_cases hq : q < s.parts.length
    · rw [part_setPart_same s q k hq, hk]
    · simp only [State.part, State.setPart, setNth, List.set_eq_of_length_le (Nat.not_lt.1 hq)]
  · rw [part_setPart_ne s p q k e]

theorem setCore {c : Nat} {k : CoreSt} (h : Steady a s) : Steady a (s.setCore c k) := h.keep
theorem setStack {i : Nat} {k : StackSt} (h : Steady a s) : Steady a (s.setStack i k) := h.keep
theorem setPan {u : Nat} {k : PanSt} (h : Steady a s) : Steady a (s.setPan u k) := h.keep
theorem setBatch {b : Batch} (h : Steady a s) : Steady a (s.setBatch b) := h.keep
theorem setGranule {g : Nat} {x : Gran} (h : Steady a s) : Steady a (s.setGranule g x) := h.keep

/-! ### Conditionals, loops and results that carry a state -/

section
variable {c : Prop} [Decidable c]

theorem ite {x y : State} (hx : Steady a x) (hy : Steady a y) : Steady a (if c then x else y) := by split; exacts [hx, hy]
theorem ite2 {x y : α × State} (hx : Steady a x.2) (hy : Steady a y.2) : Steady a (if c then x else y).2 := by split; exacts [hx, hy]
theorem ite3 {x y : α × β × State} (hx : Steady a x.2.2) (hy : Steady a y.2.2) : Steady a (if c then x else y).2.2 := by
  split; exacts [hx, hy]

/-- An operation done on a condition to the state at hand. -/
theorem when {x : State} (h : Steady a s) (k : Steady a s → Steady a x) : Steady a (if c then x else s) := ite (k h) h
theorem whenNot {x : State} (h : Steady a s) (k : Steady a s → Steady a x) : Steady a (if c then s else x) := ite h (k h)

end

theorem foldl {l : List β} {f : State → β → State} (h : Steady a s) (k : ∀ s x, Steady a s → Steady a (f s x)) :
    Steady a (l.foldl f s) := by
  induction l generalizing s with
  | nil => exact h
  | cons x l ih => exact ih (k s x h)

theorem foldl3 {δ : Type} {l : List δ} {f : α × β × State → δ → α × β × State} {x : α × β × State} (h : Steady a x.2.2)
    (k : ∀ x y, Steady a x.2.2 → Steady a (f x y).2.2) : Steady a (l.foldl f x).2.2 := by
  induction l generalizing x with
  | nil => exact h
  | cons y l ih => exact ih (k x y h)

theorem of2 {p : α × State} {x : α} {t : State} (e : p = (x, t)) (h : Steady a p.2) : Steady a t := by subst e; exact h
theorem of3 {p : α × β × State} {x : α} {y : β} {t : State} (e : p = (x, y, t)) (h : Steady a p.2.2) : Steady a t := by subst e; exact h

end Steady

end Sys2Proof.Machine
end

section
/-! SUPPORT. What the engines leave: free values, doorbells and messages, error records, faults and the abandonments they begin. -/
namespace Sys2Proof.Machine
open Sys2Proof Sys2Proof.Spec

namespace Steady
variable {a s t : State}

theorem freeBelow {n} (h : Steady a s) : Steady a (s.freeBelow n).2 := h.keep

theorem freeChoice (h : Steady a s) : Steady a s.freeChoice.2 := h.keep

theorem msix {vec} (h : Steady a s) : Steady a (s.msix vec) := .ite (.set (.keep h)) (.keep h)

theorem sendOn {q m} (h : Steady a s) : Steady a (s.sendOn q m) := .ite h (.keep (.keep h))

theorem sendDev {d m} (h : Steady a s) : Steady a (s.sendDev d m) := .ite (.sendOn h) h

theorem sendGroup {g m} (h : Steady a s) : Steady a (s.sendGroup g m) := .foldl h fun _ _ h => .sendDev h

theorem doorNotice {pend} (h : Steady a s) : Steady a (s.doorNotice pend) := .sendDev (.keep h)

theorem dbSignal {r sig} (h : Steady a s) : Steady a (s.dbSignal r sig) :=
  .ite (.foldl h fun _ _ h => .doorNotice h) (.ite (.foldl h fun _ _ h => .msix h) h)

theorem ringHost {b} (h : Steady a s) : Steady a (s.ringHost b) := .set <| .dbSignal <| .set h

theorem post {r} (h : Steady a s) : Steady a (s.post r) := .ite (.set <| .bump h) (.set <| .setWord <| .setWord <| .setWord <| .setWord h)

theorem sendDecision {g b c} (h : Steady a s) : Steady a (s.sendDecision g b c) := .sendGroup <| .set <| .set h

theorem decideVote {p c} (h : Steady a s) : Steady a (s.decideVote p c) :=
  .ite h (.setPart (.sendDecision h) ((sendDecision (refl (a := s))).plan p).symm)

theorem voteAbandon {p} (h : Steady a s) : Steady a (s.voteAbandon p) := .ite h (.ite (.decideVote h) (.sendDev h))

theorem noteCause {p cause} (h : Steady a s) : Steady a (s.noteCause p cause) := by
  cases cause with
  | overrun => exact .setErr h rfl
  | eveStall => exact .setErr (.setErr h rfl) rfl
  | fault => exact .setErr h rfl
  | xdieTimeout => exact .setErr h rfl
  | groupVote => exact .setErr h rfl

theorem beginAbandon {p b} (h : Steady a s) : Steady a (s.beginAbandon p b) := by
  unfold State.beginAbandon
  extract_lets
  split
  · split
    exacts [.ite (.noteCause <| .setPart h rfl) (.setPart h rfl), .setPart h rfl]
  · exact h
  · exact .noteCause <| .whenNot (.keep <| .setPart h rfl) fun h => .voteAbandon h

/-- As `State.Wf.coreFaultAs`: the function that the last case split asks is a variable, so that the kernel does not evaluate it. -/
theorem coreFaultAs {c e pc f unit cls aunit stop} (h : Steady a s) : Steady a (s.coreFaultAs c e pc f unit cls aunit stop) := by
  obtain ⟨F, hF⟩ : ∃ F, F = @State.coreFaultAs := ⟨_, rfl⟩
  obtain ⟨part, hpart⟩ : ∃ f, f = @State.partOf := ⟨_, rfl⟩
  rw [← hF]
  delta State.coreFaultAs at hF
  rw [← hpart] at hF
  subst hF
  beta_reduce
  extract_lets _ _ _ _ _ s1 _ s2 _ s3
  have h1 : Steady a s1 := .ite (.set h) (.set <| .set <| .set <| .set <| .set <| .set <| .set h)
  have h3 : Steady a s3 := .setCore (.post h1)
  split
  · exact .beginAbandon h3
  · exact h3

theorem setStoppedFor {p l} (h : Steady a s) : Steady a (s.setPart p { s.part p with stoppedFor := l }) := .setPart h rfl

theorem coreFault {c e pc f} (h : Steady a s) : Steady a (s.coreFault c e pc f) := by
  unfold State.coreFault
  extract_lets
  split
  exacts [.setStoppedFor (.coreFaultAs h), .coreFaultAs h]

end Steady

end Sys2Proof.Machine
end

section
/-! SUPPORT. What the engines leave: stack memory and shared buffers, read and written. -/
namespace Sys2Proof.Machine
open Sys2Proof Sys2Proof.Spec

namespace Steady
variable {a s t : State}

theorem traffic {w inStack write b n} (h : Steady a s) : Steady a (s.traffic w inStack write b n) := by
  unfold State.traffic
  split
  exacts [.foldl h fun _ _ h => .setStack h, h]

theorem account {p i n} (h : Steady a s) : Steady a (s.account p i n) := by
  unfold State.account
  split
  exacts [.setPart h rfl, h]

theorem enterCE {i ln sym} (h : Steady a s) : Steady a (s.enterCE i ln sym) := by
  unfold State.enterCE
  extract_lets
  split
  · exact .set <| .set <| .set <| .set <| .set <| .when (.bump h) fun h => .post <| .set h
  · split
    · exact .setStack (.set <| .set <| .set <| .set <| .set <| .when (.bump h) fun h => .post <| .set h)
    · split
      · exact .setStack (.set <| .set <| .set <| .set <| .set <| .when (.bump h) fun h => .post <| .set h)
      · exact .count <| .when (.bump h) fun h => .post <| .set h

theorem poisonShared {w r g dpa pch} (h : Steady a s) : Steady a (s.poisonShared w r g dpa pch) :=
  .ringHost <|
    .post <|
      .foldl (.whenNot (.setGranule (.keep h)) fun h => by split; exacts [.set <| .set <| .set h, .set h])
        fun _ _ h => .ite (.setPart h rfl) (.ite h (.setPart h rfl))

theorem uncorrectable {w ln} (h : Steady a s) : Steady a (s.uncorrectable w ln) :=
  .ite h
    (by
      split
      · exact .poisonShared <| .when (.post <| .bump <| .keep <| .setGranule h) fun h => .count h
      · exact .when (.post <| .bump <| .keep <| .setGranule h) fun h => .count h)

theorem snoop {w ln} (h : Steady a s) : Steady a (s.snoop w ln) :=
  .ite
    (by
      split
      · rename_i _ e
        exact .setGranule <| .keep <| .keep <| .of2 e (.freeChoice h)
      · rename_i _ e
        exact .of2 e (.freeChoice h)) h

theorem readLine {w ln} (h : Steady a s) : Steady a (s.readLine w ln).2 := by
  unfold State.readLine
  split
  · exact .ite2 (.snoop h)
      (.ite2 (.snoop h)
        (by
          extract_lets
          split
          · exact .snoop h
          · exact .enterCE <| .snoop h
          · exact .uncorrectable <| .snoop h
          · exact .ite2 (.uncorrectable <| .freeChoice <| .snoop h) (.keep <| .freeChoice <| .snoop h)))
  · exact h

theorem readLines {w ln n} (h : Steady a s) : Steady a (s.readLines w ln n).2.2 := by
  induction n with
  | zero => exact h
  | succ n ih =>
    unfold State.readLines
    split
    rename_i e1
    split
    rename_i e2
    have h2 := of2 e2 (readLine <| of3 e1 ih)
    split
    exacts [h2, h2]

theorem readBytes {w b n} (h : Steady a s) : Steady a (s.readBytes w b n).2.2 := .ite3 h (.readLines h)

theorem flipData {w i ln} (h : Steady a s) : Steady a (s.flipData w i ln) :=
  .ite (.ite (.keep <| .keep <| .bump <| .set h) (.keep <| .keep <| .bump <| .set h)) h

theorem writeLineWith {w ln full has put} (h : Steady a s) : Steady a (s.writeLineWith w ln full has put) := by
  unfold State.writeLineWith
  split
  · extract_lets _ s1 _ poke _ _ syms
    have h1 : Steady a s1 := .keep <| .whenNot h fun h => .snoop h
    have hpoke {s : State} (h : Steady a s) : Steady a (poke s) := .setGranule <| .keep h
    refine .flipData (.ite (.setGranule <| hpoke h1) <| .ite (hpoke <| .keep h1) <| .ite h1 ?_)
    rcases syms with _ | ⟨sym, _ | ⟨sym', _ | _⟩⟩
    · exact hpoke h1
    · exact hpoke <| .whenNot h1 fun h => .enterCE h
    · exact .uncorrectable h1
    · exact .ite (.uncorrectable <| .freeChoice h1) (hpoke <| .keep (.freeChoice h1))
  · exact .keep h

theorem writeRaw {w b n v} (h : Steady a s) : Steady a (s.writeRaw w b n v) := .ite h (.foldl h fun _ _ h => .writeLineWith h)

theorem openGranule {g} (h : Steady a s) : Steady a (s.openGranule g) := by
  unfold State.openGranule
  split
  exacts [.setGranule h, h]

theorem sealGranule {g crc} (h : Steady a s) : Steady a (s.sealGranule g crc) := by
  unfold State.sealGranule
  split
  exacts [.setGranule <| .keep (.ite (.bump <| .set h) h), h]

theorem writeOpen {w b n v} (h : Steady a s) : Steady a (s.writeOpen w b n v) := .ite h (.foldl (.writeRaw h) fun _ _ h => .openGranule h)

theorem csumLineRecord {w g} (h : Steady a s) : Steady a (s.csumLineRecord w g) := by
  unfold State.csumLineRecord
  split
  exacts [.post (.keep h), h]

theorem checkGranule {w unchecked g data} (h : Steady a s) : Steady a (s.checkGranule w unchecked g data).2 := by
  unfold State.checkGranule
  extract_lets
  split
  exacts [h, h, .ite2 (.csumLineRecord h) (by split; exacts [.poisonShared <| .csumLineRecord h, .csumLineRecord h])]

theorem makeRoom {rc ln} (h : Steady a s) : Steady a (s.makeRoom rc ln).2 := .ite2 h (.freeBelow (n := 8) h)

theorem cachedLine {w c ln} (h : Steady a s) : Steady a (s.cachedLine w c ln).2 := by
  unfold State.cachedLine
  split
  · exact .readLine h
  · rename_i c
    split
    · exact .count h
    · split
      rename_i e1
      extract_lets s1 s2
      have h2 : Steady a s2 := .count <| .traffic <| .of2 e1 (.readLine h)
      split
      rename_i e2
      exact .setCore (.of2 e2 (.makeRoom h2))

theorem runAhead {w c p ln} (h : Steady a s) : Steady a (s.runAhead w c p ln) := by
  unfold State.runAhead
  split
  · refine .ite ?_ h
    split
    · rename_i _ e
      exact .cachedLine <| .of2 e (.freeChoice h)
    · rename_i _ e
      exact .of2 e (.freeChoice h)
  · exact h

theorem granuleData {w c ln n} (h : Steady a s) : Steady a (s.granuleData w c ln n).2.2 := by
  induction n with
  | zero => exact h
  | succ n ih =>
    unfold State.granuleData
    split
    rename_i e1
    split
    rename_i e2
    have h2 := of2 e2 (cachedLine <| of3 e1 ih)
    split
    exacts [h2, h2]

theorem computeGranule {w inStack unchecked c g} (h : Steady a s) : Steady a (s.computeGranule w inStack unchecked c g).2.2 := by
  unfold State.computeGranule
  split
  · refine .ite3 h ?_
    extract_lets s1
    have h1 : Steady a s1 := .whenNot h fun h => .traffic h
    split
    rename_i e1
    split
    · exact .of3 e1 (.granuleData h1)
    · split
      all_goals
        rename_i e2
        exact .of2 e2 (.checkGranule <| .of3 e1 (.granuleData h1))
  · exact .ite3 h h
  · exact h

theorem computeGranules {w inStack unchecked c gs} (h : Steady a s) : Steady a (s.computeGranules w inStack unchecked c gs).2.2 := by
  induction gs generalizing s with
  | nil => exact h
  | cons g gs ih => exact ih (.computeGranule h)

theorem updateCache {c b n v} (h : Steady a s) : Steady a (s.updateCache c b n v) := .setCore h

end Steady

end Sys2Proof.Machine
end

section
/-! SUPPORT. What the engines leave: the MXU, the VE and the XE. -/
namespace Sys2Proof.Machine
open Sys2Proof Sys2Proof.Spec

namespace Steady
variable {a s t : State}

theorem flag {c fl} (h : Steady a s) : Steady a (s.flag c fl) := .ite h (.setWord h)

theorem trfPut {c b n v} (h : Steady a s) : Steady a (s.trfPut c b n v) := .setCore h

theorem trfCorrect {c l} (h : Steady a s) : Steady a (s.trfCorrect c l) := by
  unfold State.trfCorrect
  split
  exacts [h, .bump h]

theorem engineFault {c e pc f} (h : Steady a s) : Steady a (s.engineFault c e pc f) := .coreFault <| .when h fun h => .set <| .set <| .set h

theorem runVe {c e} (h : Steady a s) : Steady a (s.runVe c e) := by
  refine .ite h ?_
  extract_lets w k f A draws k' s1 put
  split
  · exact .engineFault h
  · split
    · exact .engineFault h
    · have hput {codes fl} : Steady a (put codes fl) := .flag <| .trfPut <| .setCore h
      exact .ite (.trfPut hput) hput

theorem runMma {c e direct} (h : Steady a s) : Steady a (s.runMma c e direct) := by
  unfold State.runMma
  extract_lets w k old acc k' s1 n
  split
  · exact .engineFault h
  · split
    · exact .engineFault h
    · have h1 : Steady a s1 := .setCore h
      refine .ite (.ite (.trfPut <| .flag h1) ?_) h1
      split
      exacts [.setCore (.keep (.flag h1)), .flag h1]

theorem someOf {α : Type} {l : List α} (h : Steady a s) : Steady a (s.someOf l).2 := by
  induction l generalizing s with
  | nil => exact h
  | cons x l ih => exact ih (.freeChoice h)

theorem shuffle {α : Type} {l : List α} (h : Steady a s) : Steady a (s.shuffle l).2 := by
  induction l generalizing s with
  | nil => exact h
  | cons x l ih => exact .freeBelow (n := (s.shuffle l).1.length + 1) (ih h)

theorem lineTraffic {w inStack write b n} (h : Steady a s) : Steady a (s.lineTraffic w inStack write b n) := .ite h (.traffic h)

theorem writeMany {w ws} (h : Steady a s) : Steady a (s.writeMany w ws) :=
  .foldl (.foldl h fun _ _ h => .writeRaw h) fun _ _ h => .ite (.sealGranule h) (.openGranule h)

theorem addPiece {w f src dst n data} (h : Steady a s) : Steady a (s.addPiece w f src dst n data).2 := by
  unfold State.addPiece
  extract_lets
  split
  rename_i _ e
  split
  exacts [.of3 e (.readBytes h), .traffic <| .traffic <| .writeOpen <| .of3 e (.readBytes h)]

theorem addPieces {w f l} (h : Steady a s) : Steady a (s.addPieces w f l).2 := by
  induction l generalizing s with
  | nil => exact h
  | cons x l ih =>
    unfold State.addPieces
    split
    all_goals
      rename_i e
      have h1 := of2 e (addPiece h)
    exacts [h1, ih h1]

theorem putRows {w d ws} (h : Steady a s) : Steady a (s.putRows w d ws).2 :=
  .ite2 (.addPieces <| .foldl (.shuffle h) fun _ _ h => .lineTraffic h) (.writeMany <| .foldl h fun _ _ h => .lineTraffic h)

theorem getImage {w c p d} (h : Steady a s) : Steady a (s.getImage w c p d).2.2 := by
  cases c
  · exact computeGranules h
  · dsimp only [State.getImage]
    exact .runAhead <| .computeGranules h

theorem plainLines {w c ln n} (h : Steady a s) : Steady a (s.plainLines w c ln n).2.2 := by
  induction n with
  | zero => exact h
  | succ n ih =>
    unfold State.plainLines
    split
    rename_i e1
    have h1 := of3 e1 ih
    extract_lets
    split
    rename_i e2
    refine' (fun h2 => by split; exacts [h2, h2]) (of2 e2 ?_)
    split
    · exact .ite2 (.cachedLine h1) (.traffic <| .readLine h1)
    · exact .readLine h1

theorem readIndices {w c p d} (h : Steady a s) : Steady a (s.readIndices w c p d).2.2 := .ite3 h (.plainLines h)

theorem countOob {c n} (h : Steady a s) : Steady a (s.countOob c n) := .ite h (.bump <| .set h)

theorem getRows {w c p d l} (h : Steady a s) : Steady a (s.getRows w c p d l).2.2 := by
  induction l generalizing s with
  | nil => exact h
  | cons j l ih =>
    cases j
    exacts [ih h, ih (.computeGranules h)]

theorem runXld {c p e} (h : Steady a s) : Steady a (s.runXld c p e) := by
  unfold State.runXld
  extract_lets
  split
  · exact .engineFault h
  · split
    · exact .engineFault h
    · refine .ite h ?_
      split
      · exact .engineFault h
      · split
        rename_i _ e
        split
        exacts [.trfPut <| .of3 e (.getImage h), .engineFault <| .foldl (.someOf <| .of3 e (.getImage h)) fun _ _ h => .trfPut h]

theorem cacheWrites {c ws} (h : Steady a s) : Steady a (s.cacheWrites c ws) := .foldl h fun _ _ h => .ite h (.updateCache h)

theorem refreshCache {c ws} (h : Steady a s) : Steady a (s.refreshCache c ws) := .foldl h fun _ _ h => .ite h (.updateCache h)

theorem xePutRows {c p d ws} (h : Steady a s) : Steady a (s.xePutRows c p d ws).2 :=
  .ite (.refreshCache <| .putRows h) (.cacheWrites <| .putRows h)

theorem xePut {c p d v} (h : Steady a s) : Steady a (s.xePut c p d v).2 := .xePutRows h

theorem runXst {c p e} (h : Steady a s) : Steady a (s.runXst c p e) := by
  unfold State.runXst
  extract_lets
  split
  · exact .engineFault h
  · split
    · exact .engineFault h
    · refine .ite h ?_
      split
      · exact .engineFault h
      · split
        rename_i _ e
        split
        exacts [.engineFault <| .of2 e (.xePut h), .of2 e (.xePut h)]

theorem runXmov {c p e} (h : Steady a s) : Steady a (s.runXmov c p e) := by
  unfold State.runXmov
  extract_lets
  split
  · exact .engineFault h
  · refine .ite h ?_
    split
    · exact .engineFault h
    · split
      rename_i e1
      have h1 := of3 e1 (getImage h)
      split
      · exact .engineFault <| .xePutRows <| .someOf h1
      · split
        rename_i e2
        have h2 := of2 e2 (xePut h1)
        split
        exacts [.engineFault h2, h2]

theorem runXgath {c p e} (h : Steady a s) : Steady a (s.runXgath c p e) := by
  unfold State.runXgath
  extract_lets
  split
  · exact .engineFault h
  · split
    · exact .engineFault h
    · refine .ite h ?_
      split
      · exact .engineFault h
      · split
        rename_i e1
        have h1 := of3 e1 (readIndices h)
        split
        · exact .engineFault h1
        · extract_lets
          split
          rename_i e2
          have h2 := of3 e2 (getRows h1)
          split
          · exact .countOob <| .trfPut h2
          · exact .engineFault <| .countOob <| .foldl (.someOf h2) fun _ _ h => .ite h (.trfPut h)

theorem runXgatm {c p e} (h : Steady a s) : Steady a (s.runXgatm c p e) := by
  unfold State.runXgatm
  extract_lets
  split
  · exact .engineFault h
  · refine .ite h ?_
    split
    · exact .engineFault h
    · split
      rename_i e1
      have h1 := of3 e1 (readIndices h)
      split
      · exact .engineFault h1
      · extract_lets
        split
        rename_i e2
        have h2 := of3 e2 (getRows h1)
        extract_lets base place put
        have hput {s : State} {l} (h : Steady a s) : Steady a (put s l).2 :=
          .ite2 (.refreshCache <| .addPieces <| .foldl h fun _ _ h => .lineTraffic h)
            (.cacheWrites <| .writeMany <| .foldl h fun _ _ h => .lineTraffic h)
        split
        · split
          rename_i e3
          have h3 := of2 e3 (hput h2)
          extract_lets
          split
          exacts [.engineFault <| .countOob h3, .countOob h3]
        · exact .engineFault <| .countOob <| hput <| .someOf h2

theorem runXscat {c p e} (h : Steady a s) : Steady a (s.runXscat c p e) := by
  unfold State.runXscat
  extract_lets
  split
  · exact .engineFault h
  · split
    · exact .engineFault h
    · refine .ite h ?_
      split
      · exact .engineFault h
      · split
        rename_i e1
        have h1 := of3 e1 (readIndices h)
        split
        · exact .engineFault h1
        · extract_lets
          split
          rename_i e2
          have h2 := of2 e2 (ite2 (someOf h1) h1)
          extract_lets
          split
          rename_i e3
          have h3 := of2 e3 (ite2 (refreshCache <| addPieces <| foldl (shuffle h2) fun _ _ h => lineTraffic h)
            (cacheWrites <| foldl (foldl h2 fun _ _ h => lineTraffic h) fun _ _ h => writeOpen h))
          split
          exacts [.engineFault h3, .countOob h3]

theorem runXpf {c p e} (h : Steady a s) : Steady a (s.runXpf c p e) := by
  unfold State.runXpf
  extract_lets
  split
  · exact .engineFault h
  · refine .ite h ?_
    split
    exacts [.foldl h fun _ _ h => .cachedLine h, h]

end Steady

end Sys2Proof.Machine
end

section
/-! SUPPORT. What the engines leave: their queues, the items of a step, and what goes on as time passes. -/
namespace Sys2Proof.Machine
open Sys2Proof Sys2Proof.Spec

namespace Steady
variable {a s t : State}

theorem runPissue {c p e} (h : Steady a s) : Steady a (s.runPissue c p e) := by
  unfold State.runPissue
  extract_lets
  split
  · exact .engineFault h
  · split
    exacts [.engineFault h, .keep h]

theorem engineTime {c p e} (h : Steady a s) : Steady a (s.engineTime c p e) := .ite h (.ite (.account h) (.ite (.account h) h))

theorem runEntry {c p e direct} (h : Steady a s) : Steady a (s.runEntry c p e direct) := by
  unfold State.runEntry
  extract_lets s1
  have h1 : Steady a s1 := .ite h (.trfCorrect h)
  clear_value s1
  split
  · exact .engineTime <| .runMma h1
  · exact .runXld h1
  · exact .runXst h1
  · exact .runXmov h1
  · exact .runXgath h1
  · exact .runXgatm h1
  · exact .runXscat h1
  · exact .runXpf h1
  · exact .keep h1
  · exact .trfPut h1
  · exact .runPissue h1
  · exact .engineTime <| .runVe h1

theorem tryEngine {c p g} (h : Steady a s) (e : s.tryEngine c p g = some t) : Steady a t := by
  unfold State.tryEngine at e
  extract_lets at e
  split at e
  · cases e
  · split at e
    · cases e
      exact .runEntry <| .setCore h
    · cases e

theorem pumpCore {c p n} (h : Steady a s) : Steady a (s.pumpCore c p n) := by
  induction n generalizing s with
  | zero => exact h
  | succ n ih =>
    refine .ite ?_ h
    split
    next e => exact ih (.tryEngine h e)
    split
    next e => exact ih (.tryEngine h e)
    split
    next e => exact ih (.tryEngine h e)
    split
    next e => exact ih (.tryEngine h e)
    exact h

theorem pump {c} (h : Steady a s) : Steady a (s.pump c) := by
  unfold State.pump
  split
  exacts [h, .when (.pumpCore h) fun h => .setPart h rfl]

theorem deliverWords {b l} (h : Steady a s) : Steady a (s.deliverWords b l) := by
  induction l generalizing s with
  | nil => exact .setBatch h
  | cons w l ih => exact .ite (.setBatch h) (ih <| .setPan h)

theorem deliverAll (h : Steady a s) : Steady a s.deliverAll := .foldl h fun _ _ h => .deliverWords h

theorem group {p g} (h : Steady a s) : Steady a (s.group p g).2 := by
  unfold State.group
  extract_lets
  split
  · exact h
  · split
    rename_i e
    exact .of3 e (.readBytes h)

theorem issued {p n} (h : Steady a s) : Steady a (s.issued p n) := .setPart h rfl

theorem itemDone {p n} (h : Steady a s) : Steady a (s.itemDone p n) := .setPart h rfl

theorem panBody {p i} (h : Steady a s) : Steady a (s.panBody p i).2 :=
  .ite2 (.readBytes h)
    (by
      split
      · rename_i _ e
        exact .of2 e (.group <| .readBytes h)
      · rename_i _ e
        exact .readBytes <| .of2 e (.group <| .readBytes h))

theorem issuePan {p n i} (h : Steady a s) : Steady a (s.issuePan p n i) := by
  unfold State.issuePan
  split
  rename_i e
  have h1 := of2 e (panBody h)
  exact .ite (.itemDone <| .issued h1) (.ite h1 <| .deliverAll <| .keep <| .issued h1)

theorem issueXfer {p n i} (h : Steady a s) : Steady a (s.issueXfer p n i) := .ite h (.setCore (.issued h))

theorem issueItem {p n i} (h : Steady a s) : Steady a (s.issueItem p n i) := .ite (.issuePan h) (.ite (.keep <| .issued h) (.issueXfer h))

theorem issuePass {p} (h : Steady a s) : Steady a (s.issuePass p) :=
  .foldl h fun _ _ h => .ite (.ite (.itemDone <| .set h) h) (.ite (.issueItem h) h)

theorem issueAll {p n} (h : Steady a s) : Steady a (s.issueAll p n) := by
  induction n generalizing s with
  | zero => exact h
  | succ n ih => exact .ite (.issuePass h) (ih <| .issuePass h)

theorem choosePaths {p g} (h : Steady a s) : Steady a (s.choosePaths p g) := by
  unfold State.choosePaths
  split
  · rename_i _ e
    exact .of2 e (.group h)
  · rename_i _ e
    exact .foldl (.setPart (.writeRaw <| .readBytes <| .of2 e (.group h)) rfl) fun _ _ h => .ite (.itemDone h) h

theorem itemComplete {p n} (h : Steady a s) : Steady a (s.itemComplete p n) :=
  .issueAll <| .foldl (.itemDone h) fun _ _ h => .ite h (.choosePaths h)

theorem runXfer {c} (h : Steady a s) : Steady a (s.runXfer c) := by
  unfold State.runXfer
  split
  · split
    · refine .ite ?_ h
      split
      rename_i e
      have h1 := of2 e (readBytes h)
      exact .ite (.pump <| .itemComplete <| .runEntry <| .setCore h1) h1
    · exact h
  · exact h

theorem goOn (h : Steady a s) : Steady a s.goOn := .foldl (.foldl h fun _ _ h => .runXfer h) fun _ _ h => .issueAll h

/-! ### Time -/

theorem refill {i n} (h : Steady a s) : Steady a (s.refill i n) := .ite h (.setStack (.foldl h fun _ _ h => .count h))

theorem clockCore {c n} (h : Steady a s) : Steady a (s.clockCore c n) := .ite h (.when (.setCore h) fun h => .count h)

theorem txPacket {l n e} (h : Steady a s) : Steady a (s.txPacket l n e) := by
  unfold State.txPacket
  extract_lets b cost turns0 key turns pace queue wire _ s1 s2
  have h2 : Steady a s2 := .count <| .keep h
  split
  exacts [.account h2, h2]

theorem txSend {l i n} (h : Steady a s) : Steady a (s.txSend l i n) := by
  induction n generalizing s with
  | zero => exact h
  | succ n ih =>
    unfold State.txSend
    extract_lets waits
    clear_value waits
    cases waits with
    | nil => exact h
    | cons w ws =>
      refine .ite h ?_
      split
      exacts [ih (.txPacket h), h]

theorem transmit {n} (h : Steady a s) : Steady a (s.transmit n) := .keep (.foldl (.keep h) fun _ _ h => .txSend h)

theorem ageNs {n} (h : Steady a s) : Steady a (s.ageNs n) := .ite (.count (.keep h)) h

end Steady

end Sys2Proof.Machine
end

section
/-! SUPPORT. Nanoseconds that pass without a boundary (O35, O39). -/
namespace Sys2Proof.Machine
open Sys2Proof Sys2Proof.Spec

/-! ### Loops over stacks and their numbers -/

theorem nodup_upFrom (b n : Nat) : (upFrom b n).Nodup := by
  induction n generalizing b with
  | zero => exact .nil
  | succ n ih =>
    refine List.nodup_cons.2 ⟨fun h => ?_, ih (b + 1)⟩
    have := (mem_upFrom.1 h).1
    omega

theorem getElem_upFrom (b n i : Nat) (h : i < n) : (upFrom b n)[i]? = some (b + i) := by
  induction n generalizing b i with
  | zero => omega
  | succ n ih =>
    cases i with
    | zero => rfl
    | succ i =>
      change (upFrom (b + 1) n)[i]? = _
      rw [ih (b + 1) i (by omega)]
      congr 1
      omega

theorem nth_map_upFrom {α : Type} (d : α) (f : Nat → α) {n i : Nat} (h : i < n) : nth d ((upFrom 0 n).map f) i = f i := by
  simp only [nth, List.getElem?_map, getElem_upFrom 0 n i h, Option.map_some, Option.getD_some, Nat.zero_add]

/-- A loop whose steps for other numbers leave something as it is leaves it as the step for its own number does. -/
theorem foldl_at {α : Type} (g : State → α) (f : State → Nat → State) (i : Nat) (P : State → Prop) (keep : ∀ s t, P s → P (f s t))
    (apart : ∀ s t, t ≠ i → g (f s t) = g s) {l : List Nat} (once : l.Nodup) (mem : i ∈ l) {s : State} (h : P s) :
    ∃ u, P u ∧ g u = g s ∧ g (l.foldl f s) = g (f u i) := by
  induction l generalizing s with
  | nil => cases mem
  | cons t l ih =>
    obtain ⟨fresh, once⟩ := List.nodup_cons.1 once
    by_cases e : t = i
    · subst e
      refine ⟨s, h, rfl, ?_⟩
      have rest (l : List Nat) (s : State) (out : t ∉ l) : g (l.foldl f s) = g s := by
        induction l generalizing s with
        | nil => rfl
        | cons x l ih =>
          obtain ⟨hx, hl⟩ := not_or.1 (fun h => out (List.mem_cons.2 h))
          exact (ih (f s x) hl).trans (apart s x (Ne.symm hx))
      exact rest l (f s t) fresh
    · obtain ⟨u, hu, gu, last⟩ := ih once ((List.mem_cons.1 mem).resolve_left (Ne.symm e)) (keep s t h)
      exact ⟨u, hu, gu.trans (apart s t e), last⟩

/-! ### What stands while time passes -/

/-- A state with the registers of a set, what programs see, the module's mode, the dies and the phases of another. -/
structure Passing (K : Nat → Prop) (a s : State) : Prop where
  regs : SameRegs K a s
  contents : SameContents a s
  mod : s.mod = a.mod
  dieUp : s.dieUp = a.dieUp
  phase : ∀ p, (s.part p).phase = (a.part p).phase

namespace Passing
variable {K : Nat → Prop} {a s t : State} {β : Type}

theorem refl : Passing K a a := ⟨.refl, sameContents_refl a, rfl, rfl, fun _ => rfl⟩

theorem get (h : Passing K a s) {f : Fld} {i j : Nat} (hk : K (f.reg.off i j)) : s.get f i j = a.get f i j := h.regs.get hk

theorem set {f : Fld} {v i j : Nat} (h : Passing K a s) (hk : ¬ K (f.reg.off i j)) : Passing K a (s.set f v i j) :=
  { h with regs := h.regs.set hk }

theorem count {f : Fld} {v i j : Nat} (h : Passing K a s) (hk : ¬ K (f.reg.off i j)) : Passing K a (s.count f v i j) := h.set hk

theorem keep {pans stks tick age} (h : Passing K a s) : Passing K a { s with pans, stks, tick, age } := { h with }

theorem setStack {i : Nat} {k : StackSt} (h : Passing K a s) : Passing K a (s.setStack i k) := h.keep

theorem setPart {p : Nat} {k : PartSt} (h : Passing K a s) (hk : k.phase = (s.part p).phase) : Passing K a (s.setPart p k) := by
  refine { h with phase := fun q => ?_ }
  rw [← h.phase q]
  by_cases e : q = p
  · subst e
    by_cases hq : q < s.parts.length
    · rw [part_setPart_same s q k hq, hk]
    · simp only [State.part, State.setPart, setNth, List.set_eq_of_length_le (Nat.not_lt.1 hq)]
  · rw [part_setPart_ne s p q k e]

/-- The clock of a core. -/
theorem setCyc {c n : Nat} (h : Passing K a s) : Passing K a (s.setCore c { s.core c with cyc := n }) := by
  obtain ⟨mem, host, cores⟩ := h.contents
  refine { h with contents := ⟨mem, host, fun i => ?_⟩ }
  have same : ((s.setCore c { s.core c with cyc := n }).core i).x = (s.core i).x ∧
      ((s.setCore c { s.core c with cyc := n }).core i).td = (s.core i).td ∧
      ((s.setCore c { s.core c with cyc := n }).core i).trf = (s.core i).trf ∧
      ((s.setCore c { s.core c with cyc := n }).core i).pc = (s.core i).pc ∧
      ((s.setCore c { s.core c with cyc := n }).core i).stq = (s.core i).stq := by
    by_cases e : i = c
    · subst e
      by_cases hi : i < s.cores.length
      · rw [core_setCore_same s i _ hi]
        exact ⟨rfl, rfl, rfl, rfl, rfl⟩
      · simp only [State.core, State.setCore, setNth, List.set_eq_of_length_le (Nat.not_lt.1 hi), and_self]
    · rw [core_setCore_ne s c i _ e]
      exact ⟨rfl, rfl, rfl, rfl, rfl⟩
  obtain ⟨x, td, trf, pc, stq⟩ := same
  obtain ⟨x', td', trf', pc', stq'⟩ := cores i
  exact ⟨x.trans x', td.trans td', trf.trans trf', pc.trans pc', stq.trans stq'⟩

section
variable {c : Prop} [Decidable c]

theorem ite {x y : State} (hx : Passing K a x) (hy : Passing K a y) : Passing K a (if c then x else y) := by split; exacts [hx, hy]
theorem when {x : State} (h : Passing K a s) (k : Passing K a s → Passing K a x) : Passing K a (if c then x else s) := ite (k h) h

end

theorem foldl {l : List β} {f : State → β → State} (h : Passing K a s) (k : ∀ s x, Passing K a s → Passing K a (f s x)) :
    Passing K a (l.foldl f s) := by
  induction l generalizing s with
  | nil => exact h
  | cons x l ih => exact ih (k s x h)

theorem account {p i n} (h : Passing K a s) : Passing K a (s.account p i n) := by
  unfold State.account
  split
  exacts [.setPart h rfl, h]

theorem runs (h : Passing K a s) (hk : K Reg.THERM_STAT.base) (d : Nat) : s.runs d = a.runs d := by
  have hold : s.get Fld.THERM_STAT.HOLD = a.get Fld.THERM_STAT.HOLD := h.get (f := Fld.THERM_STAT.HOLD) (i := 0) (j := 0) hk
  simp only [State.runs, State.is, h.mod, h.dieUp, hold]

end Passing

/-- The registers of the sluices' scales and of the rakes, and the thermal hold. -/
abbrev PassRegs (o : Nat) : Prop := (0x300000 ≤ o ∧ o < 0x600000 ∧ o % 0x40 ≠ 0x20) ∨ o = Reg.THERM_STAT.base

theorem not_passRegs_of_base_le {r : Reg} (h : 0x700020 ≤ r.base) (i j : Nat) : ¬ PassRegs (r.off i j) := by
  have base : Reg.THERM_STAT.base = 0x700018 := rfl
  have off := base_le_off r i j
  simp only [PassRegs, base]
  omega

theorem not_passRegs_slStall (i j : Nat) : ¬ PassRegs (Reg.SL_STALL.off i j) := by
  have base : Reg.THERM_STAT.base = 0x700018 := rfl
  have off : Reg.SL_STALL.off i j = 0x301020 + i * 0x1000 + j * 0x40 := rfl
  simp only [PassRegs, base, off]
  omega

section
variable {a s : State}

theorem Passing.refill {i n} (h : Passing PassRegs a s) : Passing PassRegs a (s.refill i n) :=
  .ite h (.setStack (.foldl h fun _ _ h => .count h (not_passRegs_slStall _ _)))

theorem Passing.clockCore {c n} (h : Passing PassRegs a s) : Passing PassRegs a (s.clockCore c n) :=
  .ite h (.when (.setCyc h) fun h => .count h (not_passRegs_of_base_le (by decide) _ _))

theorem Passing.slewBy {K : Nat → Prop} {n} (h : Passing K a s) : Passing K a (s.slewBy n) := .ite h (.keep h)

theorem Passing.ageNs {n} (h : Passing PassRegs a s) : Passing PassRegs a (s.ageNs n) :=
  .ite (.count (.keep h) (not_passRegs_of_base_le (by decide) _ _)) h

end

/-! ### Sluices -/

theorem stks_foldl_count (fld : Fld) (i : Nat) (v : Nat → Nat) (l : List Nat) (s : State) :
    (l.foldl (fun s x => s.count fld (v x) i x) s).stks = s.stks := by
  induction l generalizing s with
  | nil => rfl
  | cons x l ih => exact ih _

theorem sluiceRise_fst (rate cap level : Int) (n : Nat) : (sluiceRise rate cap level n).1 =
    if level + rate * n ≤ cap then level + rate * n else if cap < level then level else cap := by
  dsimp only [sluiceRise]
  split_ifs <;> omega

/-- What a stack becomes in n nanoseconds: its levels as they rise, its bucket, and the rest as it was. -/
theorem refill_spec (s : State) (i n : Nat) (hi : i < s.stks.length) (runs : s.runs (dieOfStack i) = true) :
    (∀ sl, sl < 17 → nth 0 ((s.refill i n).stack i).level sl = levelAfter s i sl n) ∧
      ((s.refill i n).stack i).rakeCarry = (s.stack i).rakeCarry := by
  unfold State.refill
  rw [runs, if_neg (by decide)]
  extract_lets k scale rise u cap b
  have hu : i < u.stks.length := by rw [show u.stks = s.stks from stks_foldl_count _ _ _ _ _]; exact hi
  clear_value u
  rw [stack_setStack_same _ _ _ hu]
  refine ⟨fun sl hsl => ?_, rfl⟩
  rw [nth_map_upFrom _ _ hsl]
  change (sluiceRise _ _ _ n).1 = _
  rw [sluiceRise_fst, ← Nat.cast_mul]
  rfl

theorem stack_refill_ne (s : State) (i j n : Nat) (h : j ≠ i) : (s.refill j n).stack i = s.stack i := by
  unfold State.refill
  split
  · rfl
  · extract_lets k scale rise u
    rw [stack_setStack_ne _ _ _ _ (Ne.symm h), State.stack, show u.stks = s.stks from stks_foldl_count _ _ _ _ _]
    rfl

/-! ### The state before what goes on -/

/-- n nanoseconds of TICK_COUNT, before what goes on of the running steps. -/
def State.elapse (s : State) (n : Nat) : State :=
  let s := s.set Fld.TICK_COUNT.COUNT (s.now + n)
  let s := (upFrom 0 20).foldl (fun s t => s.refill t n) s
  let s := (upFrom 0 12).foldl (fun s c => s.clockCore c (s.refNs n)) s
  let s := s.clockPans (s.refNs n)
  let s := (s.transmit (1000 * n)).working.foldl (fun s e => s.account (some e.2) e.1 n) s
  let s := (s.slewBy n).ageNs n
  if s.inLeap then { s with tick := { s.tick with leapNs := s.tick.leapNs + n } } else s

theorem passNs_zero (s : State) : s.passNs 0 = s := if_pos rfl

theorem passNs_eq (s : State) {n : Nat} (h : n ≠ 0) : s.passNs n = (s.elapse n).goOn := if_neg h

/-- The stacks as they are when the registers of a moment have risen. -/
def State.refilled (s : State) (n : Nat) : State := (upFrom 0 20).foldl (fun s t => s.refill t n) (s.set Fld.TICK_COUNT.COUNT (s.now + n))

theorem steady_elapse (s : State) (n : Nat) : Steady (s.set Fld.TICK_COUNT.COUNT (s.now + n)) (s.elapse n) :=
  .when
    (.ageNs <|
      .ite (.foldl (.keep <| .foldl (.foldl .refl fun _ _ h => .refill h) fun _ _ h => .clockCore h) fun _ _ h => .account h)
        (.keep <| .foldl (.keep <| .foldl (.foldl .refl fun _ _ h => .refill h) fun _ _ h => .clockCore h) fun _ _ h => .account h))
    fun h => .keep h

theorem steady_passNs (s : State) {n : Nat} (h : n ≠ 0) : Steady (s.set Fld.TICK_COUNT.COUNT (s.now + n)) (s.passNs n) := by
  rw [passNs_eq s h]
  exact .goOn (steady_elapse s n)

theorem passing_refilled (s : State) (n : Nat) : Passing PassRegs s (s.refilled n) :=
  .foldl (.set .refl (by decide)) fun _ _ h => .refill h

theorem passing_elapse (s : State) (n : Nat) : Passing PassRegs s (s.elapse n) :=
  .when
    (.ageNs <|
      .slewBy <| .foldl (.keep <| .foldl (passing_refilled s n) fun _ _ h => .clockCore h) fun _ _ h => .account h)
    fun h => .keep h

theorem stks_elapse (s : State) (n : Nat) : (s.elapse n).stks = (s.refilled n).stks := by
  have clock (s : State) (c n : Nat) : (s.clockCore c n).stks = s.stks := by
    unfold State.clockCore
    split
    · rfl
    · extract_lets
      split <;> rfl
  have clocks (l : List Nat) (s : State) : (l.foldl (fun s c => s.clockCore c (s.refNs n)) s).stks = s.stks := by
    induction l generalizing s with
    | nil => rfl
    | cons c l ih => exact (ih _).trans (clock _ _ _)
  have account (s : State) (p i n : Nat) : (s.account (some p) i n).stks = s.stks := rfl
  have accounts (l : List (Nat × Nat)) (s : State) : (l.foldl (fun s e => s.account (some e.2) e.1 n) s).stks = s.stks := by
    induction l generalizing s with
    | nil => rfl
    | cons e l ih => exact (ih _).trans (account _ _ _ _)
  have slew (s : State) : (s.slewBy n).stks = s.stks := by unfold State.slewBy; extract_lets; split <;> rfl
  have age (s : State) : (s.ageNs n).stks = s.stks := by unfold State.ageNs; split <;> rfl
  have leap (s : State) : (if s.inLeap then { s with tick := { s.tick with leapNs := s.tick.leapNs + n } } else s).stks = s.stks := by
    split <;> rfl
  unfold State.elapse
  extract_lets u1 u2 u3 u4 u5 u6
  rw [leap, age, slew, accounts]
  have h3 : u3.stks = u2.stks := clocks _ _
  have h2 : u2 = s.refilled n := rfl
  rw [← h2]
  clear_value u3 u2
  exact h3

/-! ### No step active -/

theorem phase_of_le (s : State) (wf : s.Wf) {p : Nat} (h : 16 ≤ p) : (s.part p).phase = .idle := by
  rw [State.part, nth, List.getElem?_eq_none (by rw [wf.parts]; exact h)]
  rfl

theorem runXfer_of_rest (s : State) (c : Nat) (h : ∀ p, (s.part p).phase ≠ .active) : s.runXfer c = s := by
  unfold State.runXfer
  split
  · split
    · rename_i p _ _ _ _ _ _ _
      simp [h p]
    · rfl
  · rfl

/-- Nothing goes on where no step is active. -/
theorem goOn_of_rest (s : State) (h : ∀ p, (s.part p).phase ≠ .active) : s.goOn = s := by
  have xfers (l : List Nat) : l.foldl (fun s c => s.runXfer c) s = s := by
    induction l with
    | nil => rfl
    | cons c l ih => rw [List.foldl_cons, runXfer_of_rest s c h, ih]
  have none : (upFrom 0 16).filter (fun p => (s.part p).phase = .active) = [] := List.filter_eq_nil_iff.2 fun p _ => by simp [h p]
  unfold State.goOn
  extract_lets u
  rw [show u = s from xfers _, none]
  rfl

theorem passNs_of_rest (s : State) (wf : s.Wf) {n : Nat} (hn : n ≠ 0) (h : ∀ p, p < 16 → (s.part p).phase ≠ .active) :
    s.passNs n = s.elapse n := by
  rw [passNs_eq s hn]
  refine goOn_of_rest _ fun p => ?_
  rw [(passing_elapse s n).phase p]
  by_cases hp : p < 16
  · exact h p hp
  · rw [phase_of_le s wf (Nat.not_lt.1 hp)]
    decide

/-- R217: the levels of a stack whose die runs, where nothing goes on. -/
theorem elapse_levels (s : State) (wf : s.Wf) (n : Nat) (i : Fin 20) (runs : s.runs (dieOfStack i) = true) :
    (∀ sl, sl < 17 → nth 0 ((s.elapse n).stack i).level sl = levelAfter s i sl n) ∧
      ((s.elapse n).stack i).rakeCarry = (s.stack i).rakeCarry := by
  obtain ⟨u, ⟨uwf, passing⟩, stack, last⟩ := foldl_at (fun s => s.stack i) (fun s t => s.refill t n) i
    (fun u => u.Wf ∧ Passing PassRegs s u) (fun _ _ h => ⟨.refill h.1, .refill h.2⟩) (fun s t h => stack_refill_ne s i t n h)
    (nodup_upFrom 0 20) (mem_upFrom.2 ⟨Nat.zero_le _, by omega⟩) (s := s.set Fld.TICK_COUNT.COUNT (s.now + n))
    ⟨.set wf, .set .refl (by decide)⟩
  have eq : (s.elapse n).stack i = (u.refill i n).stack i := by
    rw [← last, State.stack, stks_elapse]
    rfl
  have scale : u.get Fld.SL_SCALE.SCALE i = s.get Fld.SL_SCALE.SCALE i := passing.get (by
    have off : Reg.SL_SCALE.off i 0 = 0x301800 + i * 0x1000 := rfl
    change PassRegs (Reg.SL_SCALE.off i 0)
    rw [off]
    left
    omega)
  obtain ⟨levels, carry⟩ := refill_spec u i n (by rw [uwf.stks]; exact i.isLt) (by rw [passing.runs (.inr rfl), runs])
  change u.stack i = s.stack i at stack
  rw [eq]
  refine ⟨fun sl hsl => ?_, by rw [carry, stack]⟩
  rw [levels sl hsl]
  simp only [levelAfter, stack, scale]

end Sys2Proof.Machine
end

section
/-! SUPPORT. What a base tick boundary leaves: power, repairs due, notices and the reckoning (O35). -/
namespace Sys2Proof.Machine
open Sys2Proof Sys2Proof.Spec

/-- TICK_COUNT and BTICK_NUM, the postponements of the HOST sluices and the debts of the rakes. -/
abbrev BoundRegs (o : Nat) : Prop :=
  o ≤ 8 ∨ (0x301000 ≤ o ∧ o < 0x315000 ∧ o % 0x1000 = 0x400) ∨ (0x501000 ≤ o ∧ o < 0x502400 ∧ o % 0x100 = 0x28)

theorem not_boundRegs {r : Reg} (h : 0x502400 ≤ r.base) (i j : Nat) : ¬ BoundRegs (r.off i j) := by
  have off := base_le_off r i j
  simp only [BoundRegs]
  omega

theorem not_boundRegs_slScale (i : Nat) : ¬ BoundRegs (Reg.SL_SCALE.off i 0) := by
  have off : Reg.SL_SCALE.off i 0 = 0x301800 + i * 0x1000 := rfl
  simp only [BoundRegs, off]
  omega

theorem not_boundRegs_stepState (p : Nat) : ¬ BoundRegs (Reg.STEP_STATE.off p 0) := by
  have off : Reg.STEP_STATE.off p 0 = 0x1010 + p * 0x100 := rfl
  simp only [BoundRegs, off]
  omega

theorem not_boundRegs_errLog (prod : Nat) {j : Nat} (hj : j < 4) : ¬ BoundRegs (Reg.ERR_LOG.off (prod % 64) j) := by
  have off : Reg.ERR_LOG.off (prod % 64) j = 0x401000 + prod % 64 * 0x20 + j * 0x8 := rfl
  have slot : prod % 64 < 64 := Nat.mod_lt _ (by decide)
  simp only [BoundRegs, off]
  omega

namespace Calm
variable {K : Nat → Prop} {a s t : State}

/-- A register beyond the rakes' set. -/
theorem setFar {f : Fld} {v i j : Nat} (h : Calm BoundRegs a s) (hr : 0x502400 ≤ f.reg.base := by decide) :
    Calm BoundRegs a (s.set f v i j) := h.set (not_boundRegs hr i j)

/-! ### Messages and records -/

theorem msix {vec} (h : Calm BoundRegs a s) : Calm BoundRegs a (s.msix vec) := .ite (.setFar (.keep h)) (.keep h)

theorem sendDev {d m} (h : Calm K a s) : Calm K a (s.sendDev d m) := .ite (.ite h (.keep (.keep h))) h

theorem doorNotice {pend} (h : Calm K a s) : Calm K a (s.doorNotice pend) := .sendDev (.keep h)

theorem ringHost {b} (h : Calm BoundRegs a s) : Calm BoundRegs a (s.ringHost b) :=
  .set (.ite (.foldl (.set h (by decide)) fun _ _ h => .doorNotice h)
    (.ite (.foldl (.set h (by decide)) fun _ _ h => .msix h) (.set h (by decide)))) (by decide)

theorem post {r} (h : Calm BoundRegs a s) : Calm BoundRegs a (s.post r) :=
  .ite (.set (.bump h (by decide)) (by decide)) <|
    .set
      (.setWord
        (.setWord
          (.setWord (.setWord h (not_boundRegs_errLog _ (by decide))) (not_boundRegs_errLog _ (by decide)))
          (not_boundRegs_errLog _ (by decide)))
        (not_boundRegs_errLog _ (by decide)))
      (by decide)

/-! ### Power (R434–R444) -/

theorem publish {d} (h : Calm BoundRegs a s) : Calm BoundRegs a (s.publish d) := .setFar (.setDpower h)

theorem oppNext {d} (h : Calm BoundRegs a s) : Calm BoundRegs a (s.oppNext d) := by
  unfold State.oppNext
  extract_lets
  split
  exacts [.setFar (.setFar h), .setWord h (not_boundRegs (by decide) _ _)]

theorem clockSwitch {d} (h : Calm BoundRegs a s) : Calm BoundRegs a (s.clockSwitch d) := by
  unfold State.clockSwitch
  extract_lets
  split
  exacts [.ite h (.setFar (.setDpower h)), h]

theorem followPlan {d} (h : Calm BoundRegs a s) : Calm BoundRegs a (s.followPlan d) :=
  .oppNext <|
    .foldl
      (.setDpower <| .takeOpp (.ite (.setDpower (.setFar h)) (.clockSwitch h)) (not_boundRegs (by decide) _ _))
      fun _ _ h => .when h fun h => .set h (not_boundRegs_slScale _)

theorem limitAverage {mw} (h : Calm BoundRegs a s) : Calm BoundRegs a (s.limitAverage mw) :=
  .when (.setFar (.keep h)) fun h => .setFar (.when h fun h => .setFar h)

theorem powerBoundary (h : Calm BoundRegs a s) : Calm BoundRegs a s.powerBoundary :=
  .when
    (.foldl (.ite h (by split; exacts [.limitAverage h, .setFar (.limitAverage h)]))
      fun _ _ h => .when h fun h => .followPlan (.publish h))
    fun h => .setFar h

theorem resendNotices (h : Calm K a s) : Calm K a s.resendNotices := .foldl (.keep h) fun _ _ h => .doorNotice h

/-! ### Claims and the reckoning (R53, R450–R457) -/

theorem carryClaim (h : Calm BoundRegs a s) : Calm BoundRegs a s.carryClaim := .set (.tickWith h rfl rfl) (by decide)

theorem tickClaimed {b} (h : Calm K a s) : Calm K a { s with tick := { s.tick with claimed := b } } := .tickWith h rfl rfl

theorem tickWork {l} (h : Calm K a s) : Calm K a { s with tick := { s.tick with work := l } } := .tickWith h rfl rfl

theorem claimLeap {reason len} (h : Calm BoundRegs a s) : Calm BoundRegs a (s.claimLeap reason len) :=
  .ite (.when (.set (.tickWork h) (by decide)) fun h => .carryClaim h)
    (.when
      (.tickClaimed <|
        .ringHost <|
          .set (.set (.set (.set (.tickWork h) (by decide)) (by decide)) (by decide)) (by decide))
      fun h => .carryClaim h)

theorem claimReckoning {trigger} (h : Calm BoundRegs a s) : Calm BoundRegs a (s.claimReckoning trigger) :=
  .whenNot h fun h => .claimLeap <| .setFar (.keep h)

theorem addRemap {i key spare} (h : Calm BoundRegs a s) : Calm BoundRegs a (s.addRemap i key spare) :=
  .setFar (.setFar (.setStack h rfl rfl))

theorem repairRows {i l} (h : Calm BoundRegs a s) : Calm BoundRegs a (s.repairRows i l).2 := by
  induction l generalizing s with
  | nil => exact h
  | cons key l ih =>
    unfold State.repairRows
    extract_lets
    split
    · exact ih (.keep (.addRemap <| .setStack h rfl rfl))
    · exact ih h

theorem reckonStack {i} (h : Calm BoundRegs a s) : Calm BoundRegs a (s.reckonStack i).2 := .when (.repairRows h) fun h => .setFar h

theorem setVt {d i vt f} (h : Calm BoundRegs a s) : Calm BoundRegs a (s.setVt d i vt f) := .setFar (.setFar (.setFar h))

theorem haltPart {p quiesce} (h : Calm BoundRegs a s) : Calm BoundRegs a (s.haltPart p quiesce) :=
  .setPart (.set h (not_boundRegs_stepState p))

theorem wearOut {d} (h : Calm BoundRegs a s) : Calm BoundRegs a (s.wearOut d) :=
  .foldl (.setFar (.setFar (.keep (.setVt h)))) fun _ _ h => .post <| .haltPart h

theorem reckonDie {r d} (h : Calm BoundRegs a s) : Calm BoundRegs a (s.reckonDie r d) :=
  .when (.whenNot (.foldl (.foldl h fun _ _ h => .setVt h) fun _ _ h => .setFar h) fun h => .setFar h) fun h => .wearOut h

theorem finishReckoning {r dies ws} (h : Calm BoundRegs a s) : Calm BoundRegs a (s.finishReckoning r dies ws) := by
  unfold State.finishReckoning
  extract_lets body ks base _ s1 _ s2 s3 _ s4
  have h3 : Calm BoundRegs a s3 := .setFar (.tickWork (.keep h))
  have h4 : Calm BoundRegs a s4 :=
    .ite (.writeLog h3 (not_boundRegs (by decide) _ _) fun i _ => not_boundRegs (by decide) _ _) (.setFar (.keep h3))
  exact .ringHost <| .setFar (.setFar h4)

theorem cutReckoning {trigger} (h : Calm BoundRegs a s) : Calm BoundRegs a (s.cutReckoning trigger) :=
  .claimReckoning <| .setFar <| .setFar <| .tickWork (.keep h)

theorem applyReckoning {r} (h : Calm BoundRegs a s) : Calm BoundRegs a (s.applyReckoning r) := by
  unfold State.applyReckoning
  extract_lets whole dies s1
  have h1 : Calm BoundRegs a s1 := .foldl h fun _ _ h => .reckonDie h
  clear_value s1
  refine .ite (.cutReckoning h) ?_
  split
  rename_i e
  have h2 := Calm.of2 e (.foldl2 h1 fun x i h => Calm.reckonStack (s := x.2) (i := i) h)
  exact .whenNot (.finishReckoning (.keep h2)) fun h => .claimReckoning (.setFar h)

theorem reckonTick {k} (h : Calm BoundRegs a s) : Calm BoundRegs a (s.reckonTick k) := by
  unfold State.reckonTick
  split
  · exact h
  · exact .ite (.foldl h fun _ _ h => .when h fun h => .measure h) (.ite (.applyReckoning h) h)

end Calm

end Sys2Proof.Machine
end

section
/-! SUPPORT. A base tick boundary reached by counting (O35). -/
namespace Sys2Proof.Machine
open Sys2Proof Sys2Proof.Spec

/-- The registers but the debts of the rakes. -/
abbrev CreditRegs (o : Nat) : Prop := o % 0x100 ≠ 0x28

section
variable (s : State)

/-- The boundary in force, and its number in BTICK_NUM. -/
def State.opened : State :=
  let u := s.endTick.set Fld.BTICK_NUM.NUM (s.now / s.periodNs)
  { u with tick := { u.tick with bound := s.now / s.periodNs + 1, boundAt := u.now } }

/-- The postponements of every HOST sluice renewed. -/
def State.renewed : State := (upFrom 0 20).foldl (fun s t => s.renewHost t) s

/-- The credit of every rake. -/
def State.credited : State := (upFrom 0 20).foldl (fun s t => s.rakeCredit t) s

/-- What a boundary does after the stacks' part. -/
def State.followed : State :=
  let s := s.powerBoundary.dueRepairs.resendNotices
  if s.inLeap then s.reckonTick (s.tick.leapNs / Nat.max 1 s.periodNs) else s

theorem boundary_eq : s.boundary = s.opened.renewed.credited.followed := by
  unfold State.boundary
  extract_lets b u _ v w x y
  have opened : v = s.opened := rfl
  have renewed : w = v.renewed := rfl
  have credited : x = w.credited := rfl
  rw [← opened, ← renewed, ← credited]
  clear_value x
  rfl

theorem calm_followed : Calm BoundRegs s s.followed := .when (.resendNotices <| .keep <| .powerBoundary .refl) fun h => .reckonTick h

/-! ### The number of the base tick -/

theorem csr_endTick : s.endTick.csr = s.csr := by unfold State.endTick; split <;> rfl

theorem opened_frame : ∃ csr parts tick, s.opened = { s with csr := csr, parts := parts, tick := tick } := by
  have ended : ∃ parts, s.endTick = { s with parts := parts } := by unfold State.endTick; split; exacts [⟨_, rfl⟩, ⟨_, rfl⟩]
  obtain ⟨parts, e⟩ := ended
  unfold State.opened
  rw [e]
  exact ⟨_, _, _, rfl⟩

theorem opened_spec (wf : smWf 0#64 s.csr = true) (us : 100 ≤ s.get Fld.TICK_PERIOD.PERIOD_US) :
    s.opened.get Fld.BTICK_NUM.NUM = s.get Fld.TICK_COUNT.COUNT / (s.get Fld.TICK_PERIOD.PERIOD_US * 1000) ∧
      SameRegs (· ≠ Reg.BTICK_NUM.base) s s.opened := by
  have wf' : smWf 0#64 s.endTick.csr = true := by rw [csr_endTick]; exact wf
  refine ⟨?_, .trans (.of_csr (csr_endTick s)) (.set (t := s.endTick) .refl fun h => h rfl)⟩
  exact (get_set_same s.endTick Fld.BTICK_NUM.NUM _ 0 0 wf' (by decide) (by decide)).trans (btick_fits (get_lt _ _ _ _) us)

/-! ### The HOST sluices -/

theorem renewed_frame : ∃ stks, s.renewed = { s with stks := stks } := by
  unfold State.renewed
  generalize upFrom 0 20 = l
  induction l generalizing s with
  | nil => exact ⟨_, rfl⟩
  | cons t l ih => exact ih (s.renewHost t)

/-- R213: what a boundary renews of a stack. -/
theorem renewed_stack (wf : s.Wf) (i : Fin 20) :
    nth 0 (s.renewed.stack i).deferLeft 16 = s.get Fld.SL_CFG.REF_DEFER i 16 ∧ (s.renewed.stack i).level = (s.stack i).level ∧
      (s.renewed.stack i).rakeCarry = (s.stack i).rakeCarry := by
  obtain ⟨u, ⟨uwf, csr⟩, stack, last⟩ := foldl_at (fun s => s.stack i) (fun s t => s.renewHost t) i
    (fun u => u.Wf ∧ u.csr = s.csr) (fun _ _ h => ⟨.renewHost h.1, h.2⟩)
    (fun s t h => stack_setStack_ne _ _ _ _ (Ne.symm h)) (nodup_upFrom 0 20) (mem_upFrom.2 ⟨Nat.zero_le _, by omega⟩) (s := s) ⟨wf, rfl⟩
  change s.renewed.stack i = (u.renewHost i).stack i at last
  change u.stack i = s.stack i at stack
  rw [last, State.renewHost, stack_setStack_same _ _ _ (by rw [uwf.stks]; exact i.isLt), stack]
  refine ⟨?_, rfl, rfl⟩
  dsimp only
  rw [nth_setNth_same _ _ _ _ (by rw [(State.Wf.stack (t := i) wf).deferLeft]; decide), get_of_csr csr]

/-! ### The rakes -/

theorem not_creditRegs_rakeDebt (i : Nat) : ¬ CreditRegs (Reg.RAKE_DEBT.off i 0) := by
  have off : Reg.RAKE_DEBT.off i 0 = 0x501028 + i * 0x100 := rfl
  simp only [CreditRegs, off]
  omega

theorem calm_credited : Calm CreditRegs s s.credited :=
  .foldl .refl fun _ _ h => .whenNot h fun h => .set (.setStack h rfl rfl) (not_creditRegs_rakeDebt _)

theorem passing_rakeCredit {a s : State} {t : Nat} (h : Passing CreditRegs a s) : Passing CreditRegs a (s.rakeCredit t) :=
  .ite h (.set (.setStack h) (not_creditRegs_rakeDebt _))

theorem rakeCredit_ne (s : State) (i t : Nat) (h : t ≠ i) : (s.rakeCredit t).stack i = s.stack i ∧
    (s.rakeCredit t).get Fld.RAKE_DEBT.GRANULES i = s.get Fld.RAKE_DEBT.GRANULES i := by
  unfold State.rakeCredit
  split
  · exact ⟨rfl, rfl⟩
  · extract_lets k c debt max
    refine ⟨stack_setStack_ne _ _ _ _ (Ne.symm h), get_set_ne _ _ _ _ _ _ _ _ fun e => h ?_⟩
    change 0x501028 + i * 0x100 = 0x501028 + t * 0x100 at e
    omega

/-- R298: the debt of a rake whose die runs. -/
theorem credited_debt (wf : s.Wf) (i : Fin 20) (runs : s.runs (dieOfStack i) = true) (on : s.mod.power = .on) :
    s.credited.get Fld.RAKE_DEBT.GRANULES i =
      Nat.min (s.get Fld.RAKE_DEBT.GRANULES i + ((s.stack i).rakeCarry + s.get Fld.RAKE_CFG.LINES_PER_TICK i) / 64)
        (s.get Fld.RAKE_CFG.DEBT_MAX i) := by
  obtain ⟨u, ⟨uwf, passing⟩, same, last⟩ := foldl_at (fun s => (s.stack i, s.get Fld.RAKE_DEBT.GRANULES i)) (fun s t => s.rakeCredit t) i
    (fun u => u.Wf ∧ Passing CreditRegs s u) (fun _ _ h => ⟨.rakeCredit h.1, passing_rakeCredit h.2⟩)
    (fun s t h => Prod.ext (rakeCredit_ne s i t h).1 (rakeCredit_ne s i t h).2) (nodup_upFrom 0 20)
    (mem_upFrom.2 ⟨Nat.zero_le _, by omega⟩) (s := s) ⟨wf, .refl⟩
  obtain ⟨stack, debt⟩ := Prod.ext_iff.1 same
  have cfg : CreditRegs (Reg.RAKE_CFG.off i 0) := by
    have off : Reg.RAKE_CFG.off i 0 = 0x501000 + i * 0x100 := rfl
    simp only [CreditRegs, off]
    omega
  have lines : u.get Fld.RAKE_CFG.LINES_PER_TICK i = s.get Fld.RAKE_CFG.LINES_PER_TICK i := passing.get cfg
  have most : u.get Fld.RAKE_CFG.DEBT_MAX i = s.get Fld.RAKE_CFG.DEBT_MAX i := passing.get cfg
  have room : u.get Fld.RAKE_CFG.DEBT_MAX i < 2 ^ 16 := get_lt _ _ _ _
  rw [show s.credited.get Fld.RAKE_DEBT.GRANULES i = (u.rakeCredit i).get Fld.RAKE_DEBT.GRANULES i from (Prod.ext_iff.1 last).2]
  unfold State.rakeCredit
  rw [passing.runs (by decide), runs, passing.mod, on, if_neg (by decide)]
  extract_lets k c d max
  rw [get_set_same (u.setStack i _) _ _ _ _ uwf.csr (by decide) (by decide), ← most, ← lines]
  dsimp only at stack debt
  rw [← debt, ← stack]
  exact Nat.mod_eq_of_lt (Nat.lt_of_le_of_lt (Nat.min_le_right _ _) (Nat.lt_of_lt_of_le room (by decide)))

end

end Sys2Proof.Machine
end

section
/-! SUPPORT. Base tick boundaries (O35). -/
namespace Sys2Proof.Machine
open Sys2Proof Sys2Proof.Spec

/-- The nanoseconds to the next boundary end at the next multiple of the period. -/
theorem now_add_toBoundary (s : State) (h : 0 < s.periodNs) : s.toBoundary ≠ 0 ∧ s.now + s.toBoundary = (s.now / s.periodNs + 1) * s.periodNs := by
  have part := Nat.mod_lt s.now h
  have whole := Nat.div_add_mod' s.now s.periodNs
  have next : (s.now / s.periodNs + 1) * s.periodNs = s.now / s.periodNs * s.periodNs + s.periodNs := Nat.succ_mul _ _
  unfold State.toBoundary
  omega

/-- Whether a die runs, by the parts it is asked of. -/
theorem runs_of_frame {s t : State} (die : t.dieUp = s.dieUp) (mod : t.mod = s.mod)
    (hold : t.get Fld.THERM_STAT.HOLD = s.get Fld.THERM_STAT.HOLD) (d : Nat) : t.runs d = s.runs d := by
  simp only [State.runs, State.is, die, mod, hold]

section
variable (s : State)

/-- A register that neither the number, nor the rakes, nor what follows changes. -/
theorem get_boundary {f : Fld} {i j : Nat} (bound : BoundRegs (f.reg.off i j)) (credit : CreditRegs (f.reg.off i j)) :
    s.boundary.get f i j = s.opened.get f i j := by
  obtain ⟨stks, renewed⟩ := renewed_frame s.opened
  rw [boundary_eq, (calm_followed _).get bound, (calm_credited _).get credit, renewed]
  rfl

/-- R30: time and its number at a boundary. -/
theorem boundary_time (wf : smWf 0#64 s.csr = true) (us : 100 ≤ s.get Fld.TICK_PERIOD.PERIOD_US) :
    s.boundary.get Fld.TICK_COUNT.COUNT = s.get Fld.TICK_COUNT.COUNT ∧
      s.boundary.get Fld.BTICK_NUM.NUM = s.get Fld.TICK_COUNT.COUNT / (s.get Fld.TICK_PERIOD.PERIOD_US * 1000) := by
  obtain ⟨number, regs⟩ := opened_spec s wf us
  rw [get_boundary s (by decide) (by decide), get_boundary s (by decide) (by decide)]
  exact ⟨regs.get (by decide), number⟩

theorem wf_opened (wf : s.Wf) : s.opened.Wf := .keep (.set (.endTick wf))

/-- R213: the HOST sluices at a boundary. -/
theorem boundary_deferLeft (wf : s.Wf) (i : Fin 20) :
    nth 0 (s.boundary.stack i).deferLeft 16 = s.boundary.get Fld.SL_CFG.REF_DEFER i 16 := by
  have off : Reg.SL_CFG.off i 16 = 0x301000 + i * 0x1000 + 16 * 0x40 := rfl
  have bound : BoundRegs (Reg.SL_CFG.off i 16) := by
    simp only [BoundRegs, off]
    omega
  have credit : CreditRegs (Reg.SL_CFG.off i 16) := by
    simp only [CreditRegs, off]
    omega
  rw [get_boundary s bound credit, boundary_eq, (calm_followed _).deferLeft, (calm_credited _).deferLeft]
  exact (renewed_stack s.opened (wf_opened s wf) i).1

/-- What programs see, and the levels of the sluices, at a boundary. -/
theorem boundary_contents (wf : s.Wf) : SameContents s s.boundary ∧ ∀ i : Fin 20, (s.boundary.stack i).level = (s.stack i).level := by
  obtain ⟨csr, parts, tick, opened⟩ := opened_frame s
  obtain ⟨stks, renewed⟩ := renewed_frame s.opened
  have start : SameContents s s.opened := by rw [opened]; exact sameContents_refl s
  have stk (i : Nat) : s.opened.stack i = s.stack i := by rw [opened]; rfl
  have more : SameContents s.opened s.opened.renewed := by rw [renewed]; exact sameContents_refl _
  rw [boundary_eq]
  refine ⟨?_, fun i => ?_⟩
  · exact sameContents_trans (sameContents_trans start more) <|
      sameContents_trans (calm_credited _).contents (calm_followed _).contents
  · rw [(calm_followed _).level, (calm_credited _).level, (renewed_stack s.opened (wf_opened s wf) i).2.1, stk]

/-- R298: the debt of a rake at a boundary. -/
theorem boundary_debt (wf : s.Wf) (us : 100 ≤ s.get Fld.TICK_PERIOD.PERIOD_US) (i : Fin 20) (runs : s.runs (dieOfStack i) = true)
    (on : s.mod.power = .on) :
    s.boundary.get Fld.RAKE_DEBT.GRANULES i =
      Nat.min (s.get Fld.RAKE_DEBT.GRANULES i + ((s.stack i).rakeCarry + s.get Fld.RAKE_CFG.LINES_PER_TICK i) / 64)
        (s.get Fld.RAKE_CFG.DEBT_MAX i) := by
  obtain ⟨csr, parts, tick, opened⟩ := opened_frame s
  obtain ⟨stks, renewed⟩ := renewed_frame s.opened
  obtain ⟨-, regs⟩ := opened_spec s wf.csr us
  obtain ⟨die, mod, stk⟩ : s.opened.dieUp = s.dieUp ∧ s.opened.mod = s.mod ∧ s.opened.stack i = s.stack i := by
    rw [opened]; exact ⟨rfl, rfl, rfl⟩
  obtain ⟨die', mod', csr'⟩ : s.opened.renewed.dieUp = s.opened.dieUp ∧ s.opened.renewed.mod = s.opened.mod ∧
      s.opened.renewed.csr = s.opened.csr := by rw [renewed]; exact ⟨rfl, rfl, rfl⟩
  have owf := wf_opened s wf
  have rwf : s.opened.renewed.Wf := .foldl owf fun _ _ h => .renewHost h
  have debtOff : Reg.RAKE_DEBT.off i 0 = 0x501028 + i * 0x100 := rfl
  have cfgOff : Reg.RAKE_CFG.off i 0 = 0x501000 + i * 0x100 := rfl
  have number : Reg.BTICK_NUM.base = 8 := rfl
  have bound : BoundRegs (Reg.RAKE_DEBT.off i 0) := by
    simp only [BoundRegs, debtOff]
    omega
  have same {f : Fld} {j : Nat} (h : f.reg.off j 0 ≠ Reg.BTICK_NUM.base) : s.opened.renewed.get f j = s.get f j :=
    (get_of_csr csr' f j 0).trans (regs.get h)
  have running : s.opened.renewed.runs (dieOfStack i) = true := by
    rw [runs_of_frame (die'.trans die) (mod'.trans mod) (same (by decide)), runs]
  rw [boundary_eq, (calm_followed _).get bound, credited_debt _ rwf i running (by rw [mod', mod, on]),
    (renewed_stack _ owf i).2.2, stk]
  have debtNe : Reg.RAKE_DEBT.off i 0 ≠ Reg.BTICK_NUM.base := by omega
  have cfgNe : Reg.RAKE_CFG.off i 0 ≠ Reg.BTICK_NUM.base := by omega
  rw [same (f := Fld.RAKE_DEBT.GRANULES) debtNe, same (f := Fld.RAKE_CFG.LINES_PER_TICK) cfgNe, same (f := Fld.RAKE_CFG.DEBT_MAX) cfgNe]

/-! ### Time that passes to a boundary -/

/-- R29: TICK_COUNT counts the nanoseconds that pass, in their period. -/
theorem passNs_time (wf : smWf 0#64 s.csr = true) {n : Nat} (fits : s.get Fld.TICK_COUNT.COUNT + n < 2 ^ 64) :
    (s.passNs n).get Fld.TICK_COUNT.COUNT = s.get Fld.TICK_COUNT.COUNT + n ∧
      (s.passNs n).get Fld.TICK_PERIOD.PERIOD_US = s.get Fld.TICK_PERIOD.PERIOD_US := by
  by_cases h : n = 0
  · subst h
    rw [passNs_zero]
    exact ⟨rfl, rfl⟩
  · have steady := steady_passNs s h
    rw [steady.get (by decide), steady.get (by decide), get_set_same _ _ _ _ _ wf (by decide) (by decide),
      get_set_of_base_ne _ _ _ _ _ _ (by decide) (by decide)]
    exact ⟨Nat.mod_eq_of_lt fits, rfl⟩

end

theorem exec_baseTickBoundary (s : State) (power : s.mod.power ≠ .dark) :
    exec .baseTickBoundary s = .next (s.passNs s.toBoundary).boundary := by
  have ticks : s.mod.power.ticks = true := by
    cases h : s.mod.power
    case dark => exact absurd h power
    all_goals rfl
  change occurs s.mod.power.ticks s (s.passNs s.toBoundary).boundary = _
  rw [ticks, occurs_true]

/-- Settles O35: time passes to the boundary, which no engine alters, whatever step is active; then the boundary, part by part. Where no
step is active the time that passes moves the sluices alone, of what the statement asks. -/
theorem baseTickBoundaries : Obligations.BaseTickBoundaries := by
  intro s sound power us ns b lo _ fits
  have wf := (sound_iff_wf s).1 sound
  have period : 0 < s.periodNs := Nat.mul_pos (Nat.lt_of_lt_of_le (by decide) lo) (by decide)
  obtain ⟨nonzero, reach⟩ := now_add_toBoundary s period
  have reach' : s.get Fld.TICK_COUNT.COUNT + s.toBoundary = b * ns := reach
  have pwf : (s.passNs s.toBoundary).Wf := .passNs wf
  obtain ⟨count, same⟩ := passNs_time s wf.csr (n := s.toBoundary) (by rw [reach']; exact fits)
  have plo : 100 ≤ (s.passNs s.toBoundary).get Fld.TICK_PERIOD.PERIOD_US := by rw [same]; exact lo
  obtain ⟨time, number⟩ := boundary_time _ pwf.csr plo
  refine ⟨_, exec_baseTickBoundary s power, ?_, ?_, boundary_deferLeft _ pwf, fun rests => ?_⟩
  · rw [time, count, reach']
  · rw [number, count, same, reach']
    exact Nat.mul_div_cancel b period
  · have passes := passNs_of_rest s wf nonzero rests
    have passing := passing_elapse s s.toBoundary
    rw [passes] at pwf plo ⊢
    obtain ⟨contents, level⟩ := boundary_contents (s.elapse s.toBoundary) pwf
    refine ⟨sameContents_trans passing.contents contents, fun st runs => ?_⟩
    obtain ⟨levels, carry⟩ := elapse_levels s wf s.toBoundary st runs
    refine ⟨fun sl hsl => ?_, fun on => ?_⟩
    · rw [level, levels sl hsl, ← reach', Nat.add_sub_cancel_left]
    · have debtOff : Reg.RAKE_DEBT.off st 0 = 0x501028 + st * 0x100 := rfl
      have cfgOff : Reg.RAKE_CFG.off st 0 = 0x501000 + st * 0x100 := rfl
      have debtRegs : PassRegs (Reg.RAKE_DEBT.off st 0) := by
        rw [debtOff]
        left
        omega
      have cfgRegs : PassRegs (Reg.RAKE_CFG.off st 0) := by
        rw [cfgOff]
        left
        omega
      rw [boundary_debt _ pwf plo st (by rw [passing.runs (.inr rfl), runs]) (by rw [passing.mod, on]), carry,
        passing.get (f := Fld.RAKE_DEBT.GRANULES) debtRegs, passing.get (f := Fld.RAKE_CFG.LINES_PER_TICK) cfgRegs,
        passing.get (f := Fld.RAKE_CFG.DEBT_MAX) cfgRegs]

end Sys2Proof.Machine
end

section
/-! SUPPORT. The items of a plan, and what an admission makes of one (O39). -/
namespace Sys2Proof.Machine
open Sys2Proof Sys2Proof.Spec

/-! ### Items and their numbers -/

theorem length_upFrom (b n : Nat) : (upFrom b n).length = n := by
  induction n generalizing b with
  | zero => rfl
  | succ n ih => exact congrArg Nat.succ (ih (b + 1))

theorem mem_zip_upFrom {α : Type} {l : List α} {n : Nat} {x : α} : (n, x) ∈ (upFrom 0 l.length).zip l ↔ l[n]? = some x := by
  constructor
  · intro h
    obtain ⟨k, hk⟩ := List.mem_iff_getElem?.1 h
    obtain ⟨number, item⟩ := List.getElem?_zip_eq_some.1 hk
    have room : k < l.length := (List.getElem?_eq_some_iff.1 item).1
    rw [getElem_upFrom 0 _ k room, Option.some_inj, Nat.zero_add] at number
    rw [show n = k from number.symm]
    exact item
  · intro h
    have room : n < l.length := (List.getElem?_eq_some_iff.1 h).1
    refine List.mem_iff_getElem?.2 ⟨n, List.getElem?_zip_eq_some.2 ⟨?_, h⟩⟩
    rw [getElem_upFrom 0 _ n room, Nat.zero_add]

theorem pairwise_upFrom (b n : Nat) : (upFrom b n).Pairwise (· < ·) := by
  induction n generalizing b with
  | zero => exact .nil
  | succ n ih =>
    refine List.pairwise_cons.2 ⟨fun x hx => ?_, ih (b + 1)⟩
    have := (mem_upFrom.1 hx).1
    omega

theorem mem_setInsert {l : List Nat} {q x : Nat} : x ∈ setInsert l q ↔ x = q ∨ x ∈ l := by
  induction l with
  | nil => simp [setInsert]
  | cons k l ih =>
    unfold setInsert
    split
    · rename_i e
      subst e
      simp
    · split
      · simp
      · simp only [List.mem_cons, ih]
        tauto

/-- The items of a plan stand in the order of their numbers. -/
theorem pairwise_planItems (s : State) (p : Nat) : (s.planItems p).Pairwise (fun a b => a.1 < b.1) := by
  unfold State.planItems
  split
  · exact .nil
  · split
    · exact .nil
    · rename_i e _
      refine .filter _ (List.pairwise_map.1 ?_)
      rw [List.map_fst_zip (by rw [length_upFrom])]
      exact pairwise_upFrom 0 _

/-! ### A plan that grows -/

/-- A plan for the same window with at least the items of another. -/
structure Grown (b pl : Plan) : Prop where
  entry : pl.entry = b.entry
  opens : pl.opens = b.opens
  retry : pl.retry = b.retry
  items : ∀ n ∈ b.items, n ∈ pl.items

namespace Grown
variable {a b c : Plan}

theorem refl : Grown a a := ⟨rfl, rfl, rfl, fun _ h => h⟩

theorem trans (h : Grown a b) (g : Grown b c) : Grown a c :=
  ⟨g.entry.trans h.entry, g.opens.trans h.opens, g.retry.trans h.retry, fun n hn => g.items n (h.items n hn)⟩

theorem of_eq (h : b = a) : Grown a b := h ▸ refl

/-- Everything but the window and the items may differ. -/
theorem keep {tokens seqs pages pagesBy fin opp rows reserved swaps} (h : Grown a b) :
    Grown a { b with tokens, seqs, pages, pagesBy, fin, opp, rows, reserved, swaps } := { h with }

end Grown

section
variable {a b : Adm} {c : AdmCfg} {g : Nat} {x : Geom} {e seq : Nat}

theorem plan_place {j t u k : Nat} (h : a.place g x e j = some (t, u, k, b)) : b.plan = a.plan := by
  unfold Adm.place at h
  extract_lets at h
  split at h
  · simp only [Option.some.injEq, Prod.mk.injEq] at h
    obtain ⟨-, -, -, rfl⟩ := h
    rfl
  · cases h

theorem grown_takePages {l : List Nat} (h : a.takePages seq g x e l = some b) : Grown a.plan b.plan := by
  induction l generalizing a with
  | nil =>
    cases h
    exact .refl
  | cons j l ih =>
    unfold Adm.takePages at h
    split at h
    · cases h
    · rename_i d e'
      extract_lets at h
      refine .trans ?_ (ih h)
      exact .keep (b := d.plan) (.of_eq (plan_place e'))

theorem grown_takeAll {n : Nat} {l : List (Nat × Geom)} (h : a.takeAll seq n l = .ok b) : Grown a.plan b.plan := by
  induction l generalizing a with
  | nil =>
    cases h
    exact .refl
  | cons q l ih =>
    unfold Adm.takeAll at h
    extract_lets at h
    split at h
    · cases h
    · rename_i d e'
      have rest := ih h
      exact (grown_takePages e').trans rest

theorem grown_takeRestores {l : List (Nat × Nat × Nat)} (h : a.takeRestores c seq l = .ok b) : Grown a.plan b.plan := by
  induction l generalizing a with
  | nil =>
    cases h
    exact .refl
  | cons q l ih =>
    unfold Adm.takeRestores at h
    split at h
    · cases h
      exact .refl
    · split at h
      · cases h
        exact .refl
      · extract_lets at h
        split at h
        · cases h
        · rename_i e'
          extract_lets at h
          refine .trans ?_ (ih h)
          exact .keep (.of_eq (plan_place e'))

theorem plan_fixSpread (h : a.fixSpread c seq = some b) : b.plan = a.plan := by
  unfold Adm.fixSpread at h
  extract_lets at h
  split at h
  · cases h
    rfl
  · split at h
    · cases h
    · obtain ⟨t, -, rfl⟩ := Option.map_eq_some_iff.1 h
      rfl

theorem grown_preempt {cls stack : Nat} {pans : List Nat} {n : Nat} : Grown a.plan (a.preempt c g x cls stack pans n).plan := by
  induction n generalizing a with
  | zero => exact .refl
  | succ n ih =>
    unfold Adm.preempt
    split
    · exact .refl
    · split
      · exact .refl
      · split
        · exact .refl
        · split
          rename_i e
          cases e
          extract_lets
          refine .trans ?_ ih
          exact .keep .refl

theorem grown_reserve {n : Nat} {restore : Bool} : Grown a.plan (a.reserve c seq n restore).2.plan := by
  unfold Adm.reserve
  extract_lets gs
  split
  · exact .refl
  · rename_i b hb
    have start : Grown a.plan b.plan := by
      split at hb
      · cases hb
        exact .refl
      · exact .of_eq (plan_fixSpread hb)
    split
    · rename_i d hd
      refine start.trans ?_
      split at hd
      · exact grown_takeRestores hd
      · exact grown_takeAll hd
    · split
      · exact .refl
      · have all (l : List (Nat × Geom)) (f : Adm → Nat × Geom → Adm) (hf : ∀ d q, Grown d.plan (f d q).plan) (d : Adm) :
            Grown d.plan (l.foldl f d).plan := by
          induction l generalizing d with
          | nil => exact .refl
          | cons q l ih => exact (hf d q).trans (ih (f d q))
        exact all gs _ (fun _ _ => grown_preempt) a

theorem grown_addRow {r : ServeRow} : Grown a.plan (a.addRow c r).plan := .keep .refl

theorem grown_admitSeqs (s : State) (p : Nat) (l : Limits) (en : AlmEntry) (ringFree : Nat) (cs : List (Nat × Nat)) :
    Grown a.plan (s.admitSeqs p l en c ringFree cs a).2.plan := by
  induction cs generalizing a with
  | nil => exact .refl
  | cons q cs ih =>
    obtain ⟨seq, e⟩ := q
    unfold State.admitSeqs
    extract_lets outs
    split
    · exact .refl
    · split
      · exact ih
      · split
        · split
          · exact ih
          · split
            rename_i e'
            have step : Grown a.plan (a.reserve c seq 0 true).2.plan := grown_reserve
            rw [e'] at step
            split
            · exact .refl
            · exact step.trans ih
        · split
          · exact ih
          · rename_i r _
            have step : Grown a.plan (a.reserve c seq r.ntok false).2.plan := grown_reserve
            split
            · rename_i e'
              rw [e'] at step
              exact step.trans ih
            · rename_i e'
              rw [e'] at step
              extract_lets b
              split
              · exact (step.trans grown_addRow).trans ih
              · exact .refl

end

/-- OPTIONAL items alone come to a plan. -/
theorem admitItems_eq (s : State) (p : Nat) (l : Limits) (en : AlmEntry) (is : List Nat) (pl : Plan) :
    ∃ items, s.admitItems p l en is pl = { pl with items := items } ∧ ∀ n ∈ pl.items, n ∈ items := by
  induction is generalizing pl with
  | nil => exact ⟨pl.items, rfl, fun _ h => h⟩
  | cons i is ih =>
    unfold State.admitItems
    extract_lets t
    split
    · obtain ⟨items, e, more⟩ := ih t
      exact ⟨items, e, fun n h => more n (mem_setInsert.2 (.inr h))⟩
    · exact ⟨pl.items, rfl, fun _ h => h⟩

theorem grown_admitItems (s : State) (p : Nat) (l : Limits) (en : AlmEntry) (is : List Nat) (pl : Plan) :
    Grown pl (s.admitItems p l en is pl) := by
  obtain ⟨items, e, more⟩ := admitItems_eq s p l en is pl
  rw [e]
  exact ⟨rfl, rfl, rfl, more⟩

theorem mem_mandatory {en : AlmEntry} {entry b k n : Nat} {i : AlmItem} (h : en.items[n]? = some i) (must : i.optional = false) :
    n ∈ (en.mandatory entry b k).items := by
  refine List.mem_filterMap.2 ⟨(n, i), mem_zip_upFrom.2 h, ?_⟩
  rw [must]
  rfl

section
variable (s : State) (p entry b k t0 : Nat) (en : AlmEntry)

/-- R60: the plan of an admission holds every mandatory item. -/
theorem grown_admitWindow : Grown (en.mandatory entry b k) (s.admitWindow p entry b k t0 en).1 := by
  unfold State.admitWindow
  extract_lets l _ base opts done
  have start : Grown (en.mandatory entry b k) base := .keep .refl
  have fin (s : State) (pl : Plan) (h : Grown (en.mandatory entry b k) pl) : Grown (en.mandatory entry b k) (done s pl).1 := .keep h
  clear_value done base
  split
  · exact fin _ _ (start.trans (grown_admitItems _ _ _ _ _ _))
  · split
    rename_i live pts s1 _
    extract_lets c a
    split
    rename_i more d e
    have seqs : Grown base d.plan := by
      have h := grown_admitSeqs (a := a) (c := c) s1 p l en (s1.ringFree p 0 - s1.recordsDue p)
        (live.foldl (fun l x => candInsert x l) [])
      rw [e] at h
      exact h
    refine fin _ _ (start.trans (seqs.trans ?_))
    split
    exacts [grown_admitItems _ _ _ _ _ _, .refl]

/-- An admission of a step that serves nothing. -/
theorem admitWindow_of_plain (h : en.serve = false) :
    (s.admitWindow p entry b k t0 en).2 = s ∧ (s.admitWindow p entry b k t0 en).1.tokens = 0 ∧
      (s.admitWindow p entry b k t0 en).1.seqs = 0 := by
  unfold State.admitWindow
  extract_lets l _ base opts done
  rw [h, if_pos (by rfl)]
  obtain ⟨items, e, -⟩ := admitItems_eq s p l en opts base
  rw [e]
  exact ⟨rfl, rfl, rfl⟩

end

end Sys2Proof.Machine
end

section
/-! SUPPORT. What a step boundary leaves, and the window it opens (O39). -/
namespace Sys2Proof.Machine
open Sys2Proof Sys2Proof.Spec

/-- A state with the time registers and those of the step controller of another, memory and time themselves, and of partition p's step
what its next window turns on. -/
structure Bounded (p : Nat) (s t : State) : Prop where
  frame : t = { s with csr := t.csr, cores := t.cores, stks := t.stks, parts := t.parts }
  regs : SameRegs IsLow s t
  length : t.parts.length = s.parts.length
  startPend : (t.part p).startPend = (s.part p).startPend
  resumePend : (t.part p).resumePend = (s.part p).resumePend
  stopAtBoundary : (t.part p).stopAtBoundary = (s.part p).stopAtBoundary
  nextPlan : (t.part p).nextPlan = (s.part p).nextPlan
  inDoubt : (t.part p).inDoubt = (s.part p).inDoubt
  lastTick : (t.part p).lastTick = (s.part p).lastTick
  serve : (t.part p).serve = (s.part p).serve

namespace Bounded
variable {p : Nat} {s t u : State} {β : Type}

theorem refl : Bounded p s s := ⟨rfl, .refl, rfl, rfl, rfl, rfl, rfl, rfl, rfl, rfl⟩

theorem trans (h : Bounded p s t) (g : Bounded p t u) : Bounded p s u where
  frame := g.frame.trans (by rw [h.frame])
  regs := h.regs.trans g.regs
  length := g.length.trans h.length
  startPend := g.startPend.trans h.startPend
  resumePend := g.resumePend.trans h.resumePend
  stopAtBoundary := g.stopAtBoundary.trans h.stopAtBoundary
  nextPlan := g.nextPlan.trans h.nextPlan
  inDoubt := g.inDoubt.trans h.inDoubt
  lastTick := g.lastTick.trans h.lastTick
  serve := g.serve.trans h.serve

theorem memory (h : Bounded p s t) : SameMemory s t := by
  rw [h.frame]
  exact ⟨rfl, rfl, rfl, rfl, rfl, rfl⟩

theorem tick (h : Bounded p s t) : t.tick = s.tick := by rw [h.frame]

theorem set {f : Fld} {v i j : Nat} (hr : 0x100000 ≤ f.reg.base) : Bounded p s (s.set f v i j) :=
  { refl (s := s) with frame := rfl, regs := .set .refl (not_isLow_off hr i j) }

theorem setCore {c : Nat} {k : CoreSt} : Bounded p s (s.setCore c k) := { refl (s := s) with frame := rfl, regs := .of_csr rfl }

theorem setStack {i : Nat} {k : StackSt} : Bounded p s (s.setStack i k) := { refl (s := s) with frame := rfl, regs := .of_csr rfl }

theorem foldl {l : List β} {f : State → β → State} (h : ∀ s x, Bounded p s (f s x)) : Bounded p s (l.foldl f s) := by
  induction l generalizing s with
  | nil => exact refl
  | cons x l ih => exact (h s x).trans ih

/-- The fields of a partition's step that a boundary takes into force, and its queues of semaphores. -/
theorem setPart {semq shares acctEvery acctEn stepCfg svCfg svSpec svPlace svReq svReqCfg} :
    Bounded p s (s.setPart p { s.part p with
      semq, shares, acctEvery, acctEn, stepCfg, svCfg, svSpec, svPlace, svReq, svReqCfg }) := by
  by_cases h : p < s.parts.length
  · have same := fun k => part_setPart_same s p k h
    exact ⟨rfl, .of_csr rfl, List.length_set .., by rw [same], by rw [same], by rw [same], by rw [same], by rw [same], by rw [same],
      by rw [same]⟩
  · rw [State.setPart, setNth, List.set_eq_of_length_le (Nat.not_lt.1 h)]
    exact refl

theorem sluiceTake {i sl : Nat} : Bounded p s (s.sluiceTake i sl) := by
  unfold State.sluiceTake
  extract_lets
  split
  exacts [refl, setStack]

theorem clearStep : Bounded p s (s.clearStep p) :=
  trans (foldl fun _ _ => set (by decide)) <| trans setPart <| foldl fun _ _ => setCore

theorem takeFields (h : (s.part p).serve.reloadDir = false) : Bounded p s (s.takeFields p) := by
  unfold State.takeFields
  extract_lets sh k u v w
  have hu : Bounded p s u := setPart
  have hv : v = u := by
    dsimp only [v]
    rw [show k.serve.reloadDir = false from h]
    rfl
  clear_value v u
  subst hv
  exact hu.trans <| trans (foldl fun _ _ => setCore) <| foldl fun _ _ => trans sluiceTake setStack

theorem endFaulted : Bounded p s (s.endFaulted p) := foldl fun _ _ => setCore

end Bounded

section
variable (s : State) (p : Nat)

/-- R8, R33, R357: a step boundary that brings no change of stacks and regions. -/
theorem bounded_boundaryOf (hp : p < 16) (still : ∀ q, q < 16 → s.get Fld.PT_STAT.PENDING q = 0) (h : (s.part p).serve.reloadDir = false) :
    Bounded p s (s.boundaryOf p) := by
  have none (l : List Nat) (hl : ∀ q ∈ l, q < 16) :
      l.foldl (fun s q => if s.stepDue q && s.is Fld.PT_STAT.PENDING q then s.applyChange q else s) s = s := by
    induction l with
    | nil => rfl
    | cons q l ih =>
      rw [List.foldl_cons, is_eq_false (still q (hl q (.head l))), Bool.and_false]
      exact ih fun x hx => hl x (.tail q hx)
  unfold State.boundaryOf
  extract_lets u
  rw [show u = s from none _ fun q hq => by have := (mem_upFrom.1 hq).2; omega]
  have clear : Bounded p s (s.clearStep p) := .clearStep
  exact clear.trans (.takeFields (by rw [clear.serve, h]))

/-- A partition's step as its window opens. -/
def PartSt.opening (k : PartSt) (at_ b : Nat) : PartSt :=
  { k with
    phase := .opening, startPend := false, resumePend := false, openAt := at_, openTick := b
    eve := false, eveStalled := false, plan := none, abandon := none, passed := false }

/-- R33: a window opens where neither a stop nor a leap tick forbids it, and no plan waits for it. -/
theorem openWindow_of_free (at_ : Nat) (stop : (s.part p).stopAtBoundary = false) (next : (s.part p).nextPlan = none)
    (leap : s.get Fld.LEAP_CTRL.STATE = 0) :
    s.openWindow p at_ = ((s.endFaulted p).set Fld.STEP_STATE.STATE 1 p).setPart p ((s.part p).opening at_ (s.tickOf at_)) := by
  have meets (b n : Nat) : s.leapMeets b n = false := by
    simp [State.leapMeets, leap, leapActive, leapScheduled]
  unfold State.openWindow
  extract_lets k b u
  rw [show k.stopAtBoundary = false from stop, show k.nextPlan = none from next, meets, if_neg (by decide), if_neg (by decide)]
  rfl

theorem exec_stepTick_of_idle (p : Fin 16) (up : s.isUp 0 = true) (due : s.stepDue p = true)
    (new : (s.part p).lastTick ≠ s.get Fld.BTICK_NUM.NUM + 1) (idle : (s.part p).phase = .idle) :
    exec (.stepTick p) s =
      let v := (s.setPart p { s.part p with lastTick := s.btick + 1 }).boundaryOf p
      if ((v.part p).startPend || (v.part p).resumePend || v.pstate p == stRunning || v.pstate p == stHeld) && !(v.part p).inDoubt then
        if v.inLeap && v.pstate p == stHeld then ok (v.setPart p { v.part p with lastTick := 0 }) else ok (v.openWindow p v.tick.boundAt)
      else ok v := by
  have seen : ((s.part p).lastTick == s.btick + 1) = false := beq_eq_false_iff_ne.2 new
  change execStepTick p s = _
  unfold execStepTick
  extract_lets k u
  rw [up, due, show (k.lastTick == s.btick + 1) = false from seen, if_neg (by decide), show k.phase = .idle from idle]

end

/-- R33: the window of a partition that waits to start opens. -/
theorem stepTick_opens (s : State) (p : Fin 16) (sound : Sound s) (plain : PlainBoundary s p) (idle : (s.part p).phase = .idle)
    (waits : (s.part p).startPend = true ∨ (s.part p).resumePend = true ∨ s.get Fld.STEP_STATE.STATE p = 1)
    (_ : s.get Fld.STEP_STATE.STATE p ≠ 5) (doubt : (s.part p).inDoubt = false) (stop : (s.part p).stopAtBoundary = false)
    (next : (s.part p).nextPlan = none) (leap : s.get Fld.LEAP_CTRL.STATE = 0) :
    ∃ t, exec (.stepTick p) s = .next t ∧ t.get Fld.STEP_STATE.STATE p = 1 ∧ (t.part p).phase = .opening ∧
      (t.part p).openAt = s.tick.boundAt ∧ (t.part p).eve = false ∧
      (t.part p).lastTick = s.get Fld.BTICK_NUM.NUM + 1 ∧ SameMemory s t := by
  obtain ⟨up, due, new, still, dir⟩ := plain
  have wf := (sound_iff_wf s).1 sound
  have runs := exec_stepTick_of_idle s p up due new idle
  have seen := part_setPart_same s p { s.part p with lastTick := s.btick + 1 } (part_lt_length s p sound)
  have uwf : (s.setPart p { s.part p with lastTick := s.btick + 1 }).Wf := .modPart wf .keep
  have start : (s.setPart p { s.part p with lastTick := s.btick + 1 }).csr = s.csr ∧
      (s.setPart p { s.part p with lastTick := s.btick + 1 }).tick = s.tick ∧
      SameMemory s (s.setPart p { s.part p with lastTick := s.btick + 1 }) := ⟨rfl, rfl, rfl, rfl, rfl, rfl, rfl, rfl⟩
  generalize s.setPart p { s.part p with lastTick := s.btick + 1 } = u at runs seen uwf start
  obtain ⟨csr, tick, memory⟩ := start
  have bounded := bounded_boundaryOf u p p.isLt (fun q hq => (get_of_csr csr _ _ _).trans (still q hq)) (by rw [seen]; exact dir)
  have vwf : (u.boundaryOf p).Wf := .boundaryOf uwf
  generalize u.boundaryOf p = v at runs bounded vwf
  have low {f : Fld} {i : Nat} (h : IsLow (f.reg.off i 0)) : v.get f i = s.get f i := (bounded.regs.get h).trans (get_of_csr csr f i 0)
  have stateOff : Reg.STEP_STATE.off p 0 = 0x1010 + p * 0x100 := rfl
  have state : v.get Fld.STEP_STATE.STATE p = s.get Fld.STEP_STATE.STATE p := low (by
    change IsLow (Reg.STEP_STATE.off p 0)
    rw [stateOff, IsLow]
    omega)
  have vleap : v.get Fld.LEAP_CTRL.STATE = 0 := (low (by decide)).trans leap
  have go : ((v.part p).startPend || (v.part p).resumePend || v.pstate p == stRunning || v.pstate p == stHeld) && !(v.part p).inDoubt := by
    rw [bounded.startPend, bounded.resumePend, bounded.inDoubt, State.pstate, state, seen, doubt]
    rcases waits with h | h | h <;> simp [h, stRunning]
  have calm : (v.inLeap && v.pstate p == stHeld) = false := by
    rw [State.inLeap, vleap]
    rfl
  have opens := openWindow_of_free v p v.tick.boundAt (by rw [bounded.stopAtBoundary, seen, stop]) (by rw [bounded.nextPlan, seen, next]) vleap
  have runs' : exec (.stepTick p) s = .next (v.openWindow p v.tick.boundAt) := by
    rw [runs]
    dsimp only
    rw [if_pos go, calm, if_neg (by decide)]
    rfl
  have ended : Bounded p v (v.endFaulted p) := .endFaulted
  have ewf : (v.endFaulted p).Wf := .endFaulted vwf
  generalize v.endFaulted p = e at opens ended ewf
  have room : p.val < (e.set Fld.STEP_STATE.STATE 1 p).parts.length := by
    change p.val < e.parts.length
    rw [ewf.parts]
    exact p.isLt
  refine ⟨_, runs'.trans (congrArg _ opens), ?_, ?_⟩
  · exact (get_set_same e _ _ _ _ ewf.csr (by decide) (by decide))
  · rw [part_setPart_same _ _ _ room]
    refine ⟨rfl, ?_, rfl, ?_, ?_⟩
    · change v.tick.boundAt = _
      rw [bounded.tick, tick]
    · change (v.part p).lastTick = _
      rw [bounded.lastTick, seen]
      rfl
    · obtain ⟨m1, m2, m3, m4, m5, m6⟩ := ended.memory
      obtain ⟨n1, n2, n3, n4, n5, n6⟩ := bounded.memory
      obtain ⟨k1, k2, k3, k4, k5, k6⟩ := memory
      exact ⟨m1.trans (n1.trans k1), m2.trans (n2.trans k2), m3.trans (n3.trans k3), m4.trans (n4.trans k4), m5.trans (n5.trans k5),
        m6.trans (n6.trans k6)⟩

end Sys2Proof.Machine
end

section
/-! SUPPORT. The eve, and blocks (O39). -/
namespace Sys2Proof.Machine
open Sys2Proof Sys2Proof.Spec

/-- A moment of the base tick in force comes before the next boundary. -/
theorem lt_next_boundary {now at_ ns : Nat} (pos : 0 < ns) (same : at_ / ns = now / ns) : at_ < now + (ns - now % ns) := by
  have top := Nat.lt_mul_div_succ at_ pos
  have whole := Nat.div_add_mod now ns
  have part := Nat.mod_lt now pos
  rw [same, Nat.mul_succ] at top
  omega

/-- R34: the eve begins at its moment. -/
theorem eveBegin_spec (s : State) (p : Fin 16) (sound : Sound s) (up : s.isUp 0 = true) (early : (s.part p).eve = false)
    (runs : (s.part p).phase = .active ∨ (s.part p).phase = .opening) :
    let at_ := (s.part p).openAt + windowOf s p - s.eveNs p
    let now := s.get Fld.TICK_COUNT.COUNT
    now ≤ at_ → at_ / (s.get Fld.TICK_PERIOD.PERIOD_US * 1000) = now / (s.get Fld.TICK_PERIOD.PERIOD_US * 1000) → at_ < 2 ^ 64 →
    100 ≤ s.get Fld.TICK_PERIOD.PERIOD_US →
    ∃ t, exec (.eveBegin p) s = .next t ∧ t.get Fld.TICK_COUNT.COUNT = at_ ∧ (t.part p).eve = true ∧
      ((∀ q, q < 16 → (s.part q).phase ≠ .active) → SameContents s t) := by
  intro at_ now later same fits lo
  have wf := (sound_iff_wf s).1 sound
  have reach : s.advanceTo at_ = some (s.passNs (at_ - s.now)) := by
    have before : at_ < s.now + s.toBoundary := lt_next_boundary (Nat.mul_pos (Nat.lt_of_lt_of_le (by decide) lo) (by decide)) same
    unfold State.advanceTo
    rw [if_pos]
    simp only [Bool.and_eq_true, decide_eq_true_eq]
    exact ⟨later, before⟩
  have total : s.get Fld.TICK_COUNT.COUNT + (at_ - s.now) = at_ := Nat.add_sub_cancel' later
  obtain ⟨count, -⟩ := passNs_time s wf.csr (n := at_ - s.now) (by rw [total]; exact fits)
  have pwf : (s.passNs (at_ - s.now)).Wf := .passNs wf
  have rests : (∀ q, q < 16 → (s.part q).phase ≠ .active) → SameContents s (s.passNs (at_ - s.now)) := by
    intro rest
    by_cases zero : at_ - s.now = 0
    · rw [zero, passNs_zero]
      exact sameContents_refl s
    · rw [passNs_of_rest s wf zero rest]
      exact (passing_elapse s _).contents
  generalize s.passNs (at_ - s.now) = t at reach count pwf rests
  have room : p.val < t.parts.length := by
    rw [pwf.parts]
    exact p.isLt
  refine ⟨t.setPart p { t.part p with eve := true }, ?_, count.trans total, ?_, rests⟩
  · change execEveBegin p s = _
    unfold execEveBegin
    extract_lets k
    have go : (!s.isUp 0 || k.eve || !(decide (k.phase = .active) || decide (k.phase = .opening))) = false := by
      rw [up, show k.eve = false from early]
      rcases runs with h | h <;> simp [show k.phase = _ from h]
    rw [go, if_neg (by decide)]
    change (match s.advanceTo at_ with
      | some s => ok (s.setPart p { s.part p with eve := true })
      | none => ok s) = _
    rw [reach]
    rfl
  · rw [part_setPart_same _ _ _ room]

/-- R59: the item of a unit that may issue is the first of them that has not. -/
theorem find_itemReady (s : State) (p n : Nat) (i : AlmItem) (mem : (n, i) ∈ s.planItems p) (block : i.kind = 1)
    (ready : s.itemReady p n i = true) :
    (s.planItems p).find? (fun e => e.2.kind == kBlock && e.2.unit == i.unit && !(s.part p).issued.contains e.1) = some (n, i) := by
  have order := pairwise_planItems s p
  simp only [State.itemReady, Bool.and_eq_true] at ready
  obtain ⟨⟨⟨⟨⟨-, fresh⟩, -⟩, lower⟩, -⟩, -⟩ := ready
  obtain ⟨before, after, split⟩ := List.append_of_mem mem
  refine List.find?_eq_some_iff_append.2 ⟨?_, before, after, split, fun e he => ?_⟩
  · simpa [block, kBlock] using fresh
  · rw [split] at order lower
    have less : e.1 < n := (List.pairwise_append.1 order).2.2 e he (n, i) (.head _)
    have earlier := List.all_eq_true.1 lower e (List.mem_append_left _ he)
    simp only [less, decide_true, Bool.true_and, Bool.or_eq_true, Bool.not_eq_true', beq_eq_false_iff_ne] at earlier
    by_cases same : e.2.kind = 1 ∧ e.2.unit = i.unit
    · have key : e.2.unitKey = i.unitKey := by simp [AlmItem.unitKey, kBlock, same.1, same.2, block]
      have out := earlier.resolve_left fun h => h key
      rw [out]
      simp
    · rw [not_and_or] at same
      rcases same with h | h <;> simp [h, kBlock]

end Sys2Proof.Machine
end

section
/-! SUPPORT. Blocks and the admission of a window (O39). -/
namespace Sys2Proof.Machine
open Sys2Proof Sys2Proof.Spec

/-! ### Items that issue nothing -/

/-- The items of a plan are those of the almanac in use. -/
theorem planItems_congr {s t : State} {p : Nat} (plan : (t.part p).plan = (s.part p).plan) (alm : (t.part p).alm = (s.part p).alm) :
    t.planItems p = s.planItems p := by
  simp only [State.planItems, State.entryOf, plan, alm]

section
variable (s : State) (p : Nat)

/-- Items that are blocks, or have issued, wait for no pass. -/
theorem issuePass_of_still
    (h : ∀ e ∈ s.planItems p, e.2.expert = false ∧ (e.2.kind = kBlock ∨ (s.part p).issued.contains e.1 = true)) : s.issuePass p = s := by
  unfold State.issuePass
  generalize s.planItems p = l at h
  induction l with
  | nil => rfl
  | cons e l ih =>
    obtain ⟨n, i⟩ := e
    obtain ⟨plain, still⟩ := h _ (.head l)
    have good : s.groupBad p i = false := by rw [State.groupBad, show i.expert = false from plain, Bool.false_and]
    have stays : (i.kind != kBlock && !s.inEve p && s.itemReady p n i && s.isUp 0) = false := by
      rcases still with block | issued
      · simp [show i.kind = kBlock from block]
      · have out : s.itemReady p n i = false := by
          simp only [State.itemReady, show (s.part p).issued.contains n = true from issued, Bool.not_true, Bool.and_false, Bool.false_and]
        rw [out, Bool.and_false, Bool.false_and]
    rw [List.foldl_cons]
    dsimp only
    rw [good, stays, if_neg (by decide), if_neg (by decide)]
    exact ih fun e he => h e (.tail _ he)

theorem issueAll_of_still (n : Nat)
    (h : ∀ e ∈ s.planItems p, e.2.expert = false ∧ (e.2.kind = kBlock ∨ (s.part p).issued.contains e.1 = true)) : s.issueAll p n = s := by
  cases n with
  | zero => rfl
  | succ n =>
    unfold State.issueAll
    rw [issuePass_of_still s p h]
    exact if_pos rfl

end

/-! ### The start of a block -/

/-- The registers of a core at the start of a block. -/
theorem nth_startBlock (k : CoreSt) (c n : Nat) (i : AlmItem) (args : List Nat) (r : Nat) :
    (nth 0#64 (k.startBlock c n i args).x r).toNat = nth 0 args r % 2 ^ 64 := by
  change (nth 0#64 (args.map (BitVec.ofNat 64) ++ List.replicate (32 - args.length) 0) r).toNat = _
  simp only [nth]
  by_cases h : r < args.length
  · rw [List.getElem?_append_left (by rw [List.length_map]; exact h), List.getElem?_map, List.getElem?_eq_getElem h]
    exact BitVec.toNat_ofNat _ _
  · rw [List.getElem?_append_right (by rw [List.length_map]; exact Nat.not_lt.1 h), List.getElem?_eq_none (Nat.not_lt.1 h)]
    simp only [List.getElem?_replicate]
    split <;> rfl

theorem exec_blockStart (s : State) (c : Fin 12) (p n : Nat) (i : AlmItem) (pl : Plan) (part : s.partOf c = some p)
    (idle : (s.core c).run = .idle) (early : s.inEve p = false) (up : s.isUp (dieOfCore c) = true) (plan : (s.part p).plan = some pl)
    (mem : (n, i) ∈ s.planItems p) (block : i.kind = 1) (unit : i.unit = c) (ready : s.itemReady p n i = true) :
    exec (.blockStart c) s = .next ((s.setCore c ((s.core c).startBlock c n i
      [0, s.get Fld.COMMIT_NUM.COMMITS p + 1, pl.tokens, pl.seqs, pl.entry, n, s.get Fld.STEP_STATE.RETRY_COUNT p,
        if (match s.stepEntry p with | some e => e.serve | none => false) then (s.part p).serve.stepRec else 0])).issued p n) := by
  have first := find_itemReady s p n i mem block ready
  rw [unit] at first
  change execBlockStart c s = _
  unfold execBlockStart
  rw [part]
  dsimp only
  rw [first]
  dsimp only
  rw [idle, early, ready, up, if_neg (by decide), plan]
  rfl

/-- R65, R66, R70, R135, R509: a block starts. -/
theorem blockStart_spec (s : State) (c : Fin 12) (p n : Nat) (i : AlmItem) (pl : Plan) (sound : Sound s) (hp : p < 16)
    (part : s.partOf c = some p) (idle : (s.core c).run = .idle) (early : (s.part p).eve = false)
    (before : s.get Fld.TICK_COUNT.COUNT + s.eveNs p < (s.part p).openAt + windowOf s p)
    (up : s.isUp (dieOfCore c) = true) (plan : (s.part p).plan = some pl) (mem : (n, i) ∈ s.planItems p) (block : i.kind = 1)
    (unit : i.unit = c) (ready : s.itemReady p n i = true) :
    ∃ t, exec (.blockStart c) s = .next t ∧ t = { s with cores := t.cores, parts := t.parts } ∧ (∀ d, d ≠ c.val → t.core d = s.core d) ∧
      (∀ q, q ≠ p → t.part q = s.part q) ∧
      t.part p = { s.part p with issued := (t.part p).issued } ∧ n ∈ (t.part p).issued ∧ (t.core c).run = .running ∧
      t.core c = { s.core c with
        x := (t.core c).x, pc := i.body, body := i.body, bodyLen := i.bodyLen, item := n, run := .running, ibuf := []
        semWait := none, cycStart := (s.core c).cyc, vl := 0, vrow := 512, acc0 := [], acc1 := []
        seed := BitVec.ofNat 64 (seedOf ((bytesOf 8 (s.get Fld.COMMIT_NUM.COMMITS p + 1)) ++ bytesOf 8 c.val ++ bytesOf 8 n)) } ∧
      t.x c 1 = (s.get Fld.COMMIT_NUM.COMMITS p + 1) % 2 ^ 64 ∧ t.x c 2 = pl.tokens % 2 ^ 64 ∧ t.x c 3 = pl.seqs % 2 ^ 64 ∧
      t.x c 4 = pl.entry % 2 ^ 64 ∧ t.x c 5 = n % 2 ^ 64 ∧ t.x c 6 = s.get Fld.STEP_STATE.RETRY_COUNT p ∧
      (t.x c 7 = match s.stepEntry p with | some e => if e.serve then (s.part p).serve.stepRec % 2 ^ 64 else 0 | none => 0) ∧
      t.x c 0 = 0 ∧ ∀ r, 8 ≤ r → r < 32 → t.x c r = 0 := by
  have wf := (sound_iff_wf s).1 sound
  have open_ : s.inEve p = false := by
    rw [State.inEve, early, Bool.false_or, decide_eq_false_iff_not]
    exact Nat.not_le.2 before
  have runs := exec_blockStart s c p n i pl part idle open_ up plan mem block unit ready
  generalize rec : (if (match s.stepEntry p with | some e => e.serve | none => false) then (s.part p).serve.stepRec else 0) = stepRec at runs
  generalize hargs : [0, s.get Fld.COMMIT_NUM.COMMITS p + 1, pl.tokens, pl.seqs, pl.entry, n, s.get Fld.STEP_STATE.RETRY_COUNT p,
    stepRec] = args at runs
  generalize hk : (s.core c).startBlock c n i args = k at runs
  have room : c.val < s.cores.length := by rw [wf.cores]; exact c.isLt
  have proom : p < (s.setCore c k).parts.length := by
    change p < s.parts.length
    rw [wf.parts]
    exact hp
  have core : ((s.setCore c k).issued p n).core c = k := core_setCore_same s c k room
  have same : ((s.setCore c k).issued p n).part p = { s.part p with issued := setInsert (s.part p).issued n } :=
    part_setPart_same _ _ _ proom
  have reg (r : Nat) (hr : r ≠ 0) : ((s.setCore c k).issued p n).x c r = nth 0 args r % 2 ^ 64 := by
    rw [State.x, if_neg hr, core, ← hk]
    exact nth_startBlock _ _ _ _ _ _
  refine ⟨_, runs, rfl, fun d hd => core_setCore_ne s c d k hd, fun q hq => part_setPart_ne _ p q _ hq, ?_, ?_, ?_, ?_, ?_, ?_, ?_, ?_, ?_,
    ?_, ?_, rfl, fun r lo hi => ?_⟩
  · rw [same]
  · rw [same]
    exact mem_setInsert.2 (.inl rfl)
  · rw [core, ← hk]
    rfl
  · rw [core, ← hk]
    have seed : seedOf ([nth 0 args 1, c.val, nth 0 args 5].flatMap (bytesOf 8)) =
        seedOf (bytesOf 8 (s.get Fld.COMMIT_NUM.COMMITS p + 1) ++ bytesOf 8 c.val ++ bytesOf 8 n) := by
      rw [← hargs]
      simp [nth]
    unfold CoreSt.startBlock
    rw [seed]
  · rw [reg 1 (by decide), ← hargs]
    rfl
  · rw [reg 2 (by decide), ← hargs]
    rfl
  · rw [reg 3 (by decide), ← hargs]
    rfl
  · rw [reg 4 (by decide), ← hargs]
    rfl
  · rw [reg 5 (by decide), ← hargs]
    rfl
  · rw [reg 6 (by decide), ← hargs]
    have small : s.get Fld.STEP_STATE.RETRY_COUNT p < 2 ^ 4 := get_lt _ _ _ _
    exact Nat.mod_eq_of_lt (Nat.lt_trans small (by decide))
  · rw [reg 7 (by decide), ← hargs]
    change stepRec % 2 ^ 64 = _
    rw [← rec]
    cases s.stepEntry p with
    | none => rfl
    | some e => cases h : e.serve <;> simp [h]
  · rw [reg r (by omega), ← hargs, nth, List.getElem?_eq_none (by exact lo)]
    rfl

/-! ### The end of a block -/

/-- The word of BLK_LAST. -/
def blkLastWord (cyc item : Nat) (isOver : Bool) : Nat := cyc % 2 ^ 32 + (item % 1024) <<< 32 + b2n isOver <<< 48

theorem blkLastWord_lt (cyc item : Nat) (isOver : Bool) : blkLastWord cyc item isOver < 2 ^ 64 := by
  unfold blkLastWord b2n
  rw [Nat.shiftLeft_eq, Nat.shiftLeft_eq]
  split <;> omega

theorem bits_blkLastWord (cyc item : Nat) (isOver : Bool) : bits (blkLastWord cyc item isOver) 31 0 = cyc % 2 ^ 32 ∧
    bits (blkLastWord cyc item isOver) 41 32 = item % 1024 ∧ bits (blkLastWord cyc item isOver) 48 48 = b2n isOver := by
  unfold blkLastWord b2n bits
  simp only [Nat.shiftLeft_eq, Nat.shiftRight_eq_div_pow]
  split <;> omega

/-- The registers that a block's end records. -/
def State.blockRecorded (s : State) (c cyc item : Nat) (isOver : Bool) : State :=
  let s := s.setWord Reg.BLK_LAST c 0 (blkLastWord cyc item isOver)
  if isOver then s.count Fld.BLK_OVER_CNT.COUNT 1 c else s

theorem blockRecorded_spec (s : State) (wf : smWf 0#64 s.csr = true) (c cyc item : Nat) (isOver : Bool) :
    let t := s.blockRecorded c cyc item isOver
    t = { s with csr := t.csr } ∧ BitsBut [(allOf Reg.BLK_LAST, c, 0), (Fld.BLK_OVER_CNT.COUNT, c, 0)] s t ∧
      t.get Fld.BLK_LAST.CYC c = cyc % 2 ^ 32 ∧ t.get Fld.BLK_LAST.ITEM c = item % 1024 ∧ t.get Fld.BLK_LAST.OVER c = b2n isOver := by
  intro t
  have word := word_setWord_same s Reg.BLK_LAST c 0 _ wf (blkLastWord_lt cyc item isOver)
  have fields := bits_blkLastWord cyc item isOver
  have first : BitsBut [(allOf Reg.BLK_LAST, c, 0), (Fld.BLK_OVER_CNT.COUNT, c, 0)] s
      (s.setWord Reg.BLK_LAST c 0 (blkLastWord cyc item isOver)) :=
    bitsBut_mono (bitsBut_setWord s Reg.BLK_LAST c 0 _) (within_of_mem (.head _))
  have uwf := smWf_csr_setWord s Reg.BLK_LAST c 0 (blkLastWord cyc item isOver) wf
  have frame : s.setWord Reg.BLK_LAST c 0 (blkLastWord cyc item isOver) =
    { s with csr := (s.setWord Reg.BLK_LAST c 0 (blkLastWord cyc item isOver)).csr } := rfl
  rw [← word] at fields
  have ht : t = if isOver then (s.setWord Reg.BLK_LAST c 0 (blkLastWord cyc item isOver)).count Fld.BLK_OVER_CNT.COUNT 1 c
    else s.setWord Reg.BLK_LAST c 0 (blkLastWord cyc item isOver) := rfl
  generalize s.setWord Reg.BLK_LAST c 0 (blkLastWord cyc item isOver) = u at fields first uwf frame ht
  cases isOver with
  | false =>
    rw [show t = u from ht]
    exact ⟨frame, first, fields⟩
  | true =>
    rw [show t = u.count Fld.BLK_OVER_CNT.COUNT 1 c from ht]
    refine ⟨?_, bitsBut_set_of first _ _ _ _ uwf (within_of_mem (.tail _ (.head _))), ?_⟩
    · change ({ u with csr := _ } : State) = _
      rw [frame]
      rfl
    · rw [State.count, get_set_of_base_ne _ _ Fld.BLK_LAST.CYC _ _ _ (by decide) (by decide),
        get_set_of_base_ne _ _ Fld.BLK_LAST.ITEM _ _ _ (by decide) (by decide),
        get_set_of_base_ne _ _ Fld.BLK_LAST.OVER _ _ _ (by decide) (by decide)]
      exact fields

end Sys2Proof.Machine
end

section
/-! SUPPORT. The end of a block, and a plan put in force (O39). -/
namespace Sys2Proof.Machine
open Sys2Proof Sys2Proof.Spec

/-! ### The end of a block -/

/-- An item that completes where every other has issued, and none is an expert's. -/
theorem itemComplete_of_still (s : State) (p n : Nat) (room : p < s.parts.length)
    (h : ∀ e ∈ s.planItems p, (e.1 = n ∨ e.1 ∈ (s.part p).issued) ∧ e.2.expert = false) : s.itemComplete p n = s.itemDone p n := by
  have done : (s.itemDone p n).part p =
      { s.part p with issued := setInsert (s.part p).issued n, done := setInsert (s.part p).done n } := part_setPart_same _ _ _ room
  have items : (s.itemDone p n).planItems p = s.planItems p := planItems_congr (by rw [done]) (by rw [done])
  unfold State.itemComplete
  extract_lets u its v
  have none : its = [] := by
    refine List.filter_eq_nil_iff.2 fun e he => ?_
    rw [show u.planItems p = s.planItems p from items] at he
    simp [(h e he).2]
  have hv : v = u := by
    dsimp only [v]
    rw [none]
    rfl
  rw [hv]
  refine issueAll_of_still u p _ fun e he => ?_
  rw [show u.planItems p = s.planItems p from items] at he
  obtain ⟨issued, plain⟩ := h e he
  refine ⟨plain, .inr ?_⟩
  rw [show (u.part p).issued = setInsert (s.part p).issued n by rw [show u.part p = _ from done], List.contains_iff_mem]
  exact mem_setInsert.2 issued

theorem exec_blockEnd (s : State) (c : Fin 12) (p : Nat) (i : AlmItem) (pl : Plan) (part : s.partOf c = some p)
    (ended : (s.core c).run = .ended) (idle : s.engineIdle c = true) (active : (s.part p).phase = .active)
    (up : s.isUp (dieOfCore c) = true) (plan : (s.part p).plan = some pl) (item : s.planItem p (s.core c).item = some i) :
    let cyc := ((s.core c).cyc - (s.core c).cycStart) / 1000
    exec (.blockEnd c) s = .next (((s.blockRecorded c cyc (s.core c).item (decide (s.itemCycles p pl i < cyc))).setCore c
      { s.core c with run := .idle }).itemComplete p (s.core c).item) := by
  intro cyc
  change execBlockEnd c s = _
  unfold execBlockEnd
  rw [part]
  dsimp only
  rw [if_pos (by simp [ended, idle, active, up])]
  unfold State.endBlock
  extract_lets k cyc' bound
  have same : bound = s.itemCycles p pl i := by
    dsimp only [bound]
    rw [plan, show s.planItem p k.item = some i from item]
  rw [← same]
  rfl

/-- R67: a block's end. -/
theorem blockEnd_spec (s : State) (c : Fin 12) (p : Nat) (i : AlmItem) (pl : Plan) (sound : Sound s) (hp : p < 16)
    (part : s.partOf c = some p) (ended : (s.core c).run = .ended) (idle : s.engineIdle c = true) (active : (s.part p).phase = .active)
    (up : s.isUp (dieOfCore c) = true) (plan : (s.part p).plan = some pl) (item : s.planItem p (s.core c).item = some i)
    (plain : i.expert = false)
    (issued : ∀ e ∈ s.planItems p, (e.1 = (s.core c).item ∨ e.1 ∈ (s.part p).issued) ∧ e.2.expert = false) :
    let cyc := ((s.core c).cyc - (s.core c).cycStart) / 1000
    let isOver := i.cycFix + i.cycTok * pl.tokens + i.cycPage * pl.itemPages i < cyc
    ∃ t, exec (.blockEnd c) s = .next t ∧ t = { s with csr := t.csr, cores := t.cores, parts := t.parts } ∧
      (∀ d, d ≠ c.val → t.core d = s.core d) ∧ (∀ q, q ≠ p → t.part q = s.part q) ∧
      t.core c = { s.core c with run := .idle } ∧
      t.part p = { s.part p with issued := (t.part p).issued, done := (t.part p).done } ∧ (s.core c).item ∈ (t.part p).done ∧
      BitsBut [(allOf Reg.BLK_LAST, c, 0), (Fld.BLK_OVER_CNT.COUNT, c, 0)] s t ∧ t.get Fld.BLK_LAST.CYC c = cyc % 2 ^ 32 ∧
      t.get Fld.BLK_LAST.ITEM c = (s.core c).item % 1024 ∧ t.get Fld.BLK_LAST.OVER c = if isOver then 1 else 0 := by
  intro cyc isOver
  have wf := (sound_iff_wf s).1 sound
  have runs := exec_blockEnd s c p i pl part ended idle active up plan item
  have cost : s.itemCycles p pl i = i.cycFix + i.cycTok * pl.tokens + i.cycPage * pl.itemPages i := by
    rw [State.itemCycles, State.itemTokens, plain]
    rfl
  rw [cost] at runs
  change exec (.blockEnd c) s = .next (((s.blockRecorded c cyc (s.core c).item (decide isOver)).setCore c
      { s.core c with run := .idle }).itemComplete p (s.core c).item) at runs
  obtain ⟨frame, bits, cycles, number, flag⟩ := blockRecorded_spec s wf.csr c cyc (s.core c).item (decide isOver)
  generalize s.blockRecorded c cyc (s.core c).item (decide isOver) = u at runs frame bits cycles number flag
  have uparts : u.parts = s.parts := by rw [frame]
  have ucores : u.cores = s.cores := by rw [frame]
  have upart (q : Nat) : u.part q = s.part q := by rw [State.part, uparts]; rfl
  have ucore (d : Nat) : u.core d = s.core d := by rw [State.core, ucores]; rfl
  have room : c.val < u.cores.length := by rw [ucores, wf.cores]; exact c.isLt
  have core := core_setCore_same u c { s.core c with run := .idle } room
  have others (d : Nat) (hd : d ≠ c.val) := core_setCore_ne u c d { s.core c with run := .idle } hd
  generalize hv : u.setCore c { s.core c with run := .idle } = v at runs core others
  have vcsr : v.csr = u.csr := by rw [← hv]; rfl
  have vparts : v.parts = s.parts := by rw [← hv]; exact uparts
  have vframe : v = { s with csr := v.csr, cores := v.cores } := by rw [← hv]; rw [frame]; rfl
  have vpart (q : Nat) : v.part q = s.part q := by rw [State.part, vparts]; rfl
  have proom : p < v.parts.length := by rw [vparts, wf.parts]; exact hp
  have items : v.planItems p = s.planItems p := planItems_congr (by rw [vpart]) (by rw [vpart])
  rw [itemComplete_of_still v p _ proom (by rw [items, vpart]; exact issued)] at runs
  have done : (v.itemDone p (s.core c).item).part p = { v.part p with
    issued := setInsert (v.part p).issued (s.core c).item, done := setInsert (v.part p).done (s.core c).item } :=
    part_setPart_same _ _ _ proom
  have apart (q : Nat) (hq : q ≠ p) : (v.itemDone p (s.core c).item).part q = v.part q := part_setPart_ne _ _ _ _ hq
  have last : v.itemDone p (s.core c).item = { v with parts := (v.itemDone p (s.core c).item).parts } := rfl
  have tcsr : (v.itemDone p (s.core c).item).csr = u.csr := vcsr
  have tcores : (v.itemDone p (s.core c).item).cores = v.cores := rfl
  generalize v.itemDone p (s.core c).item = t at runs done apart last tcsr tcores
  refine ⟨t, runs, ?_, fun d hd => ?_, fun q hq => by rw [apart q hq, vpart], ?_, ?_, ?_, ?_, ?_, ?_, ?_⟩
  · rw [last, vframe]
  · rw [State.core, tcores]
    exact (others d hd).trans (ucore d)
  · rw [State.core, tcores]
    exact core
  · rw [done, vpart]
  · rw [done]
    exact mem_setInsert.2 (.inl rfl)
  · intro o b h
    rw [← bits o b h]
    unfold diffBit
    rw [tcsr]
  · rw [get_of_csr tcsr, cycles]
  · rw [get_of_csr tcsr, number]
  · rw [get_of_csr tcsr, flag]
    simp [b2n]

/-! ### A plan put in force -/

theorem Steady.writeStepRecord {a s : State} {p pl} (h : Steady a s) : Steady a (s.writeStepRecord p pl) := by
  unfold State.writeStepRecord
  extract_lets _ _ _ u
  have hu : Steady a u := .writeRaw h
  refine .foldl3 hu fun _ _ h => ?_
  split
  split
  rename_i e
  dsimp only
  exact .writeRaw <| .of3 e (.readBytes h)

/-- A partition's step as a plan comes in force. -/
def PartSt.active (k : PartSt) (pl : Plan) : PartSt :=
  { k with
    phase := .active, plan := some pl, nextPlan := none, issued := [], done := [], die1Ready := false, heard := []
    decision := none, inDoubt := false, abandon := none
    serve := { k.serve with chosen := [], paths := [] } }

/-- The word of ADMIT_REC. -/
def admitWord (pl : Plan) : Nat := pl.tokens % 65536 + (pl.seqs % 65536) <<< 16 + Nat.min 0xFFFF pl.fin <<< 32

theorem admitWord_lt (pl : Plan) : admitWord pl < 2 ^ 64 := by
  have fin : Nat.min 0xFFFF pl.fin ≤ 0xFFFF := Nat.min_le_left _ _
  unfold admitWord
  rw [Nat.shiftLeft_eq, Nat.shiftLeft_eq]
  omega

theorem bits_admitWord (pl : Plan) : bits (admitWord pl) 15 0 = pl.tokens % 65536 ∧ bits (admitWord pl) 31 16 = pl.seqs % 65536 := by
  unfold admitWord bits
  simp only [Nat.shiftLeft_eq, Nat.shiftRight_eq_div_pow]
  omega

/-- The records of a plan as it comes in force. -/
def State.recorded (s : State) (p : Nat) (pl : Plan) : State :=
  (((s.setPart p ((s.part p).active pl)).setWord Reg.ADMIT_REC p 0 (admitWord pl)).set Fld.STEP_STATE.OPP pl.opp p).set
    Fld.ALM_CUR.ENTRY pl.entry p

theorem activate_eq (s : State) (p : Nat) (pl : Plan) :
    s.activate p pl =
      let u := s.recorded p pl
      let v := match u.stepEntry p with
        | some e => if e.serve && u.is Fld.SV_STAT.INSTALLED p then u.writeStepRecord p pl else u
        | none => u
      v.issueAll p ((v.planItems p).length + 1) := by
  unfold State.activate State.recorded
  rfl

theorem recorded_spec (s : State) (wf : smWf 0#64 s.csr = true) (p : Nat) (pl : Plan) (room : p < s.parts.length) :
    let t := s.recorded p pl
    t.part p = (s.part p).active pl ∧ SameMemory s t ∧ t.get Fld.ADMIT_REC.TOKENS p = pl.tokens % 65536 ∧
      t.get Fld.ADMIT_REC.SEQS p = pl.seqs % 65536 ∧ t.get Fld.ALM_CUR.ENTRY p = pl.entry % 1024 := by
  intro t
  have same := part_setPart_same s p ((s.part p).active pl) room
  have memory : SameMemory s (s.setPart p ((s.part p).active pl)) := ⟨rfl, rfl, rfl, rfl, rfl, rfl⟩
  have uwf : smWf 0#64 (s.setPart p ((s.part p).active pl)).csr = true := wf
  have ht : t = (((s.setPart p ((s.part p).active pl)).setWord Reg.ADMIT_REC p 0 (admitWord pl)).set Fld.STEP_STATE.OPP pl.opp p).set
    Fld.ALM_CUR.ENTRY pl.entry p := rfl
  generalize s.setPart p ((s.part p).active pl) = u at same memory uwf ht
  have word := word_setWord_same u Reg.ADMIT_REC p 0 _ uwf (admitWord_lt pl)
  have fields := bits_admitWord pl
  rw [← word] at fields
  have vwf := smWf_csr_set _ Fld.STEP_STATE.OPP pl.opp p 0 (smWf_csr_setWord u Reg.ADMIT_REC p 0 (admitWord pl) uwf)
  rw [ht]
  refine ⟨same, memory, ?_, ?_, get_set_same _ Fld.ALM_CUR.ENTRY _ _ _ vwf (by decide) (by decide)⟩
  · rw [get_set_of_base_ne _ Fld.ALM_CUR.ENTRY Fld.ADMIT_REC.TOKENS _ _ _ (by decide) (by decide),
      get_set_of_base_ne _ Fld.STEP_STATE.OPP Fld.ADMIT_REC.TOKENS _ _ _ (by decide) (by decide)]
    exact fields.1
  · rw [get_set_of_base_ne _ Fld.ALM_CUR.ENTRY Fld.ADMIT_REC.SEQS _ _ _ (by decide) (by decide),
      get_set_of_base_ne _ Fld.STEP_STATE.OPP Fld.ADMIT_REC.SEQS _ _ _ (by decide) (by decide)]
    exact fields.2

/-- What issues of a plan that comes in force alters none of its records. -/
theorem steady_activate (s : State) (p : Nat) (pl : Plan) : Steady (s.recorded p pl) (s.activate p pl) := by
  rw [activate_eq]
  generalize s.recorded p pl = u
  refine .issueAll ?_
  split
  · exact .when .refl fun h => .writeStepRecord h
  · exact .refl

/-- R60: the records of a plan put in force. -/
theorem activate_records (s : State) (wf : smWf 0#64 s.csr = true) (p : Nat) (pl : Plan) (room : p < s.parts.length) (hp : p < 16) :
    let t := s.activate p pl
    (t.part p).plan = some pl ∧ t.get Fld.ADMIT_REC.TOKENS p = pl.tokens % 65536 ∧ t.get Fld.ADMIT_REC.SEQS p = pl.seqs % 65536 ∧
      t.get Fld.ALM_CUR.ENTRY p = pl.entry % 1024 := by
  intro t
  have steady := steady_activate s p pl
  obtain ⟨part, -, tokens, seqs, entry⟩ := recorded_spec s wf p pl room
  have admitOff : StepRegs (Reg.ADMIT_REC.off p 0) := by
    have off : Reg.ADMIT_REC.off p 0 = 0x1040 + p * 0x100 := rfl
    simp only [StepRegs, IsLow, off]
    omega
  have curOff : StepRegs (Reg.ALM_CUR.off p 0) := by
    have off : Reg.ALM_CUR.off p 0 = 0x1020 + p * 0x100 := rfl
    simp only [StepRegs, IsLow, off]
    omega
  refine ⟨(steady.plan p).trans (by rw [part]; rfl), ?_, ?_, ?_⟩
  · rw [steady.get (f := Fld.ADMIT_REC.TOKENS) admitOff, tokens]
  · rw [steady.get (f := Fld.ADMIT_REC.SEQS) admitOff, seqs]
  · rw [steady.get (f := Fld.ALM_CUR.ENTRY) curOff, entry]

/-- A plan of blocks put in force in a step that serves nothing: no item issues yet. -/
theorem activate_of_blocks (s : State) (p : Nat) (pl : Plan) (room : p < s.parts.length) (e : AlmEntry) (entry : pl.entry = (s.part p).entry)
    (step : s.stepEntry p = some e) (plain : e.serve = false) (blocks : ∀ i ∈ e.items, i.kind = 1 ∧ i.expert = false) :
    s.activate p pl = s.recorded p pl := by
  have part : (s.recorded p pl).part p = (s.part p).active pl := part_setPart_same s p _ room
  have same : (s.recorded p pl).stepEntry p = some e := by
    rw [← step, State.stepEntry, State.entryOf, part]
    rfl
  rw [activate_eq]
  generalize s.recorded p pl = u at part same
  dsimp only
  rw [same]
  dsimp only
  rw [plain, Bool.false_and, if_neg (by decide)]
  refine issueAll_of_still u p _ fun x hx => ?_
  unfold State.planItems at hx
  rw [part] at hx
  have here : u.entryOf p pl.entry = some e := by
    rw [entry, ← same, State.stepEntry, part]
    rfl
  change x ∈ (match u.entryOf p pl.entry with
    | none => []
    | some e => ((upFrom 0 e.items.length).zip e.items).filter (fun (x : Nat × AlmItem) => pl.items.contains x.1)) at hx
  rw [here] at hx
  obtain ⟨kind, expert⟩ := blocks x.2 (List.of_mem_zip (List.mem_filter.1 hx).1).2
  exact ⟨expert, .inl kind⟩

/-- R60, R334: the admission of an open window. -/
theorem admission_spec (s : State) (p : Fin 16) (e : AlmEntry) (sound : Sound s) (up : s.isUp 0 = true) (opening : (s.part p).phase = .opening)
    (step : s.stepEntry p = some e) (_ : e.items.length ≤ 1024) :
    ∃ t pl, exec (.admission p) s = .next t ∧ (t.part p).plan = some pl ∧ pl.entry = (s.part p).entry ∧ pl.opens = (s.part p).openTick ∧
      pl.retry = s.get Fld.STEP_STATE.RETRY_COUNT p ∧ (∀ n i, e.items[n]? = some i → i.optional = false → n ∈ pl.items) ∧
      t.get Fld.ADMIT_REC.TOKENS p = pl.tokens % 65536 ∧ t.get Fld.ADMIT_REC.SEQS p = pl.seqs % 65536 ∧
      t.get Fld.ALM_CUR.ENTRY p = pl.entry % 1024 ∧
      (e.serve = false → pl.tokens = 0 ∧ pl.seqs = 0 ∧
        ((∀ i ∈ e.items, i.kind = 1 ∧ i.expert = false) → (t.part p).phase = .active ∧ (t.part p).issued = [] ∧ SameMemory s t)) := by
  have wf := (sound_iff_wf s).1 sound
  have grown := grown_admitWindow s p (s.part p).entry (s.part p).openTick (s.get Fld.STEP_STATE.RETRY_COUNT p)
    (s.startDelay p (s.part p).lastColl (s.part p).retryLate) e
  have serves := admitWindow_of_plain s p (s.part p).entry (s.part p).openTick (s.get Fld.STEP_STATE.RETRY_COUNT p)
    (s.startDelay p (s.part p).lastColl (s.part p).retryLate) e
  have awf : (s.admitWindow p (s.part p).entry (s.part p).openTick (s.get Fld.STEP_STATE.RETRY_COUNT p)
    (s.startDelay p (s.part p).lastColl (s.part p).retryLate) e).2.Wf := .admitWindow wf
  have runs : exec (.admission p) s =
      let a := s.admitWindow p (s.part p).entry (s.part p).openTick (s.get Fld.STEP_STATE.RETRY_COUNT p)
        (s.startDelay p (s.part p).lastColl (s.part p).retryLate) e
      .next (a.2.activate p a.1) := by
    change execAdmission p s = _
    unfold execAdmission
    extract_lets k
    rw [up, if_neg (by decide), show k.phase = .opening from opening]
    dsimp only
    rw [step]
    rfl
  generalize s.admitWindow p (s.part p).entry (s.part p).openTick (s.get Fld.STEP_STATE.RETRY_COUNT p)
    (s.startDelay p (s.part p).lastColl (s.part p).retryLate) e = a at grown serves awf runs
  obtain ⟨pl, u⟩ := a
  have room : p.val < u.parts.length := by
    rw [awf.parts]
    exact p.isLt
  obtain ⟨plan, tokens, seqs, cur⟩ := activate_records u awf.csr p pl room p.isLt
  refine ⟨_, pl, runs, plan, grown.entry, grown.opens, grown.retry, fun n i at_ must => grown.items n (mem_mandatory at_ must), tokens, seqs,
    cur, fun plain => ?_⟩
  obtain ⟨stands, noTokens, noSeqs⟩ := serves plain
  refine ⟨noTokens, noSeqs, fun blocks => ?_⟩
  change u = s at stands
  subst stands
  change ((u.activate p pl).part p).phase = .active ∧ ((u.activate p pl).part p).issued = [] ∧ SameMemory u (u.activate p pl)
  obtain ⟨part, memory, -⟩ := recorded_spec u awf.csr p pl room
  rw [activate_of_blocks u p pl room e grown.entry step plain blocks, part]
  exact ⟨rfl, rfl, memory⟩

/-- Settles O39: each clause by the operation that its command runs. Admission only adds items to those that are mandatory, and what then
issues leaves the plan and its records; a block's end issues nothing where every item has issued. -/
theorem windowsAndBlocks : Obligations.WindowsAndBlocks :=
  ⟨stepTick_opens, admission_spec, blockStart_spec, blockEnd_spec, eveBegin_spec⟩

end Sys2Proof.Machine
end

section
/-! SUPPORT. O40: the tick of a step that lies ahead of TICK_COUNT. -/
namespace Sys2Proof.Machine
open Sys2Proof Sys2Proof.Spec

set_option maxRecDepth 8000
set_option exponentiation.threshold 600

/-- The entry of a step with nothing to do, which is followed by itself. -/
def bareEntry : AlmEntry := ⟨false, false, false, 0, 0, 0, []⟩

/-- The block after reset, at TICK_COUNT 0, but partition 0 ready to commit a step whose tick lies one nanosecond ahead. -/
def readyAhead : State :=
  State.reset.setPart 0 { PartSt.reset with
    phase := .ready, die1Ready := true, tickAt := 1, alm := some ⟨0, 1, [bareEntry]⟩, plan := some (bareEntry.mandatory 0 0 0) }

theorem readyAhead_ready : Sound readyAhead ∧ readyAhead.isUp 0 = true ∧ (readyAhead.part 0).phase = .ready ∧
    (readyAhead.part 0).die1Ready = true ∧ readyAhead.votes 0 = false ∧ readyAhead.stepEntry 0 = some bareEntry ∧
    (readyAhead.part 0).plan ≠ none := by decide

theorem readyAhead_opens_next : readyAhead.get Fld.ALM_NEXT.VALID 0 = 0 ∧ bareEntry.serve = false ∧
    (readyAhead.part 0).stopReq = false ∧ (readyAhead.part 0).stopAtBoundary = false ∧ (readyAhead.part 0).nextPlan = none ∧
    readyAhead.get Fld.LEAP_CTRL.STATE = 0 ∧
    readyAhead.get Fld.TICK_COUNT.COUNT < (readyAhead.part 0).tickAt + windowOf readyAhead 0 := by decide

/-- The phase of a partition after a command that has a next state. -/
def phaseAfter (i : Instr) (p : Nat) (s : State) : Option Phase :=
  match exec i s with
  | .next t => some (t.part p).phase
  | _ => none

/-- The commit leaves the window that the tick would open to its boundary, which is still to come. -/
theorem phaseAfter_commit_readyAhead : phaseAfter (.commit 0) 0 readyAhead = some .idle := by decide

/-- Refutes O40: a commit whose tick lies ahead of TICK_COUNT opens no window, and the clause on commits does not ask, as the one on
abandonments does, that the tick has been reached. -/
theorem not_ticksCommitsAndAbandonments : ¬ Obligations.TicksCommitsAndAbandonments := by
  rintro ⟨-, -, commits, -⟩
  obtain ⟨sound, up, ready, die1, votes, entry, plan⟩ := readyAhead_ready
  obtain ⟨valid, serve, stopReq, atBoundary, next, leap, early⟩ := readyAhead_opens_next
  obtain ⟨t, ht, -, -, -, -, -, goesOn⟩ := commits readyAhead 0 bareEntry sound up ready (.inl die1) (.inl votes) entry plan
  obtain ⟨-, -, opens⟩ := goesOn valid
  obtain ⟨-, opening, -⟩ := opens serve stopReq atBoundary next leap early
  have idle := phaseAfter_commit_readyAhead
  rw [phaseAfter, ht] at idle
  exact absurd (opening.symm.trans (Option.some.inj idle)) (by decide)

end Sys2Proof.Machine
end

section
/-! SUPPORT. O19: a fetch that corrects a line, in a block whose list of corrected addresses names an entry that is none. -/
namespace Sys2Proof.Machine
open Sys2Proof Sys2Proof.Spec

set_option maxRecDepth 8000
set_option exponentiation.threshold 600

/-- A number that is no entry of the corrected-address table (R289: 16 entries), and at whose place the registers of core 0 lie. -/
def strayEntry : Nat := 0xFF7F0

theorem off_strayEntry : Reg.STK_CE_W0.off 0 strayEntry = Reg.CORE_STATUS.off 0 0 ∧
    Reg.STK_CE_W1.off 0 strayEntry = Reg.CORE_PC.off 0 0 := by decide

/-- VADD with every field zero. -/
def vaddWord : Nat := 0x88 <<< 56

theorem lgV_vaddWord : lgV 0x88 vaddWord = true := by decide

/-- Core 0 of partition 0 at a VADD in stack 0 that its instruction buffer does not hold, in a line with one wrong bit. The table of
corrected addresses is full, no entry of it is in its list of ages, but a number that is no entry. -/
def strayBlk : State :=
  let s : State := { State.reset with
    csr := (0x1000000, 2#64) :: (upFrom 0 16).map (fun i => (0x1008100 + 0x10 * i, 1#64)) ++
      [(0x2000000, 0x100#64), (0x2000008, 0x10000#64)]
    mem := cellsOf 0x1000 8 vaddWord, gran := [(1, { Gran.empty with valid := 1 })], ecc := [(64, 1#512)] }
  ((s.setCore 0 { CoreSt.reset with body := 0x1000, bodyLen := 64, pc := 0x1000, run := .running }).setPart 0
    { PartSt.reset with phase := .active }).setStack 0 { StackSt.reset with ceOrder := [strayEntry] }

/-- The block after the fetch, which corrects the line. -/
def strayFetched : State := (strayBlk.fetch 0 0).2

theorem sound_strayBlk : Sound strayBlk := by decide

theorem runs_strayBlk : Runs strayBlk strayFetched 0 0 vaddWord :=
  ⟨by decide, Prod.ext (by decide) rfl⟩

theorem sound_strayFetched : Sound strayFetched := (sound_iff_wf _).2 (.fetch ((sound_iff_wf _).1 sound_strayBlk))

theorem strayFetched_unassigned : strayBlk.partOf 0 = some 0 ∧ strayFetched.partOf 0 = none := by decide

theorem strayFetched_idle : EnginesIdle strayFetched (0 : Fin 12) ∧ 1 ≤ (strayFetched.core 0).vrow ∧
    (let q := entryOf strayFetched 0 .ve vaddWord [vRS vaddWord] []; trfRange (q.vReads ++ q.vWrites) = none) := by decide

/-- The engine queues of a core after a command that has a next state. -/
def queueAfter (i : Instr) (c : Nat) (s : State) : Option (List QEntry) :=
  match exec i s with
  | .next t => some (t.core c).queue
  | _ => none

/-- The VADD stays in its queue: no engine of a core that belongs to no partition runs. -/
theorem queueAfter_axVadd_strayBlk : queueAfter (.axVadd 0) 0 strayBlk ≠ some [] := by decide

/-- A vector instruction that is done has left nothing in its core's queues. -/
theorem queue_of_vecResult {u t : State} {c : Fin 12} {p w n fl : Nat} {r : Nat → Nat × Nat} {sd : Word} {extra : Nat × Nat}
    (h : VecResult u t c p w n r fl sd extra) : (t.core c).queue = (u.core c).queue := by
  obtain ⟨-, -, -, core, -⟩ := h
  rw [core]

/-- Refutes O19: where a full table of corrected addresses has in its list of ages a number past its 16 entries, which no clause of
Sound excludes, the correction that the fetch makes is entered over CORE_STATUS of the core that fetches (`off_strayEntry`). The core then
belongs to no partition, and the VADD waits in its queue. -/
theorem not_vectorElementInstructions : ¬ Obligations.VectorElementInstructions := by
  intro h
  obtain ⟨⟨queue, idle⟩, rows, range⟩ := strayFetched_idle
  obtain ⟨t, runs, result⟩ := h _ (.head _) strayBlk strayFetched 0 0 vaddWord sound_strayFetched runs_strayBlk ⟨queue, idle⟩ rfl
    lgV_vaddWord rows range
  refine queueAfter_axVadd_strayBlk ?_
  rw [queueAfter, runs]
  exact congrArg some ((queue_of_vecResult result).trans queue)

end Sys2Proof.Machine
end

section
/-! SUPPORT. The scalar unit's numbers as machine words (R99–R101): what each operation of the model on numbers is on 64-bit words. -/
namespace Sys2Proof.Machine
open Sys2Proof Sys2Proof.Spec

/-! ### Signed readings and images -/

theorem ofNat_toNat_word (a : Word) : BitVec.ofNat 64 a.toNat = a := by rw [BitVec.ofNat_toNat, BitVec.setWidth_eq]

theorem toSigned_eq_toInt {w : Nat} (hw : 0 < w) (v : Nat) : toSigned w v = (BitVec.ofNat w v).toInt := by
  obtain ⟨n, rfl⟩ : ∃ n, w = n + 1 := ⟨w - 1, by omega⟩
  have e : 2 ^ (n + 1) = 2 * 2 ^ n := by rw [Nat.pow_succ, Nat.mul_comm]
  unfold toSigned
  rw [BitVec.toInt_eq_toNat_cond, BitVec.toNat_ofNat, Nat.add_sub_cancel]
  have c : v % 2 ^ (n + 1) < 2 ^ n ↔ 2 * (v % 2 ^ (n + 1)) < 2 ^ (n + 1) := by omega
  simp only [c]

theorem toSigned_toNat (a : Word) : toSigned 64 a.toNat = a.toInt := by
  rw [toSigned_eq_toInt (by decide), ofNat_toNat_word]

theorem ofNat_ofSigned (x : Int) : BitVec.ofNat 64 (ofSigned 64 x) = BitVec.ofInt 64 x := by
  rw [ofSigned_eq, ofNat_toNat_word]

theorem slt64_toNat (a b : Word) : slt64 a.toNat b.toNat = a.slt b := by
  rw [slt64, toSigned_toNat, toSigned_toNat]
  rfl

/-! ### Arithmetic -/

section
variable (a b : Word)

theorem ofNat_add_word : BitVec.ofNat 64 (a.toNat + b.toNat) = a + b := by
  rw [BitVec.ofNat_add, ofNat_toNat_word, ofNat_toNat_word]

theorem ofNat_mul_word : BitVec.ofNat 64 (a.toNat * b.toNat) = a * b := by
  rw [BitVec.ofNat_mul, ofNat_toNat_word, ofNat_toNat_word]

theorem ofNat_add_sub : BitVec.ofNat 64 (a.toNat + 2 ^ 64 - b.toNat) = a - b := by
  bv_omega

theorem ofNat_shiftRight_toSigned (n : Nat) : BitVec.ofNat 64 (ofSigned 64 (toSigned 64 a.toNat >>> n)) = a.sshiftRight n := by
  rw [ofNat_ofSigned, toSigned_toNat]
  rfl

theorem ofNat_b2n (c : Bool) : BitVec.ofNat 64 (b2n c) = if c = true then 1 else 0 := by cases c <;> rfl

theorem ofNat_mulh : BitVec.ofNat 64 (ofSigned 128 (toSigned 64 a.toNat * toSigned 64 b.toNat) >>> 64) =
    (a.signExtend 128 * b.signExtend 128).extractLsb' 64 64 := by
  have e : BitVec.ofInt 128 (a.toInt * b.toInt) = a.signExtend 128 * b.signExtend 128 := by
    rw [BitVec.ofInt_mul]
    rfl
  rw [toSigned_toNat, toSigned_toNat, ofSigned_eq, e]
  rfl

theorem ofNat_mulhu : BitVec.ofNat 64 ((a.toNat * b.toNat) >>> 64) = (a.setWidth 128 * b.setWidth 128).extractLsb' 64 64 := by
  have e : (a.setWidth 128 * b.setWidth 128).toNat = a.toNat * b.toNat := by
    have := Nat.mul_lt_mul'' a.isLt b.isLt
    rw [BitVec.toNat_mul_of_lt] <;> simp only [BitVec.toNat_setWidth] <;> rw [Nat.mod_eq_of_lt, Nat.mod_eq_of_lt] <;> omega
  rw [← e]
  rfl

theorem toNat_eq_zero : a.toNat = 0 ↔ a = 0 := BitVec.toNat_inj (y := 0)

theorem ofNat_divS : BitVec.ofNat 64 (divS a.toNat b.toNat).1 = if b = 0 then BitVec.allOnes 64 else a.sdiv b := by
  unfold divS
  rw [toSigned_toNat, toSigned_toNat]
  simp only [toNat_eq_zero]
  split
  · rfl
  · exact (ofNat_ofSigned _).trans (BitVec.eq_of_toInt_eq (by rw [BitVec.toInt_sdiv, BitVec.toInt_ofInt]))

theorem ofNat_divU : BitVec.ofNat 64 (divU a.toNat b.toNat).1 = if b = 0 then BitVec.allOnes 64 else a / b := by
  unfold divU
  simp only [toNat_eq_zero]
  split
  · rfl
  · exact BitVec.eq_of_toNat_eq (by rw [BitVec.toNat_ofNat, ← BitVec.toNat_udiv, Nat.mod_eq_of_lt (BitVec.isLt _)])

theorem ofNat_remS : BitVec.ofNat 64 (remS a.toNat b.toNat).1 = if b = 0 then a else a.srem b := by
  unfold remS
  rw [toSigned_toNat, toSigned_toNat]
  simp only [toNat_eq_zero]
  split
  · exact ofNat_toNat_word a
  · exact (ofNat_ofSigned _).trans (by rw [← BitVec.toInt_srem, BitVec.ofInt_toInt])

theorem ofNat_remU : BitVec.ofNat 64 (remU a.toNat b.toNat).1 = if b = 0 then a else a % b := by
  unfold remU
  simp only [toNat_eq_zero]
  split
  · exact ofNat_toNat_word a
  · exact BitVec.eq_of_toNat_eq (by rw [BitVec.toNat_ofNat, ← BitVec.toNat_umod, Nat.mod_eq_of_lt (BitVec.isLt _)])

theorem ofNat_min : BitVec.ofNat 64 (Nat.min a.toNat b.toNat) = if b.ult a then b else a := by
  change BitVec.ofNat 64 (min a.toNat b.toNat) = _
  rw [BitVec.ult]
  simp only [decide_eq_true_eq]
  split
  · rw [Nat.min_eq_right (by omega), ofNat_toNat_word]
  · rw [Nat.min_eq_left (by omega), ofNat_toNat_word]

theorem ofNat_max : BitVec.ofNat 64 (Nat.max a.toNat b.toNat) = if a.ult b then b else a := by
  change BitVec.ofNat 64 (max a.toNat b.toNat) = _
  rw [BitVec.ult]
  simp only [decide_eq_true_eq]
  split
  · rw [Nat.max_eq_right (by omega), ofNat_toNat_word]
  · rw [Nat.max_eq_left (by omega), ofNat_toNat_word]

/-! ### Counts of bits -/

theorem upFrom_eq_range' (b n : Nat) : upFrom b n = List.range' b n := by
  induction n generalizing b with
  | zero => rfl
  | succ n ih => rw [upFrom, ih, List.range'_succ]

theorem popc64_toNat : popc64 a.toNat = popcount a := by
  unfold popc64 setBitsOf popcount
  rw [upFrom_eq_range', ← List.range_eq_range']
  congr 2
  funext i
  exact bit_eq_testBit _ _

/-- The first n numbers pass a test and the next, if it is below m, does not. -/
theorem length_takeWhile_range {p : Nat → Bool} {n m : Nat} (hn : n ≤ m) (h : ∀ i, i < n → p i = true) (hp : n < m → p n = false) :
    ((List.range m).takeWhile p).length = n := by
  obtain ⟨k, rfl⟩ := Nat.exists_eq_add_of_le hn
  rw [List.range_add, List.takeWhile_append_of_pos (fun i hi => h i (List.mem_range.1 hi))]
  cases k with
  | zero => simp
  | succ k =>
    rw [List.range_succ_eq_map, List.map_cons, List.takeWhile_cons_of_neg (by simpa using hp (by omega))]
    simp

theorem clz64_toNat : clz64 a.toNat = leadingZeros a := by
  unfold clz64 leadingZeros
  split
  case isTrue h =>
    rw [(toNat_eq_zero a).1 h]
    exact (length_takeWhile_range le_rfl (by simp) (by simp)).symm
  case isFalse h =>
    have top : a.toNat.log2 < 64 := (Nat.log2_lt h).2 a.isLt
    refine (length_takeWhile_range (by omega) (fun i hi => ?_) fun _ => ?_).symm
    · have zero : a.toNat.testBit (63 - i) = false :=
        Nat.testBit_lt_two_pow (Nat.lt_of_lt_of_le (Nat.lt_log2_self) (Nat.pow_le_pow_right (by decide) (by omega)))
      change (!a.toNat.testBit (63 - i)) = true
      rw [zero]
      rfl
    · have one : a.toNat.testBit (63 - (63 - a.toNat.log2)) = true := by
        rw [show 63 - (63 - a.toNat.log2) = a.toNat.log2 by omega]
        exact Nat.testBit_log2 h
      change (!a.toNat.testBit (63 - (63 - a.toNat.log2))) = false
      rw [one]
      rfl

end

end Sys2Proof.Machine
end

section
/-! SUPPORT. What a scalar instruction leaves: its result in RD, its flags in FP_FLAGS, the program counter at the next word. -/
namespace Sys2Proof.Machine
open Sys2Proof Sys2Proof.Spec

theorem toNat_xw (s : State) (c : Fin 12) (r : Nat) : (xw s c r).toNat = s.x c r := by
  refine (BitVec.toNat_ofNat _ _).trans (Nat.mod_eq_of_lt ?_)
  unfold State.x
  split
  exacts [by decide, BitVec.isLt _]

theorem wRD_lt (w : Nat) : wRD w < 32 := bits_lt w 55 51

/-! ### RD and the program counter -/

theorem coreResult_setX_next (u : State) (c : Fin 12) (rd v : Nat) (sound : Sound u) (hr : rd < 32) :
    CoreResult u ((u.setX c rd v).next c) c rd (BitVec.ofNat 64 v) ((u.core c).pc + 8) := by
  have room := core_in u c sound.1
  have wide : c.val < (u.setX c rd v).cores.length := core_in _ c ((sound_iff_wf _).2 (.setX ((sound_iff_wf u).1 sound))).1
  refine ⟨fun d hd => ?_, ?_, fun r => ?_⟩
  · rw [core_next_ne _ _ _ hd, core_setX_ne _ _ _ _ _ hd]
  · rw [core_next _ _ wide, core_setX u c rd v room]
  · rw [x_next _ _ _ wide, x_setX u c rd v r room (length_x u c sound.1) hr, BitVec.toNat_ofNat]

theorem setX_next_frame (u : State) (c rd v : Nat) : (u.setX c rd v).next c = { u with cores := ((u.setX c rd v).next c).cores } := by
  rw [next_frame, setX_frame]

/-! ### FP_FLAGS -/

theorem bitsBut_flag (u : State) (c fl hi lo : Nat) (wf : smWf 0#64 u.csr = true) (h : ∀ b, fl.testBit b = true → lo ≤ b ∧ b ≤ hi) :
    BitsBut [(⟨Reg.FP_FLAGS, hi, lo⟩, c, 0)] u (u.flag c fl) := by
  intro o b hob
  unfold State.flag
  split
  · rfl
  · by_cases ho : o = Reg.FP_FLAGS.off c 0
    · have clear : fl.testBit b = false := by
        by_contra hb
        exact hob _ List.mem_cons_self ⟨ho.symm, h b (by simpa using hb)⟩
      rw [diffBit, diffBit, ho, setWord_csr, smGet_smPut_same _ _ _ _ wf, BitVec.getLsbD_xor, BitVec.getLsbD_ofNat, Nat.testBit_or, clear,
        Bool.or_false, State.word, BitVec.testBit_toNat, BitVec.getLsbD_xor]
      by_cases hb : b < 64
      · simp [hb]
      · rw [BitVec.getLsbD_of_ge _ b (by omega), BitVec.getLsbD_of_ge _ b (by omega)]
        simp [hb]
    · rw [diffBit, diffBit, setWord_csr, smGet_smPut_ne _ _ _ _ _ ho]

/-- Flags joined, RD written and the program counter moved. -/
def State.scalarDoes (u : State) (c fl rd v : Nat) : State := ((u.flag c fl).setX c rd v).next c

section
variable (u : State) (c : Fin 12) (fl rd v : Nat)

theorem scalarDoes_frame : u.scalarDoes c fl rd v = { u with cores := (u.scalarDoes c fl rd v).cores, csr := (u.scalarDoes c fl rd v).csr } := by
  rw [State.scalarDoes, setX_next_frame, flag_frame]

theorem csr_scalarDoes : (u.scalarDoes c fl rd v).csr = (u.flag c fl).csr := by
  rw [State.scalarDoes, setX_next_frame]

theorem coreResult_scalarDoes (sound : Sound u) (hr : rd < 32) :
    CoreResult u (u.scalarDoes c fl rd v) c rd (BitVec.ofNat 64 v) ((u.core c).pc + 8) := by
  have flagged : Sound (u.flag c fl) := (sound_iff_wf _).2 (.flag ((sound_iff_wf u).1 sound))
  obtain ⟨others, core, regs⟩ := coreResult_setX_next (u.flag c fl) c rd v flagged hr
  refine ⟨fun d hd => (others d hd).trans (core_flag ..), core.trans (by rw [core_flag]; rfl), fun r => (regs r).trans ?_⟩
  rw [State.x, State.x, core_flag]

theorem bitsBut_scalarDoes (sound : Sound u) {hi lo : Nat} (h : ∀ b, fl.testBit b = true → lo ≤ b ∧ b ≤ hi) :
    BitsBut [(⟨Reg.FP_FLAGS, hi, lo⟩, c, 0)] u (u.scalarDoes c fl rd v) :=
  bitsBut_of_csr (bitsBut_flag u c fl hi lo ((sound_iff_wf u).1 sound).csr h) rfl (csr_scalarDoes u c fl rd v)

theorem word_scalarDoes (sound : Sound u) (h : fl < 2 ^ 64) :
    (u.scalarDoes c fl rd v).word Reg.FP_FLAGS c 0 = u.word Reg.FP_FLAGS c 0 ||| fl := by
  rw [word_of_csr (csr_scalarDoes u c fl rd v), word_flag u c fl ((sound_iff_wf u).1 sound).csr h]

end

/-- One flag after it is joined on a condition. -/
theorem bits_or_flIf (v i : Nat) (p : Prop) [Decidable p] : bits (v ||| if p then 2 ^ i else 0) i i = if p then 1 else bits v i i := by
  split
  · refine Nat.eq_of_testBit_eq fun b => ?_
    rw [testBit_bits, Nat.testBit_or, Nat.testBit_two_pow, Nat.add_sub_cancel_left]
    cases b with
    | zero => simp
    | succ b => simp [Nat.testBit_succ]
  · rw [Nat.or_zero]

/-- One flag joined on a condition reaches no other. -/
theorem testBit_ite_two_pow {i b : Nat} {p : Prop} [Decidable p] (h : (if p then 2 ^ i else 0).testBit b = true) : i ≤ b ∧ b ≤ i := by
  split at h
  · rw [Nat.testBit_two_pow, decide_eq_true_eq] at h
    omega
  · simp at h

end Sys2Proof.Machine
end

section
/-! SUPPORT. O7: the integer instructions, each by the function of words that it computes. -/
namespace Sys2Proof.Machine
open Sys2Proof Sys2Proof.Spec

/-! ### Legal words -/

theorem allZero_iff (l : List Nat) : allZero l = true ↔ ∀ x ∈ l, x = 0 := by
  simp [allZero, List.all_eq_true]

theorem lgR2_of_unusedZero (w : Nat) (h : unusedZero 2 w) : lgR2 w = true := by
  obtain ⟨cc, imm, rs3, -⟩ := h
  simpa [lgR2, allZero_iff] using ⟨rs3 (by decide), cc, imm⟩

theorem lgR1_of_unusedZero (w : Nat) (h : unusedZero 1 w) : lgR1 w = true := by
  obtain ⟨cc, imm, rs3, rs2⟩ := h
  simpa [lgR1, allZero_iff] using ⟨rs2 (by decide), rs3 (by decide), cc, imm⟩

theorem lgR3_of_unusedZero (w : Nat) (h : unusedZero 3 w) : lgR3 w = true := by
  obtain ⟨cc, imm, -, -⟩ := h
  simpa [lgR3, allZero_iff] using ⟨cc, imm⟩

/-! ### Register operands -/

/-- The flags of a division by zero: DZ for the four operations that divide, where the divisor is zero (R69). -/
def divFlags (op b : Nat) : Nat := if 0x0E ≤ op ∧ op ≤ 0x11 ∧ b = 0 then 2 ^ 1 else 0

/-- An entry of the table of register operations is what its command computes: the row runs a function of numbers under a check of the
word, the check passes where the unused fields are zero, and the function gives the entry's word and the flags of its division. -/
def Computes (e : Nat × (Fin 12 → Instr) × Nat × (Word → Word → Word → Word)) : Prop :=
  ∃ legal f, (∀ c s, exec (e.2.1 c) s = s.axOp c e.1 legal f) ∧ (∀ w, unusedZero e.2.2.1 w → legal w = true) ∧
    ∀ a b d : Word, BitVec.ofNat 64 (f a.toNat b.toNat d.toNat).1 = e.2.2.2 a b d ∧
      (f a.toNat b.toNat d.toNat).2 = divFlags e.1 b.toNat

theorem divFlags_of_division {op b : Nat} {x y : Nat × Nat} (h : 0x0E ≤ op ∧ op ≤ 0x11) (hx : x.2 = flDZ) (hy : y.2 = 0) :
    (if b = 0 then x else y).2 = divFlags op b := by
  unfold divFlags
  simp only [h.1, h.2, true_and]
  split
  exacts [hx, hy]

section
variable {op n : Nat} {i : Fin 12 → Instr} {legal : Nat → Bool} {f : Nat → Nat → Nat → Nat × Nat} {g : Word → Word → Word → Word}

theorem computes_of (run : ∀ c s, exec (i c) s = s.axOp c op legal f) (hl : ∀ w, unusedZero n w → legal w = true)
    (flags : ∀ a b d, (f a b d).2 = divFlags op b)
    (value : ∀ a b d : Word, BitVec.ofNat 64 (f a.toNat b.toNat d.toNat).1 = g a b d) : Computes (op, i, n, g) :=
  ⟨legal, f, run, hl, fun a b d => ⟨value a b d, flags ..⟩⟩

end

theorem ofNat_ite_slt (a b x y : Word) :
    BitVec.ofNat 64 (if slt64 a.toNat b.toNat = true then x.toNat else y.toNat) = if a.slt b = true then x else y := by
  rw [slt64_toNat]
  split <;> exact ofNat_toNat_word _

theorem ofNat_sel (a b d : Word) : BitVec.ofNat 64 (if a.toNat ≠ 0 then b.toNat else d.toNat) = if a = 0 then d else b := by
  simp only [ne_eq, toNat_eq_zero, ite_not]
  split <;> exact ofNat_toNat_word _

theorem computes_of_mem_registerOps : ∀ e ∈ registerOps, Computes e := by
  simp only [registerOps, List.forall_mem_cons, List.not_mem_nil, false_imp_iff, implies_true, and_true]
  refine ⟨?add, ?sub, ?and, ?or, ?xor, ?sll, ?srl, ?sra, ?slt, ?sltu, ?mul, ?mulh, ?mulhu, ?div, ?divu, ?rem, ?remu, ?min, ?max, ?minu,
    ?maxu, ?clz, ?popc, ?sel⟩
  case add =>
    exact computes_of (f := fun a b _ => (a + b, 0)) (fun _ _ => rfl) lgR2_of_unusedZero (fun _ _ _ => rfl) fun a b _ => ofNat_add_word a b
  case sub =>
    exact computes_of (f := fun a b _ => (a + 2 ^ 64 - b, 0)) (fun _ _ => rfl) lgR2_of_unusedZero (fun _ _ _ => rfl) fun a b _ => ofNat_add_sub a b
  case and =>
    exact computes_of (f := fun a b _ => (a &&& b, 0)) (fun _ _ => rfl) lgR2_of_unusedZero (fun _ _ _ => rfl) fun a b _ => by simp
  case or =>
    exact computes_of (f := fun a b _ => (a ||| b, 0)) (fun _ _ => rfl) lgR2_of_unusedZero (fun _ _ _ => rfl) fun a b _ => by simp
  case xor =>
    exact computes_of (f := fun a b _ => (a ^^^ b, 0)) (fun _ _ => rfl) lgR2_of_unusedZero (fun _ _ _ => rfl) fun a b _ => by simp
  case sll =>
    exact computes_of (f := fun a b _ => (a <<< (b % 64), 0)) (fun _ _ => rfl) lgR2_of_unusedZero (fun _ _ _ => rfl) fun a b _ => BitVec.eq_of_toNat_eq (by simp)
  case srl =>
    exact computes_of (f := fun a b _ => (a >>> (b % 64), 0)) (fun _ _ => rfl) lgR2_of_unusedZero (fun _ _ _ => rfl) fun a b _ => (by rw [← BitVec.toNat_ushiftRight, ofNat_toNat_word])
  case sra =>
    exact computes_of (f := fun a b _ => (ofSigned 64 (toSigned 64 a >>> (b % 64)), 0)) (fun _ _ => rfl) lgR2_of_unusedZero (fun _ _ _ => rfl) fun a b _ => ofNat_shiftRight_toSigned a _
  case slt =>
    exact computes_of (f := fun a b _ => (b2n (slt64 a b), 0)) (fun _ _ => rfl) lgR2_of_unusedZero (fun _ _ _ => rfl) fun a b _ => (by rw [slt64_toNat, ofNat_b2n])
  case sltu =>
    exact computes_of (f := fun a b _ => (b2n (decide (a < b)), 0)) (fun _ _ => rfl) lgR2_of_unusedZero (fun _ _ _ => rfl) fun a b _ => ofNat_b2n _
  case mul =>
    exact computes_of (f := fun a b _ => (a * b, 0)) (fun _ _ => rfl) lgR2_of_unusedZero (fun _ _ _ => rfl) fun a b _ => ofNat_mul_word a b
  case mulh =>
    exact computes_of (f := fun a b _ => (ofSigned 128 (toSigned 64 a * toSigned 64 b) >>> 64, 0)) (fun _ _ => rfl) lgR2_of_unusedZero (fun _ _ _ => rfl) fun a b _ => ofNat_mulh a b
  case mulhu =>
    exact computes_of (f := fun a b _ => ((a * b) >>> 64, 0)) (fun _ _ => rfl) lgR2_of_unusedZero (fun _ _ _ => rfl) fun a b _ => ofNat_mulhu a b
  case div =>
    exact computes_of (f := fun a b _ => divS a b) (fun _ _ => rfl) lgR2_of_unusedZero (fun _ _ _ => divFlags_of_division (by decide) rfl rfl) fun a b _ => ofNat_divS a b
  case divu =>
    exact computes_of (f := fun a b _ => divU a b) (fun _ _ => rfl) lgR2_of_unusedZero (fun _ _ _ => divFlags_of_division (by decide) rfl rfl) fun a b _ => ofNat_divU a b
  case rem =>
    exact computes_of (f := fun a b _ => remS a b) (fun _ _ => rfl) lgR2_of_unusedZero (fun _ _ _ => divFlags_of_division (by decide) rfl rfl) fun a b _ => ofNat_remS a b
  case remu =>
    exact computes_of (f := fun a b _ => remU a b) (fun _ _ => rfl) lgR2_of_unusedZero (fun _ _ _ => divFlags_of_division (by decide) rfl rfl) fun a b _ => ofNat_remU a b
  case min =>
    exact computes_of (f := fun a b _ => (if slt64 b a then b else a, 0)) (fun _ _ => rfl) lgR2_of_unusedZero (fun _ _ _ => rfl) fun a b _ => ofNat_ite_slt b a b a
  case max =>
    exact computes_of (f := fun a b _ => (if slt64 a b then b else a, 0)) (fun _ _ => rfl) lgR2_of_unusedZero (fun _ _ _ => rfl) fun a b _ => ofNat_ite_slt a b b a
  case minu =>
    exact computes_of (f := fun a b _ => (Nat.min a b, 0)) (fun _ _ => rfl) lgR2_of_unusedZero (fun _ _ _ => rfl) fun a b _ => ofNat_min a b
  case maxu =>
    exact computes_of (f := fun a b _ => (Nat.max a b, 0)) (fun _ _ => rfl) lgR2_of_unusedZero (fun _ _ _ => rfl) fun a b _ => ofNat_max a b
  case clz =>
    exact computes_of (f := fun a _ _ => (clz64 a, 0)) (fun _ _ => rfl) lgR1_of_unusedZero (fun _ _ _ => rfl) fun a _ _ => congrArg _ (clz64_toNat a)
  case popc =>
    exact computes_of (f := fun a _ _ => (popc64 a, 0)) (fun _ _ => rfl) lgR1_of_unusedZero (fun _ _ _ => rfl) fun a _ _ => congrArg _ (popc64_toNat a)
  case sel =>
    exact computes_of (f := fun a b d => (if a ≠ 0 then b else d, 0)) (fun _ _ => rfl) lgR3_of_unusedZero (fun _ _ _ => rfl) fun a b d => ofNat_sel a b d

theorem registerForms : RegisterForms := by
  intro e he s u c p w sound runs op unused
  obtain ⟨legal, f, run, hl, value⟩ := computes_of_mem_registerOps e he
  obtain ⟨result, flags⟩ := value (xw u c (wRS1 w)) (xw u c (wRS2 w)) (xw u c (wRS3 w))
  rw [toNat_xw, toNat_xw, toNat_xw] at result flags
  have small : divFlags e.1 (u.x c (wRS2 w)) < 2 ^ 64 := by
    unfold divFlags
    split <;> decide
  refine ⟨_, (run c s).trans (axOp_word s u c e.1 p w legal f runs.1 runs.2 op (hl w unused)), scalarDoes_frame .., ?_, ?_, ?_⟩
  · rw [← result]
    exact coreResult_scalarDoes u c _ (wRD w) _ sound (wRD_lt w)
  · rw [flags]
    exact bitsBut_scalarDoes u c _ _ _ sound fun b hb => testBit_ite_two_pow hb
  · rw [flags]
    change bits ((u.scalarDoes c _ _ _).word Reg.FP_FLAGS c 0) 1 1 = _
    rw [word_scalarDoes u c _ _ _ sound small]
    exact bits_or_flIf ..

end Sys2Proof.Machine
end

section
/-! SUPPORT. O7: the integer instructions with an immediate. -/
namespace Sys2Proof.Machine
open Sys2Proof Sys2Proof.Spec

/-! ### Immediates as words -/

theorem ofNat_bits_zero (w hi : Nat) : BitVec.ofNat (hi + 1) (bits w hi 0) = BitVec.ofNat (hi + 1) w :=
  BitVec.eq_of_toNat_eq (by rw [BitVec.toNat_ofNat, BitVec.toNat_ofNat]; exact Nat.mod_mod _ _)

theorem ofInt_toSigned_bits (w hi : Nat) : BitVec.ofInt 64 (toSigned (hi + 1) (bits w hi 0)) = (BitVec.ofNat (hi + 1) w).signExtend 64 := by
  rw [toSigned_eq_toInt (by omega), ofNat_bits_zero]
  rfl

theorem toNat_simm (w : Nat) : (simm w).toNat = wSImm w := by
  rw [wSImm, ofSigned_eq]
  exact congrArg _ (ofInt_toSigned_bits w 31).symm

/-- A shift amount: the immediate where its other bits are zero (R101). -/
theorem wSImm_of_shift {w : Nat} (h : bits w 31 6 = 0) : wSImm w = bits w 5 0 := by
  have low : wIMM w = bits w 5 0 := by
    unfold wIMM bits at *
    simp only [Nat.shiftRight_eq_div_pow] at *
    omega
  have small := bits_lt w 5 0
  have pos : toSigned 32 (bits w 5 0) = bits w 5 0 := by
    unfold toSigned
    rw [Nat.mod_eq_of_lt (by omega)]
    exact if_pos (by omega)
  rw [wSImm, low, pos, ofSigned]
  omega

/-- The immediate of a word as an operand: a shift amount, or 32 bits sign-extended. -/
def operandImm (shift : Bool) (w : Nat) : Word := if shift then BitVec.ofNat 64 (bits w 5 0) else simm w

theorem toNat_operandImm {shift : Bool} {w : Nat} (h : shift = true → bits w 31 6 = 0) : (operandImm shift w).toNat = wSImm w := by
  cases shift with
  | false => exact toNat_simm w
  | true =>
    rw [wSImm_of_shift (h rfl)]
    exact (BitVec.toNat_ofNat _ _).trans (Nat.mod_eq_of_lt (by have := bits_lt w 5 0; omega))

theorem toNat_operandImm_shift_lt (w : Nat) : (operandImm true w).toNat < 64 :=
  lt_of_le_of_lt (Nat.mod_le _ _) (bits_lt w 5 0)

/-! ### The table of immediate operations -/

/-- An entry of the table of immediate operations is what its command computes. -/
def ComputesImm (e : Nat × (Fin 12 → Instr) × Bool × (Word → Word → Word)) : Prop :=
  ∃ legal f, (∀ c s, exec (e.2.1 c) s = s.axImm c e.1 legal f) ∧
    (∀ w, bits w 45 32 = 0 → (e.2.2.1 = true → bits w 31 6 = 0) → legal w = true) ∧
    ∀ a i : Word, (e.2.2.1 = true → i.toNat < 64) → BitVec.ofNat 64 (f a.toNat i.toNat) = e.2.2.2 a i

section
variable {op : Nat} {i : Fin 12 → Instr} {f : Nat → Nat → Nat} {g : Word → Word → Word}

theorem computesImm_of (run : ∀ c s, exec (i c) s = s.axImm c op lgI f) (value : ∀ a b : Word, BitVec.ofNat 64 (f a.toNat b.toNat) = g a b) :
    ComputesImm (op, i, false, g) :=
  ⟨lgI, f, run, fun _ h _ => beq_iff_eq.2 h, fun a b _ => value a b⟩

theorem computesImm_of_shift (run : ∀ c s, exec (i c) s = s.axImm c op lgIsh fun a b => f a (b % 64))
    (value : ∀ a b : Word, BitVec.ofNat 64 (f a.toNat b.toNat) = g a b) : ComputesImm (op, i, true, g) :=
  ⟨lgIsh, _, run, fun _ h hs => by rw [lgIsh, h, hs rfl]; rfl, fun a b hb => by rw [Nat.mod_eq_of_lt (hb rfl)]; exact value a b⟩

end

theorem computesImm_of_mem_immediateOps : ∀ e ∈ immediateOps, ComputesImm e := by
  simp only [immediateOps, List.forall_mem_cons, List.not_mem_nil, false_imp_iff, implies_true, and_true]
  refine ⟨?addi, ?andi, ?ori, ?xori, ?slli, ?srli, ?srai, ?slti, ?sltiu⟩
  case addi => exact computesImm_of (f := fun a b => a + b) (fun _ _ => rfl) ofNat_add_word
  case andi => exact computesImm_of (f := fun a b => a &&& b) (fun _ _ => rfl) fun a b => by simp
  case ori => exact computesImm_of (f := fun a b => a ||| b) (fun _ _ => rfl) fun a b => by simp
  case xori => exact computesImm_of (f := fun a b => a ^^^ b) (fun _ _ => rfl) fun a b => by simp
  case slli => exact computesImm_of_shift (f := fun a n => a <<< n) (fun _ _ => rfl) fun a b => BitVec.eq_of_toNat_eq (by simp)
  case srli =>
    exact computesImm_of_shift (f := fun a n => a >>> n) (fun _ _ => rfl) fun a b => by rw [← BitVec.toNat_ushiftRight, ofNat_toNat_word]
  case srai =>
    exact computesImm_of_shift (f := fun a n => ofSigned 64 (toSigned 64 a >>> n)) (fun _ _ => rfl) fun a b => ofNat_shiftRight_toSigned a _
  case slti => exact computesImm_of (f := fun a b => b2n (slt64 a b)) (fun _ _ => rfl) fun a b => by rw [slt64_toNat, ofNat_b2n]
  case sltiu => exact computesImm_of (f := fun a b => b2n (decide (a < b))) (fun _ _ => rfl) fun a b => ofNat_b2n _

/-! ### LI and LIH -/

theorem ofNat_setBits_high (x y : Nat) (h : x < 2 ^ 64) :
    BitVec.ofNat 64 (setBits x 63 48 (bits y 15 0)) = (BitVec.ofNat 16 y ++ BitVec.ofNat 48 x : BitVec 64) := by
  refine BitVec.eq_of_toNat_eq ?_
  rw [BitVec.toNat_append, BitVec.toNat_ofNat, BitVec.toNat_ofNat, BitVec.toNat_ofNat, setBits_eq,
    ← Nat.shiftLeft_add_eq_or_of_lt (Nat.mod_lt _ (by decide)), Nat.shiftLeft_eq, bits, Nat.shiftRight_zero]
  omega

theorem immediateForms : ImmediateForms := by
  refine ⟨fun e he s u c p w sound runs op high shift => ?_, fun s u c p w sound runs op reserved => ?_,
    fun s u c p w sound runs op reserved imm => ?_⟩
  · obtain ⟨legal, f, run, hl, value⟩ := computesImm_of_mem_immediateOps e he
    refine ⟨_, (run c s).trans (axImm_word s u c e.1 p w legal f runs.1 runs.2 op (hl w high shift)), setX_next_frame .., ?_⟩
    have result := value (xw u c (wRS1 w)) (operandImm e.2.2.1 w) fun h => h ▸ toNat_operandImm_shift_lt w
    rw [toNat_xw, toNat_operandImm shift] at result
    change CoreResult _ _ _ _ (e.2.2.2 _ (operandImm e.2.2.1 w)) _
    rw [← result]
    exact coreResult_setX_next u c (wRD w) _ sound (wRD_lt w)
  · have legal : lgL w = true := beq_iff_eq.2 reserved
    refine ⟨_, axRow_word s u c 0x2A p w lgL _ runs.1 runs.2 op legal, setX_next_frame .., ?_⟩
    rw [← ofInt_toSigned_bits w 47, ← ofNat_ofSigned]
    exact coreResult_setX_next u c (wRD w) _ sound (wRD_lt w)
  · have legal : (lgL w && bits w 47 16 == 0) = true := by rw [lgL, reserved, imm]; rfl
    refine ⟨_, axRow_word s u c 0x2B p w _ _ runs.1 runs.2 op legal, setX_next_frame .., ?_⟩
    rw [← ofNat_setBits_high _ _ (toNat_xw u c (wRD w) ▸ BitVec.isLt _)]
    exact coreResult_setX_next u c (wRD w) _ sound (wRD_lt w)

/-- Settles O7: each entry of the tables by the function of words that its command computes, in the frame of every scalar instruction. -/
theorem integerInstructions : Obligations.IntegerInstructions := ⟨fun _ _ => rfl, registerForms, immediateForms⟩

end Sys2Proof.Machine
end

section
/-! SUPPORT. The FP32 functions (R102, R103, R170–R172): their codes have 32 bits, and they raise none but the five flags of IEEE 754. -/
namespace Sys2Proof.Machine
open Sys2Proof Sys2Proof.Spec

/-! ### Flags -/

/-- A set of the five flags NV, DZ, OF, UF and NX. -/
abbrev Five (fl : Nat) : Prop := fl < 2 ^ 5

theorem five_zero : Five 0 := by decide

theorem five_flNV : Five flNV := by decide

theorem five_flJoin {a b : Nat} (ha : Five a) (hb : Five b) : Five (flJoin a b) := Nat.or_lt_two_pow ha hb

theorem five_flIf {c : Bool} {fl : Nat} (h : Five fl) : Five (flIf c fl) := by cases c; exacts [five_zero, h]

theorem five_fvAdd (a b : FV) : Five (fvAdd a b).2 := by
  fun_cases fvAdd a b
  all_goals simp [flNV]

theorem five_fvMul (a b : FV) : Five (fvMul a b).2 := by
  fun_cases fvMul a b
  all_goals simp [flNV]

theorem five_fvDiv (a b : FV) : Five (fvDiv a b).2 := by
  fun_cases fvDiv a b
  all_goals simp [flNV, flDZ]

theorem five_fvSqrt (a : FV) : Five (fvSqrt a).2 := by
  fun_cases fvSqrt a
  all_goals simp [flNV]

theorem five_fvFma (a b c : FV) : Five (fvFma a b c).2 := five_flJoin (five_fvMul a b) (five_fvAdd _ c)

/-! ### Rounding to FP32 -/

/-- An FP32 code and a set of the five flags. -/
abbrev IsFP32 (r : Nat × Nat) : Prop := r.1 < 2 ^ 32 ∧ Five r.2

theorem withSign_lt {c : Nat} (neg : Bool) (h : c < 2 ^ 31) : withSign 0 neg c < 2 ^ 32 := by
  unfold withSign
  change (if neg = true then c + 2 ^ 31 else c) < _
  split <;> omega

theorem isFP32_finishMag (neg : Bool) (code : Nat) (nx : Bool) : IsFP32 (finishMag 0 neg code nx) := by
  unfold finishMag
  by_cases h : fmtMaxCode 0 < code
  · rw [if_pos h]
    exact ⟨withSign_lt neg (by decide), (by decide : Five (flJoin flOF flNX))⟩
  · rw [if_neg h]
    have small : code ≤ 0x7F7FFFFF := Nat.not_lt.1 h
    exact ⟨withSign_lt neg (by omega), five_flJoin (five_flIf (by decide)) (five_flIf (by decide))⟩

theorem isFP32_narrow (v : FV) : IsFP32 (narrow 0 v) := by
  cases v with
  | nan => decide
  | inf neg => exact ⟨withSign_lt neg (by decide), five_zero⟩
  | fin neg m e => exact isFP32_finishMag neg _ _

theorem isFP32_to32 {r : FV × Nat} (h : Five r.2) : IsFP32 (to32 r) := ⟨(isFP32_narrow r.1).1, five_flJoin h (isFP32_narrow r.1).2⟩

/-! ### Conversions and comparisons -/

theorem five_f32ToInt (signed : Bool) (c : Nat) : Five (f32ToInt signed c).2 := by
  unfold f32ToInt
  extract_lets lo hi
  split
  · exact five_flNV
  · exact five_flNV
  · split
    extract_lets v
    split
    · exact five_flNV
    · split
      · exact five_flNV
      · exact five_flIf (by decide)

theorem f32Cvt_eq {cc : Nat} (a : Nat) (h : cc ≤ 3) :
    f32Cvt cc a = if cc < 2 then f32ToInt (cc == 0) (a % 2 ^ 32) else intToF32 (cc == 2) a := by
  obtain rfl | rfl | rfl | rfl : cc = 0 ∨ cc = 1 ∨ cc = 2 ∨ cc = 3 := by omega
  all_goals rfl

theorem five_f32Cvt {cc : Nat} (a : Nat) (h : cc ≤ 3) : Five (f32Cvt cc a).2 := by
  rw [f32Cvt_eq a h]
  split
  exacts [five_f32ToInt _ _, (isFP32_narrow _).2]

theorem fvEq_of_nan {a b : FV} (h : (fvIsNan a || fvIsNan b) = true) : fvEq a b = false := by
  fun_cases fvEq a b
  all_goals simp_all [fvIsNan]

theorem fvLt_of_nan {a b : FV} (h : (fvIsNan a || fvIsNan b) = true) : fvLt a b = false := by
  fun_cases fvLt a b
  all_goals simp_all [fvIsNan]

/-- The result of a comparison under a condition code (R102). -/
def cmpResult (cc : Nat) (a b : FV) : Bool :=
  match cc with
  | 0 => fvEq a b
  | 1 => fvLt a b
  | 2 => fvLt a b || fvEq a b
  | _ => fvIsNan a || fvIsNan b

theorem f32Cmp_eq {cc : Nat} (a b : Nat) (h : cc ≤ 3) :
    f32Cmp cc a b = (b2n (cmpResult cc (of32 a) (of32 b)),
      if (fvIsNan (of32 a) || fvIsNan (of32 b)) = true ∧ (cc = 1 ∨ cc = 2) then 2 ^ 0 else 0) := by
  unfold f32Cmp cmpResult
  cases nan : fvIsNan (of32 a) || fvIsNan (of32 b) with
  | true =>
    obtain rfl | rfl | rfl | rfl : cc = 0 ∨ cc = 1 ∨ cc = 2 ∨ cc = 3 := by omega
    all_goals simp [nan, fvEq_of_nan nan, fvLt_of_nan nan, flIf, flNV]
  | false =>
    obtain rfl | rfl | rfl | rfl : cc = 0 ∨ cc = 1 ∨ cc = 2 ∨ cc = 3 := by omega
    all_goals simp [nan, flIf]

end Sys2Proof.Machine
end

section
/-! SUPPORT. O8: the FP32 instructions. -/
namespace Sys2Proof.Machine
open Sys2Proof Sys2Proof.Spec

/-- An entry of the table of FP32 operations is what its command computes, on the low 32 bits of its sources. -/
def ComputesFP32 (e : Nat × (Fin 12 → Instr) × Nat × (Nat → Nat → Nat → Nat × Nat)) : Prop :=
  ∃ legal, (∀ c s, exec (e.2.1 c) s = s.axOp c e.1 legal fun a b d => e.2.2.2 (lo32 a) (lo32 b) (lo32 d)) ∧
    (∀ w, unusedZero e.2.2.1 w → legal w = true) ∧ ∀ a b d, IsFP32 (e.2.2.2 a b d)

theorem computesFP32_of_mem_floatOps : ∀ e ∈ floatOps, ComputesFP32 e := by
  simp only [floatOps, List.forall_mem_cons, List.not_mem_nil, false_imp_iff, implies_true, and_true]
  refine ⟨?fadd, ?fsub, ?fmul, ?fdiv, ?fma, ?fsqrt⟩
  case fadd => exact ⟨lgR2, fun _ _ => rfl, lgR2_of_unusedZero, fun _ _ _ => isFP32_to32 (five_fvAdd _ _)⟩
  case fsub => exact ⟨lgR2, fun _ _ => rfl, lgR2_of_unusedZero, fun _ _ _ => isFP32_to32 (five_fvAdd _ _)⟩
  case fmul => exact ⟨lgR2, fun _ _ => rfl, lgR2_of_unusedZero, fun _ _ _ => isFP32_to32 (five_fvMul _ _)⟩
  case fdiv => exact ⟨lgR2, fun _ _ => rfl, lgR2_of_unusedZero, fun _ _ _ => isFP32_to32 (five_fvDiv _ _)⟩
  case fma => exact ⟨lgR3, fun _ _ => rfl, lgR3_of_unusedZero, fun _ _ _ => isFP32_to32 (five_fvFma _ _ _)⟩
  case fsqrt => exact ⟨lgR1, fun _ _ => rfl, lgR1_of_unusedZero, fun _ _ _ => isFP32_to32 (five_fvSqrt _)⟩

theorem single_flag_lt (q : Prop) [Decidable q] : (if q then 2 ^ 0 else 0) < 2 ^ 64 := by
  split <;> decide

section
variable (u : State) (c : Fin 12) (fl rd v : Nat)

/-- Five flags joined reach no bit of FP_FLAGS above them. -/
theorem bitsBut_scalarDoes_five (sound : Sound u) (h : Five fl) :
    BitsBut [(⟨Reg.FP_FLAGS, 4, 0⟩, c, 0)] u (u.scalarDoes c fl rd v) :=
  bitsBut_scalarDoes u c fl rd v sound fun b hb => by
    by_contra out
    rw [Nat.testBit_lt_two_pow (lt_of_lt_of_le h (Nat.pow_le_pow_right (by decide) (by omega)))] at hb
    cases hb

theorem word_scalarDoes_five (sound : Sound u) (h : Five fl) :
    (u.scalarDoes c fl rd v).word Reg.FP_FLAGS c 0 = u.word Reg.FP_FLAGS c 0 ||| fl :=
  word_scalarDoes u c fl rd v sound (lt_trans h (by decide))

end

section
variable {s u : State} {c : Fin 12} {p w : Nat} (sound : Sound u) (runs : Runs s u c p w)
include sound runs

/-- R102: the arithmetic of FP32. -/
theorem floatOp_spec {e} (he : e ∈ floatOps) (op : w >>> 56 = e.1) (unused : unusedZero e.2.2.1 w) :
    let r := e.2.2.2 (xlow u c (wRS1 w)) (xlow u c (wRS2 w)) (xlow u c (wRS3 w))
    ∃ t, exec (e.2.1 c) s = .next t ∧ t = { u with cores := t.cores, csr := t.csr } ∧ r.1 < 2 ^ 32 ∧
      CoreResult u t c (wRD w) (BitVec.ofNat 64 r.1) ((u.core c).pc + 8) ∧
      BitsBut [(⟨Reg.FP_FLAGS, 4, 0⟩, c, 0)] u t ∧ t.word Reg.FP_FLAGS c 0 = u.word Reg.FP_FLAGS c 0 ||| r.2 := by
  intro r
  obtain ⟨legal, run, hl, fp⟩ := computesFP32_of_mem_floatOps e he
  obtain ⟨code, flags⟩ : IsFP32 r := fp _ _ _
  exact ⟨_, (run c s).trans (axOp_word s u c e.1 p w legal _ runs.1 runs.2 op (hl w unused)), scalarDoes_frame .., code,
    coreResult_scalarDoes u c _ _ _ sound (wRD_lt w), bitsBut_scalarDoes_five u c _ _ _ sound flags,
    word_scalarDoes_five u c _ _ _ sound flags⟩

/-- R102: the comparisons of FP32. -/
theorem fcmp_spec (op : w >>> 56 = 0x36) (rs3 : bits w 40 36 = 0) (imm : bits w 31 0 = 0) (cc : wCC w ≤ 3) :
    let a := of32 (xlow u c (wRS1 w))
    let b := of32 (xlow u c (wRS2 w))
    let un := fvIsNan a || fvIsNan b
    ∃ t, exec (.axFcmp c) s = .next t ∧ t = { u with cores := t.cores, csr := t.csr } ∧
      CoreResult u t c (wRD w) (if cmpResult (wCC w) a b then 1 else 0) ((u.core c).pc + 8) ∧ BitsBut [(Fld.FP_FLAGS.NV, c, 0)] u t ∧
      t.get Fld.FP_FLAGS.NV c = if un ∧ (wCC w = 1 ∨ wCC w = 2) then 1 else u.get Fld.FP_FLAGS.NV c := by
  intro a b un
  have legal : (allZero [wRS3 w, wIMM w] && decide (wCC w ≤ 3)) = true := by
    rw [Bool.and_eq_true, allZero_iff, decide_eq_true_iff]
    exact ⟨by simpa using ⟨rs3, imm⟩, cc⟩
  have eq := f32Cmp_eq (xlow u c (wRS1 w)) (xlow u c (wRS2 w)) cc
  have run : exec (.axFcmp c) s = .next (u.scalarDoes c (f32Cmp (wCC w) (xlow u c (wRS1 w)) (xlow u c (wRS2 w))).2 (wRD w)
    (f32Cmp (wCC w) (xlow u c (wRS1 w)) (xlow u c (wRS2 w))).1) := axRow_word s u c 0x36 p w _ _ runs.1 runs.2 op legal
  rw [eq] at run
  refine ⟨_, run, scalarDoes_frame .., ?_, bitsBut_scalarDoes u c _ _ _ sound fun _ hb => testBit_ite_two_pow hb, ?_⟩
  · rw [← ofNat_b2n]
    exact coreResult_scalarDoes u c _ _ _ sound (wRD_lt w)
  · change bits ((u.scalarDoes c _ _ _).word Reg.FP_FLAGS c 0) 0 0 = _
    rw [word_scalarDoes u c _ _ _ sound (single_flag_lt _)]
    exact bits_or_flIf ..

/-- R103: the conversions between FP32 and integers. -/
theorem fcvt_spec (op : w >>> 56 = 0x37) (sources : bits w 45 36 = 0) (imm : bits w 31 0 = 0) (cc : wCC w ≤ 3) :
    let r := if wCC w < 2 then f32ToInt (wCC w == 0) (xlow u c (wRS1 w)) else intToF32 (wCC w == 2) (u.x c (wRS1 w))
    ∃ t, exec (.axFcvt c) s = .next t ∧ t = { u with cores := t.cores, csr := t.csr } ∧
      CoreResult u t c (wRD w) (BitVec.ofNat 64 r.1) ((u.core c).pc + 8) ∧
      BitsBut [(⟨Reg.FP_FLAGS, 4, 0⟩, c, 0)] u t ∧ t.word Reg.FP_FLAGS c 0 = u.word Reg.FP_FLAGS c 0 ||| r.2 := by
  intro r
  have unused : wRS2 w = 0 ∧ wRS3 w = 0 := by
    unfold wRS2 wRS3 bits at *
    simp only [Nat.shiftRight_eq_div_pow] at *
    omega
  have legal : (allZero [wRS2 w, wRS3 w, wIMM w] && decide (wCC w ≤ 3)) = true := by
    rw [Bool.and_eq_true, allZero_iff, decide_eq_true_iff]
    exact ⟨by simpa using ⟨unused.1, unused.2, imm⟩, cc⟩
  have run : exec (.axFcvt c) s = .next (u.scalarDoes c (f32Cvt (wCC w) (u.x c (wRS1 w))).2 (wRD w) (f32Cvt (wCC w) (u.x c (wRS1 w))).1) :=
    axRow_word s u c 0x37 p w _ _ runs.1 runs.2 op legal
  have flags : Five r.2 := by
    change Five (ite _ _ _ : Nat × Nat).2
    exact f32Cvt_eq (u.x c (wRS1 w)) cc ▸ five_f32Cvt (u.x c (wRS1 w)) cc
  rw [f32Cvt_eq _ cc] at run
  exact ⟨_, run, scalarDoes_frame .., coreResult_scalarDoes u c _ _ _ sound (wRD_lt w), bitsBut_scalarDoes_five u c _ _ _ sound flags,
    word_scalarDoes_five u c _ _ _ sound flags⟩

end

/-- Settles O8: the arithmetic, the comparisons and the conversions, in the frame of every scalar instruction. -/
theorem floatingPointInstructions : Obligations.FloatingPointInstructions :=
  ⟨fun _ he _ _ _ _ _ sound runs op unused => floatOp_spec sound runs he op unused,
    fun _ _ _ _ _ sound runs op rs3 imm cc => fcmp_spec sound runs op rs3 imm cc,
    fun _ _ _ _ _ sound runs op sources imm cc => fcvt_spec sound runs op sources imm cc⟩

end Sys2Proof.Machine
end

section
/-! SUPPORT. A fault of the scalar unit (R44, R90, R91): its record, the core that stops, and that the abandonment it begins touches
neither the cores nor memory nor the registers of a core. -/
namespace Sys2Proof.Machine
open Sys2Proof Sys2Proof.Spec

/-- The registers of the cores, and all above them. -/
abbrev CoreRegs (o : Nat) : Prop := 0x2000000 ≤ o

/-- A state with the cores, the memory and the core registers of another. -/
structure Aside (a s : State) : Prop where
  cores : s.cores = a.cores
  mem : s.mem = a.mem
  regs : SameRegs CoreRegs a s

/-! ### One part of the block replaced -/

namespace Aside
variable {a s t : State}

theorem refl : Aside a a := ⟨rfl, rfl, .refl⟩

theorem setWord {r : Reg} {i j w : Nat} (h : Aside a s) (low : r.off i j < 0x2000000) : Aside a (s.setWord r i j w) :=
  { h with regs := h.regs.setWord (Nat.not_le.2 low) }

theorem set {f : Fld} {v i j : Nat} (h : Aside a s) (low : f.reg.off i j < 0x2000000) : Aside a (s.set f v i j) := h.setWord low

/-- A register of which there is one. -/
theorem setOne {f : Fld} {v : Nat} (h : Aside a s) (low : f.reg.off 0 0 < 0x2000000 := by decide) : Aside a (s.set f v) := h.set low

theorem keep {parts colls sent net} (h : Aside a s) : Aside a { s with parts, colls, sent, net } := { h with }

theorem setPart {p : Nat} {k : PartSt} (h : Aside a s) : Aside a (s.setPart p k) := h.keep

theorem ite {c : Prop} [Decidable c] {x y : State} (hx : Aside a x) (hy : Aside a y) : Aside a (if c then x else y) := by
  split; exacts [hx, hy]

theorem foldl {β : Type} {l : List β} {f : State → β → State} (h : Aside a s) (k : ∀ s x, Aside a s → Aside a (f s x)) :
    Aside a (l.foldl f s) := by
  induction l generalizing s with
  | nil => exact h
  | cons x l ih => exact ih (k s x h)

/-! ### Error records, messages and decisions -/

theorem post {r} (h : Aside a s) : Aside a (s.post r) := by
  have entry {e j : Nat} (he : e < 64) (hj : j < 4) : Reg.ERR_LOG.off e j < 0x2000000 := by
    have off : Reg.ERR_LOG.off e j = 0x401000 + e * 0x20 + j * 0x8 := rfl
    omega
  have e := Nat.mod_lt (s.get Fld.ERR_LOG_PI.PROD) (show 64 > 0 by decide)
  exact .ite (.setOne <| .setOne h) <| .setOne <| .setWord (.setWord (.setWord (.setWord h (entry e (by decide)))
    (entry e (by decide))) (entry e (by decide))) (entry e (by decide))

theorem sendOn {q m} (h : Aside a s) : Aside a (s.sendOn q m) := .ite h (.keep (.keep h))

theorem sendDev {d m} (h : Aside a s) : Aside a (s.sendDev d m) := .ite (.sendOn h) h

theorem sendGroup {g m} (h : Aside a s) : Aside a (s.sendGroup g m) := .foldl h fun _ _ h => .sendDev h

end Aside

/-- A loop that keeps or replaces by a member keeps what holds of the first and of the members. -/
theorem foldl_ite_of {P : Nat → Prop} {l : List Nat} {b : Nat → Nat → Prop} [∀ i m, Decidable (b i m)] {x : Nat} (hx : P x) (hl : ∀ i ∈ l, P i) :
    P (l.foldl (fun m i => if b i m then i else m) x) := by
  induction l generalizing x with
  | nil => exact hx
  | cons i l ih =>
    refine ih ?_ fun j hj => hl j (.tail i hj)
    change P (if b i x then i else x)
    split
    exacts [hl i (.head l), hx]

theorem lt_of_mem_upFrom {n i : Nat} (h : i ∈ upFrom 0 n) : i < n := by
  have := mem_upFrom.1 h
  omega

theorem leadGroup_lt (s : State) (p : Nat) : s.leadGroup p < 16 := by
  unfold State.leadGroup
  cases h : s.groupsOf p with
  | nil => decide
  | cons g l => exact lt_of_mem_upFrom (List.mem_filter.1 (show g ∈ s.groupsOf p from h ▸ .head l)).1

namespace Aside
variable {a s : State}

theorem logDecision {g b c} (h : Aside a s) (hg : g < 16) : Aside a (s.logDecision g b c) := by
  have entry {i : Nat} (hi : i < 16) : Reg.GRP_LOG.off g i < 0x2000000 := by
    have off : Reg.GRP_LOG.off g i = 0xc01080 + g * 0x100 + i * 0x8 := rfl
    omega
  unfold State.logDecision
  extract_lets free old i
  have hold : old < 16 := foldl_ite_of (P := (· < 16)) (b := fun i m => s.get Fld.GRP_LOG.BTICK g i < s.get Fld.GRP_LOG.BTICK g m) (by decide)
    fun _ hi => lt_of_mem_upFrom hi
  have hi : i < 16 := by
    change free.getD old < 16
    cases hf : free with
    | none => exact hold
    | some j => exact lt_of_mem_upFrom (List.mem_of_find?_eq_some hf)
  exact .set (.set h (entry hi)) (entry hi)

theorem sendDecision {g b c} (h : Aside a s) (hg : g < 16) : Aside a (s.sendDecision g b c) := .sendGroup <| .logDecision h hg

theorem decideVote {p c} (h : Aside a s) : Aside a (s.decideVote p c) := .ite h (.setPart <| .sendDecision h (leadGroup_lt s p))

theorem voteAbandon {p} (h : Aside a s) : Aside a (s.voteAbandon p) := .ite h (.ite (.decideVote h) (.sendDev h))

theorem noteCause {p cause} (h : Aside a s) (hp : p < 16) : Aside a (s.noteCause p cause) := by
  have low : Reg.STEP_ERR.off p 0 < 0x2000000 := by
    have off : Reg.STEP_ERR.off p 0 = 0x1048 + p * 0x100 := rfl
    omega
  cases cause with
  | eveStall => exact .set (.set h low) low
  | overrun | fault | xdieTimeout | groupVote => exact .set h low

theorem beginAbandon {p b} (h : Aside a s) (hp : p < 16) : Aside a (s.beginAbandon p b) := by
  unfold State.beginAbandon
  extract_lets
  split
  · split
    exacts [.ite (.noteCause (.setPart h) hp) (.setPart h), .setPart h]
  · exact h
  · exact .noteCause (.ite (.keep <| .setPart h) (.voteAbandon <| .keep <| .setPart h)) hp

end Aside

/-! ### The record -/

/-- A core fault recorded in FAULT_REC, FAULT_PC and FAULT_ADDR, or, where a record stands, noted in it (R91). -/
def State.faultRecorded (s : State) (c : Nat) (e : FaultEng) (pc : Nat) (f : CFault) (unit : Nat) : State :=
  if s.is Fld.FAULT_REC.VALID c then s.set Fld.FAULT_REC.MORE 1 c
  else
    let t := (((s.set Fld.FAULT_REC.VALID 1 c).set Fld.FAULT_REC.ENGINE e.code c).set Fld.FAULT_REC.CODE f.code c).set Fld.FAULT_REC.UNIT unit c
    ((t.set Fld.FAULT_REC.BTICK_LO t.btick c).set Fld.FAULT_PC.PC pc c).set Fld.FAULT_ADDR.ADDR f.addr c

section
variable (s : State) (c : Nat) (e : FaultEng) (pc : Nat) (f : CFault) (unit : Nat)

theorem faultRecorded_frame : s.faultRecorded c e pc f unit = { s with csr := (s.faultRecorded c e pc f unit).csr } := by
  unfold State.faultRecorded
  split <;> rfl

theorem faultRecorded_fields (wf : smWf 0#64 s.csr = true) (free : s.get Fld.FAULT_REC.VALID c = 0) :
    let t := s.faultRecorded c e pc f unit
    t.get Fld.FAULT_REC.CODE c = f.code % 2 ^ 8 ∧ t.get Fld.FAULT_REC.ENGINE c = e.code % 2 ^ 3 ∧
      t.get Fld.FAULT_ADDR.ADDR c = f.addr % 2 ^ 42 := by
  intro t
  obtain ⟨now, ht⟩ : ∃ now, t = (((((((s.set Fld.FAULT_REC.VALID 1 c).set Fld.FAULT_REC.ENGINE e.code c).set Fld.FAULT_REC.CODE f.code c).set
      Fld.FAULT_REC.UNIT unit c).set Fld.FAULT_REC.BTICK_LO now c).set Fld.FAULT_PC.PC pc c).set Fld.FAULT_ADDR.ADDR f.addr c) :=
    ⟨_, if_neg (by rw [is_eq_false free]; decide)⟩
  rw [ht]
  have w1 := smWf_csr_set s Fld.FAULT_REC.VALID 1 c 0 wf
  generalize s.set Fld.FAULT_REC.VALID 1 c = s1 at w1
  have w2 := smWf_csr_set s1 Fld.FAULT_REC.ENGINE e.code c 0 w1
  have engine := get_set_same s1 Fld.FAULT_REC.ENGINE e.code c 0 w1 (by decide) (by decide)
  generalize s1.set Fld.FAULT_REC.ENGINE e.code c = s2 at w2 engine
  have w3 := smWf_csr_set s2 Fld.FAULT_REC.CODE f.code c 0 w2
  have code := get_set_same s2 Fld.FAULT_REC.CODE f.code c 0 w2 (by decide) (by decide)
  rw [← get_set_apart s2 Fld.FAULT_REC.CODE Fld.FAULT_REC.ENGINE f.code c 0 w2 (by decide) (by decide) rfl (by decide)] at engine
  generalize s2.set Fld.FAULT_REC.CODE f.code c = s3 at w3 engine code
  have w4 := smWf_csr_set s3 Fld.FAULT_REC.UNIT unit c 0 w3
  have w5 := smWf_csr_set _ Fld.FAULT_REC.BTICK_LO now c 0 w4
  have w6 := smWf_csr_set _ Fld.FAULT_PC.PC pc c 0 w5
  have later (g : Fld) (hr : g.reg = Reg.FAULT_REC) (hu : g.hi < 16) :
      ((((s3.set Fld.FAULT_REC.UNIT unit c).set Fld.FAULT_REC.BTICK_LO now c).set Fld.FAULT_PC.PC pc c).set Fld.FAULT_ADDR.ADDR f.addr c).get g c =
        s3.get g c := by
    rw [get_set_of_base_ne _ Fld.FAULT_ADDR.ADDR g _ _ _ (by rw [hr]; rfl) (by rw [hr]; decide),
      get_set_of_base_ne _ Fld.FAULT_PC.PC g _ _ _ (by rw [hr]; rfl) (by rw [hr]; decide),
      get_set_apart _ Fld.FAULT_REC.BTICK_LO g _ _ _ w4 (by decide) (by decide) hr (.inr (lt_trans hu (by decide))),
      get_set_apart _ Fld.FAULT_REC.UNIT g _ _ _ w3 (by decide) (by decide) hr (.inr hu)]
  exact ⟨(later Fld.FAULT_REC.CODE rfl (by decide)).trans code, (later Fld.FAULT_REC.ENGINE rfl (by decide)).trans engine,
    get_set_same _ Fld.FAULT_ADDR.ADDR f.addr c 0 w6 (by decide) (by decide)⟩

end

/-! ### A fault of the scalar unit -/

theorem partOf_lt {s : State} {c p : Nat} (h : s.partOf c = some p) : p < 16 := by
  unfold State.partOf at h
  split at h
  · cases h
    exact get_lt s Fld.CORE_STATUS.PART c 0
  · cases h

/-- The core stops after the record, and what follows lies aside. As in `State.Wf.coreFaultAs`, the function that the last case split
asks is a variable, so that the kernel does not evaluate it. -/
theorem coreFaultAs_spec (s : State) (c : Nat) (e : FaultEng) (pc : Nat) (f : CFault) (unit cls aunit : Nat) (stop : Bool) :
    ∃ v, Aside (s.faultRecorded c e pc f unit) v ∧
      Aside (v.setCore c { v.core c with run := .faulted }) (s.coreFaultAs c e pc f unit cls aunit stop) := by
  obtain ⟨F, hF⟩ : ∃ F, F = @State.coreFaultAs := ⟨_, rfl⟩
  obtain ⟨part, hpart⟩ : ∃ f, f = @State.partOf := ⟨_, rfl⟩
  have hlt (s : State) (c p : Nat) (h : part s c = some p) : p < 16 := by
    rw [hpart] at h
    exact partOf_lt h
  rw [← hF]
  delta State.coreFaultAs at hF
  rw [← hpart] at hF
  subst hF
  beta_reduce
  extract_lets _ _ _ _ _ s1 _ s2 _ s3
  have h1 : s1 = s.faultRecorded c e pc f unit := rfl
  clear_value s1
  have h2 : Aside s1 s2 := .post .refl
  clear_value s2
  have h3 : Aside (s2.setCore c { s2.core c with run := .faulted }) s3 := .refl
  refine ⟨s2, h1 ▸ h2, ?_⟩
  clear_value s3
  split
  · rename_i p hp
    exact .beginAbandon h3 (hlt _ _ _ hp)
  · exact h3

/-- What a fault of the scalar unit that names no stack leaves: memory, and its core but for its stop; and the record, if none stood. -/
theorem scalarFault_spec (s : State) (sound : Sound s) (c : Fin 12) (code addr : Nat) (hc : code < 2 ^ 8) (ha : addr < 2 ^ 42) :
    let t := s.scalarFault c code addr none
    t.mem = s.mem ∧ t.core c = { s.core c with run := .faulted } ∧
      (s.get Fld.FAULT_REC.VALID c = 0 →
        t.get Fld.FAULT_REC.CODE c = code ∧ t.get Fld.FAULT_REC.ENGINE c = 0 ∧ t.get Fld.FAULT_ADDR.ADDR c = addr) := by
  intro t
  have ht : t = s.coreFaultAs c .scalar (s.core c).pc ⟨code, addr, none⟩ 0 6 c false := by
    change s.coreFault c .scalar (s.core c).pc ⟨code, addr, none⟩ = _
    unfold State.coreFault
    simp only [Option.isSome_none, Bool.and_false, Bool.false_and]
    rfl
  obtain ⟨v, before, after⟩ := coreFaultAs_spec s c .scalar (s.core c).pc ⟨code, addr, none⟩ 0 6 c false
  rw [← ht] at after
  have record := faultRecorded_fields s c .scalar (s.core c).pc ⟨code, addr, none⟩ 0 ((sound_iff_wf s).1 sound).csr
  have frame := faultRecorded_frame s c .scalar (s.core c).pc ⟨code, addr, none⟩ 0
  generalize s.faultRecorded c .scalar (s.core c).pc ⟨code, addr, none⟩ 0 = r at before record frame
  have cores : v.cores = s.cores := by rw [before.cores, frame]
  have core : v.core c = s.core c := by rw [State.core, cores]; rfl
  have room : c.val < v.cores.length := by rw [cores]; exact core_in s c sound.1
  refine ⟨?_, ?_, fun free => ?_⟩
  · rw [after.mem]
    exact before.mem.trans (by rw [frame])
  · rw [State.core, after.cores]
    exact (core_setCore_same v c _ room).trans (by rw [core])
  · obtain ⟨hcode, hengine, haddr⟩ := record free
    have same (f : Fld) (hf : 0x2000000 ≤ f.reg.base) : t.get f c = r.get f c :=
      (after.regs.get (hf.trans (base_le_off ..))).trans (before.regs.get (hf.trans (base_le_off ..)))
    rw [same _ (by decide), same _ (by decide), same _ (by decide), hcode, hengine, haddr]
    exact ⟨Nat.mod_eq_of_lt hc, rfl, Nat.mod_eq_of_lt ha⟩

end Sys2Proof.Machine
end

section
/-! SUPPORT. What a load leaves (R85, R107): the read cache of its core and its counters, requests at the stacks, free choices. And that
creation of a descriptor register asks none of them (R200). -/
namespace Sys2Proof.Machine
open Sys2Proof Sys2Proof.Spec

/-! ### Registers outside a list of fields -/

theorem sameRegs_of_bitsBut {l : List (Fld × Nat × Nat)} {s t : State} (h : BitsBut l s t) :
    SameRegs (fun o => ∀ e ∈ l, e.1.reg.off e.2.1 e.2.2 ≠ o) s t :=
  fun o ho => BitVec.eq_of_getLsbD_eq fun b _ => h o b fun e he hb => ho e he hb.1

/-! ### What a load leaves -/

theorem traffic_frame (s : State) (w : Who) (inStack write : Bool) (a n : Nat) :
    s.traffic w inStack write a n = { s with stks := (s.traffic w inStack write a n).stks } := by
  have fold (l : List Nat) (t : Nat) (k : State → Nat → StackSt) (s : State) :
      l.foldl (fun s g => s.setStack t (k s g)) s = { s with stks := (l.foldl (fun s g => s.setStack t (k s g)) s).stks } := by
    induction l generalizing s with
    | nil => rfl
    | cons x l ih => exact ih (s.setStack t (k s x))
  unfold State.traffic
  split
  exacts [fold _ _ _ s, rfl]

/-- The counters of core c's read cache. -/
abbrev cacheCounts (c : Fin 12) : List (Fld × Nat × Nat) := [(Fld.RC_HITS.HITS, c, 0), (Fld.RC_MISSES.MISSES, c, 0)]

/-- What a load of core c may have changed. -/
structure Loaded (c : Fin 12) (s t : State) : Prop where
  frame : t = { s with cores := t.cores, stks := t.stks, csr := t.csr, free := t.free }
  others : ∀ d, d ≠ c.val → t.core d = s.core d
  core : t.core c = { s.core c with rc := (t.core c).rc }
  regs : BitsBut (cacheCounts c) s t

namespace Loaded
variable {c : Fin 12} {s t u : State}

theorem refl : Loaded c s s := ⟨rfl, fun _ _ => rfl, rfl, bitsBut_refl _ _⟩

theorem trans (h : Loaded c s t) (g : Loaded c t u) : Loaded c s u where
  frame := by rw [g.frame, h.frame]
  others d hd := (g.others d hd).trans (h.others d hd)
  core := by rw [g.core, h.core]
  regs := bitsBut_trans h.regs g.regs

theorem mem (h : Loaded c s t) : t.mem = s.mem := by rw [h.frame]

theorem parts (h : Loaded c s t) : t.parts = s.parts := by rw [h.frame]

theorem freeWith {n : Nat} (h : Loaded c s t) : Loaded c s { t with free := n } :=
  { frame := by rw [h.frame], others := h.others, core := h.core, regs := h.regs }

theorem traffic {w inStack write a n} (h : Loaded c s t) : Loaded c s (t.traffic w inStack write a n) := by
  rw [traffic_frame]
  exact { frame := by rw [h.frame], others := h.others, core := h.core, regs := h.regs }

theorem count {f : Fld} {n : Nat} (h : Loaded c s t) (wf : smWf 0#64 t.csr = true) (hf : (f, c.val, 0) ∈ cacheCounts c) :
    Loaded c s (t.count f n c) :=
  { frame := by rw [h.frame]; rfl, others := h.others, core := h.core
    regs := bitsBut_set_of h.regs f _ _ _ wf (within_of_mem hf) }

theorem setCache {rc : SMap (Line × Bool)} (h : Loaded c s t) (room : c.val < t.cores.length) :
    Loaded c s (t.setCore c { t.core c with rc := rc }) where
  frame := by rw [h.frame]; rfl
  others d hd := (core_setCore_ne _ _ _ _ hd).trans (h.others d hd)
  core := by rw [core_setCore_same _ _ _ room, h.core]
  regs := h.regs

theorem makeRoom {rc ln} (h : Loaded c s t) : Loaded c s (t.makeRoom rc ln).2 := by
  unfold State.makeRoom
  extract_lets
  split
  exacts [h, h.freeWith]

/-- A register of an array with strides of 256 bytes or 4 KiB, or one of a region, is no counter of the cache. -/
theorem regs_of_ne (h : Loaded c s t) {f : Fld} {i j : Nat} (hits : Reg.RC_HITS.off c 0 ≠ f.reg.off i j)
    (misses : Reg.RC_MISSES.off c 0 ≠ f.reg.off i j) : t.get f i j = s.get f i j := by
  refine (sameRegs_of_bitsBut h.regs).get ?_
  rintro e (_ | ⟨_, _ | ⟨_, ⟨⟩⟩⟩)
  exacts [hits, misses]

end Loaded

/-! ### Creation -/

namespace Loaded
variable {c : Fin 12} {s t : State} (h : Loaded c s t)
include h

theorem get_grpCfg {f : Fld} (hf : f.reg = Reg.GRP_CFG) (g : Nat) : t.get f g = s.get f g := by
  have off : f.reg.off g 0 = 0xc01000 + g * 0x100 := by rw [hf]; rfl
  have hits : Reg.RC_HITS.off c 0 = 0x2000070 + c.val * 0x10000 := rfl
  have misses : Reg.RC_MISSES.off c 0 = 0x2000078 + c.val * 0x10000 := rfl
  exact h.regs_of_ne (by omega) (by omega)

theorem get_ptSb {f : Fld} (hf : f.reg = Reg.PT_SB) (p : Nat) : t.get f p = s.get f p := by
  have off : f.reg.off p 0 = 0x210008 + p * 0x1000 := by rw [hf]; rfl
  have hits : Reg.RC_HITS.off c 0 = 0x2000070 + c.val * 0x10000 := rfl
  have misses : Reg.RC_MISSES.off c 0 = 0x2000078 + c.val * 0x10000 := rfl
  exact h.regs_of_ne (by omega) (by omega)

theorem get_region {f : Fld} (hf : f.reg = Reg.REG_LOC ∨ f.reg = Reg.REG_STAT) {r : Nat} (hr : r < 32) : t.get f r = s.get f r := by
  have off : f.reg.off r 0 = 0x200800 + r * 0x20 ∨ f.reg.off r 0 = 0x200818 + r * 0x20 := by
    rcases hf with hf | hf <;> rw [hf]
    exacts [.inl rfl, .inr rfl]
  have hits : Reg.RC_HITS.off c 0 = 0x2000070 + c.val * 0x10000 := rfl
  have misses : Reg.RC_MISSES.off c 0 = 0x2000078 + c.val * 0x10000 := rfl
  exact h.regs_of_ne (by omega) (by omega)

theorem part_eq (p : Nat) : t.part p = s.part p := by rw [State.part, h.parts]; rfl

theorem distOk_eq (d : Desc) : t.distOk d = s.distOk d := by
  simp only [State.distOk, State.is, h.get_grpCfg (f := Fld.GRP_CFG.EN) rfl, h.get_grpCfg (f := Fld.GRP_CFG.MEMBERS) rfl]

theorem localDesc_eq (d : Desc) : t.localDesc d = s.localDesc d := by
  simp only [State.localDesc, h.get_grpCfg (f := Fld.GRP_CFG.RANK) rfl]

theorem owns_eq (p x u : Nat) : t.owns p x u = s.owns p x u := by rw [State.owns, h.part_eq]; rfl

theorem mapsUnit_eq (p x u : Nat) : t.mapsUnit p x u = s.mapsUnit p x u := by
  refine Bool.eq_iff_iff.2 ?_
  simp only [State.mapsUnit, List.any_eq_true]
  refine exists_congr fun r => and_congr_right fun hr => ?_
  have hr := lt_of_mem_upFrom hr
  rw [State.regionHas, State.regionHas, h.part_eq, h.get_region (f := Fld.REG_STAT.STATE) (.inr rfl) hr,
    h.get_region (f := Fld.REG_LOC.FIRST) (.inl rfl) hr, h.get_region (f := Fld.REG_LOC.STACK) (.inl rfl) hr,
    h.get_region (f := Fld.REG_LOC.COUNT) (.inl rfl) hr]

theorem sbHas_eq (p d lo hi : Nat) : t.sbHas p d lo hi = s.sbHas p d lo hi := by
  simp only [State.sbHas, h.get_ptSb (f := Fld.PT_SB.SB0_BASE) rfl, h.get_ptSb (f := Fld.PT_SB.SB1_BASE) rfl,
    h.get_ptSb (f := Fld.PT_SB.SB0_SIZE) rfl, h.get_ptSb (f := Fld.PT_SB.SB1_SIZE) rfl]

theorem reach_eq (p lo hi : Nat) : t.reach p lo hi = s.reach p lo hi := by
  have owns : t.owns p = s.owns p := funext fun x => funext fun u => h.owns_eq p x u
  simp only [State.reach, owns, h.mapsUnit_eq, h.sbHas_eq]

theorem rangeOk_eq (p : Nat) (d : Desc) (lo hi : Nat) : t.rangeOk p d lo hi = s.rangeOk p d lo hi := by
  unfold State.rangeOk
  rw [h.reach_eq]

theorem rangesOk_eq (p : Nat) (d : Desc) : t.rangesOk p d = s.rangesOk p d := by
  simp only [State.rangesOk, h.rangeOk_eq]

/-- A load changes nothing that creation asks for. -/
theorem createOk_eq (p raw : Nat) : t.createOk p raw = s.createOk p raw := by
  simp only [State.createOk, State.createFails, h.distOk_eq, h.localDesc_eq, h.rangesOk_eq]

end Loaded

end Sys2Proof.Machine
end

section
/-! SUPPORT. The 64 bytes of a line as a load reads them (R85, R107): the line as stored, or as the read cache holds it, is the number
that its bytes spell. -/
namespace Sys2Proof.Machine
open Sys2Proof Sys2Proof.Spec

/-! ### Numbers and their bytes -/

theorem sum_list_range (f : Nat → Nat) (n : Nat) : ((List.range n).map f).sum = ∑ i ∈ Finset.range n, f i := by
  induction n with
  | zero => rfl
  | succ n ih => rw [List.range_succ, List.map_append, List.sum_append, ih, Finset.sum_range_succ]; simp

theorem sum_bytes (v n : Nat) : ∑ i ∈ Finset.range n, v / 256 ^ i % 256 * 256 ^ i = v % 256 ^ n := by
  induction n with
  | zero => simp [Nat.mod_one]
  | succ n ih => rw [Finset.sum_range_succ, ih, Nat.mod_pow_succ, Nat.mul_comm]

theorem byte_shiftRight (v i : Nat) : (BitVec.ofNat 8 (v >>> (8 * i))).toNat = v / 256 ^ i % 256 := by
  rw [BitVec.toNat_ofNat, Nat.shiftRight_eq_div_pow, Nat.pow_mul]

theorem sum_bytes_lt (f : Nat → Byte) (n : Nat) : ∑ i ∈ Finset.range n, (f i).toNat * 256 ^ i < 256 ^ n := by
  induction n with
  | zero => exact Nat.one_pos
  | succ n ih =>
    rw [Finset.sum_range_succ, Nat.pow_succ]
    have := (f n).isLt
    have := Nat.mul_le_mul_right (256 ^ n) (show (f n).toNat ≤ 255 by omega)
    omega

theorem two_pow_bytes : 2 ^ 512 = 256 ^ 64 := by rw [show 512 = 8 * 64 from rfl, Nat.pow_mul]

/-! ### The lines of the stacks -/

/-- Whether an address lies in the data part of a stack. -/
def onStack (a : Nat) : Bool :=
  match placeOf a with
  | .data _ _ => true
  | _ => false

theorem onStack_iff (a : Nat) : onStack a = true ↔ a < 20 * stackSpan ∧ a % stackSpan < stackData := by
  unfold onStack placeOf
  extract_lets t o
  by_cases low : a < 20 * stackSpan
  · by_cases data : o < stackData
    · simp [low, data, o] at *
    · simp [low, data, o] at *
  · simp only [low, if_false, false_and, iff_false]
    split_ifs <;> simp

theorem onStack_line {i : Nat} (ln : Nat) (hi : i < 64) : onStack (64 * ln + i) = onStack (64 * ln) := by
  have span : stackSpan = 0x1800000000 := rfl
  have data : stackData = 0x17FA000000 := rfl
  rw [Bool.eq_iff_iff, onStack_iff, onStack_iff, span, data]
  omega

theorem readByte_eq (s : State) (a : Nat) : readByte s a = if onStack a && !s.lineValid (a / 64) then 0 else byteAt s.mem a := by
  unfold readByte onStack
  cases placeOf a <;> cases s.lineValid (a / 64) <;> rfl

/-- A line as the stacks store it: one whose valid bit is clear reads as zero. -/
def State.storedLine (s : State) (ln : Nat) : Nat := if onStack (64 * ln) && !s.lineValid ln then 0 else s.lineRaw ln

theorem storedLine_eq (s : State) (wf : s.Wf) (ln : Nat) :
    s.storedLine ln = ∑ i ∈ Finset.range 64, (readByte s (64 * ln + i)).toNat * 256 ^ i := by
  have bytes (i) (hi : i ∈ Finset.range 64) :
      readByte s (64 * ln + i) = if onStack (64 * ln) && !s.lineValid ln then 0 else byteAt s.mem (64 * ln + i) := by
    have hi := Finset.mem_range.1 hi
    rw [readByte_eq, onStack_line ln hi, show (64 * ln + i) / 64 = ln by omega]
  rw [Finset.sum_congr rfl fun i hi => by rw [bytes i hi]]
  unfold State.storedLine
  split
  · simp
  · exact smBytes_eq s.mem (64 * ln) 64 ((Bool.and_eq_true_iff.1 wf.mem).1)

theorem maskSymbols_zero : maskSymbols 0#512 = [] := by
  unfold maskSymbols
  rw [List.filter_eq_nil_iff, BitVec.toNat_zero]
  intro i _
  rw [bits, Nat.zero_shiftRight, Nat.zero_mod]
  decide

/-- A line that holds no error is read as stored, and reading it changes nothing. -/
theorem readLine_of_clean (s : State) (w : Who) (ln : Nat) (clean : onStack (64 * ln) = true → Clean s (64 * ln)) :
    s.readLine w ln = (some (s.storedLine ln), s) := by
  unfold State.storedLine
  unfold onStack at *
  unfold Clean cleanAt intactAt at clean
  unfold State.readLine
  have line : 64 * ln / 64 = ln := by omega
  cases hp : placeOf (64 * ln) with
  | data t o =>
    rw [hp] at clean
    simp only [line, Bool.and_eq_true, Bool.not_eq_true', beq_iff_eq, bne_iff_ne, forall_const] at clean
    obtain ⟨⟨⟨poison, ecc⟩, _⟩, bias⟩ := clean
    have quiet : s.snoop w ln = s := if_neg (by simp [bias])
    simp only [quiet, poison, ecc, maskSymbols_zero, Bool.true_and]
    cases s.lineValid ln <;> rfl
  | _ => rfl

/-! ### A line through the read cache -/

/-- A line as core c's reads see it. -/
def State.seenLine (s : State) (c : Nat) (cached : Bool) (ln : Nat) : Nat :=
  match smFind (s.core c).rc ln with
  | some (d, _) => if onStack (64 * ln) && cached then d.toNat else s.storedLine ln
  | none => s.storedLine ln

theorem seenLine_eq (s : State) (wf : s.Wf) (c : Nat) (cached : Bool) (ln : Nat) :
    s.seenLine c cached ln = ∑ i ∈ Finset.range 64, (viewByte s c cached (64 * ln + i)).toNat * 256 ^ i := by
  have bytes (i) (hi : i ∈ Finset.range 64) : viewByte s c cached (64 * ln + i) =
      match smFind (s.core c).rc ln with
      | some (d, _) => if onStack (64 * ln) && cached then BitVec.ofNat 8 (d.toNat >>> (8 * i)) else readByte s (64 * ln + i)
      | none => readByte s (64 * ln + i) := by
    have hi := Finset.mem_range.1 hi
    rw [← onStack_line ln hi]
    unfold viewByte onStack
    rw [show (64 * ln + i) / 64 = ln by omega, show (64 * ln + i) % 64 = i by omega]
    cases placeOf (64 * ln + i) <;> cases smFind (s.core c).rc ln <;> rfl
  rw [Finset.sum_congr rfl fun i hi => by rw [bytes i hi]]
  unfold State.seenLine
  cases smFind (s.core c).rc ln with
  | none => exact storedLine_eq s wf ln
  | some e =>
    dsimp only
    split
    · simp only [byte_shiftRight, sum_bytes]
      rw [← two_pow_bytes, Nat.mod_eq_of_lt e.1.isLt]
    · exact storedLine_eq s wf ln

theorem seenLine_lt (s : State) (wf : s.Wf) (c : Nat) (cached : Bool) (ln : Nat) : s.seenLine c cached ln < 2 ^ 512 := by
  rw [seenLine_eq s wf]
  exact lt_of_lt_of_eq (sum_bytes_lt _ 64) two_pow_bytes.symm

theorem nth_filter_mod (m : SMap (Line × Bool)) (r i : Nat) (h : 8 ≤ (m.filter fun e => e.1 % 1024 == r).length) (hi : i < 8) :
    nth 0 ((m.filter fun e => e.1 % 1024 == r).map Prod.fst) i % 1024 = r := by
  have lt : i < ((m.filter fun e => e.1 % 1024 == r).map Prod.fst).length := by rw [List.length_map]; omega
  have mem := List.getElem_mem lt
  rw [nth, List.getElem?_eq_getElem lt, Option.getD_some]
  obtain ⟨e, he, hx⟩ := List.mem_map.1 mem
  rw [← hx]
  exact beq_iff_eq.1 (List.mem_filter.1 he).2

/-- The cache gives up a line of the set that takes one. -/
theorem smFind_makeRoom_of_ne (s : State) (rc : SMap (Line × Bool)) (ln l : Nat) (h : l % 1024 ≠ ln % 1024) :
    smFind (s.makeRoom rc ln).1 l = smFind rc l := by
  unfold State.makeRoom
  extract_lets set
  split
  · rfl
  · rename_i full
    refine smFind_smErase_ne _ _ _ fun e => h ?_
    rw [e]
    exact nth_filter_mod rc _ _ (Nat.not_lt.1 full) (Nat.mod_lt _ (by decide))

/-- Lines of other sets are in the cache as before. -/
def SameSets (c ln : Nat) (s t : State) : Prop := ∀ l, l % 1024 ≠ ln % 1024 → smFind (t.core c).rc l = smFind (s.core c).rc l

end Sys2Proof.Machine
end

section
/-! SUPPORT. A load of a whole line that its core reads without error (R85, R107), and the prefetch that may follow it (R114). -/
namespace Sys2Proof.Machine
open Sys2Proof Sys2Proof.Spec

theorem cores_makeRoom (s : State) (rc : SMap (Line × Bool)) (ln : Nat) : (s.makeRoom rc ln).2.cores = s.cores := by
  unfold State.makeRoom
  extract_lets
  split <;> rfl

theorem seenLine_of_uncached (s : State) (c ln : Nat) {cached : Bool} (h : (onStack (64 * ln) && cached) = false) :
    s.seenLine c cached ln = s.storedLine ln := by
  unfold State.seenLine
  rw [h]
  cases smFind (s.core c).rc ln <;> rfl

theorem clean_of_lineSound {s : State} {c ln : Nat} {cached : Bool} (h : cached = false) (clean : lineSound s c cached ln) : Clean s (64 * ln) := by
  subst h
  unfold lineSound lineSoundAt at clean
  cases held : smFind (s.core c).rc ln <;> rw [held] at clean <;> exact clean

theorem readLines_one_of_clean (s : State) (w : Who) (ln : Nat) (clean : onStack (64 * ln) = true → Clean s (64 * ln)) :
    s.readLines w ln 1 = (s.storedLine ln, none, s) := by
  have read := readLine_of_clean s w ln clean
  unfold State.readLines State.readLines
  dsimp only
  rw [Nat.add_zero, read]
  dsimp only
  rw [Nat.zero_add, Nat.mul_zero, Nat.shiftLeft_zero]

theorem readBytes_of_clean (s : State) (wf : s.Wf) (w : Who) (ln : Nat) (clean : onStack (64 * ln) = true → Clean s (64 * ln)) :
    s.readBytes w (64 * ln) 64 = (s.storedLine ln, none, s) := by
  have first : 64 * ln / 64 = ln := by omega
  have last : (64 * ln + 64 - 1) / 64 - ln + 1 = 1 := by omega
  have bound : s.storedLine ln % 2 ^ 512 = s.storedLine ln := by
    rw [← seenLine_of_uncached s 0 ln (Bool.and_false _)]
    exact Nat.mod_eq_of_lt (seenLine_lt s wf 0 false ln)
  unfold State.readBytes
  rw [if_neg (by decide), first]
  dsimp only
  rw [last, readLines_one_of_clean s w ln clean]
  dsimp only
  rw [Nat.sub_self, Nat.mul_zero, Nat.shiftRight_zero, bound]
  rfl

theorem loadVolatile_of_clean (s : State) (wf : s.Wf) (c p ln : Nat) (clean : onStack (64 * ln) = true → Clean s (64 * ln)) :
    s.loadVolatile c p (64 * ln) 64 = (s.storedLine ln, none, s.traffic (scalarWho c p) false false (64 * ln) 64) := by
  unfold State.loadVolatile
  rw [readBytes_of_clean s wf _ ln clean, Nat.mul_div_cancel_left ln (by decide), Nat.mul_comm ln]
  rfl

section
variable (s : State) (sound : Sound s) (c : Fin 12) (w : Who) (ln : Nat)
include sound

/-- What a read through the cache gives and leaves. -/
theorem cachedLine_of_lineSound (clean : lineSound s c true ln) (data : onStack (64 * ln) = true) :
    (s.cachedLine w (some c) ln).1 = some (s.seenLine c true ln) ∧ Loaded c s (s.cachedLine w (some c) ln).2 ∧
      SameSets c ln s (s.cachedLine w (some c) ln).2 := by
  have csr := ((sound_iff_wf s).1 sound).csr
  have room := core_in s c sound.1
  unfold lineSound lineSoundAt at clean
  unfold State.cachedLine State.seenLine
  dsimp only
  cases held : smFind (s.core c).rc ln with
  | some e =>
    obtain ⟨d, bad⟩ := e
    rw [held] at clean
    have good : bad = false := by simpa using clean
    subst good
    simp only [data, Bool.true_and, if_true]
    exact ⟨rfl, .count .refl csr (.head _), fun _ _ => rfl⟩
  | none =>
    rw [held] at clean
    rw [readLine_of_clean s w ln fun _ => clean]
    dsimp only
    have loaded : Loaded c s ((s.traffic w false false (64 * ln) 64).count Fld.RC_MISSES.MISSES 1 c) :=
      .count (.traffic .refl) (by rw [traffic_frame]; exact csr) (.tail _ (.head _))
    have cores : ((s.traffic w false false (64 * ln) 64).count Fld.RC_MISSES.MISSES 1 c).cores = s.cores := by
      rw [traffic_frame]
      rfl
    generalize (s.traffic w false false (64 * ln) 64).count Fld.RC_MISSES.MISSES 1 c = v at loaded cores
    have core : v.core c = s.core c := by rw [State.core, cores]; rfl
    have left := smFind_makeRoom_of_ne v (v.core c).rc ln
    have cores' := (cores_makeRoom v (v.core c).rc ln).trans cores
    have loaded' := loaded.makeRoom (rc := (v.core c).rc) (ln := ln)
    generalize v.makeRoom (v.core c).rc ln = q at left cores' loaded'
    obtain ⟨rc, t⟩ := q
    refine ⟨rfl, loaded'.setCache (by rw [cores']; exact room), fun l hl => ?_⟩
    dsimp only at left ⊢
    rw [core_setCore_same _ _ _ (by rw [cores']; exact room)]
    exact (smFind_smInsert_ne _ _ _ _ fun e => hl (by rw [e])).trans ((left l hl).trans (by rw [core]))

/-- A load of a whole line gives the number its bytes spell, and no fault. -/
theorem loadPlain_of_lineSound (p : Nat) (clean : lineSound s c (bit (s.core c).cfg 16) ln) :
    ∃ t, s.loadPlain c p (64 * ln) 64 = (s.seenLine c (bit (s.core c).cfg 16) ln, none, t) ∧ Loaded c s t ∧ SameSets c ln s t := by
  have wf := (sound_iff_wf s).1 sound
  have line : 64 * ln / 64 = ln := by omega
  have first : 64 * ln % 64 = 0 := by omega
  have whole (v : Nat) (h : v < 2 ^ 512) : v >>> (8 * 0) % 2 ^ (8 * 64) = v := by
    rw [Nat.mul_zero, Nat.shiftRight_zero, show 8 * 64 = 512 from rfl, Nat.mod_eq_of_lt h]
  have volatile (quiet : (onStack (64 * ln) && bit (s.core c).cfg 16) = false) :
      ∃ t, s.loadVolatile c p (64 * ln) 64 = (s.seenLine c (bit (s.core c).cfg 16) ln, none, t) ∧ Loaded c s t ∧ SameSets c ln s t := by
    rw [seenLine_of_uncached s c ln quiet]
    rw [loadVolatile_of_clean s wf c p ln fun data => clean_of_lineSound (by rw [data] at quiet; exact quiet) clean]
    exact ⟨_, rfl, .traffic .refl, fun l _ => by rw [traffic_frame]; rfl⟩
  unfold State.loadPlain
  cases hp : placeOf (64 * ln) with
  | data t o =>
    have data : onStack (64 * ln) = true := by rw [onStack, hp]
    dsimp only
    cases hc : bit (s.core c).cfg 16 with
    | false =>
      rw [hc] at volatile
      exact volatile (by rw [Bool.and_false])
    | true =>
      rw [hc] at clean
      rw [line, first]
      obtain ⟨value, loaded, sets⟩ := cachedLine_of_lineSound s sound c (scalarWho c p) ln clean data
      generalize s.cachedLine (scalarWho c p) (some c) ln = q at value loaded sets
      obtain ⟨x, t⟩ := q
      dsimp only at value
      subst value
      exact ⟨t, by simp only [if_true, whole _ (seenLine_lt s wf c true ln)], loaded, sets⟩
  | _ => exact volatile (by rw [onStack, hp]; rfl)

end

namespace Loaded
variable {c : Fin 12} {s t : State} (h : Loaded c s t)
include h

theorem cleanAt_eq (a : Nat) : cleanAt t a = cleanAt s a := by rw [h.frame]; rfl

theorem lineSound_iff {ln : Nat} {cached : Bool} (held : smFind (t.core c).rc ln = smFind (s.core c).rc ln) :
    lineSound t c cached ln ↔ lineSound s c cached ln := by
  rw [lineSound, lineSoundAt, held, h.cleanAt_eq]
  rfl

end Loaded

/-- A prefetch of a line that reads without error leaves what a load leaves. -/
theorem Loaded.runAhead {u t : State} {c : Fin 12} {w : Who} {p ln : Nat} (h : Loaded c u t) (sound : Sound t)
    (held : smFind (t.core c).rc ln = smFind (u.core c).rc ln) (clean : lineSound u c (bit (u.core c).cfg 16) ln) :
    Loaded c u (t.runAhead w c p ln) := by
  unfold State.runAhead
  cases hp : placeOf (64 * ln) with
  | data x o =>
    dsimp only
    split
    · rename_i ask
      have cached : bit (u.core c).cfg 16 = true := by
        have cfg : (t.core c).cfg = (u.core c).cfg := by rw [h.core]
        rw [← cfg]
        simp only [Bool.and_eq_true] at ask
        exact ask.1.1.1
      rw [cached] at clean
      have next : Loaded c u { t with free := t.free + 1 } := h.freeWith
      have sound' : Sound { t with free := t.free + 1 } := (sound_iff_wf _).2 (.freeChoice ((sound_iff_wf t).1 sound))
      have clean' : lineSound { t with free := t.free + 1 } c true ln := (next.lineSound_iff held).2 clean
      unfold State.freeChoice
      cases Config.freeBit t.free with
      | true => exact next.trans (cachedLine_of_lineSound _ sound' c w ln clean' (by rw [onStack, hp])).2.1
      | false => exact next
    · exact h
  | _ => exact h

end Sys2Proof.Machine
end

section
/-! SUPPORT. The instructions on descriptor registers (R71, R143, R144, R200). -/
namespace Sys2Proof.Machine
open Sys2Proof Sys2Proof.Spec

/-! ### What they leave -/

/-- Descriptor register n of core c holds td, and the core is at its next word. -/
def TdMoved (u t : State) (c : Fin 12) (n : Nat) (td : TD) : Prop :=
  (∀ d, d ≠ c.val → t.core d = u.core d) ∧
    t.core c = { u.core c with pc := (u.core c).pc + 8, td := setNth (u.core c).td n td, rc := (t.core c).rc }

/-- Core c has stopped for a fault of its scalar unit. -/
def TdStopped (u t : State) (c : Fin 12) (code addr : Nat) : Prop :=
  t.mem = u.mem ∧ (t.core c).run = .faulted ∧ (t.core c).x = (u.core c).x ∧ (t.core c).pc = (u.core c).pc ∧
    (u.get Fld.FAULT_REC.VALID c = 0 →
      t.get Fld.FAULT_REC.CODE c = code ∧ t.get Fld.FAULT_REC.ENGINE c = 0 ∧ t.get Fld.FAULT_ADDR.ADDR c = addr)

section
variable {u v : State} {c : Fin 12}

theorem setTd_next_frame (n : Nat) (td : TD) : (v.setTd c n td).next c = { v with cores := ((v.setTd c n td).next c).cores } := by
  rw [next_frame]
  rfl

theorem Loaded.tdMoved (h : Loaded c u v) (sound : Sound v) (n : Nat) (td : TD) : TdMoved u ((v.setTd c n td).next c) c n td := by
  have room := core_in v c sound.1
  have set : (v.setTd c n td).core c = { v.core c with td := setNth (v.core c).td n td } := core_setCore_same _ _ _ room
  have wide := core_in _ c ((sound_iff_wf _).2 (.setTd (c := c) (i := n) (t := td) ((sound_iff_wf v).1 sound))).1
  refine ⟨fun d hd => ?_, ?_⟩
  · rw [core_next_ne _ _ _ hd]
    exact (core_setCore_ne _ _ _ _ hd).trans (h.others d hd)
  · rw [core_next _ _ wide, set, h.core]

theorem Loaded.get_faultRec (h : Loaded c u v) {f : Fld} (hf : f.reg = Reg.FAULT_REC) : v.get f c = u.get f c := by
  have off : f.reg.off c 0 = 0x2000028 + c.val * 0x10000 := by rw [hf]; rfl
  have hits : Reg.RC_HITS.off c 0 = 0x2000070 + c.val * 0x10000 := rfl
  have misses : Reg.RC_MISSES.off c 0 = 0x2000078 + c.val * 0x10000 := rfl
  exact h.regs_of_ne (by omega) (by omega)

/-- A fault of the scalar unit, which leaves the descriptor registers. -/
theorem tdStopped_scalarFault (sound : Sound u) {code addr : Nat} (hc : code < 2 ^ 8) (ha : addr < 2 ^ 42) :
    TdStopped u (u.scalarFault c code addr none) c code addr ∧ ((u.scalarFault c code addr none).core c).td = (u.core c).td := by
  obtain ⟨mem, core, record⟩ := scalarFault_spec u sound c code addr hc ha
  exact ⟨⟨mem, by rw [core], by rw [core], by rw [core], record⟩, by rw [core]⟩

/-- Creation accepted. -/
theorem create_of_ok {p n raw : Nat} (ok : v.createOk p raw = true) :
    v.create c p n raw = (v.setTd c n ⟨true, BitVec.ofNat 512 raw⟩).next c := if_pos ok

/-- Creation refused: the register is left invalid, and the core stops with DESC_REJECT. -/
theorem Loaded.tdStopped_create (h : Loaded c u v) (sound : Sound v) {p n raw : Nat} (refused : ¬ v.createOk p raw = true) :
    TdStopped u (v.create c p n raw) c 0x06 0 ∧
      ((v.create c p n raw).core c).td = setNth (u.core c).td n ⟨false, BitVec.ofNat 512 raw⟩ := by
  have room := core_in v c sound.1
  rw [show v.create c p n raw = (v.setTd c n ⟨false, BitVec.ofNat 512 raw⟩).scalarFault c 0x06 0 none from if_neg refused]
  have core : (v.setTd c n ⟨false, BitVec.ofNat 512 raw⟩).core c = { v.core c with td := setNth (v.core c).td n ⟨false, BitVec.ofNat 512 raw⟩ } :=
    core_setCore_same _ _ _ room
  have sound' : Sound (v.setTd c n ⟨false, BitVec.ofNat 512 raw⟩) := (sound_iff_wf _).2 (.setTd ((sound_iff_wf v).1 sound))
  have mem : (v.setTd c n ⟨false, BitVec.ofNat 512 raw⟩).mem = u.mem := h.mem
  have free : (v.setTd c n ⟨false, BitVec.ofNat 512 raw⟩).get Fld.FAULT_REC.VALID c = u.get Fld.FAULT_REC.VALID c :=
    (show _ = v.get Fld.FAULT_REC.VALID c from rfl).trans (h.get_faultRec rfl)
  generalize v.setTd c n ⟨false, BitVec.ofNat 512 raw⟩ = z at core sound' mem free
  obtain ⟨⟨mem', run, x, pc, record⟩, td⟩ := tdStopped_scalarFault (c := c) sound' (code := 0x06) (addr := 0) (by decide) (by decide)
  refine ⟨⟨mem'.trans mem, run, x.trans ?_, pc.trans ?_, fun clear => record (free.trans clear)⟩, td.trans ?_⟩ <;> rw [core, h.core]

end

/-! ### Fields and addresses -/

theorem bits_eq_zero_of_wider {w hi lo : Nat} (h : bits w hi lo = 0) (hi' lo' : Nat) (low : lo ≤ lo') (high : hi' ≤ hi) :
    bits w hi' lo' = 0 := by
  refine Nat.eq_of_testBit_eq fun i => ?_
  rw [testBit_bits, Nat.zero_testBit, Bool.and_eq_false_iff]
  by_cases inside : i < hi' + 1 - lo'
  · have clear := testBit_bits w hi lo (lo' - lo + i)
    rw [h, Nat.zero_testBit, decide_eq_true (by omega), Bool.true_and, show lo + (lo' - lo + i) = lo' + i by omega] at clear
    exact .inr clear.symm
  · exact .inl (decide_eq_false inside)

theorem memAddr_eq_mAddr (s : State) (c : Fin 12) (w : Nat) : s.memAddr c w = mAddr s c w := by
  rw [State.memAddr, mAddr, BitVec.toNat_add, toNat_xw, toNat_simm]

theorem scalarCheck_of_ok {s : State} {p a n al : Nat} {write : Bool} (aligned : a % al = 0) (fits : a + n ≤ 2 ^ 42)
    (reach : s.scalarReach p a n write = true) (answers : s.answers a = true) : s.scalarCheck p a n al write = none := by
  unfold State.scalarCheck
  rw [if_neg (not_not.2 aligned), if_neg (by simpa [reach] using fits), if_neg (by simp [answers])]

theorem enterStore_spec (u : State) (sound : Sound u) (c : Fin 12) (a n v : Nat) :
    let t := u.enterStore c a n v
    t = { u with cores := t.cores } ∧ (∀ d, d ≠ c.val → t.core d = u.core d) ∧
      t.core c = { u.core c with pc := (u.core c).pc + 8, stq := (u.core c).stq ++ [⟨(u.core c).pc, a, n, v⟩] } := by
  have room := core_in u c sound.1
  have wide (k : CoreSt) : c.val < (u.setCore c k).cores.length := room.trans_eq (length_setNth _ _ _).symm
  refine ⟨?_, fun d hd => ?_, ?_⟩
  · rw [State.enterStore, next_frame]
    rfl
  · rw [State.enterStore, core_next_ne _ _ _ hd, core_setCore_ne _ _ _ _ hd]
  · rw [State.enterStore, core_next _ _ (wide _), core_setCore_same _ _ _ room]

/-! ### The instructions -/

section
variable {s u : State} {c : Fin 12} {p w : Nat} (runs : Runs s u c p w)
include runs

theorem exec_axTdld (sound : Sound u) (op : w >>> 56 = 0xA0) (unused : bits w 45 32 = 0) (aligned : mAddr u c w % 64 = 0) (fits : mAddr u c w + 64 ≤ 2 ^ 42)
    (reach : u.scalarReach p (mAddr u c w) 64 false = true) (answers : u.answers (mAddr u c w) = true)
    (clear : (u.core c).storeOverlaps (mAddr u c w) 64 = false)
    (clean : lineSound u c (bit (u.core c).cfg 16) (mAddr u c w / 64))
    (clean' : lineSound u c (bit (u.core c).cfg 16) (mAddr u c w / 64 + 1)) :
    ∃ v, Sound v ∧ Loaded c u v ∧
      exec (.axTdld c) s = .next (v.create c p (wRD w) (u.seenLine c (bit (u.core c).cfg 16) (mAddr u c w / 64))) := by
  have legal : allZero [wRS2 w, bits w 40 32] = true :=
    (allZero_iff _).2 (by simp [wRS2, bits_eq_zero_of_wider unused])
  have run : exec (.axTdld c) s = .next _ := axRow_word s u c 0xA0 p w _ _ runs.1 runs.2 op legal
  obtain ⟨t, load, loaded, sets⟩ := loadPlain_of_lineSound u sound c (mAddr u c w / 64) p clean
  have sound' : Sound t := by
    have wf := State.Wf.loadPlain (c := c) (p := p) (a := 64 * (mAddr u c w / 64)) (n := 64) ((sound_iff_wf u).1 sound)
    rw [load] at wf
    exact (sound_iff_wf t).2 wf
  have held := sets (mAddr u c w / 64 + 1) (by omega)
  rw [show 64 * (mAddr u c w / 64) = mAddr u c w by omega] at load
  refine ⟨t.runAhead (scalarWho c p) c p (mAddr u c w / 64 + 1), (sound_iff_wf _).2 (.runAhead ((sound_iff_wf t).1 sound')),
    loaded.runAhead sound' held clean', run.trans ?_⟩
  dsimp only
  rw [memAddr_eq_mAddr, scalarCheck_of_ok aligned fits reach answers, clear, load]
  dsimp only
  rw [if_neg Bool.false_ne_true]

theorem exec_axTdset (op : w >>> 56 = 0xA1) (rs1 : bits w 50 46 = 0) (low : bits w 36 0 = 0) (word : bits w 40 37 ≤ 7) :
    exec (.axTdset c) s = .next
      (if (nth ⟨false, 0⟩ (u.core c).td (wRD w)).valid = false then u.scalarFault c 0x05 (wRD w) none
      else u.create c p (wRD w) (setBits (nth ⟨false, 0⟩ (u.core c).td (wRD w)).raw.toNat (64 * bits w 40 37 + 63) (64 * bits w 40 37)
        (u.x c (wRS2 w)))) := by
  have legal : (allZero [wRS1 w, bits w 36 0] && decide (dWORD w ≤ 7)) = true :=
    Bool.and_eq_true_iff.2 ⟨(allZero_iff _).2 (by simp [wRS1, rs1, low]), decide_eq_true word⟩
  have run : exec (.axTdset c) s = .next _ := axRow_word s u c 0xA1 p w _ _ runs.1 runs.2 op legal
  rw [run]
  dsimp only
  cases (nth ⟨false, 0⟩ (u.core c).td (wRD w)).valid with
  | true => rw [if_neg (by decide), if_neg (by decide)]; rfl
  | false => rw [if_pos (by decide), if_pos rfl]; rfl

theorem exec_axTdmov (op : w >>> 56 = 0xA2) (rs1 : bits w 50 46 = 0) (low : bits w 40 0 = 0) :
    exec (.axTdmov c) s = .next
      (if (nth ⟨false, 0⟩ (u.core c).td (wRS2 w)).valid then (u.setTd c (wRD w) (nth ⟨false, 0⟩ (u.core c).td (wRS2 w))).next c
      else u.scalarFault c 0x05 (wRS2 w) none) := by
  have legal : allZero [wRS1 w, bits w 40 0] = true := (allZero_iff _).2 (by simp [wRS1, rs1, low])
  have run : exec (.axTdmov c) s = .next _ := axRow_word s u c 0xA2 p w _ _ runs.1 runs.2 op legal
  rw [run]
  dsimp only
  cases (nth ⟨false, 0⟩ (u.core c).td (wRS2 w)).valid with
  | true => rw [if_neg (by decide), if_pos rfl]
  | false => rw [if_pos (by decide), if_neg (by decide)]; rfl

theorem exec_axTdst (op : w >>> 56 = 0xA4) (unused : bits w 45 32 = 0) (aligned : mAddr u c w % 64 = 0) (fits : mAddr u c w + 64 ≤ 2 ^ 42)
    (reach : u.scalarReach p (mAddr u c w) 64 true = true) (answers : u.answers (mAddr u c w) = true) (room : (u.core c).stq.length < 16) :
    exec (.axTdst c) s = .next (u.enterStore c (mAddr u c w) 64 (nth ⟨false, 0⟩ (u.core c).td (wRD w)).raw.toNat) := by
  have legal : allZero [wRS2 w, bits w 40 32] = true :=
    (allZero_iff _).2 (by simp [wRS2, bits_eq_zero_of_wider unused])
  have run : exec (.axTdst c) s = .next _ := axRow_word s u c 0xA4 p w _ _ runs.1 runs.2 op legal
  rw [run]
  dsimp only
  rw [memAddr_eq_mAddr, scalarCheck_of_ok aligned fits reach answers, if_neg (Nat.not_le.2 room)]

end

/-- Settles O22: a load leaves its core's read cache, its counters and requests at the stacks, of which creation asks nothing; a
fault of the scalar unit leaves memory and its core's registers, and so its descriptor registers. -/
theorem descriptorInstructions : Obligations.DescriptorInstructions := by
  intro s u c p w sound runs k n old moved stopped
  have wf := (sound_iff_wf u).1 sound
  have number (r : Nat) (h : r < 32) : r < 2 ^ 42 := by omega
  refine ⟨?_, ?_, ?_, ?_, ?_⟩
  · intro op unused a raw aligned fits reach answers clear clean clean'
    obtain ⟨v, sound', loaded, run⟩ := exec_axTdld runs sound op unused aligned fits reach answers clear clean clean'
    have value : u.seenLine c (bit k.cfg 16) (a / 64) = raw := by
      rw [seenLine_eq u wf, ← sum_list_range, show 64 * (a / 64) = a by omega]
    rw [value] at run
    refine ⟨_, run, ?_⟩
    by_cases ok : u.createOk p raw = true
    · rw [if_pos ok, create_of_ok ((loaded.createOk_eq p raw).trans ok)]
      refine ⟨?_, loaded.tdMoved sound' n _, loaded.regs⟩
      rw [setTd_next_frame, loaded.frame]
    · rw [if_neg ok]
      exact loaded.tdStopped_create sound' (by rwa [loaded.createOk_eq])
  · intro op rs1 low word i raw
    refine ⟨_, exec_axTdset runs op rs1 low word, ?_⟩
    by_cases invalid : old.valid = false
    · rw [if_pos invalid, if_pos invalid]
      exact tdStopped_scalarFault sound (by decide) (number _ (wRD_lt w))
    · rw [if_neg invalid, if_neg invalid]
      by_cases ok : u.createOk p raw = true
      · rw [if_pos ok, create_of_ok ok]
        exact ⟨setTd_next_frame n _, Loaded.refl.tdMoved sound n _⟩
      · rw [if_neg ok]
        exact Loaded.refl.tdStopped_create sound ok
  · intro op rs1 low src
    refine ⟨_, exec_axTdmov runs op rs1 low, ?_⟩
    by_cases valid : src.valid = true
    · rw [if_pos valid, if_pos valid]
      exact ⟨setTd_next_frame n _, Loaded.refl.tdMoved sound n _⟩
    · rw [if_neg valid, if_neg valid]
      exact tdStopped_scalarFault sound (by decide) (number _ (bits_lt w 45 41))
  · intro op unused
    have run : exec (.axTdinv c) s = .next _ := axRow_word s u c 0xA3 p w _ _ runs.1 runs.2 op (beq_iff_eq.2 unused)
    exact ⟨_, run, setTd_next_frame n _, Loaded.refl.tdMoved sound n _⟩
  · intro op unused a aligned fits reach answers room
    exact ⟨_, exec_axTdst runs op unused aligned fits reach answers room, enterStore_spec u sound c a 64 old.raw.toNat⟩

end Sys2Proof.Machine
end

section
/-! SUPPORT. What a scalar instruction leaves that sets its program counter or one part of its core, RD beside it. -/
namespace Sys2Proof.Machine
open Sys2Proof Sys2Proof.Spec

/-! ### Parts of a core -/

theorem room_setCore {u : State} {c i : Nat} (room : c < u.cores.length) (k : CoreSt) : c < (u.setCore i k).cores.length :=
  room.trans_eq (length_setNth _ _ _).symm

section
variable {u : State} {c : Fin 12} (room : c.val < u.cores.length)
include room

/-- RD and the program counter written. -/
theorem coreResult_setX_setPc {rd : Nat} (v a : Nat) (len : (u.core c).x.length = 32) (hr : rd < 32) :
    CoreResult u ((u.setX c rd v).setPc c a) c rd (BitVec.ofNat 64 v) a := by
  have wide : c.val < (u.setX c rd v).cores.length := by
    unfold State.setX
    split
    exacts [room, room_setCore room _]
  have core : ((u.setX c rd v).setPc c a).core c = { (u.setX c rd v).core c with pc := a } := core_setCore_same _ _ _ wide
  refine ⟨fun d hd => ?_, ?_, fun r => ?_⟩
  · exact (core_setCore_ne _ _ _ _ hd).trans (core_setX_ne _ _ _ _ _ hd)
  · rw [core, core_setX u c rd v room]
  · rw [BitVec.toNat_ofNat, ← x_setX u c rd v r room len hr, State.x, core]
    rfl

/-- RD written and the program counter at the next word. -/
theorem coreResult_setX_next_of {rd : Nat} (v : Nat) (len : (u.core c).x.length = 32) (hr : rd < 32) :
    CoreResult u ((u.setX c rd v).next c) c rd (BitVec.ofNat 64 v) ((u.core c).pc + 8) := by
  have pc : ((u.setX c rd v).core c).pc = (u.core c).pc := by rw [core_setX u c rd v room]
  rw [State.next, pc]
  exact coreResult_setX_setPc room v _ len hr

end

theorem setX_setPc_frame (u : State) (c rd v a : Nat) :
    (u.setX c rd v).setPc c a = { u with cores := ((u.setX c rd v).setPc c a).cores } := by
  rw [State.setPc, State.setCore, setX_frame]

/-- One core of the block replaced: nothing else of it changes. -/
def OnlyCore (u t : State) (c : Fin 12) (k : CoreSt) : Prop :=
  t = { u with cores := t.cores } ∧ (∀ d, d ≠ c.val → t.core d = u.core d) ∧ t.core c = k

theorem onlyCore_setCore {u : State} {c : Fin 12} (room : c.val < u.cores.length) (k : CoreSt) : OnlyCore u (u.setCore c k) c k :=
  ⟨rfl, fun _ hd => core_setCore_ne _ _ _ _ hd, core_setCore_same _ _ _ room⟩

/-- The core changed once more. -/
theorem OnlyCore.modify {u v : State} {c : Fin 12} {k : CoreSt} (h : OnlyCore u v c k) (room : c.val < v.cores.length) (f : CoreSt → CoreSt) :
    OnlyCore u (v.setCore c (f (v.core c))) c (f k) := by
  obtain ⟨frame, others, core⟩ := h
  refine ⟨?_, fun d hd => (core_setCore_ne _ _ _ _ hd).trans (others d hd), by rw [core_setCore_same _ _ _ room, core]⟩
  rw [State.setCore, frame]

/-- The program counter at the next word. -/
theorem OnlyCore.next {u v : State} {c : Fin 12} {k : CoreSt} (h : OnlyCore u v c k) (room : c.val < v.cores.length) :
    OnlyCore u (v.next c) c { k with pc := k.pc + 8 } :=
  h.modify room fun k => { k with pc := k.pc + 8 }

end Sys2Proof.Machine
end

section
/-! SUPPORT. O9: branches and jumps (R111). -/
namespace Sys2Proof.Machine
open Sys2Proof Sys2Proof.Spec

/-! ### Targets -/

theorem target_eq (pc w : Nat) : (pc + wSImm w) % 2 ^ 64 = (BitVec.ofNat 64 pc + simm w).toNat := by
  rw [BitVec.toNat_add, BitVec.toNat_ofNat, toNat_simm, Nat.mod_add_mod]

/-- The three low bits cleared. -/
theorem toNat_and_not_seven (a : Word) : (a &&& ~~~7#64).toNat = a.toNat / 8 * 8 := by
  rw [BitVec.toNat_and, show (~~~7#64).toNat = 2 ^ 64 - 1 - (2 ^ 3 - 1) from rfl,
    show a.toNat / 8 * 8 = a.toNat >>> 3 <<< 3 by rw [Nat.shiftRight_eq_div_pow, Nat.shiftLeft_eq]]
  refine Nat.eq_of_testBit_eq fun i => ?_
  rw [Nat.testBit_shiftLeft, Nat.testBit_shiftRight]
  by_cases wide : i < 64
  · rw [testBit_and_not (by decide) _ _ wide, Nat.testBit_two_pow_sub_one]
    by_cases low : i < 3
    · simp [low]
    · simp [low, show 3 ≤ i by omega, show 3 + (i - 3) = i by omega]
  · have clear (j : Nat) (hj : 64 ≤ j) : a.toNat.testBit j = false :=
      Nat.testBit_lt_two_pow (a.isLt.trans_le (Nat.pow_le_pow_right (by decide) hj))
    rw [Nat.testBit_and, clear i (by omega), clear _ (by omega), Bool.false_and, Bool.and_false]

/-! ### The table of branches -/

/-- An entry of the table of branches is what its command computes: its condition, on numbers. -/
def ComputesBranch (e : Nat × (Fin 12 → Instr) × (Word → Word → Bool)) : Prop :=
  ∃ f, (∀ c s, exec (e.2.1 c) s = s.axBranch c e.1 f) ∧ ∀ a b : Word, f a.toNat b.toNat = e.2.2 a b

theorem beq_toNat (a b : Word) : (a.toNat == b.toNat) = (a == b) := by
  rw [Bool.eq_iff_iff, beq_iff_eq, beq_iff_eq, BitVec.toNat_inj]

theorem computesBranch_of_mem_branchOps : ∀ e ∈ branchOps, ComputesBranch e := by
  simp only [branchOps, List.forall_mem_cons, List.not_mem_nil, false_imp_iff, implies_true, and_true]
  refine ⟨?beq, ?bne, ?blt, ?bge, ?bltu, ?bgeu⟩
  case beq => exact ⟨fun a b => a == b, fun _ _ => rfl, beq_toNat⟩
  case bne => exact ⟨fun a b => a != b, fun _ _ => rfl, fun a b => congrArg not (beq_toNat a b)⟩
  case blt => exact ⟨slt64, fun _ _ => rfl, slt64_toNat⟩
  case bge => exact ⟨fun a b => !slt64 a b, fun _ _ => rfl, fun a b => congrArg not (slt64_toNat a b)⟩
  case bltu => exact ⟨fun a b => decide (a < b), fun _ _ => rfl, fun _ _ => rfl⟩
  case bgeu => exact ⟨fun a b => decide (b ≤ a), fun _ _ => rfl, fun _ _ => (decide_eq_decide.2 Nat.not_lt.symm).trans decide_not⟩

/-! ### The instructions -/

section
variable {s u : State} {c : Fin 12} {p w : Nat} (sound : Sound u) (runs : Runs s u c p w)
include sound runs

theorem branch_spec {e} (he : e ∈ branchOps) (op : w >>> 56 = e.1) (rd : bits w 55 51 = 0) (rs3 : bits w 40 32 = 0) (low : bits w 2 0 = 0) :
    ∃ t, exec (e.2.1 c) s = .next t ∧ t = { u with cores := t.cores } ∧
      CoreResult u t c 0 0 (if e.2.2 (xw u c (wRS1 w)) (xw u c (wRS2 w))
        then (BitVec.ofNat 64 (u.core c).pc + simm w).toNat else (u.core c).pc + 8) := by
  obtain ⟨f, run, cond⟩ := computesBranch_of_mem_branchOps e he
  have legal : lgBr w = true := by rw [lgBr, rd, rs3, low]; rfl
  have run' := (run c s).trans (axRow_word s u c e.1 p w lgBr _ runs.1 runs.2 op legal)
  refine ⟨_, run', ?_⟩
  rw [← cond, toNat_xw, toNat_xw, ← target_eq]
  have leaves (a : Nat) : u.setPc c a = { u with cores := (u.setPc c a).cores } ∧ CoreResult u (u.setPc c a) c 0 0 a :=
    ⟨rfl, coreResult_setX_setPc (rd := 0) (core_in u c sound.1) 0 a (length_x u c sound.1) (by decide)⟩
  cases f (u.x c (wRS1 w)) (u.x c (wRS2 w)) with
  | true => exact leaves _
  | false => exact leaves _

theorem jal_spec (op : w >>> 56 = 0x56) (unused : bits w 50 32 = 0) (low : bits w 2 0 = 0) :
    ∃ t, exec (.axJal c) s = .next t ∧ t = { u with cores := t.cores } ∧
      CoreResult u t c (wRD w) (BitVec.ofNat 64 ((u.core c).pc + 8)) (BitVec.ofNat 64 (u.core c).pc + simm w).toNat := by
  have legal : (bits w 50 32 == 0 && bits w 2 0 == 0) = true := by rw [unused, low]; rfl
  refine ⟨_, axRow_word s u c 0x56 p w _ _ runs.1 runs.2 op legal, setX_setPc_frame .., ?_⟩
  rw [← target_eq]
  exact coreResult_setX_setPc (core_in u c sound.1) _ _ (length_x u c sound.1) (wRD_lt w)

theorem jalr_spec (op : w >>> 56 = 0x57) (unused : bits w 45 32 = 0) (low : bits w 2 0 = 0) :
    ∃ t, exec (.axJalr c) s = .next t ∧ t = { u with cores := t.cores } ∧
      CoreResult u t c (wRD w) (BitVec.ofNat 64 ((u.core c).pc + 8)) ((xw u c (wRS1 w) + simm w) &&& ~~~7#64).toNat := by
  have legal : (bits w 45 32 == 0 && bits w 2 0 == 0) = true := by rw [unused, low]; rfl
  refine ⟨_, axRow_word s u c 0x57 p w _ _ runs.1 runs.2 op legal, setX_setPc_frame .., ?_⟩
  rw [toNat_and_not_seven, xw, ← target_eq]
  exact coreResult_setX_setPc (core_in u c sound.1) _ _ (length_x u c sound.1) (wRD_lt w)

end

/-- Settles O9: each branch by the condition that its command computes, each jump by the register rules of every scalar instruction. -/
theorem branchesAndJumps : Obligations.BranchesAndJumps :=
  ⟨fun _ he _ _ _ _ _ sound runs op rd rs3 low _ => branch_spec sound runs he op rd rs3 low,
    fun _ _ _ _ _ sound runs op unused low _ => jal_spec sound runs op unused low,
    fun _ _ _ _ _ sound runs op unused low _ => jalr_spec sound runs op unused low⟩

end Sys2Proof.Machine
end

section
/-! SUPPORT. O10: the special registers VL, VROW and SR_SEED (R104). -/
namespace Sys2Proof.Machine
open Sys2Proof Sys2Proof.Spec

section
variable {s u : State} {c : Fin 12} {p w : Nat} (sound : Sound u) (runs : Runs s u c p w)
include sound runs

theorem rds_spec (op : w >>> 56 = 0x38) (sources : bits w 50 36 = 0) (imm : bits w 31 0 = 0) (cc : wCC w ≤ 4)
    (idle : wCC w = 2 → seedBusy (u.core c) = false) :
    ∃ t, exec (.axRds c) s = .next t ∧ t = { u with cores := t.cores } ∧
      CoreResult u t c (wRD w)
        (match wCC w with
          | 0 => BitVec.ofNat 64 (u.core c).vl
          | 1 => BitVec.ofNat 64 (u.core c).vrow
          | 2 => (u.core c).seed
          | 3 => BitVec.ofNat 64 c.val
          | _ => BitVec.ofNat 64 p) ((u.core c).pc + 8) := by
  have legal : (allZero [wRS1 w, wRS2 w, wRS3 w, wIMM w] && decide (wCC w ≤ 4)) = true := by
    rw [Bool.and_eq_true, allZero_iff, decide_eq_true_iff]
    exact ⟨by simp [wRS1, wRS2, wRS3, wIMM, bits_eq_zero_of_wider sources, imm], cc⟩
  have run : exec (.axRds c) s = .next _ := axRow_word s u c 0x38 p w _ _ runs.1 runs.2 op legal
  have free : (decide (wCC w = 2) && seedBusy (u.core c)) = false := by
    by_cases h : wCC w = 2
    · rw [idle h, Bool.and_false]
    · rw [decide_eq_false h, Bool.false_and]
  rw [run]
  dsimp only
  rw [free, if_neg Bool.false_ne_true]
  refine ⟨_, rfl, setX_next_frame .., ?_⟩
  have written (v : Nat) := coreResult_setX_next u c (wRD w) v sound (wRD_lt w)
  obtain e | e | e | e | e : wCC w = 0 ∨ wCC w = 1 ∨ wCC w = 2 ∨ wCC w = 3 ∨ wCC w = 4 := by omega
  all_goals rw [e]
  case inr.inr.inl =>
    have seed := written (u.core c).seed.toNat
    rwa [ofNat_toNat_word] at seed
  all_goals exact written _

theorem wrs_spec (op : w >>> 56 = 0x39) (rd : bits w 55 51 = 0) (sources : bits w 45 36 = 0) (imm : bits w 31 0 = 0)
    (cc : wCC w = 1 ∨ wCC w = 2 ∧ seedBusy (u.core c) = false) :
    ∃ t, exec (.axWrs c) s = .next t ∧ OnlyCore u t c { u.core c with
      pc := (u.core c).pc + 8
      vrow := if wCC w = 1 then Nat.min (Nat.max (u.x c (wRS1 w)) 1) 4096 else (u.core c).vrow
      seed := if wCC w = 1 then (u.core c).seed else xw u c (wRS1 w) } := by
  have legal : (allZero [wRD w, wRS2 w, wRS3 w, wIMM w] && (wCC w == 1 || wCC w == 2)) = true := by
    rw [Bool.and_eq_true, allZero_iff, Bool.or_eq_true, beq_iff_eq, beq_iff_eq]
    exact ⟨by simp [wRD, wRS2, wRS3, wIMM, bits_eq_zero_of_wider sources, rd, imm], cc.imp_right And.left⟩
  have run : exec (.axWrs c) s = .next _ := axRow_word s u c 0x39 p w _ _ runs.1 runs.2 op legal
  have room := core_in u c sound.1
  refine ⟨_, run, ?_⟩
  rcases cc with h | ⟨h, idle⟩
  · have value : clamp 1 4096 (u.x c (wRS1 w)) = Nat.min (Nat.max (u.x c (wRS1 w)) 1) 4096 :=
      (clamp_eq (by decide) _).trans ((Nat.min_comm ..).trans (congrArg (Nat.min · 4096) (Nat.max_comm ..)))
    rw [if_pos h, if_pos h, if_pos h, value]
    exact (onlyCore_setCore room _).next (room_setCore room _)
  · have other : wCC w ≠ 1 := by omega
    rw [if_neg other, if_neg other, if_neg other, idle, if_neg Bool.false_ne_true]
    exact (onlyCore_setCore room _).next (room_setCore room _)

omit runs in
/-- VL set to a request held at 262,144, and RD with it. -/
theorem setVl_spec (rd req : Nat) (hr : rd < 32) :
    let t := u.setVl c rd req
    t = { u with cores := t.cores } ∧ (∀ d, d ≠ c.val → t.core d = u.core d) ∧
      t.core c = { u.core c with x := (t.core c).x, pc := (u.core c).pc + 8, vl := Nat.min req 262144 } ∧
      ∀ r, t.x c r = if r = rd ∧ r ≠ 0 then Nat.min req 262144 else u.x c r := by
  have room := core_in u c sound.1
  obtain ⟨-, others, core⟩ := onlyCore_setCore room { u.core c with vl := Nat.min req 262144 }
  have frame : u.setVl c rd req = { u.setCore c { u.core c with vl := Nat.min req 262144 } with cores := (u.setVl c rd req).cores } :=
    setX_next_frame ..
  obtain ⟨others', core', regs⟩ := coreResult_setX_next_of (u := u.setCore c { u.core c with vl := Nat.min req 262144 }) (c := c)
    (room_setCore room _) (Nat.min req 262144) (by rw [core]; exact length_x u c sound.1) hr
  refine ⟨frame, fun d hd => (others' d hd).trans (others d hd), core'.trans (by rw [core]; rfl), fun r => (regs r).trans ?_⟩
  have value : (BitVec.ofNat 64 (Nat.min req 262144)).toNat = Nat.min req 262144 := by
    have small : Nat.min req 262144 ≤ 262144 := Nat.min_le_right ..
    rw [BitVec.toNat_ofNat, Nat.mod_eq_of_lt (by omega)]
  rw [value, State.x, core]
  rfl

end

/-- Settles O10: RDS by the table's row that CC names, WRS by the register it names, SETVL and SETVLI by their request. -/
theorem specialRegisterInstructions : Obligations.SpecialRegisterInstructions := by
  refine ⟨fun s u c p w sound runs op sources imm cc idle => rds_spec sound runs op sources imm cc idle,
    fun s u c p w sound runs op rd sources imm cc => wrs_spec sound runs op rd sources imm cc, fun s u c p w i sound runs op unused => ?_⟩
  cases i with
  | false =>
    have legal : lgR1 w = true := by
      rw [lgR1, allZero_iff]
      simp [wRS2, wRS3, wCC, wIMM, bits_eq_zero_of_wider (show bits w 45 0 = 0 from unused)]
    exact ⟨_, axRow_word s u c 0x3A p w lgR1 _ runs.1 runs.2 op legal, setVl_spec sound (wRD w) _ (wRD_lt w)⟩
  | true =>
    have legal : (bits w 50 32 == 0) = true := beq_iff_eq.2 unused
    exact ⟨_, axRow_word s u c 0x3B p w _ _ runs.1 runs.2 op legal, setVl_spec sound (wRD w) _ (wRD_lt w)⟩

end Sys2Proof.Machine
end

section
/-! SUPPORT. O15: fences, CINV, NOP, END and TWAIT (R67, R68, R115, R118, R123, R124). -/
namespace Sys2Proof.Machine
open Sys2Proof Sys2Proof.Spec

theorem onlyCore_next {u : State} {c : Fin 12} (room : c.val < u.cores.length) :
    OnlyCore u (u.next c) c { u.core c with pc := (u.core c).pc + 8 } :=
  onlyCore_setCore room _

/-- What an instruction leaves of a core is told of any state with the same cores. -/
theorem coreResult_of_cores {u v t : State} {c : Fin 12} {rd a : Nat} {x : Word} (h : CoreResult v t c rd x a) (cores : v.cores = u.cores) :
    CoreResult u t c rd x a := by
  have core (d : Nat) : v.core d = u.core d := by rw [State.core, cores]; rfl
  obtain ⟨others, moved, regs⟩ := h
  refine ⟨fun d hd => (others d hd).trans (core d), moved.trans (by rw [core]), fun r => (regs r).trans ?_⟩
  rw [State.x, core]
  rfl

section
variable {s u : State} {c : Fin 12} {p w : Nat} (sound : Sound u) (runs : Runs s u c p w)
include sound runs

theorem fence_spec (op : w >>> 56 = 0x60) (high : bits w 55 40 = 0) (imm : bits w 31 0 = 0)
    (kind : wSEL w = 0 ∧ u.writesDone c ∧ u.readsDone c ∨ wSEL w = 1 ∧ u.writesDone c ∨ wSEL w = 2 ∧ u.readsDone c) :
    ∃ t, exec (.axFence c) s = .next t ∧ OnlyCore u t c { u.core c with pc := (u.core c).pc + 8 } := by
  have sel : wSEL w ≤ 2 := by omega
  have legal : (allZero [bits w 55 40, wIMM w] && decide (wSEL w ≤ 2)) = true := by
    rw [Bool.and_eq_true, allZero_iff, decide_eq_true_iff]
    exact ⟨by simp [wIMM, high, imm], sel⟩
  have run : exec (.axFence c) s = .next _ := axRow_word s u c 0x60 p w _ _ runs.1 runs.2 op legal
  have holds : (match wSEL w with | 0 => u.fullDone c | 1 => u.writesDone c | _ => u.readsDone c) = true := by
    rcases kind with ⟨e, writes, reads⟩ | ⟨e, writes⟩ | ⟨e, reads⟩
    · rw [e]
      exact Bool.and_eq_true_iff.2 ⟨writes, reads⟩
    · rw [e]
      exact writes
    · rw [e]
      exact reads
  exact ⟨_, run.trans (congrArg _ (if_pos holds)), onlyCore_next (core_in u c sound.1)⟩

omit sound in
/-- An instruction whose word is its OP alone. -/
theorem exec_of_bare {i : Instr} {op : Nat} {f : Nat → Nat → State → State} (run : exec i s = s.axRow c op (fun w => bits w 55 0 == 0) f)
    (word : w >>> 56 = op ∧ bits w 55 0 = 0) : exec i s = .next (f p w u) :=
  run.trans (axRow_word s u c op p w _ f runs.1 runs.2 word.1 (beq_iff_eq.2 word.2))

theorem end_spec (word : w = 0x7100000000000000) :
    ∃ t, exec (.axEnd c) s = .next t ∧ OnlyCore u t c { u.core c with pc := (u.core c).pc + 8, run := .ended } := by
  have room := core_in u c sound.1
  exact ⟨_, exec_of_bare runs (op := 0x71) rfl (by subst word; decide),
    (onlyCore_next room).modify (room_setCore room _) fun k => { k with run := .ended }⟩

end

/-- Settles O15: one core is all that each of them replaces. -/
theorem fencesAndBlockControl : Obligations.FencesAndBlockControl := by
  intro s u c p w sound runs k done
  have room := core_in u c sound.1
  refine ⟨?fence, ?cinv, ?nop, ?stop, ?twait⟩
  case fence =>
    intro op high imm kind
    exact fence_spec sound runs op high imm kind
  case cinv =>
    intro word
    exact ⟨_, exec_of_bare runs (op := 0x61) rfl (by subst word; decide), (onlyCore_setCore room _).next (room_setCore room _)⟩
  case nop =>
    intro word
    exact ⟨_, exec_of_bare runs (op := 0x70) rfl (by subst word; decide), onlyCore_next room⟩
  case stop =>
    intro word
    exact end_spec sound runs word
  case twait =>
    intro word performed
    exact ⟨_, (exec_of_bare runs (op := 0x72) rfl (by subst word; decide)).trans (congrArg _ (if_pos performed)), onlyCore_setCore room _⟩

end Sys2Proof.Machine
end

section
/-! SUPPORT. O16: semaphores (R116, R117, R120, R121). -/
namespace Sys2Proof.Machine
open Sys2Proof Sys2Proof.Spec

/-! ### Counters -/

theorem satAdd_eq_min (m a b : Nat) : satAdd m a b = Nat.min (a + b) m := by
  change _ = min _ _
  unfold satAdd
  split <;> omega

theorem sem_lt (u : State) (p i : Nat) : u.sem p i < 2 ^ 32 := get_lt u Fld.SEM_VAL.COUNT p i

/-- The counter of one semaphore after it is set, and every other bit of the registers. -/
theorem semaphore_set {u : State} (wf : u.Wf) (p i : Nat) {v : Nat} (hv : v < 2 ^ 32) :
    BitsBut [(Fld.SEM_VAL.COUNT, p, i)] u (u.set Fld.SEM_VAL.COUNT v p i) ∧ (u.set Fld.SEM_VAL.COUNT v p i).get Fld.SEM_VAL.COUNT p i = v :=
  ⟨bitsBut_set u _ v p i wf.csr, (get_set_same u Fld.SEM_VAL.COUNT v p i wf.csr (by decide) (by decide)).trans (Nat.mod_eq_of_lt hv)⟩

/-- A signal on a semaphore for which no WAIT waits. -/
theorem signal_of_free {u : State} {p i : Nat} (n : Nat) (free : u.semQueue p i = []) :
    u.signal p i n = (u.set Fld.SEM_VAL.COUNT (Nat.min (u.get Fld.SEM_VAL.COUNT p i + n) 0xFFFFFFFF) p i).setSemQueue p i [] := by
  unfold State.signal
  rw [satAdd_eq_min]
  dsimp only
  rw [show (State.set u _ _ p i).semQueue p i = [] from free]
  rfl

theorem signal_spec {u : State} (wf : u.Wf) {p i : Nat} (n : Nat) (free : u.semQueue p i = []) :
    let t := u.signal p i n
    t = { u with csr := t.csr, parts := t.parts } ∧ BitsBut [(Fld.SEM_VAL.COUNT, p, i)] u t ∧
      t.get Fld.SEM_VAL.COUNT p i = Nat.min (u.get Fld.SEM_VAL.COUNT p i + n) 0xFFFFFFFF := by
  intro t
  have eq : t = _ := signal_of_free n free
  have held : Nat.min (u.get Fld.SEM_VAL.COUNT p i + n) 0xFFFFFFFF < 2 ^ 32 := lt_of_le_of_lt (Nat.min_le_right ..) (by decide)
  obtain ⟨bits, value⟩ := semaphore_set wf p i held
  rw [eq]
  exact ⟨rfl, bits, value⟩

theorem semQueue_setSemQueue {u : State} {p : Nat} (room : p < u.parts.length) (i : Nat) {q : List (Nat × Nat)} (some : q ≠ []) :
    (u.setSemQueue p i q).semQueue p i = q := by
  rw [State.semQueue, State.setSemQueue, part_setPart_same _ _ _ room]
  dsimp only
  rw [smGet, smPut, if_neg some, smFind_smInsert_same]
  rfl

/-! ### The instructions -/

section
variable {s u : State} {c : Fin 12} {p w : Nat} (sound : Sound u) (runs : Runs s u c p w) (rs2 : bits w 45 40 = 0) (sel : wSEL w < 64)
include rs2 sel

theorem lgSem_of : lgSem w = true := by
  rw [lgSem, Bool.and_eq_true, allZero_iff, decide_eq_true_iff]
  exact ⟨by simp [rs2], sel⟩

include sound runs

theorem sig_spec (op : w >>> 56 = 0x62) (rd : wRD w = 0) (done : u.fullDone c = true) (free : u.semQueue p (wSEL w) = []) :
    ∃ t, exec (.axSig c) s = .next t ∧ t = { u with csr := t.csr, cores := t.cores, parts := t.parts } ∧
      BitsBut [(Fld.SEM_VAL.COUNT, p, wSEL w)] u t ∧
      t.get Fld.SEM_VAL.COUNT p (wSEL w) = Nat.min (u.get Fld.SEM_VAL.COUNT p (wSEL w) + u.semN c w) 0xFFFFFFFF ∧
      CoreResult u t c 0 0 ((u.core c).pc + 8) := by
  have legal : (lgSem w && wRD w == 0) = true := by rw [lgSem_of rs2 sel, rd]; rfl
  have run : exec (.axSig c) s = .next _ := axRow_word s u c 0x62 p w _ _ runs.1 runs.2 op legal
  obtain ⟨frame, bits, value⟩ := signal_spec ((sound_iff_wf u).1 sound) (u.semN c w) free
  have cores : (u.signal p (wSEL w) (u.semN c w)).cores = u.cores := by rw [frame]
  generalize u.signal p (wSEL w) (u.semN c w) = t at run frame bits value cores
  have core : t.core c = u.core c := by rw [State.core, cores]; rfl
  have room : c.val < t.cores.length := by rw [cores]; exact core_in u c sound.1
  have moved := coreResult_setX_next_of (rd := 0) room 0 (by rw [core]; exact length_x u c sound.1) (by decide)
  rw [core] at moved
  exact ⟨_, run.trans (congrArg _ (if_pos done)), by rw [next_frame, frame], bits, value, coreResult_of_cores moved cores⟩

theorem wait_spec (op : w >>> 56 = 0x63) (rd : wRD w = 0) (hp : p < 16) (free : u.semQueue p (wSEL w) = []) :
    ∃ t, exec (.axWait c) s = .next t ∧
      (if u.semN c w ≤ u.get Fld.SEM_VAL.COUNT p (wSEL w) then
        t = { u with csr := t.csr, cores := t.cores } ∧ BitsBut [(Fld.SEM_VAL.COUNT, p, wSEL w)] u t ∧
          t.get Fld.SEM_VAL.COUNT p (wSEL w) = u.get Fld.SEM_VAL.COUNT p (wSEL w) - u.semN c w ∧
          t.core c = { u.core c with pc := (u.core c).pc + 8, rc := [], semWait := none }
      else
        t = { u with cores := t.cores, parts := t.parts } ∧ t.semQueue p (wSEL w) = [(c.val, u.semN c w)] ∧
          t.core c = { u.core c with semWait := some (wSEL w, u.semN c w) }) := by
  have legal : (lgSem w && wRD w == 0) = true := by rw [lgSem_of rs2 sel, rd]; rfl
  have run : exec (.axWait c) s = .next _ := axRow_word s u c 0x63 p w _ _ runs.1 runs.2 op legal
  dsimp only at run
  rw [free, List.isEmpty_nil, Bool.true_and] at run
  have wf := (sound_iff_wf u).1 sound
  have room := core_in u c sound.1
  by_cases enough : u.semN c w ≤ u.get Fld.SEM_VAL.COUNT p (wSEL w)
  · obtain ⟨bits, value⟩ := semaphore_set wf p (wSEL w) (lt_of_le_of_lt (Nat.sub_le (u.sem p (wSEL w)) (u.semN c w)) (sem_lt u p (wSEL w)))
    simp only [if_pos enough]
    refine ⟨_, run.trans (congrArg _ (if_pos (decide_eq_true enough))), rfl, bits, value, ?_⟩
    have emptied := onlyCore_setCore (u := u.set Fld.SEM_VAL.COUNT (u.sem p (wSEL w) - u.semN c w) p (wSEL w)) (c := c) room
      { u.core c with rc := [] }
    exact ((emptied.modify (room_setCore room _) fun k => { k with semWait := none }).next (room_setCore (room_setCore room _) _)).2.2
  · simp only [if_neg enough]
    refine ⟨_, run.trans (congrArg _ (if_neg (by rw [decide_eq_true_eq]; exact enough))), rfl, ?_, ?_⟩
    · exact semQueue_setSemQueue (by rw [wf.parts]; exact hp) _ (List.cons_ne_nil _ _)
    · exact core_setCore_same _ _ _ room

theorem tryw_spec (op : w >>> 56 = 0x64) :
    ∃ t, exec (.axTryw c) s = .next t ∧ t = { u with csr := t.csr, cores := t.cores } ∧ BitsBut [(Fld.SEM_VAL.COUNT, p, wSEL w)] u t ∧
      (if u.semQueue p (wSEL w) = [] ∧ u.semN c w ≤ u.get Fld.SEM_VAL.COUNT p (wSEL w) then
        t.get Fld.SEM_VAL.COUNT p (wSEL w) = u.get Fld.SEM_VAL.COUNT p (wSEL w) - u.semN c w ∧
          t.core c = { u.core c with x := (t.core c).x, pc := (u.core c).pc + 8, rc := [] } ∧
          ∀ r, t.x c r = if r = wRD w ∧ r ≠ 0 then 1 else u.x c r
      else t.csr = u.csr ∧ CoreResult u t c (wRD w) 0 ((u.core c).pc + 8)) := by
  have run : exec (.axTryw c) s = .next _ := axRow_word s u c 0x64 p w lgSem _ runs.1 runs.2 op (lgSem_of rs2 sel)
  dsimp only at run
  have wf := (sound_iff_wf u).1 sound
  have room := core_in u c sound.1
  have len := length_x u c sound.1
  have asked : ((u.semQueue p (wSEL w)).isEmpty && decide (u.semN c w ≤ u.sem p (wSEL w))) = true ↔
      u.semQueue p (wSEL w) = [] ∧ u.semN c w ≤ u.get Fld.SEM_VAL.COUNT p (wSEL w) := by
    rw [Bool.and_eq_true, List.isEmpty_iff, decide_eq_true_eq]
    rfl
  by_cases enough : u.semQueue p (wSEL w) = [] ∧ u.semN c w ≤ u.get Fld.SEM_VAL.COUNT p (wSEL w)
  · obtain ⟨bits, value⟩ := semaphore_set wf p (wSEL w) (lt_of_le_of_lt (Nat.sub_le (u.sem p (wSEL w)) (u.semN c w)) (sem_lt u p (wSEL w)))
    rw [if_pos (asked.2 enough)] at run
    simp only [if_pos enough]
    generalize taken : u.set Fld.SEM_VAL.COUNT (u.sem p (wSEL w) - u.semN c w) p (wSEL w) = v at run bits value
    have frame : v = { u with csr := v.csr } := by rw [← taken]; rfl
    have room' : c.val < v.cores.length := by rw [frame]; exact room
    have same : v.core c = u.core c := by rw [frame]; rfl
    have core : (v.invalidate c).core c = { u.core c with rc := [] } := same ▸ core_setCore_same v c _ room'
    obtain ⟨-, moved, regs⟩ := coreResult_setX_next_of (u := v.invalidate c) (c := c) (rd := wRD w)
      (room_setCore room' _) 1 (by rw [core]; exact len) (wRD_lt w)
    refine ⟨_, run, ?_, ?_, ?_, moved.trans (by rw [core]), fun r => (regs r).trans ?_⟩
    · rw [setX_next_frame, State.invalidate, State.setCore, frame]
    · exact bitsBut_of_csr bits rfl (by rw [setX_next_frame]; rfl)
    · exact (get_of_csr (by rw [setX_next_frame]; rfl) ..).trans value
    · rw [State.x, core]
      rfl
  · rw [if_neg (mt asked.1 enough)] at run
    simp only [if_neg enough]
    have csr : ((u.setX c (wRD w) 0).next c).csr = u.csr := by rw [setX_next_frame]
    exact ⟨_, run, by rw [setX_next_frame], bitsBut_of_csr (bitsBut_refl _ u) rfl csr, csr,
      coreResult_setX_next u c (wRD w) 0 sound (wRD_lt w)⟩

theorem semrd_spec (op : w >>> 56 = 0x65) (rs1 : wRS1 w = 0) (imm : bits w 31 0 = 0) :
    ∃ t, exec (.axSemrd c) s = .next t ∧ t = { u with cores := t.cores } ∧
      CoreResult u t c (wRD w) (BitVec.ofNat 64 (u.get Fld.SEM_VAL.COUNT p (wSEL w))) ((u.core c).pc + 8) := by
  have legal : (lgSem w && allZero [wRS1 w, wIMM w]) = true := by
    rw [lgSem_of rs2 sel, Bool.true_and, allZero_iff]
    simp [rs1, wIMM, imm]
  exact ⟨_, axRow_word s u c 0x65 p w _ _ runs.1 runs.2 op legal, setX_next_frame .., coreResult_setX_next u c (wRD w) _ sound (wRD_lt w)⟩

end

/-- Settles O16: a semaphore is one field of the registers and the queue of its WAITs. -/
theorem semaphores : Obligations.Semaphores := by
  refine ⟨fun s u c p w sound runs hp rs2 sel => ⟨?sig, ?wait, ?tryw, ?semrd⟩, fun s p v sound serves sel free => ?host⟩
  case sig => exact fun op rd done free => sig_spec sound runs rs2 sel op rd done free
  case wait => exact fun op rd free => wait_spec sound runs rs2 sel op rd hp free
  case tryw => exact fun op => tryw_spec sound runs rs2 sel op
  case semrd => exact fun op rs1 imm => semrd_spec sound runs rs2 sel op rs1 imm
  case host =>
    have run : exec (.semSig p v) s = .next (s.signal p (bits v.toNat 5 0) (bits v.toNat 63 32)) := congrArg _ (if_pos serves)
    exact ⟨_, run, signal_spec ((sound_iff_wf s).1 sound) _ free⟩

end Sys2Proof.Machine
end

section
/-! SUPPORT. O14: CSRR and CSRW (R92, R112). -/
namespace Sys2Proof.Machine
open Sys2Proof Sys2Proof.Spec

/-! ### Offsets of registers -/

/-- How far from its first address a register's array may reach. -/
def Reg.span (r : Reg) : Nat := (r.dims.map fun d => d.1 * d.2).sum

/-- The member of a register's array that lies at an offset has that offset, and it lies within the array. -/
theorem off_of_instAt {r : Reg} {o i j : Nat} (h : r.instAt o = some (i, j)) : r.off i j = o ∧ o ≤ r.base + r.span := by
  unfold Reg.instAt at h
  unfold Reg.off Reg.span
  split at h
  next e =>
    split at h <;> cases h
    rename_i at_base
    rw [e]
    exact ⟨at_base.symm, at_base ▸ Nat.le_add_right ..⟩
  next n a e =>
    split at h
    · cases h
    · dsimp only at h
      split at h <;> cases h
      rename_i here
      rw [Bool.and_eq_true, decide_eq_true_eq, beq_iff_eq] at here
      obtain ⟨hi, ho⟩ := here
      have reach := Nat.mul_le_mul_right a hi.le
      rw [e]
      exact ⟨ho, by simp only [List.map, List.sum_cons]; omega⟩
  next n a m b l e =>
    split at h
    · cases h
    · dsimp only at h
      split at h <;> cases h
      rename_i here
      rw [Bool.and_eq_true, Bool.and_eq_true, decide_eq_true_eq, decide_eq_true_eq, beq_iff_eq] at here
      obtain ⟨⟨hi, hj⟩, ho⟩ := here
      have reach := Nat.mul_le_mul_right a hi.le
      have reach' := Nat.mul_le_mul_right b hj.le
      rw [e]
      exact ⟨ho, by simp only [List.map, List.sum_cons]; omega⟩

theorem instAt_of_regAt {o : Nat} {r : Reg} {i j : Nat} (h : regAt o = some (r, i, j)) : r.instAt o = some (i, j) := by
  suffices ∀ l, regAtIn l o = some (r, i, j) → r.instAt o = some (i, j) from this _ h
  intro l
  induction l with
  | nil => exact nofun
  | cons q l ih =>
    intro h
    unfold regAtIn at h
    split at h
    · rename_i e
      cases h
      exact e
    · exact ih h

/-- A register's first address and the strides of its array are multiples of 8. -/
def Reg.aligned (r : Reg) : Bool := r.base % 8 == 0 && r.dims.all fun d => d.2 % 8 == 0

theorem aligned_of_mem_regTable : ∀ r ∈ regTable, r.aligned = true := by
  simp only [regTable, List.forall_mem_append]
  and_intros <;> decide

theorem off_mod_eight {r : Reg} (h : r.aligned = true) (i j : Nat) : r.off i j % 8 = 0 := by
  rw [Reg.aligned, Bool.and_eq_true, beq_iff_eq, List.all_eq_true] at h
  obtain ⟨base, strides⟩ := h
  have stride (d) (hd : d ∈ r.dims) (k : Nat) : k * d.2 % 8 = 0 := by rw [Nat.mul_mod, beq_iff_eq.1 (strides d hd), Nat.mul_zero]
  unfold Reg.off
  split
  next => exact base
  next a e =>
    have first : i * a % 8 = 0 := stride _ (e ▸ List.mem_cons_self) i
    omega
  next a _ b _ e =>
    have first : i * a % 8 = 0 := stride _ (e ▸ List.mem_cons_self) i
    have second : j * b % 8 = 0 := stride _ (e ▸ List.mem_cons_of_mem _ List.mem_cons_self) j
    omega

theorem mod_eight_of_regAt {o : Nat} {r : Reg} {i j : Nat} (h : regAt o = some (r, i, j)) : o % 8 = 0 :=
  (off_of_instAt (instAt_of_regAt h)).1 ▸ off_mod_eight (aligned_of_mem_regTable r (mem_regTable_of_regAt h)) i j

/-- The registers of the ASSAY block lie below the cores' windows. -/
theorem assay_below : ∀ r ∈ regTable, inAssay r → r.base + r.span < 0x2000000 := by
  simp only [regTable, List.forall_mem_append]
  and_intros <;> decide

/-- No grant of the mailboxes and doorbells names a register of the ASSAY block (R381). -/
theorem not_inAssay_of_boxGrant {s : State} {who p o w : Nat} {write : Bool} {r : Reg} {i j : Nat} (hr : regAt o = some (r, i, j))
    (granted : s.boxGrant who p o w write = true) : ¬ inAssay r := by
  intro assay
  have apart {q : Reg} (h : 0xA00000 ≤ q.base ∨ q.base < 0x900000) : r.base ≠ q.base := by omega
  have none : s.boxGrant who p o w write = false := by
    unfold State.boxGrant
    rw [hr]
    simp [apart (q := Reg.MB_DATA) (by decide), apart (q := Reg.S_STAT) (by decide), apart (q := Reg.S_CTRL) (by decide),
      apart (q := Reg.MB_RDATA) (by decide), apart (q := Reg.R_PEEK) (by decide), apart (q := Reg.R_CTRL) (by decide),
      apart (q := Reg.DB_RING) (by decide), apart (q := Reg.DB_PEND) (by decide), apart (q := Reg.DB_MASK) (by decide),
      apart (q := Reg.DB_CFG) (by decide)]
  exact absurd (granted.symm.trans none) (by decide)

/-- A core may write no register of the ASSAY block (R92). -/
theorem not_inAssay_of_coreGrant {s : State} {c : Fin 12} {p o w : Nat} {r : Reg} {i j : Nat} (hr : regAt o = some (r, i, j))
    (granted : s.coreGrant c p o w true = true) : ¬ inAssay r := by
  intro assay
  obtain ⟨off, high⟩ := off_of_instAt (instAt_of_regAt hr)
  have below := assay_below r (mem_regTable_of_regAt hr) assay
  have above : 0x900000 ≤ o := off ▸ assay.1.trans (base_le_off r i j)
  have window : (decide (0x2000000 + c.val * 0x10000 ≤ o) && decide (o < 0x2000000 + c.val * 0x10000 + 0x10000)) = false := by
    rw [decide_eq_false (by omega), Bool.false_and]
  unfold State.coreGrant at granted
  dsimp only at granted
  rw [window, if_neg Bool.false_ne_true, if_neg (by omega)] at granted
  split at granted
  · exact absurd granted (by decide)
  · exact not_inAssay_of_boxGrant hr granted assay

/-! ### The instructions -/

/-- R112: the first check that fails, if any. -/
theorem csrCheck_of_granted {s : State} {c p o w : Nat} {write : Bool} {r : Reg} {i j : Nat} (hr : regAt o = some (r, i, j))
    (granted : s.coreGrant c p o w write = true) (up : s.csrUp o = true) : s.csrCheck c p o w write = none := by
  unfold State.csrCheck
  rw [if_neg (not_not.2 (mod_eight_of_regAt hr)), if_neg (by simp [granted]), if_neg (by simp [up])]

theorem csrCheck_of_refused {s : State} {c p o w : Nat} {write : Bool}
    (refused : o % 8 ≠ 0 ∨ s.coreGrant c p o w write = false ∨ s.csrUp o = false) :
    s.csrCheck c p o w write = some
      ⟨if o % 8 ≠ 0 then 0x03 else if s.coreGrant c p o w write = false then 0x04 else 0x0A, csrAddr o, none⟩ := by
  unfold State.csrCheck
  by_cases aligned : o % 8 ≠ 0
  · rw [if_pos aligned, if_pos aligned]
    rfl
  · rw [if_neg aligned, if_neg aligned]
    cases granted : s.coreGrant c p o w write with
    | false => rfl
    | true =>
      have down : s.csrUp o = false := by simpa [aligned, granted] using refused
      rw [down]
      rfl

theorem readableWord_lt {r : Reg} {v : Nat} (hr : r.LaidOut) (hv : v < 2 ^ 64) : readableWord r v < 2 ^ 64 := by
  refine Nat.lt_pow_two_of_testBit _ fun b hb => ?_
  rw [testBit_readableWord v hr, Nat.testBit_lt_two_pow (hv.trans_le (Nat.pow_le_pow_right (by decide) hb)), Bool.and_false]

section
variable {s u : State} {c : Fin 12} {p w : Nat} (sound : Sound u) (runs : Runs s u c p w)
include sound runs

theorem csrr_spec {r : Reg} {i j : Nat} (op : w >>> 56 = 0x58) (unused : bits w 45 28 = 0) (hr : regAt (u.csrOff c w) = some (r, i, j))
    (live : r.base ∉ liveBases) (granted : u.coreGrant c p (u.csrOff c w) 0 false = true) (up : u.csrUp (u.csrOff c w) = true) :
    ∃ t, exec (.axCsrr c) s = .next t ∧ t = { u with cores := t.cores, csr := t.csr } ∧
      BitsBut ((r.fields.filter (fun f => f.access == .rc)).map (fun f => (⟨r, f.hi, f.lo⟩, i, j))) u t ∧
      CoreResult u t c (wRD w) (BitVec.ofNat 64 (readableWord r (u.word r i j))) ((u.core c).pc + 8) := by
  have legal : allZero [wRS2 w, bits w 40 28] = true := (allZero_iff _).2 (by simp [wRS2, bits_eq_zero_of_wider unused])
  have run : exec (.axCsrr c) s = .next _ := axRow_word s u c 0x58 p w _ _ runs.1 runs.2 op legal
  have laid : r.LaidOut := laidOut_of_mem_regTable r (mem_regTable_of_regAt hr)
  have value : readableWord r (u.word r i j) &&& fullMask = readableWord r (u.word r i j) := by
    rw [show fullMask = 2 ^ 64 - 1 from rfl, Nat.and_two_pow_sub_one_eq_mod, Nat.mod_eq_of_lt (readableWord_lt laid (word_lt u r i j))]
  dsimp only at run
  rw [csrCheck_of_granted hr granted up] at run
  dsimp only at run
  rw [hr] at run
  dsimp only at run
  rw [regRead_of_not_live u i j fullMask live, value] at run
  have read := bitsBut_clear (s := u) (i := i) (j := j) fullMask sound.2 laid
  generalize cleared : u.setWord r i j (clearedWord r (u.word r i j) fullMask) = v at run read
  have frame : v = { u with csr := v.csr } := by rw [← cleared]; rfl
  have cores : v.cores = u.cores := by rw [frame]
  have core : v.core c = u.core c := by rw [frame]; rfl
  have moved := coreResult_setX_next_of (rd := wRD w) (by rw [cores]; exact core_in u c sound.1) (readableWord r (u.word r i j))
    (by rw [core]; exact length_x u c sound.1) (wRD_lt w)
  rw [core] at moved
  refine ⟨_, run, ?_, bitsBut_of_csr read rfl (by rw [setX_next_frame]), coreResult_of_cores moved cores⟩
  rw [setX_next_frame, frame]

theorem csrw_spec {r : Reg} {i j : Nat} (op : w >>> 56 = 0x59) (rd : bits w 55 51 = 0) (unused : bits w 40 28 = 0)
    (hr : regAt (u.csrOff c w) = some (r, i, j)) (act : r.base ∉ actingBases)
    (granted : u.coreGrant c p (u.csrOff c w) (u.x c (wRS2 w)) true = true) (up : u.csrUp (u.csrOff c w) = true) :
    ∃ t, exec (.axCsrw c) s = .next t ∧ t = { u with cores := t.cores, csr := t.csr } ∧ BitsBut [(allOf r, i, j)] u t ∧
      CoreResult u t c 0 0 ((u.core c).pc + 8) ∧
      ∀ f ∈ r.fields, ∀ b, f.lo ≤ b → b ≤ f.hi →
        (t.word r i j).testBit b = bitAfterWrite f.access (u.locked r i) true ((u.word r i j).testBit b) ((xw u c (wRS2 w)).getLsbD b) := by
  have legal : allZero [wRD w, bits w 40 28] = true := (allZero_iff _).2 (by simp [wRD, rd, unused])
  have run : exec (.axCsrw c) s = .next _ := axRow_word s u c 0x59 p w _ _ runs.1 runs.2 op legal
  have laid : r.LaidOut := laidOut_of_mem_regTable r (mem_regTable_of_regAt hr)
  dsimp only at run
  rw [csrCheck_of_granted hr granted up] at run
  dsimp only at run
  rw [hr] at run
  dsimp only at run
  rw [ringDown_of_not_acting u _ _ hr act, if_neg Bool.false_ne_true,
    regWrite_of_not_acting u i j _ _ _ act (not_inAssay_of_coreGrant hr granted)] at run
  have moved := coreResult_setX_next_of (u := u.plainWrite r i j (u.x c (wRS2 w)) fullMask) (c := c) (rd := 0) (core_in u c sound.1) 0
    (length_x u c sound.1) (by decide)
  refine ⟨_, run, rfl, bitsBut_setWord u r i j _, coreResult_of_cores moved rfl, fun f hf b lo hi => ?_⟩
  have covered : fullMask.testBit b = true :=
    (Nat.testBit_two_pow_sub_one 64 b).trans (decide_eq_true (hi.trans_lt (laid.2 f hf)))
  rw [BitVec.getLsbD, toNat_xw, ← covered]
  exact testBit_word_plainWrite_in u i j _ sound.2 laid (by decide) hf ⟨lo, hi⟩

end

end Sys2Proof.Machine
end

section
/-! SUPPORT. The VALID bit of a fault's record, where the fault names no stack (R91). -/
namespace Sys2Proof.Machine
open Sys2Proof Sys2Proof.Spec

section
variable (s : State) (c : Nat) (e : FaultEng) (pc : Nat) (f : CFault) (unit : Nat)

/-- A first record stands. -/
theorem faultRecorded_valid (wf : smWf 0#64 s.csr = true) (free : s.get Fld.FAULT_REC.VALID c = 0) :
    (s.faultRecorded c e pc f unit).get Fld.FAULT_REC.VALID c = 1 := by
  unfold State.faultRecorded
  rw [if_neg (by rw [is_eq_false free]; decide)]
  extract_lets r
  have w1 := smWf_csr_set s Fld.FAULT_REC.VALID 1 c 0 wf
  have w2 := smWf_csr_set _ Fld.FAULT_REC.ENGINE e.code c 0 w1
  have w3 := smWf_csr_set _ Fld.FAULT_REC.CODE f.code c 0 w2
  have w4 : smWf 0#64 r.csr = true := smWf_csr_set _ Fld.FAULT_REC.UNIT unit c 0 w3
  rw [get_set_of_base_ne _ Fld.FAULT_ADDR.ADDR Fld.FAULT_REC.VALID _ _ _ rfl (by decide),
    get_set_of_base_ne _ Fld.FAULT_PC.PC Fld.FAULT_REC.VALID _ _ _ rfl (by decide),
    get_set_apart r Fld.FAULT_REC.BTICK_LO Fld.FAULT_REC.VALID _ _ _ w4 (by decide) (by decide) rfl (by decide),
    get_set_apart _ Fld.FAULT_REC.UNIT Fld.FAULT_REC.VALID _ _ _ w3 (by decide) (by decide) rfl (by decide),
    get_set_apart _ Fld.FAULT_REC.CODE Fld.FAULT_REC.VALID _ _ _ w2 (by decide) (by decide) rfl (by decide),
    get_set_apart _ Fld.FAULT_REC.ENGINE Fld.FAULT_REC.VALID _ _ _ w1 (by decide) (by decide) rfl (by decide),
    get_set_same s Fld.FAULT_REC.VALID 1 c 0 wf (by decide) (by decide)]
  rfl

end

theorem scalarFault_valid (s : State) (sound : Sound s) (c : Fin 12) (code addr : Nat) (free : s.get Fld.FAULT_REC.VALID c = 0) :
    (s.scalarFault c code addr none).get Fld.FAULT_REC.VALID c = 1 := by
  have eq : s.scalarFault c code addr none = s.coreFaultAs c .scalar (s.core c).pc ⟨code, addr, none⟩ 0 6 c false := by
    change s.coreFault c .scalar (s.core c).pc ⟨code, addr, none⟩ = _
    unfold State.coreFault
    simp only [Option.isSome_none, Bool.and_false, Bool.false_and]
    rfl
  rw [eq]
  obtain ⟨v, before, after⟩ := coreFaultAs_spec s c .scalar (s.core c).pc ⟨code, addr, none⟩ 0 6 c false
  have high : CoreRegs (Fld.FAULT_REC.VALID.reg.off c 0) := (show 0x2000000 ≤ Reg.FAULT_REC.base by decide).trans (base_le_off ..)
  exact ((after.regs.get high).trans (before.regs.get high)).trans
    (faultRecorded_valid s c .scalar _ _ _ ((sound_iff_wf s).1 sound).csr free)

end Sys2Proof.Machine
end

section
/-! SUPPORT. O14: a CSR instruction that the checks of R112 refuse. -/
namespace Sys2Proof.Machine
open Sys2Proof Sys2Proof.Spec

theorem exec_csr_of_refused {s u : State} {c : Fin 12} {p w : Nat} {write : Bool} {f : CFault} (runs : Runs s u c p w)
    (op : w >>> 56 = (if write then 0x59 else 0x58)) (high : bits w 40 28 = 0) (unused : if write then bits w 55 51 = 0 else bits w 45 41 = 0)
    (check : u.csrCheck c p (u.csrOff c w) (if write then u.x c (wRS2 w) else 0) write = some f) :
    exec (if write then .axCsrw c else .axCsrr c) s = .next (u.faultScalar c f) := by
  cases write with
  | false =>
    have legal : allZero [wRS2 w, bits w 40 28] = true := (allZero_iff _).2 (by simp [wRS2, show bits w 45 41 = 0 from unused, high])
    have run : exec (.axCsrr c) s = .next _ := axRow_word s u c 0x58 p w _ _ runs.1 runs.2 op legal
    dsimp only at run
    rwa [show u.csrCheck c p (u.csrOff c w) 0 false = some f from check] at run
  | true =>
    have legal : allZero [wRD w, bits w 40 28] = true := (allZero_iff _).2 (by simp [wRD, show bits w 55 51 = 0 from unused, high])
    have run : exec (.axCsrw c) s = .next _ := axRow_word s u c 0x59 p w _ _ runs.1 runs.2 op legal
    dsimp only at run
    rwa [show u.csrCheck c p (u.csrOff c w) (u.x c (wRS2 w)) true = some f from check] at run

/-- Settles O14: a granted access is the window's read or write of O5 and O6; a refused one is a fault of the scalar unit. -/
theorem csrInstructions : Obligations.CsrInstructions := by
  refine ⟨?read, ?write, ?refused⟩
  case read =>
    intro s u c p w r i j sound runs op unused o hr live granted up
    exact csrr_spec sound runs op unused hr live granted up
  case write =>
    intro s u c p w r i j sound runs op rd unused o v hr act granted up
    rw [show v.toNat = u.x c (wRS2 w) from toNat_xw ..] at granted
    exact csrw_spec sound runs op rd unused hr act granted up
  case refused =>
    intro s u c p w write sound runs op high unused free o granted refused
    have run := exec_csr_of_refused runs op high unused (csrCheck_of_refused refused)
    have code : (if o % 8 ≠ 0 then 0x03 else if granted = false then 0x04 else 0x0A) < 2 ^ 8 := by split_ifs <;> decide
    have addr : csrAddr o < 2 ^ 42 := by
      have := Nat.mod_lt (u.x c (wRS1 w) + bits w 27 0) (show 2 ^ 28 > 0 by decide)
      simp only [csrAddr]
      omega
    obtain ⟨mem, core, record⟩ := scalarFault_spec u sound c _ (csrAddr o) code addr
    exact ⟨_, run, (congrArg CoreSt.run core).trans rfl, (congrArg CoreSt.x core).trans rfl, mem,
      scalarFault_valid u sound c _ _ free, (record free).1⟩

end Sys2Proof.Machine
end

section
/-! SUPPORT. O18: a fetch that corrects a line, and an undefined word behind it. -/
namespace Sys2Proof.Machine
open Sys2Proof Sys2Proof.Spec

set_option maxRecDepth 8000
set_option exponentiation.threshold 600

/-- The block of `strayBlk`, whose list of corrected addresses names an entry that is none, with a word of zeros where its VADD stands. -/
def strayVoid : State := { strayBlk with mem := [] }

/-- The block after the fetch, which corrects the line. -/
def strayVoidFetched : State := (strayVoid.fetch 0 0).2

theorem sound_strayVoid : Sound strayVoid := by decide

theorem runs_strayVoid : Runs strayVoid strayVoidFetched 0 0 0 := ⟨by decide, Prod.ext (by decide) rfl⟩

theorem sound_strayVoidFetched : Sound strayVoidFetched := (sound_iff_wf _).2 (.fetch ((sound_iff_wf _).1 sound_strayVoid))

theorem strayVoidFetched_unassigned : strayVoid.partOf 0 = some 0 ∧ strayVoidFetched.partOf 0 = none := by decide

theorem strayVoidFetched_unfaulted : strayVoidFetched.get Fld.FAULT_REC.VALID (0 : Fin 12) = 0 := by decide

/-- The fault abandons no step: its core belongs to no partition. -/
theorem phaseAfter_undefinedOpcode_strayVoid : phaseAfter (.undefinedOpcode 0) 0 strayVoid = some .active := by decide

/-- Refutes O18: as for O19, Sound lets the list of ages of a full table of corrected addresses hold a number past its 16 entries, and then
the correction that the fetch makes is entered over CORE_STATUS of the core that fetches (`off_strayEntry`). The undefined word faults, but
the core belongs to no partition any more (`strayVoidFetched_unassigned`), and the step of the partition it ran for stays active. -/
theorem not_illegalWordsAndFetchesFault : ¬ Obligations.IllegalWordsAndFetchesFault := by
  rintro ⟨words, -⟩
  obtain ⟨t, run, -, -, -, -, -, -, -, -, abandoned, -⟩ :=
    words strayVoid strayVoidFetched 0 0 0 sound_strayVoidFetched runs_strayVoid (by decide) strayVoidFetched_unfaulted (by decide)
  have stays := phaseAfter_undefinedOpcode_strayVoid
  rw [phaseAfter, run] at stays
  exact absurd (abandoned.symm.trans (Option.some.inj stays)) (by decide)

end Sys2Proof.Machine
end

section
/-! SUPPORT. Any run of bytes as the scalar unit reads it at the point of coherence (R107, R125): lines without error spell the bytes that
`readBytesOf` names. -/
namespace Sys2Proof.Machine
open Sys2Proof Sys2Proof.Spec

/-! ### Numbers and their bytes -/

theorem two_pow_eight_mul (n : Nat) : 2 ^ (8 * n) = 256 ^ n := Nat.pow_mul 2 8 n

/-- Some bytes out of a number. -/
theorem sum_bytes_slice (f : Nat → Byte) {d n m : Nat} (h : d + n ≤ m) :
    (∑ i ∈ Finset.range m, (f i).toNat * 256 ^ i) >>> (8 * d) % 2 ^ (8 * n) = ∑ i ∈ Finset.range n, (f (d + i)).toNat * 256 ^ i := by
  obtain ⟨r, rfl⟩ := Nat.exists_eq_add_of_le h
  have below := sum_bytes_lt f d
  have inside := sum_bytes_lt (fun i => f (d + i)) n
  have high (k : Nat) (g : Nat → Byte) (b : Nat) :
      ∑ i ∈ Finset.range k, (g i).toNat * 256 ^ (b + i) = 256 ^ b * ∑ i ∈ Finset.range k, (g i).toNat * 256 ^ i := by
    rw [Finset.mul_sum]
    exact Finset.sum_congr rfl fun i _ => by rw [Nat.pow_add]; ring
  rw [Nat.shiftRight_eq_div_pow, two_pow_eight_mul, two_pow_eight_mul, Nat.add_assoc, Finset.sum_range_add, high _ (fun i => f (d + i)),
    Nat.add_mul_div_left _ _ (Nat.pow_pos (by decide)), Nat.div_eq_of_lt below, Nat.zero_add, Finset.sum_range_add,
    high _ (fun i => f (d + (n + i))), Nat.add_mul_mod_self_left, Nat.mod_eq_of_lt inside]

theorem readBytesOf_eq (s : State) (a n : Nat) : readBytesOf s a n = ∑ i ∈ Finset.range n, (readByte s (a + i)).toNat * 256 ^ i := by
  induction n with
  | zero => rfl
  | succ n ih => rw [Finset.sum_range_succ, ← ih]; rfl

theorem readBytesOf_lt (s : State) (a n : Nat) : readBytesOf s a n < 256 ^ n := by
  rw [readBytesOf_eq]
  exact sum_bytes_lt _ n

theorem readBytesOf_add (s : State) (a n m : Nat) : readBytesOf s a (n + m) = readBytesOf s a n + readBytesOf s (a + n) m * 256 ^ n := by
  rw [readBytesOf_eq, readBytesOf_eq, readBytesOf_eq, Finset.sum_range_add, Finset.sum_mul]
  congr 1
  exact Finset.sum_congr rfl fun i _ => by rw [Nat.pow_add, Nat.add_assoc]; ring

theorem readBytesOf_slice (s : State) (a : Nat) {d n m : Nat} (h : d + n ≤ m) :
    readBytesOf s a m >>> (8 * d) % 2 ^ (8 * n) = readBytesOf s (a + d) n := by
  rw [readBytesOf_eq, readBytesOf_eq, sum_bytes_slice _ h]
  simp only [Nat.add_assoc]

/-! ### Lines without error -/

theorem onStack_lineOf (a : Nat) : onStack a = onStack (64 * (a / 64)) := by
  conv_lhs => rw [← Nat.div_add_mod a 64]
  exact onStack_line _ (Nat.mod_lt _ (by decide))

theorem intactAt_eq (s : State) (a : Nat) : intactAt s a =
    (!onStack a || (!s.linePoisoned (a / 64) && smGet 0#512 s.ecc (a / 64) == 0#512 && smGet 0#3 s.metaFlip (a / 64) == 0#3)) := by
  unfold intactAt onStack
  cases placeOf a <;> rfl

/-- Whether an address reads without error is a matter of its line. -/
theorem cleanAt_of_line (s : State) {a b : Nat} (h : a / 64 = b / 64) : cleanAt s a = cleanAt s b := by
  have page : a / 0x200000 = b / 0x200000 := by omega
  rw [cleanAt, cleanAt, intactAt_eq, intactAt_eq, onStack_lineOf a, onStack_lineOf b, h, page]

theorem storedLine_eq_readBytesOf (s : State) (wf : s.Wf) (ln : Nat) : s.storedLine ln = readBytesOf s (64 * ln) 64 := by
  rw [storedLine_eq s wf, readBytesOf_eq]

theorem readLines_of_clean (s : State) (wf : s.Wf) (w : Who) (ln n : Nat)
    (clean : ∀ k, k < n → onStack (64 * (ln + k)) = true → Clean s (64 * (ln + k))) :
    s.readLines w ln n = (readBytesOf s (64 * ln) (64 * n), none, s) := by
  induction n with
  | zero => rfl
  | succ n ih =>
    unfold State.readLines
    rw [ih fun k hk => clean k (by omega)]
    dsimp only
    rw [readLine_of_clean s w (ln + n) (clean n (by omega)), storedLine_eq_readBytesOf s wf]
    dsimp only
    rw [Nat.mul_add 64 n 1, readBytesOf_add, ← Nat.mul_add 64 ln n, Nat.shiftLeft_eq, show 512 * n = 8 * (64 * n) by omega, two_pow_eight_mul]

/-- Bytes without error are read as stored, and reading them changes nothing. -/
theorem readBytes_of_clean_bytes (s : State) (wf : s.Wf) (w : Who) {a n : Nat} (pos : 0 < n) (clean : ∀ i, i < n → Clean s (a + i)) :
    s.readBytes w a n = (readBytesOf s a n, none, s) := by
  have lines : ∀ k, k < (a + n - 1) / 64 - a / 64 + 1 → onStack (64 * (a / 64 + k)) = true → Clean s (64 * (a / 64 + k)) := by
    intro k hk _
    obtain ⟨i, hi, line⟩ : ∃ i, i < n ∧ (a + i) / 64 = 64 * (a / 64 + k) / 64 := by
      by_cases first : k = 0
      · exact ⟨0, pos, by omega⟩
      · exact ⟨64 * (a / 64 + k) - a, by omega, by omega⟩
    exact (cleanAt_of_line s line).symm.trans (clean i hi)
  unfold State.readBytes
  rw [if_neg (by omega)]
  dsimp only
  rw [readLines_of_clean s wf w _ _ lines]
  dsimp only
  rw [readBytesOf_slice s _ (d := a - 64 * (a / 64)) (n := n) (by omega), show 64 * (a / 64) + (a - 64 * (a / 64)) = a by omega]
  rfl

theorem loadVolatile_of_clean_bytes (s : State) (wf : s.Wf) (c p : Nat) {a n : Nat} (pos : 0 < n) (clean : ∀ i, i < n → Clean s (a + i)) :
    s.loadVolatile c p a n = (readBytesOf s a n, none, s.traffic (scalarWho c p) false false (a / 64 * 64) 64) := by
  unfold State.loadVolatile
  rw [readBytes_of_clean_bytes s wf _ pos clean]
  rfl

end Sys2Proof.Machine
end

section
/-! SUPPORT. O11: loads (R85, R88, R105, R107, R117). -/
namespace Sys2Proof.Machine
open Sys2Proof Sys2Proof.Spec

/-! ### A load within a line -/

/-- What a plain load takes from the read cache: the bytes of a line of the stacks that it holds, where it is enabled. -/
def heldValue (k : CoreSt) (plain : Prop) [Decidable plain] (a n : Nat) : Option Nat :=
  match placeOf a, smFind k.rc (a / 64) with
  | .data _ _, some (d, _) => if plain ∧ bit k.cfg 16 then some (bits d.toNat (8 * (a % 64 + n) - 1) (8 * (a % 64))) else none
  | _, _ => none

theorem heldValue_of_not_plain (k : CoreSt) {plain : Prop} [Decidable plain] (a n : Nat) (h : ¬ (plain ∧ bit k.cfg 16 = true)) :
    heldValue k plain a n = none := by
  unfold heldValue
  split
  · exact if_neg h
  · rfl

theorem heldValue_of_not_onStack (k : CoreSt) {plain : Prop} [Decidable plain] (a n : Nat) (h : onStack a = false) :
    heldValue k plain a n = none := by
  unfold heldValue
  split
  · rename_i e _
    simp [onStack, e] at h
  · rfl

/-- The bytes of a line that the core's reads see, where the line is in its cache and where it is not. -/
theorem seenLine_slice (u : State) (wf : u.Wf) (c : Nat) {plain : Prop} [Decidable plain] {a n : Nat} (pos : 0 < n) (fits : a % 64 + n ≤ 64)
    (data : onStack a = true) (hp : plain ∧ bit (u.core c).cfg 16 = true) :
    u.seenLine c true (a / 64) >>> (8 * (a % 64)) % 2 ^ (8 * n) = (heldValue (u.core c) plain a n).getD (readBytesOf u a n) := by
  obtain ⟨t, o, place⟩ : ∃ t o, placeOf a = .data t o := by
    unfold onStack at data
    split at data
    · exact ⟨_, _, ‹_›⟩
    · cases data
  unfold State.seenLine heldValue
  rw [place, ← onStack_lineOf, data]
  cases held : smFind (u.core c).rc (a / 64) with
  | some e =>
    dsimp only
    rw [if_pos hp, Bool.and_true, if_pos rfl, Option.getD_some, bits, show 8 * (a % 64 + n) - 1 + 1 - 8 * (a % 64) = 8 * n by omega]
  | none =>
    dsimp only
    rw [storedLine_eq_readBytesOf u wf, readBytesOf_slice u _ fits, show 64 * (a / 64) + a % 64 = a by omega]
    rfl

section
variable (u : State) (sound : Sound u) (c : Fin 12) (p : Nat) {a n : Nat} (pos : 0 < n) (fits : a % 64 + n ≤ 64) (clean : Clean u a)
include sound pos fits clean

/-- A volatile load. -/
theorem loadVolatile_spec :
    ∃ v, u.loadVolatile c p a n = (readBytesOf u a n, none, v) ∧ Loaded c u v ∧ (v.core c).rc = (u.core c).rc := by
  refine ⟨_, loadVolatile_of_clean_bytes u ((sound_iff_wf u).1 sound) c p pos fun i hi => ?_, .traffic .refl, by rw [traffic_frame]; rfl⟩
  exact (cleanAt_of_line u (by omega)).trans clean

/-- A plain load. -/
theorem loadPlain_spec (whole : ∀ d, smFind (u.core c).rc (a / 64) ≠ some (d, true)) :
    ∃ v, u.loadPlain c p a n = ((heldValue (u.core c) True a n).getD (readBytesOf u a n), none, v) ∧ Loaded c u v := by
  have volatile (h : heldValue (u.core c) True a n = none) :
      ∃ v, u.loadVolatile c p a n = ((heldValue (u.core c) True a n).getD (readBytesOf u a n), none, v) ∧ Loaded c u v := by
    obtain ⟨v, load, loaded, -⟩ := loadVolatile_spec u sound c p pos fits clean
    exact ⟨v, by rw [h]; exact load, loaded⟩
  unfold State.loadPlain
  cases place : placeOf a with
  | data t o =>
    dsimp only
    have data : onStack a = true := by rw [onStack, place]
    cases cached : bit (u.core c).cfg 16 with
    | false =>
      rw [if_neg Bool.false_ne_true]
      exact volatile (heldValue_of_not_plain _ _ _ (by simp [cached]))
    | true =>
      rw [if_pos rfl]
      have line : lineSound u c true (a / 64) := by
        unfold lineSound lineSoundAt
        split
        · rename_i d bad held
          cases bad with
          | false => rfl
          | true => exact absurd held (whole d)
        · exact (cleanAt_of_line u (by omega)).trans clean
      obtain ⟨value, loaded, -⟩ := cachedLine_of_lineSound u sound c (scalarWho c p) (a / 64) line (onStack_lineOf a ▸ data)
      rw [← seenLine_slice u ((sound_iff_wf u).1 sound) c pos fits data ⟨trivial, cached⟩]
      generalize u.cachedLine (scalarWho c p) (some c) (a / 64) = q at value loaded
      obtain ⟨x, v⟩ := q
      obtain rfl : x = _ := value
      exact ⟨v, rfl, loaded⟩
  | _ => exact volatile (heldValue_of_not_onStack _ _ _ (by rw [onStack, place]))

end

/-! ### The instruction -/

theorem wBytes_dvd (w : Nat) : wBytes w ∣ 64 := by
  have := bits_lt w 33 32
  exact Nat.pow_dvd_pow 2 (show bits w 33 32 ≤ 6 by omega)

theorem wBytes_pos (w : Nat) : 0 < wBytes w := Nat.two_pow_pos _

/-- An aligned access of a size that divides a line's lies within a line. -/
theorem within_line {a n : Nat} (divides : n ∣ 64) (aligned : a % n = 0) : a % 64 + n ≤ 64 := by
  obtain ⟨m, lines⟩ := divides
  have some : 0 < m := Nat.pos_of_ne_zero fun h => by simp [h] at lines
  have place := Nat.mul_le_mul_left n (Nat.succ_le_of_lt (Nat.mod_lt (a / n) some))
  rw [lines, Nat.mod_mul, aligned, Nat.zero_add]
  exact place

/-- RD written after a load, and the program counter at the next word. -/
theorem Loaded.written {c : Fin 12} {u v : State} (h : Loaded c u v) (sound : Sound v) {rd : Nat} (x : Nat) (hr : rd < 32) :
    let t := (v.setX c rd x).next c
    t = { u with cores := t.cores, stks := t.stks, csr := t.csr, free := t.free } ∧ (∀ d, d ≠ c.val → t.core d = u.core d) ∧
      t.core c = { u.core c with x := (t.core c).x, pc := (u.core c).pc + 8, rc := (t.core c).rc } ∧ (t.core c).rc = (v.core c).rc ∧
      ∀ r, t.x c r = if r = rd ∧ r ≠ 0 then (BitVec.ofNat 64 x).toNat else u.x c r := by
  obtain ⟨others, core, regs⟩ := coreResult_setX_next v c rd x sound hr
  have kept : (((v.setX c rd x).next c).core c).rc = (v.core c).rc := by rw [core]
  refine ⟨?_, fun d hd => (others d hd).trans (h.others d hd), ?_, kept, fun r => (regs r).trans ?_⟩
  · rw [setX_next_frame, h.frame]
  · rw [kept]
    exact core.trans (by rw [h.core])
  · rw [State.x, h.core]
    rfl

/-- What the two loads make of the bytes. -/
def loadExt (signed : Bool) (n v : Nat) : Nat := if signed then ofSigned 64 (toSigned (8 * n) v) else v

theorem ofNat_loadExt (signed : Bool) {n : Nat} (v : Nat) (pos : 0 < n) : BitVec.ofNat 64 (loadExt signed n v) = extended signed n v := by
  cases signed with
  | false => rfl
  | true => exact (ofNat_ofSigned _).trans (by rw [toSigned_eq_toInt (by omega)]; rfl)

section
variable {s u : State} {c : Fin 12} {p w : Nat} (sound : Sound u) (runs : Runs s u c p w)
include sound runs

/-- The state in which RD is written, and the value. -/
theorem load_run {op : Nat} {i : Instr} {signed : Bool} (row : exec i s = s.axLoad c op (loadExt signed)) (hop : w >>> 56 = op)
    (unused : bits w 45 36 = 0) (ord : wORD w ≤ 2) (access : AccessOk u p (mAddr u c w) (wBytes w) false)
    (clear : (u.core c).storeOverlaps (mAddr u c w) (wBytes w) = false) (clean : Clean u (mAddr u c w))
    (whole : wORD w = 0 → ∀ d, smFind (u.core c).rc (mAddr u c w / 64) ≠ some (d, true)) :
    ∃ v, Sound v ∧ Loaded c u v ∧ (wORD w = 2 → (v.core c).rc = []) ∧ (wORD w = 1 → (v.core c).rc = (u.core c).rc) ∧
      exec i s = .next ((v.setX c (wRD w) (loadExt signed (wBytes w)
        ((heldValue (u.core c) (wORD w = 0) (mAddr u c w) (wBytes w)).getD (readBytesOf u (mAddr u c w) (wBytes w))))).next c) := by
  obtain ⟨aligned, fits, reach, answers⟩ := access
  have legal : (allZero [wRS2 w, wRS3 w] && decide (wORD w ≤ 2)) = true := by
    rw [Bool.and_eq_true, allZero_iff, decide_eq_true_iff]
    exact ⟨by simp [wRS2, wRS3, bits_eq_zero_of_wider unused], ord⟩
  have run : exec i s = .next _ := row.trans (axRow_word s u c op p w _ _ runs.1 runs.2 hop legal)
  have wf := (sound_iff_wf u).1 sound
  have line := within_line (wBytes_dvd w) aligned
  dsimp only at run
  rw [memAddr_eq_mAddr, scalarCheck_of_ok aligned fits reach answers, clear] at run
  dsimp only at run
  rw [if_neg Bool.false_ne_true] at run
  by_cases plain : wORD w = 0
  · have wf' := State.Wf.loadPlain (c := c) (p := p) (a := mAddr u c w) (n := wBytes w) wf
    obtain ⟨v, load, loaded⟩ := loadPlain_spec u sound c p (wBytes_pos w) line clean (whole plain)
    rw [load] at wf'
    rw [if_pos plain, load] at run
    dsimp only at run
    rw [if_neg (by omega)] at run
    refine ⟨v, (sound_iff_wf v).2 wf', loaded, by omega, by omega, ?_⟩
    simpa only [heldValue, plain] using run
  · have wf' := State.Wf.loadVolatile (c := c) (p := p) (a := mAddr u c w) (n := wBytes w) wf
    obtain ⟨v, load, loaded, cache⟩ := loadVolatile_spec u sound c p (wBytes_pos w) line clean
    rw [load] at wf'
    rw [if_neg plain, load] at run
    dsimp only at run wf'
    rw [heldValue_of_not_plain _ _ _ fun h => plain h.1, Option.getD_none]
    by_cases acquire : wORD w = 2
    · rw [if_pos acquire] at run
      have room := core_in v c ((sound_iff_wf v).2 wf').1
      refine ⟨_, (sound_iff_wf _).2 (.invalidate wf'), loaded.setCache (rc := []) room, fun _ => ?_, by omega, run⟩
      rw [State.invalidate, core_setCore_same _ _ _ room]
    · rw [if_neg acquire] at run
      exact ⟨v, (sound_iff_wf v).2 wf', loaded, fun h => absurd h acquire, fun _ => cache, run⟩

end

/-- Settles O11: a load takes its bytes from a line, and of the block it leaves what `Loaded` says, with RD written. -/
theorem loads : Obligations.Loads := by
  intro s u c p w signed sound runs op unused ord n a k access clear clean whole held
  have row : exec (if signed then .axLds c else .axLd c) s = s.axLoad c (if signed then 0x41 else 0x40) (loadExt signed) := by
    cases signed <;> rfl
  obtain ⟨v, sound', loaded, emptied, kept, run⟩ := load_run sound runs row op unused ord access clear clean whole
  obtain ⟨frame, others, core, cache, regs⟩ := loaded.written sound' (loadExt signed n (held.getD (readBytesOf u a n))) (wRD_lt w)
  rw [ofNat_loadExt signed _ (wBytes_pos w)] at regs
  exact ⟨_, run, frame, others, core, fun h => cache.trans (emptied h), fun h => cache.trans (kept h), regs⟩

end Sys2Proof.Machine
end

section
/-! SUPPORT. O17: records posted, and the time of the window (R125, R127). -/
namespace Sys2Proof.Machine
open Sys2Proof Sys2Proof.Spec

/-- A byte of a number that spells the bytes of a range. -/
theorem getElem?_bytesOf_readBytesOf (s : State) (a : Nat) {n i : Nat} (h : i < n) :
    (bytesOf n (readBytesOf s a n))[i]? = some (readByte s (a + i)) := by
  have byte : readBytesOf s a n / 256 ^ i % 256 = (readByte s (a + i)).toNat := by
    rw [← two_pow_eight_mul, ← Nat.shiftRight_eq_div_pow, show 256 = 2 ^ (8 * 1) from rfl, readBytesOf_slice s a h, readBytesOf_eq,
      Finset.sum_range_one, Nat.pow_zero, Nat.mul_one]
    rfl
  rw [List.getElem?_eq_getElem (by rwa [length_bytesOf]), getElem_bytesOf _ _ _ h]
  refine congrArg _ (BitVec.eq_of_toNat_eq ?_)
  rw [BitVec.toNat_ofNat]
  exact byte

section
variable {s u : State} {c : Fin 12} {p w : Nat} (sound : Sound u) (runs : Runs s u c p w)
include sound runs

theorem post_spec (hp : p < 16) (op : w >>> 56 = 0x73) (rd : bits w 55 51 = 0) (rs3 : bits w 45 40 = 0) (ring : wSEL w ≤ 15)
    (live : wSEL w ∉ [0, 1, 3]) (len8 : bits w 31 0 % 8 = 0) (least : 8 ≤ bits w 31 0) (most : bits w 31 0 ≤ 256)
    (aligned : u.x c (wRS1 w) % 8 = 0) (fits : u.x c (wRS1 w) + bits w 31 0 ≤ 2 ^ 42)
    (reach : u.scalarReach p (u.x c (wRS1 w)) (bits w 31 0) false = true) (answers : u.answers (u.x c (wRS1 w)) = true)
    (stq : (u.core c).stq = []) (room : (u.part p).staging.length < 8192) (clean : ∀ i, i < bits w 31 0 → Clean u (u.x c (wRS1 w) + i)) :
    ∃ t, exec (.axPost c) s = .next t ∧ t = { u with cores := t.cores, stks := t.stks, csr := t.csr, parts := t.parts } ∧
      t.csr = u.csr ∧ CoreResult u t c 0 0 ((u.core c).pc + 8) ∧
      t.part p = { u.part p with
        staging := (u.part p).staging ++ [⟨wSEL w, c.val, bytesOf (bits w 31 0) (readBytesOf u (u.x c (wRS1 w)) (bits w 31 0))⟩] } := by
  have wf := (sound_iff_wf u).1 sound
  have legal : (allZero [wRD w, bits w 45 40] && decide (wSEL w ≤ 15) && wIMM w % 8 == 0 && decide (8 ≤ wIMM w) &&
      decide (wIMM w ≤ 256)) = true := by
    simp [allZero, wRD, wIMM, rd, rs3, ring, len8, least, most]
  have run : exec (.axPost c) s = .next _ := axRow_word s u c 0x73 p w _ _ runs.1 runs.2 op legal
  dsimp only at run
  rw [show wIMM w = bits w 31 0 from rfl, scalarCheck_of_ok aligned fits reach answers] at run
  dsimp only at run
  rw [if_neg (by simpa using live), stq, List.isEmpty_nil, Bool.not_true, Bool.false_or, if_neg (by simpa using room),
    readBytes_of_clean_bytes u wf _ (by omega) clean] at run
  dsimp only at run
  generalize moved : u.traffic _ _ _ _ _ = v at run
  have frame : v = { u with stks := v.stks } := by rw [← moved, traffic_frame]
  have cores : v.cores = u.cores := by rw [frame]
  have parts : v.parts = u.parts := by rw [frame]
  have core : v.core c = u.core c := by rw [State.core, cores]; rfl
  have part : v.part p = u.part p := by rw [State.part, parts]; rfl
  have result := coreResult_setX_next_of (u := v) (c := c) (rd := 0) (by rw [cores]; exact core_in u c sound.1) 0
    (by rw [core]; exact length_x u c sound.1) (by decide)
  rw [core] at result
  rw [part] at run
  refine ⟨_, run, by rw [next_frame, State.setPart, frame], by rw [next_frame, State.setPart, frame], coreResult_of_cores result cores, ?_⟩
  exact part_setPart_same _ _ _ (by rw [parts, wf.parts]; exact hp)

theorem rdwin_spec (op : w >>> 56 = 0x74) (sources : bits w 50 40 = 0) (imm : bits w 31 0 = 0) (sel : wSEL w ≤ 2) :
    ∃ (t : State) (d : Int), exec (.axRdwin c) s = .next t ∧ -20 ≤ d ∧ d ≤ 20 ∧ t = { u with cores := t.cores, free := t.free } ∧
      CoreResult u t c (wRD w) (BitVec.ofInt 64 (u.winTime p (wSEL w) + d)) ((u.core c).pc + 8) := by
  have legal : (allZero [bits w 50 40, wIMM w] && decide (wSEL w ≤ 2)) = true := by
    rw [Bool.and_eq_true, allZero_iff, decide_eq_true_iff]
    exact ⟨by simp [wIMM, sources, imm], sel⟩
  have run : exec (.axRdwin c) s = .next _ := axRow_word s u c 0x74 p w _ _ runs.1 runs.2 op legal
  unfold State.freeBelow at run
  dsimp only at run
  have below : Config.freeNat u.free % 41 < 41 := Nat.mod_lt _ (by decide)
  rw [if_neg (show ¬ (41 = 0) by decide)] at run
  generalize Config.freeNat u.free % 41 = d at run below
  generalize advanced : ({ u with free := u.free + 1 } : State) = v at run
  have cores : v.cores = u.cores := by rw [← advanced]
  have core : v.core c = u.core c := by rw [State.core, cores]; rfl
  have time : v.winTime p (wSEL w) = u.winTime p (wSEL w) := by rw [← advanced]; rfl
  obtain ⟨x, dev, low, high⟩ : ∃ x : Int, (if wSEL w = 0 then (d : Int) - 20 else 20 - d) = x ∧ -20 ≤ x ∧ x ≤ 20 :=
    ⟨_, rfl, by split <;> omega, by split <;> omega⟩
  rw [time, dev] at run
  refine ⟨_, x, run, low, high, by rw [setX_next_frame, ← advanced], ?_⟩
  rw [← ofNat_ofSigned, ← core]
  exact coreResult_of_cores (coreResult_setX_next_of (by rw [cores]; exact core_in u c sound.1) _
    (by rw [core]; exact length_x u c sound.1) (wRD_lt w)) cores

end

/-- Settles O17: POST stages the bytes of memory that it reads, RDWIN the clock's time with a free deviation. -/
theorem postAndWindowTime : Obligations.PostAndWindowTime := by
  refine ⟨?post, ?rdwin⟩
  case post =>
    intro s u c p w sound runs hp op rd rs3 ring live n a len8 least most aligned fits reach answers stq room clean
    obtain ⟨t, run, frame, csr, core, part⟩ :=
      post_spec sound runs hp op rd rs3 ring live len8 least most aligned fits reach answers stq room clean
    exact ⟨t, _, run, frame, csr, core, part, length_bytesOf .., fun i hi => getElem?_bytesOf_readBytesOf u a hi⟩
  case rdwin =>
    intro s u c p w sound runs op sources imm sel
    exact rdwin_spec sound runs op sources imm sel

end Sys2Proof.Machine
end

section
/-! SUPPORT. A write of some bytes of one line at the point of coherence: no error stands in the line and no flip is armed on its stack
(R107, R108, R283, R290, R296). -/
namespace Sys2Proof.Machine
open Sys2Proof Sys2Proof.Spec

/-! ### Valid bits -/

theorem lineValid_setGranule {s : State} (wf : smWf Gran.empty s.gran = true) (g : Nat) (x : Gran) (l : Nat) :
    (s.setGranule g x).lineValid l =
      if l / 64 = g then x.valid.getLsbD (l % 64) != decide (2 ≤ metaFlips (smGet 0#3 s.metaFlip l)) else s.lineValid l := by
  unfold State.lineValid State.granule State.setGranule
  dsimp only
  split
  · rename_i here
    rw [here, smGet_smPut_same _ _ _ _ wf]
  · rename_i other
    rw [smGet_smPut_ne _ _ _ _ _ other]

/-- A granule replaced by one with the same valid bits. -/
theorem lineValid_setGranule_of_valid {s : State} (wf : smWf Gran.empty s.gran = true) {g : Nat} {x : Gran}
    (same : x.valid = (s.granule g).valid) (l : Nat) : (s.setGranule g x).lineValid l = s.lineValid l := by
  rw [lineValid_setGranule wf]
  split
  · rename_i here
    rw [same, ← here]
    rfl
  · rfl

/-- A line's bytes put in place: its valid bit set, its errors gone. -/
def State.lineStored (s : State) (ln : Nat) (m : SMap Byte) (f : SMap Line) : State :=
  ({ s with mem := m, ecc := smErase s.ecc ln, metaFlip := smErase s.metaFlip ln, flipped := f } : State).setGranule (ln / 64)
    { s.granule (ln / 64) with valid := (s.granule (ln / 64)).valid ||| BitVec.ofNat 64 (2 ^ (ln % 64)) }

theorem lineValid_lineStored {s : State} (wf : s.Wf) (ln : Nat) (m : SMap Byte) (f : SMap Line) (l : Nat) :
    (s.lineStored ln m f).lineValid l = (decide (l = ln) || s.lineValid l) := by
  have marked : ((s.granule (ln / 64)).valid ||| BitVec.ofNat 64 (2 ^ (ln % 64))).getLsbD (l % 64) =
      ((s.granule (ln / 64)).valid.getLsbD (l % 64) || decide (ln % 64 = l % 64)) := by
    rw [BitVec.getLsbD_or, BitVec.getLsbD_ofNat, Nat.testBit_two_pow, decide_eq_true (Nat.mod_lt l (by decide)), Bool.true_and]
  have stored := lineValid_setGranule
    (s := { s with mem := m, ecc := smErase s.ecc ln, metaFlip := smErase s.metaFlip ln, flipped := f }) wf.gran
  refine (stored _ _ l).trans ?_
  dsimp only
  rw [marked]
  by_cases here : l = ln
  · subst here
    rw [if_pos rfl, decide_eq_true rfl, decide_eq_true rfl, Bool.or_true, Bool.true_or, smGet,
      smFind_smErase_same _ _ _ (Bool.and_eq_true_iff.1 wf.metaFlip).1]
    rfl
  · have kept : smGet 0#3 (smErase s.metaFlip ln) l = smGet 0#3 s.metaFlip l := by rw [smGet, smGet, smFind_smErase_ne _ _ _ here]
    rw [decide_eq_false here, Bool.false_or]
    split
    · rename_i granule
      rw [decide_eq_false (by omega), Bool.or_false, kept, ← granule]
      rfl
    · unfold State.lineValid
      dsimp only
      rw [kept]
      rfl

/-! ### One line -/

/-- Nothing of a state changes but the store: the memory, what is held of its granules and lines, and the seals in progress. -/
def OnlyStore (s t : State) : Prop :=
  t = { s with mem := t.mem, gran := t.gran, ecc := t.ecc, metaFlip := t.metaFlip, flipped := t.flipped, sealing := t.sealing }

theorem OnlyStore.trans {s t u : State} (h : OnlyStore s t) (h' : OnlyStore t u) : OnlyStore s u := by
  unfold OnlyStore at *
  rw [h', h]

theorem flipData_of_unarmed {s : State} {t : Nat} (w : Who) (ln : Nat) (h : s.get Fld.STK_FLIP_CTRL.ARM_DATA t = 0) :
    s.flipData w t ln = s := by
  unfold State.flipData
  extract_lets
  rw [if_neg (by rw [is_eq_false h, Bool.false_and, Bool.false_and]; decide)]

/-- What is held of the flips of a line after some of its bytes are written. -/
def State.flipsLeft (s : State) (ln : Nat) (has : Nat → Bool) : SMap Line :=
  match smFind s.flipped ln with
  | none => s.flipped
  | some m => smPut 0#512 s.flipped ln (clearBytes has m)

/-- A write of a line that holds no error. -/
theorem writeLineWith_of_clean {s : State} (w : Who) {ln : Nat} (full : Bool) (has : Nat → Bool) (put : SMap Byte → SMap Byte)
    (data : onStack (64 * ln) = true) (clean : Clean s (64 * ln)) (unarmed : Unarmed s (64 * ln)) :
    s.writeLineWith w ln full has put =
      let v := (s.unread (ln / 64)).lineStored ln (put (if full || s.lineValid ln then s.mem else smPoke s.mem (64 * ln) 64 0))
        (s.flipsLeft ln has)
      let x := v.granule (ln / 64)
      if full then v.setGranule (ln / 64) { x with poison := x.poison &&& ~~~BitVec.ofNat 64 (2 ^ (ln % 64)) } else v := by
  have quiet : s.snoop w ln = s := by
    obtain ⟨-, bias⟩ := Bool.and_eq_true_iff.1 clean
    exact if_neg (by rw [beq_eq_false_iff_ne.2 (bne_iff_ne.1 bias), Bool.and_false]; decide)
  have line : 64 * ln / 64 = ln := by omega
  unfold Clean cleanAt intactAt at clean
  unfold Unarmed unarmedAt at unarmed
  unfold onStack at data
  unfold State.writeLineWith
  cases place : placeOf (64 * ln) with
  | data k o =>
    rw [place] at clean unarmed
    simp only [line, Bool.and_eq_true, Bool.not_eq_true', beq_iff_eq] at clean unarmed
    obtain ⟨⟨⟨poison, ecc⟩, -⟩, -⟩ := clean
    have still (v : State) (h : v.csr = s.csr) : v.flipData w k ln = v := flipData_of_unarmed w ln ((get_of_csr h ..).trans unarmed.1)
    dsimp only
    rw [quiet, ite_self]
    cases full with
    | true =>
      rw [if_pos rfl]
      exact still _ rfl
    | false =>
      rw [if_neg Bool.false_ne_true, if_neg Bool.false_ne_true, Bool.false_or]
      cases valid : s.lineValid ln with
      | true =>
        rw [show (s.unread (ln / 64)).lineValid ln = true from valid, show (s.unread (ln / 64)).linePoisoned ln = false from poison,
          show smGet 0#512 (s.unread (ln / 64)).ecc ln = 0#512 from ecc, maskSymbols_zero, Bool.not_true, if_neg Bool.false_ne_true,
          if_neg Bool.false_ne_true]
        exact still _ rfl
      | false =>
        rw [show (s.unread (ln / 64)).lineValid ln = false from valid, Bool.not_false, if_pos rfl]
        exact still _ rfl
  | _ => simp [place] at data

theorem writeLineWith_spec {s : State} (wf : s.Wf) (w : Who) {ln : Nat} (full : Bool) (has : Nat → Bool) (put : SMap Byte → SMap Byte)
    (data : onStack (64 * ln) = true) (clean : Clean s (64 * ln)) (unarmed : Unarmed s (64 * ln)) :
    let t := s.writeLineWith w ln full has put
    OnlyStore s t ∧ t.mem = put (if full || s.lineValid ln then s.mem else smPoke s.mem (64 * ln) 64 0) ∧
      ∀ l, t.lineValid l = (decide (l = ln) || s.lineValid l) := by
  rw [writeLineWith_of_clean w full has put data clean unarmed]
  dsimp only
  generalize put _ = m
  have stored := lineValid_lineStored (s := s.unread (ln / 64)) wf.unread ln m (s.flipsLeft ln has)
  have frame : OnlyStore s ((s.unread (ln / 64)).lineStored ln m (s.flipsLeft ln has)) := rfl
  have mem : ((s.unread (ln / 64)).lineStored ln m (s.flipsLeft ln has)).mem = m := rfl
  have sorted : smWf Gran.empty ((s.unread (ln / 64)).lineStored ln m (s.flipsLeft ln has)).gran = true := smWf_smPut _ _ _ _ wf.gran
  generalize (s.unread (ln / 64)).lineStored ln m (s.flipsLeft ln has) = v at stored frame mem sorted
  cases full with
  | false =>
    rw [if_neg Bool.false_ne_true]
    exact ⟨frame, mem, stored⟩
  | true =>
    rw [if_pos rfl]
    refine ⟨frame.trans rfl, mem, fun l => ?_⟩
    rw [lineValid_setGranule_of_valid sorted, stored]
    · rfl
    · rfl

/-- Outside the stacks' data a write of a line is one of memory alone. -/
theorem writeLineWith_of_not_onStack {s : State} (w : Who) {ln : Nat} (full : Bool) (has : Nat → Bool) (put : SMap Byte → SMap Byte)
    (other : onStack (64 * ln) = false) : s.writeLineWith w ln full has put = { s with mem := put s.mem } := by
  unfold State.writeLineWith
  cases place : placeOf (64 * ln) with
  | data t o => simp [onStack, place] at other
  | _ => rfl

/-! ### Bytes within a line -/

/-- Bytes written: n bytes from a read as those of v, every other byte as before, and the line is valid. -/
structure BytesWritten (s t : State) (a n v : Nat) : Prop where
  inside : ∀ i, i < n → readByte t (a + i) = BitVec.ofNat 8 (v / 256 ^ i)
  outside : ∀ b, b < a ∨ a + n ≤ b → readByte t b = readByte s b
  valid : onStack a = true → t.lineValid (a / 64) = true

/-- A state with the same bytes and valid bits reads the same. -/
theorem readByte_congr {s t : State} (mem : t.mem = s.mem) (valid : ∀ l, t.lineValid l = s.lineValid l) (b : Nat) :
    readByte t b = readByte s b := by
  rw [readByte_eq, readByte_eq, mem, valid]

theorem BytesWritten.congr {s t u : State} {a n v : Nat} (h : BytesWritten s t a n v) (mem : u.mem = t.mem)
    (valid : ∀ l, u.lineValid l = t.lineValid l) : BytesWritten s u a n v where
  inside i hi := (readByte_congr mem valid _).trans (h.inside i hi)
  outside b hb := (readByte_congr mem valid _).trans (h.outside b hb)
  valid data := (valid _).trans (h.valid data)

/-- The low bytes of a number have the number's bytes. -/
theorem byte_mod_pow (v : Nat) {n i : Nat} (h : i < n) : BitVec.ofNat 8 (v % 2 ^ (8 * n) / 256 ^ i) = BitVec.ofNat 8 (v / 256 ^ i) := by
  refine BitVec.eq_of_toNat_eq ?_
  obtain ⟨k, rfl⟩ := Nat.exists_eq_add_of_lt h
  rw [BitVec.toNat_ofNat, BitVec.toNat_ofNat, two_pow_eight_mul, Nat.add_assoc, Nat.pow_add, Nat.mod_mul_right_div_self]
  exact Nat.mod_mod_of_dvd _ (Dvd.intro_left (256 ^ k) (Nat.pow_succ ..).symm)

/-- The bytes above those written do not matter. -/
theorem BytesWritten.of_mod {s t : State} {a n v : Nat} (h : BytesWritten s t a n (v % 2 ^ (8 * n))) : BytesWritten s t a n v :=
  { h with inside := fun i hi => (h.inside i hi).trans (byte_mod_pow v hi) }

theorem onStack_of_line {a b : Nat} (h : a / 64 = b / 64) : onStack a = onStack b := by rw [onStack_lineOf a, onStack_lineOf b, h]

/-- Bytes put in a line of which every other byte is in memory as it reads. -/
theorem bytesWritten_of_line {s t : State} {a n v : Nat} {m : SMap Byte} (fits : a % 64 + n ≤ 64) (mem : t.mem = smPoke m a n v)
    (rest : ∀ b, b < a ∨ a + n ≤ b → byteAt m b = if onStack b = true ∧ b / 64 = a / 64 then readByte s b else byteAt s.mem b)
    (valid : ∀ l, t.lineValid l = (onStack a && decide (l = a / 64) || s.lineValid l)) : BytesWritten s t a n v where
  inside i hi := by
    have line : (a + i) / 64 = a / 64 := by omega
    have seen : (onStack a && !t.lineValid (a / 64)) = false := by
      rw [valid, decide_eq_true rfl]
      cases onStack a <;> rfl
    rw [readByte_eq, onStack_of_line line, line, seen, if_neg Bool.false_ne_true, mem]
    exact smGet_smPoke_in _ _ _ _ _ hi
  outside b hb := by
    have byte : byteAt t.mem b = byteAt m b := by
      rw [mem]
      exact smGet_smPoke_out _ _ _ _ _ hb
    rw [readByte_eq t, byte, rest b hb, valid]
    by_cases here : b / 64 = a / 64
    · rw [decide_eq_true here, Bool.and_true, onStack_of_line here]
      cases data : onStack a with
      | true => rw [Bool.true_or, Bool.not_true, Bool.and_false, if_neg Bool.false_ne_true, if_pos ⟨rfl, here⟩]
      | false => simp [readByte_eq s, onStack_of_line here, data]
    · simp [here, readByte_eq s]
  valid data := by rw [valid, data, decide_eq_true rfl]; rfl

theorem unarmedAt_eq (s : State) (a : Nat) : unarmedAt s a =
    (!onStack a || (s.get Fld.STK_FLIP_CTRL.ARM_DATA (a / stackSpan) == 0 && s.get Fld.STK_FLIP_CTRL.ARM_CSUM (a / stackSpan) == 0)) := by
  unfold unarmedAt onStack
  cases place : placeOf a with
  | data t o =>
    have stack : t = a / stackSpan := by
      unfold placeOf at place
      extract_lets u r at place
      split_ifs at place
      exact (Place.data.inj place).1.symm
    rw [stack]
    rfl
  | _ => rfl

theorem unarmedAt_of_line (s : State) {a b : Nat} (h : a / 64 = b / 64) : unarmedAt s a = unarmedAt s b := by
  have stack : a / stackSpan = b / stackSpan := by
    have span : stackSpan = 0x1800000000 := rfl
    rw [span]
    omega
  rw [unarmedAt_eq, unarmedAt_eq, onStack_of_line h, stack]

section
variable {s : State} (wf : s.Wf) (w : Who) {a n : Nat} (v : Nat) (fits : a % 64 + n ≤ 64) (clean : Clean s a) (unarmed : Unarmed s a)
include wf fits clean unarmed

theorem writeLineWith_bytes {full : Bool} (has : Nat → Bool) (whole : full = true → a % 64 = 0 ∧ n = 64) :
    let t := s.writeLineWith w (a / 64) full has fun m => smPoke m a n v
    OnlyStore s t ∧ BytesWritten s t a n v := by
  have start : 64 * (a / 64) / 64 = a / 64 := by omega
  have start' := onStack_of_line start
  cases data : onStack a with
  | true =>
    obtain ⟨frame, mem, valid⟩ := writeLineWith_spec wf w full has (fun m => smPoke m a n v) (start'.trans data)
      ((cleanAt_of_line s start).trans clean) ((unarmedAt_of_line s start).trans unarmed)
    refine ⟨frame, bytesWritten_of_line fits mem (fun b hb => ?_) (by rw [data]; exact valid)⟩
    by_cases here : b / 64 = a / 64
    · have partly : full = false := Bool.eq_false_iff.2 fun h => by have := whole h; omega
      have inLine : onStack b = true ∧ b / 64 = a / 64 := ⟨(onStack_of_line here).trans data, here⟩
      rw [partly, Bool.false_or, if_pos inLine, readByte_eq, here, inLine.1]
      cases s.lineValid (a / 64) with
      | true => rfl
      | false =>
        have zero := smGet_smPoke_in s.mem (64 * (a / 64)) 64 0 (b % 64) (Nat.mod_lt _ (by decide))
        rw [show 64 * (a / 64) + b % 64 = b by omega, Nat.zero_div] at zero
        exact zero
    · have otherLine : ¬ (onStack b = true ∧ b / 64 = a / 64) := fun h => here h.2
      rw [if_neg otherLine]
      split
      · rfl
      · exact smGet_smPoke_out _ _ _ _ _ (by omega)
  | false =>
    rw [writeLineWith_of_not_onStack w full has _ (start'.trans data)]
    refine ⟨rfl, bytesWritten_of_line fits rfl (fun b hb => ?_) (by rw [data]; exact fun _ => rfl)⟩
    have other : ¬ (onStack b = true ∧ b / 64 = a / 64) := fun h => by simp [← onStack_of_line h.2, h.1] at data
    rw [if_neg other]

theorem writeRaw_spec (pos : 0 < n) : OnlyStore s (s.writeRaw w a n v) ∧ BytesWritten s (s.writeRaw w a n v) a n v := by
  have single : s.writeRaw w a n v = s.writeLinePart w (a / 64) (a % 64) n (v % 2 ^ (8 * n)) := by
    unfold State.writeRaw
    rw [if_neg (by omega)]
    dsimp only
    rw [show (a + n - 1) / 64 - a / 64 + 1 = 1 by omega]
    change State.writeLinePart s w (a / 64) (Nat.max a (64 * (a / 64)) - 64 * (a / 64)) _ _ = _
    have lo : Nat.max a (64 * (a / 64)) = a := Nat.max_eq_left (by omega)
    have hi : Nat.min (a + n) (64 * (a / 64) + 64) = a + n := Nat.min_eq_left (by omega)
    rw [lo, hi, Nat.sub_self, Nat.mul_zero, Nat.shiftRight_zero, show a - 64 * (a / 64) = a % 64 by omega, Nat.add_sub_cancel_left]
  rw [single]
  unfold State.writeLinePart
  rw [show 64 * (a / 64) + a % 64 = a by omega]
  obtain ⟨frame, bytes⟩ := writeLineWith_bytes wf w (v % 2 ^ (8 * n)) fits clean unarmed
    (full := decide (a % 64 = 0) && decide (n = 64)) (fun i => decide (a % 64 ≤ i) && decide (i < a % 64 + n)) (by simp)
  exact ⟨frame, bytes.of_mod⟩

end

end Sys2Proof.Machine
end

section
/-! SUPPORT. A write of a core at the point of coherence: the granule left open, the request at the stack, and the core's read cache
(R87, R108, R209, R283). -/
namespace Sys2Proof.Machine
open Sys2Proof Sys2Proof.Spec

theorem onStack_of_granule {a b : Nat} (h : a / 4096 = b / 4096) : onStack a = onStack b := by
  have span : stackSpan = 0x1800000000 := rfl
  have data : stackData = 0x17FA000000 := rfl
  rw [Bool.eq_iff_iff, onStack_iff, onStack_iff, span, data]
  omega

theorem openGranule_of_onStack {s : State} {g : Nat} (data : onStack (4096 * g) = true) :
    s.openGranule g = s.setGranule g { s.granule g with state := .opened } := by
  unfold onStack at data
  unfold State.openGranule
  split at data
  next => rfl
  next => cases data

theorem openGranule_of_not_onStack {s : State} {g : Nat} (other : onStack (4096 * g) = false) : s.openGranule g = s := by
  unfold State.openGranule
  cases place : placeOf (4096 * g) with
  | data t o => simp [onStack, place] at other
  | _ => rfl

/-- A granule opened: its bytes read as before. -/
theorem openGranule_spec {s : State} (wf : smWf Gran.empty s.gran = true) (g : Nat) :
    let t := s.openGranule g
    OnlyStore s t ∧ t.mem = s.mem ∧ (∀ l, t.lineValid l = s.lineValid l) ∧
      (onStack (4096 * g) = true → (t.granule g).state = .opened) := by
  cases data : onStack (4096 * g) with
  | true =>
    rw [openGranule_of_onStack data]
    refine ⟨rfl, rfl, fun l => ?_, fun _ => ?_⟩
    · rw [lineValid_setGranule_of_valid wf]
      rfl
    · unfold State.granule State.setGranule
      dsimp only
      rw [smGet_smPut_same _ _ _ _ wf]
  | false =>
    rw [openGranule_of_not_onStack data]
    exact ⟨rfl, rfl, fun _ => rfl, nofun⟩

/-- What a write of core c leaves: its bytes, and of the rest requests at the stacks and the core's read cache. -/
structure CoreWrote (s t : State) (c : Fin 12) (a n v : Nat) : Prop where
  frame : t = { s with cores := t.cores, stks := t.stks, mem := t.mem, gran := t.gran, ecc := t.ecc, metaFlip := t.metaFlip,
                       flipped := t.flipped, sealing := t.sealing }
  others : ∀ d, d ≠ c.val → t.core d = s.core d
  core : t.core c = { s.core c with rc := (t.core c).rc }
  bytes : BytesWritten s t a n v
  opened : onStack a = true → (t.granule (a / 4096)).state = .opened

section
variable {s : State} (wf : s.Wf) (w : Who) {a n : Nat} (v : Nat) (pos : 0 < n) (fits : a % 64 + n ≤ 64)
  (clean : Clean s a) (unarmed : Unarmed s a)
include wf pos fits clean unarmed

theorem writeOpen_spec :
    let t := s.writeOpen w a n v
    OnlyStore s t ∧ BytesWritten s t a n v ∧ (onStack a = true → (t.granule (a / 4096)).state = .opened) := by
  have single : s.writeOpen w a n v = (s.writeRaw w a n v).openGranule (a / 4096) := by
    unfold State.writeOpen
    rw [if_neg (by omega)]
    dsimp only
    rw [show (a + n - 1) / 4096 - a / 4096 + 1 = 1 by omega]
    rfl
  obtain ⟨frame, bytes⟩ := writeRaw_spec wf w v fits clean unarmed pos
  obtain ⟨frame', mem, valid, opened⟩ := openGranule_spec (State.Wf.writeRaw (w := w) (a := a) (n := n) (v := v) wf).gran (a / 4096)
  rw [single]
  exact ⟨frame.trans frame', bytes.congr mem valid, fun data => opened ((onStack_of_granule (by omega)).trans data)⟩

theorem coreWrite_spec (c : Fin 12) : CoreWrote s (s.coreWrite w c a n v) c a n v := by
  obtain ⟨frame, bytes, opened⟩ := writeOpen_spec wf w v pos fits clean unarmed
  unfold State.coreWrite
  dsimp only
  generalize s.writeOpen w a n v = t at frame bytes opened
  generalize moved : t.traffic _ _ _ _ _ = u
  have frame' : u = { t with stks := u.stks } := by rw [← moved, traffic_frame]
  have core (d : Nat) : u.core d = s.core d := by rw [frame', frame]; rfl
  have room : c.val < u.cores.length := by
    rw [frame', frame]
    change c.val < s.cores.length
    rw [wf.cores]
    exact c.isLt
  have granule (g : Nat) : u.granule g = t.granule g := by rw [frame']; rfl
  have valid (l : Nat) : u.lineValid l = t.lineValid l := by rw [frame']; rfl
  have mem : u.mem = t.mem := by rw [frame']
  unfold State.updateCache
  refine ⟨?_, fun d hd => (core_setCore_ne _ _ _ _ hd).trans (core d), ?_, bytes.congr mem valid,
    fun data => (congrArg _ (granule _)).trans (opened data)⟩
  · rw [State.setCore, frame', frame]
  · rw [core_setCore_same _ _ _ room, core]

end

end Sys2Proof.Machine
end

section
/-! SUPPORT. O12: stores enter the queue of their core and drain from it (R106, R108, R109, R268). -/
namespace Sys2Proof.Machine
open Sys2Proof Sys2Proof.Spec

theorem onStack_of_place {a t o : Nat} (place : placeOf a = .data t o) : onStack a = true := by rw [onStack, place]

theorem st_spec {s u : State} {c : Fin 12} {p w : Nat} (sound : Sound u) (runs : Runs s u c p w) (op : w >>> 56 = 0x42) (rd : bits w 55 51 = 0)
    (rs3 : bits w 40 36 = 0) (ord : wORD w = 0 ∨ wORD w = 2 ∧ u.fullDone c = true) (access : AccessOk u p (mAddr u c w) (wBytes w) true)
    (room : (u.core c).stq.length < 16) :
    ∃ t, exec (.axSt c) s = .next t ∧ OnlyCore u t c { u.core c with
      pc := (u.core c).pc + 8
      stq := (u.core c).stq ++ [⟨(u.core c).pc, mAddr u c w, wBytes w, u.x c (wRS2 w) % 256 ^ wBytes w⟩] } := by
  obtain ⟨aligned, fits, reach, answers⟩ := access
  have legal : (allZero [wRD w, wRS3 w] && (wORD w == 0 || wORD w == 2)) = true := by
    rw [Bool.and_eq_true, allZero_iff, Bool.or_eq_true, beq_iff_eq, beq_iff_eq]
    exact ⟨by simp [wRD, wRS3, rd, rs3], ord.imp_right And.left⟩
  have run : exec (.axSt c) s = .next _ := axRow_word s u c 0x42 p w _ _ runs.1 runs.2 op legal
  have free : (decide (16 ≤ (u.core c).stq.length) || wORD w == 2 && !u.fullDone c) = false := by
    rw [decide_eq_false (Nat.not_le.2 room)]
    rcases ord with plain | ⟨-, done⟩
    · rw [plain]
      rfl
    · rw [done, Bool.not_true, Bool.and_false]
      rfl
  dsimp only at run
  rw [memAddr_eq_mAddr, scalarCheck_of_ok aligned fits reach answers] at run
  dsimp only at run
  rw [free, if_neg Bool.false_ne_true, two_pow_eight_mul] at run
  exact ⟨_, run, enterStore_spec u sound c _ _ _⟩

/-! ### Which store goes first -/

theorem mem_nextStores {k : CoreSt} {i : Nat} :
    i ∈ k.nextStores ↔ ∃ e, k.stq[i]? = some e ∧ ∀ x ∈ k.stq.take i, destOf x.addr ≠ destOf e.addr := by
  unfold CoreSt.nextStores
  rw [List.mem_filter, mem_upFrom, Nat.zero_add]
  cases entry : k.stq[i]? with
  | none => simp
  | some e =>
    have inside := (List.getElem?_eq_some_iff.1 entry).1
    simp [inside]

/-- The oldest store of all may always go. -/
theorem nextStores_ne_nil {k : CoreSt} (some : k.stq ≠ []) : k.nextStores ≠ [] := by
  obtain ⟨e, q, queue⟩ := List.exists_cons_of_ne_nil some
  exact List.ne_nil_of_mem (mem_nextStores.2 ⟨e, by rw [queue]; rfl, by simp⟩ : 0 ∈ k.nextStores)

/-- A free choice among the members of a list. -/
theorem freePick_spec (s : State) {l : List Nat} (some : l ≠ []) :
    ∃ j f, (if l.length ≤ 1 then (0, s) else s.freeBelow l.length) = (j, { s with free := f }) ∧ nth 0 l j ∈ l := by
  have pos := List.length_pos_iff.2 some
  have member {j : Nat} (h : j < l.length) : nth 0 l j ∈ l := by
    rw [nth, List.getElem?_eq_getElem h]
    exact List.getElem_mem h
  split
  · exact ⟨0, s.free, rfl, member pos⟩
  · exact ⟨_, s.free + 1, rfl, member (by rw [if_neg pos.ne']; exact Nat.mod_lt _ pos)⟩

/-! ### A store performed -/

theorem drain_spec {s : State} {c : Fin 12} {p : Nat} (sound : Sound s) (part : s.partOf c = some p) (queued : (s.core c).stq ≠ [])
    (good : ∀ e ∈ (s.core c).stq,
      s.answers e.addr = true ∧ 0 < e.size ∧ e.addr % e.size = 0 ∧ e.size ∣ 64 ∧ Clean s e.addr ∧ Unarmed s e.addr) :
    ∃ f i e, (s.core c).stq[i]? = some e ∧ (∀ x ∈ (s.core c).stq.take i, destOf x.addr ≠ destOf e.addr) ∧
      ∃ t, exec (.storeQueueDrain c) s = .next t ∧
        CoreWrote (({ s with free := f } : State).setCore c { s.core c with stq := (s.core c).stq.eraseIdx i }) t c e.addr e.size e.data := by
  obtain ⟨j, f, pick, member⟩ := freePick_spec s (nextStores_ne_nil queued)
  obtain ⟨e, entry, oldest⟩ := mem_nextStores.1 member
  refine ⟨f, _, e, entry, oldest, ?_⟩
  obtain ⟨answers, pos, aligned, divides, clean, unarmed⟩ := good e (List.mem_of_getElem? entry)
  have wf := (sound_iff_wf s).1 sound
  have run : exec (.storeQueueDrain c) s = execStoreQueueDrain c s := rfl
  unfold execStoreQueueDrain at run
  dsimp only at run
  rw [pick] at run
  dsimp only at run
  rw [entry, show State.partOf { s with free := f } c = some p from part] at run
  refine ⟨_, run, ?_⟩
  generalize nth 0 (s.core c).nextStores j = i
  have wf' : (({ s with free := f } : State).setCore c { s.core c with stq := (s.core c).stq.eraseIdx i }).Wf :=
    .setCore { wf with } { wf.core with }
  unfold State.performStore
  rw [if_pos (by exact answers)]
  exact coreWrite_spec wf' _ e.data pos (within_line divides aligned) clean unarmed c

/-- Settles O12: a store enters its core's queue; one that drains is a write of its core at the point of coherence. -/
theorem storesEnterTheQueueAndDrain : Obligations.StoresEnterTheQueueAndDrain := by
  refine ⟨?enter, ?drain⟩
  case enter =>
    intro s u c p w sound runs op rd rs3 ord n a access room
    exact st_spec sound runs op rd rs3 ord access room
  case drain =>
    intro s c p sound part queued good
    obtain ⟨f, i, e, entry, oldest, t, run, wrote⟩ := drain_spec sound part queued good
    have room : c.val < s.cores.length := core_in s c sound.1
    refine ⟨t, i, e, run, entry, oldest, by rw [wrote.frame]; rfl, ?_, ?_, ?_, ?_, ?_⟩
    · exact fun d hd => (wrote.others d hd).trans (core_setCore_ne _ _ _ _ hd)
    · have removed : (({ s with free := f } : State).setCore c { s.core c with stq := (s.core c).stq.eraseIdx i }).core c =
          { s.core c with stq := (s.core c).stq.eraseIdx i } := core_setCore_same _ _ _ room
      exact wrote.core.trans (by rw [removed])
    · intro i hi
      rw [wrote.bytes.inside i hi]
      rfl
    · exact wrote.bytes.outside
    · exact fun st o place => ⟨wrote.opened (onStack_of_place place), wrote.bytes.valid (onStack_of_place place)⟩

end Sys2Proof.Machine
end

section
/-! SUPPORT. O13: atomics (R105, R110, R116, R117). -/
namespace Sys2Proof.Machine
open Sys2Proof Sys2Proof.Spec

/-- An entry of the table of atomics is what its command computes: its operation, on numbers, and whether it compares. -/
def ComputesAtomic (e : Nat × (Fin 12 → Instr) × (Word → Word → Word → Word)) : Prop :=
  ∃ cas f, (∀ c s, exec (e.2.1 c) s = s.axAtomic c e.1 cas f) ∧ (cas = false → e.1 ≠ 0x45) ∧
    ∀ o a b : Word, f o.toNat a.toNat b.toNat % 2 ^ 64 = (e.2.2 o a b).toNat

theorem computesAtomic_of_mem :
    ∀ e ∈ [(0x43, Instr.axAmoadd, fun (o a _ : Word) => o + a), (0x44, Instr.axAmoswap, fun (_ a _ : Word) => a),
    (0x45, Instr.axAmocas, fun (o a b : Word) => if o = b then a else o)], ComputesAtomic e := by
  simp only [List.forall_mem_cons, List.not_mem_nil, false_imp_iff, implies_true, and_true]
  refine ⟨?add, ?swap, ?cas⟩
  case add => exact ⟨false, fun o a _ => o + a, fun _ _ => rfl, fun _ => by decide, fun o a _ => (BitVec.toNat_add o a).symm⟩
  case swap => exact ⟨false, fun _ a _ => a, fun _ _ => rfl, fun _ => by decide, fun _ a _ => Nat.mod_eq_of_lt a.isLt⟩
  case cas =>
    refine ⟨true, fun o a b => if o = b then a else o, fun _ _ => rfl, nofun, fun o a b => ?_⟩
    simp only [← BitVec.toNat_inj]
    split
    · exact Nat.mod_eq_of_lt a.isLt
    · exact Nat.mod_eq_of_lt o.isLt

/-- Bytes written are read back as the number they spell. -/
theorem BytesWritten.readBytesOf {s t : State} {a n v : Nat} (h : BytesWritten s t a n v) (hv : v < 256 ^ n) : readBytesOf t a n = v := by
  rw [readBytesOf_eq, Finset.sum_congr rfl fun i hi => by rw [h.inside i (Finset.mem_range.1 hi)]]
  exact (sum_bytes v n).trans (Nat.mod_eq_of_lt hv)

theorem BytesWritten.of_frame {s t u : State} {a n v : Nat} (h : BytesWritten s t a n v) (frame : u = { t with cores := u.cores }) :
    BytesWritten s u a n v :=
  h.congr (by rw [frame]) fun l => by rw [frame]; rfl

/-- A request at a stack before a write. -/
theorem CoreWrote.of_requests {s t u : State} {c : Fin 12} {a n v : Nat} (frame : t = { s with stks := t.stks }) (h : CoreWrote t u c a n v) :
    CoreWrote s u c a n v where
  frame := by rw [h.frame, frame]
  others d hd := (h.others d hd).trans (by rw [frame]; rfl)
  core := h.core.trans (by rw [frame]; rfl)
  bytes := { h.bytes with outside := fun b hb => (h.bytes.outside b hb).trans (readByte_congr (by rw [frame]) (fun l => by rw [frame]; rfl) b) }
  opened := h.opened

/-- The read cache emptied after a write of its core. -/
theorem CoreWrote.invalidate {s t : State} {c : Fin 12} {a n v : Nat} (h : CoreWrote s t c a n v) (room : c.val < t.cores.length) :
    CoreWrote s (t.invalidate c) c a n v where
  frame := by rw [State.invalidate, State.setCore, h.frame]
  others d hd := (core_setCore_ne _ _ _ _ hd).trans (h.others d hd)
  core := by rw [State.invalidate, core_setCore_same _ _ _ room, h.core]
  bytes := h.bytes.of_frame rfl
  opened := h.opened

section
variable {s u : State} {c : Fin 12} {p w : Nat} (sound : Sound u) (runs : Runs s u c p w)
include sound runs

theorem atomic_spec {i : Instr} {op : Nat} {cas : Bool} {f : Nat → Nat → Nat → Nat}
    (row : exec i s = s.axAtomic c op cas f) (hop : w >>> 56 = op)
    (rs3 : cas = false → wRS3 w = 0) (size : wBytes w = 8) (ord : wORD w ≠ 1) (access : AccessOk u p (mAddr u c w) 8 true)
    (stq : (u.core c).stq = []) (release : wORD w = 3 → u.fullDone c = true) (clean : Clean u (mAddr u c w))
    (unarmed : Unarmed u (mAddr u c w)) :
    ∃ v, Sound v ∧ CoreWrote u v c (mAddr u c w) 8 (f (readBytesOf u (mAddr u c w) 8) (u.x c (wRS2 w)) (u.x c (wRS3 w)) % 2 ^ 64) ∧
      (2 ≤ wORD w → (v.core c).rc = []) ∧ exec i s = .next ((v.setX c (wRD w) (readBytesOf u (mAddr u c w) 8)).next c) := by
  obtain ⟨aligned, fits, reach, answers⟩ := access
  have legal : ((cas || wRS3 w == 0) && wBytes w == 8 && wORD w != 1) = true := by
    rw [size, bne_iff_ne.2 ord]
    cases cas with
    | true => rfl
    | false => rw [rs3 rfl]; rfl
  have run : exec i s = .next _ := row.trans (axRow_word s u c op p w _ _ runs.1 runs.2 hop legal)
  have free : (!(u.core c).stq.isEmpty || wORD w == 3 && !u.fullDone c) = false := by
    rw [stq, List.isEmpty_nil, Bool.not_true, Bool.false_or, Bool.and_eq_false_iff, beq_eq_false_iff_ne, Bool.not_eq_false']
    exact (em (wORD w = 3)).symm.imp_right release
  have wf := (sound_iff_wf u).1 sound
  have line : mAddr u c w % 64 + 8 ≤ 64 := within_line (by decide) aligned
  dsimp only at run
  rw [memAddr_eq_mAddr, scalarCheck_of_ok aligned fits reach answers] at run
  dsimp only at run
  have load := loadVolatile_of_clean_bytes u wf c p (a := mAddr u c w) (n := 8) (by decide) fun i hi =>
    (cleanAt_of_line u (by omega)).trans clean
  rw [free, if_neg Bool.false_ne_true, load] at run
  dsimp only at run
  have frame := traffic_frame u (scalarWho c p) false false (mAddr u c w / 64 * 64) 64
  have wf' := State.Wf.traffic (w := scalarWho c p) (inStack := false) (write := false) (a := mAddr u c w / 64 * 64) (n := 64) wf
  generalize u.traffic (scalarWho c p) false false (mAddr u c w / 64 * 64) 64 = t at run frame wf'
  have x (r : Nat) : t.x c r = u.x c r := by rw [frame]; rfl
  rw [x, x] at run
  generalize f (readBytesOf u (mAddr u c w) 8) (u.x c (wRS2 w)) (u.x c (wRS3 w)) % 2 ^ 64 = y at run ⊢
  have wrote := (coreWrite_spec wf' (scalarWho c p) y (by decide) line (show cleanAt t _ = true by rw [frame]; exact clean)
    (show unarmedAt t _ = true by rw [frame]; exact unarmed) c).of_requests frame
  have sound' : Sound (t.coreWrite (scalarWho c p) c (mAddr u c w) 8 y) := (sound_iff_wf _).2 (.coreWrite wf')
  generalize t.coreWrite (scalarWho c p) c (mAddr u c w) 8 y = v at run wrote sound'
  have room := core_in v c sound'.1
  by_cases acquire : 2 ≤ wORD w
  · rw [if_pos acquire] at run
    refine ⟨_, (sound_iff_wf _).2 (.invalidate ((sound_iff_wf v).1 sound')), wrote.invalidate room, fun _ => ?_, run⟩
    rw [State.invalidate, core_setCore_same _ _ _ room]
  · rw [if_neg acquire] at run
    exact ⟨v, sound', wrote, fun h => absurd h acquire, run⟩

end

/-- Settles O13: an atomic is a volatile load, a write of its core at the point of coherence, and RD written. -/
theorem atomics : Obligations.Atomics := by
  intro e he s u c p w sound runs op rs3 size ord a access stq release clean unarmed old
  obtain ⟨cas, f, row, plain, computes⟩ := computesAtomic_of_mem e he
  obtain ⟨v, sound', wrote, emptied, run⟩ :=
    atomic_spec sound runs (row c s) op (fun h => rs3 (plain h)) size ord access stq release clean unarmed
  have oldNat : old.toNat = readBytesOf u a 8 := by
    rw [BitVec.toNat_ofNat]
    exact Nat.mod_eq_of_lt ((readBytesOf_lt u a 8).trans_eq (two_pow_eight_mul 8).symm)
  obtain ⟨others, core, regs⟩ := coreResult_setX_next v c (wRD w) (readBytesOf u a 8) sound' (wRD_lt w)
  have frame := setX_next_frame v c (wRD w) (readBytesOf u a 8)
  have value : f (readBytesOf u a 8) (u.x c (wRS2 w)) (u.x c (wRS3 w)) % 2 ^ 64 = (e.2.2 old (xw u c (wRS2 w)) (xw u c (wRS3 w))).toNat := by
    rw [← computes, oldNat, toNat_xw, toNat_xw]
  have bytes := wrote.bytes.of_frame frame
  have kept : (((v.setX c (wRD w) (readBytesOf u a 8)).next c).core c).rc = (v.core c).rc := by rw [core]
  refine ⟨_, run, ?_, fun d hd => (others d hd).trans (wrote.others d hd), ?_, fun h => kept.trans (emptied h), fun r => (regs r).trans ?_,
    ?_, bytes.outside, fun st o place => ?_⟩
  · rw [frame, wrote.frame]
  · rw [kept]
    exact core.trans (by rw [wrote.core])
  · rw [State.x, wrote.core]
    rfl
  · rw [← value]
    exact bytes.readBytesOf (Nat.mod_lt _ (by decide))
  · rw [frame]
    exact wrote.opened (onStack_of_place place)

end Sys2Proof.Machine
end
